-- ==== Sys2Proof/Word.lean ====
section
/-! DEFINITION. The word types of the FX9 (spec/00_scope.md R1, spec/02_encodings.md R17, R27, R30). -/

namespace Sys2Proof

/-- One byte of memory. -/
abbrev Byte := BitVec 8

/-- A tile-controller word (R17). -/
abbrev Word128 := BitVec 128

/-- An engine command word (R27), and the width of a scalar register (R22). -/
abbrev Word64 := BitVec 64

/-- An element move word (R30), and the width of a lane (R39). -/
abbrev Word32 := BitVec 32

/-- A data item of a channel (R70): 16 lanes, lane l in bits [32l+31 : 32l]. -/
abbrev Item := BitVec 512

/-- A vector register (R168): 32 lanes, lane i in bits [32i+31 : 32i]. -/
abbrev VReg := BitVec 1024

end Sys2Proof
end

