-- ==== Sys2Proof/Machine/Tab.lean ====
section
/-! DEFINITION. Sparse tables and byte memories as plain lists in one canonical form: keys strictly
rising. A key that is not listed reads as the default the reader gives. -/

namespace Sys2Proof.Machine

/-- A sparse table: pairs of key and value, keys strictly rising. -/
abbrev Tab (α : Type) := List (Nat × α)

/-- The listed value of a key. -/
def Tab.find? {α : Type} : Tab α → Nat → Option α
  | [], _ => none
  | (k, v) :: t, n => if n = k then some v else Tab.find? t n

/-- The value of a key, or the default where it is not listed. -/
def Tab.get {α : Type} (dflt : α) (t : Tab α) (n : Nat) : α :=
  (Tab.find? t n).getD dflt

/-- The table with one key set. -/
def Tab.set {α : Type} : Tab α → Nat → α → Tab α
  | [], n, v => [(n, v)]
  | (k, w) :: t, n, v =>
    if n < k then (n, v) :: (k, w) :: t
    else if n = k then (n, v) :: t
    else (k, w) :: Tab.set t n v

/-- The table without a key. -/
def Tab.erase {α : Type} : Tab α → Nat → Tab α
  | [], _ => []
  | (k, w) :: t, n => if n = k then t else (k, w) :: Tab.erase t n

/-- The table with one key changed by a function of what it reads as. -/
def Tab.modify {α : Type} (dflt : α) (t : Tab α) (n : Nat) (f : α → α) : Tab α :=
  Tab.set t n (f (Tab.get dflt t n))

/-- Every listed value changed by a function of its key and itself. -/
def Tab.mapAll {α : Type} (f : Nat → α → α) (t : Tab α) : Tab α :=
  t.map fun kv => (kv.1, f kv.1 kv.2)

/-- The listed keys whose value meets a condition. -/
def Tab.keysWhere {α : Type} (t : Tab α) (p : Nat → α → Bool) : List Nat :=
  (t.filter fun kv => p kv.1 kv.2).map Prod.fst

/-- Keys strictly above a bound and rising. -/
def Tab.risingFrom {α : Type} : Nat → Tab α → Bool
  | _, [] => true
  | lo, (k, _) :: t => lo ≤ k && Tab.risingFrom (k + 1) t

/-- The canonical form of a table: keys strictly rising. -/
def Tab.wf {α : Type} (t : Tab α) : Bool := Tab.risingFrom 0 t

/-- A byte memory: the listed cells, addresses strictly rising, none equal to what an unlisted address
reads as. -/
abbrev Memory := List Host.Cell

/-- What a byte that nothing has written reads as: every SRAM is cleared in boot (R400); for HBM and host
memory 0 is the model's choice. DESIGN CHOICE (notes/assumptions/4.md), unsafe. -/
def Memory.unwritten : Byte := 0

/-- The canonical form of a memory from an address on. -/
def Memory.wfFrom : Nat → Memory → Bool
  | _, [] => true
  | lo, (k, v) :: t => lo ≤ k && v != Memory.unwritten && Memory.wfFrom (k + 1) t

/-- The canonical form of a memory. -/
def Memory.wf (m : Memory) : Bool := Memory.wfFrom 0 m

/-- The byte at an address. -/
def Memory.byte : Memory → Nat → Byte
  | [], _ => Memory.unwritten
  | (k, v) :: t, n => if n = k then v else Memory.byte t n

/-- One byte written. Writing what an unlisted address reads as removes the cell. -/
def Memory.setByte : Memory → Nat → Byte → Memory
  | [], n, v => if v = Memory.unwritten then [] else [(n, v)]
  | (k, w) :: t, n, v =>
    if n < k then (if v = Memory.unwritten then (k, w) :: t else (n, v) :: (k, w) :: t)
    else if n = k then (if v = Memory.unwritten then t else (n, v) :: t)
    else (k, w) :: Memory.setByte t n v

/-- `n` bytes from an address upward. -/
def Memory.bytes (m : Memory) (a : Nat) : Nat → List Byte
  | 0 => []
  | n + 1 => Memory.byte m a :: Memory.bytes m (a + 1) n

/-- Bytes written from an address upward. -/
def Memory.setBytes (m : Memory) (a : Nat) : List Byte → Memory
  | [] => m
  | v :: t => Memory.setBytes (Memory.setByte m a v) (a + 1) t

/-- The number that bytes spell, little-endian (R1). -/
def leNat : List Byte → Nat
  | [] => 0
  | b :: t => b.toNat + 256 * leNat t

/-- The low `n` bytes of a number, little-endian (R1). -/
def leBytes (v : Nat) : Nat → List Byte
  | 0 => []
  | n + 1 => BitVec.ofNat 8 v :: leBytes (v / 256) n

/-- The little-endian number of `n` bytes at an address (R1). -/
def Memory.read (m : Memory) (a n : Nat) : Nat := leNat (Memory.bytes m a n)

/-- `n` bytes of a number written little-endian at an address (R1). -/
def Memory.write (m : Memory) (a n v : Nat) : Memory := Memory.setBytes m a (leBytes v n)

/-- Zeroes `n` bytes from an address upward: no cell of the range stays listed. -/
def Memory.clear (m : Memory) (a n : Nat) : Memory :=
  m.filter fun c => !(a ≤ c.1 && c.1 < a + n)

/-- Bits [hi:lo] of a number (R1). -/
def bits (v hi lo : Nat) : Nat := v / 2 ^ lo % 2 ^ (hi + 1 - lo)

/-- Bit n of a number. -/
def bit (v n : Nat) : Bool := v / 2 ^ n % 2 == 1

/-- The two's-complement value of the low `w` bits of a number (R7 `sext`). -/
def sextN (v w : Nat) : Int :=
  let u := v % 2 ^ w
  if u < 2 ^ (w - 1) then (u : Int) else (u : Int) - (2 ^ w : Nat)

/-- The low `w` bits of an integer, two's complement. -/
def wrapI (t : Int) (w : Nat) : Nat := (t % ((2 ^ w : Nat) : Int)).toNat

/-- An integer clamped to a closed range. -/
def clampI (t lo hi : Int) : Int := if t < lo then lo else if hi < t then hi else t

end Sys2Proof.Machine
end

