-- ==== Sys2Proof/SyntaxParts.lean ====
section
/-! DEFINITION. The parts of which the steps of the FX9 are made: operands of tile-controller words (R17,
R22), engine command words (R27), element move words (R30), and what the outside world supplies to an
event. -/

namespace Sys2Proof

/-- An operand field of a tile-controller word (R22): a register by class and number, the zero register
0x3FF (which is also how an unused field is written), or the literal that LS puts in the field's place
(R21). -/
inductive Opnd where
  | v (n : Nat)
  | s (n : Nat)
  | p (n : Nat)
  | q (n : Nat)
  | k (n : Nat)
  | zero
  | lit (value : BitVec 32)
deriving DecidableEq, Repr

/-- The guard of a word (R17, R19): always, where predicate n is true, or where it is false. -/
inductive Guard where
  | always
  | whenTrue (n : Nat)
  | whenFalse (n : Nat)
deriving DecidableEq, Repr

/-- The operands of a tile-controller word (R17). `modf` is the MOD field, whose layouts are those of
R24; `x` is the X field. -/
structure TWord where
  rst   : Bool
  guard : Guard
  d     : Opnd
  a     : Opnd
  b     : Opnd
  c     : Opnd
  x     : BitVec 5
  modf  : BitVec 32
deriving DecidableEq, Repr

/-- The engines of R27. -/
inductive Engine where
  | me | ce | cx | cl | sp | xc
deriving DecidableEq, Repr

/-- One side of a command's token fields (R27): a queue t0 to t15 and a count less one. -/
structure TokenRef where
  queue : BitVec 4
  less1 : BitVec 3
deriving DecidableEq, Repr

/-- An engine command word without its operation code (R27). -/
structure Cmd where
  wait : Option TokenRef
  sig  : Option TokenRef
  arg  : BitVec 42
deriving DecidableEq, Repr

/-- The ports of an element (R31). -/
inductive Port where
  | inp (n : Nat)
  | out (n : Nat)
  | aluO | aluT | aluR
  | mulO | mulT | mulR
  | sfuT | sfuR
  | cvtT | cvtR
  | redO | redT | redR
  | konst | zero | dline
deriving DecidableEq, Repr

/-- The LANE field of a move (R30, R97). -/
inductive LaneSel where
  | all | lo | hi | bcast
deriving DecidableEq, Repr

/-- The TOV field of a move (R30, R96). -/
inductive TypeOverride where
  | inForce | f32 | s32 | z32
deriving DecidableEq, Repr

/-- An element move word without its operation code (R30). -/
structure Mv where
  src  : Port
  dst  : Port
  lane : LaneSel
  tov  : TypeOverride
  eob  : Bool
  eoh  : Bool
  imm  : BitVec 8
deriving DecidableEq, Repr

/-- What a scree segment is linked into (R323): the channel of a tile named by its consumer (element and
input), a deque, or an event ring. -/
inductive ScreeTarget where
  | channel (tile elem inp : Nat)
  | deque (slot n : Nat)
  | ring (ctx n : Nat)
deriving DecidableEq, Repr

/-- A fabric flit of 80 bytes (R405), byte 0 in bits [7:0]. -/
abbrev Flit := BitVec 640

/-- What a peer's open message says of its own end (R407): whether its channel is enabled, its DIR and
the RCH it names. -/
structure PeerEnd where
  enabled : Bool
  receive : Bool
  rch     : Nat
deriving DecidableEq, Repr

/-- A host access to device memory across Bueth Link (R392, R301). -/
inductive HostAccess where
  | load (addr size : Nat)
  | store (addr size : Nat) (value : BitVec 64)
deriving DecidableEq, Repr

/-- A firmware image as R401 describes it. -/
structure FirmwareImage where
  body     : List Byte
  digest   : BitVec 384
  ecdsa    : List Byte
  lms      : List Byte
  version  : Nat
deriving DecidableEq, Repr

/-- The two requests that recovery-wait answers (R401). -/
inductive Recovery where
  | write (image : FirmwareImage)
  | reset
deriving DecidableEq, Repr

/-- The state that an uncorrectable error strikes (R280). -/
inductive StateError where
  | barrier (slot n : Nat)
  | deque (slot n : Nat)
  | versioned (addr : Nat)
deriving DecidableEq, Repr

end Sys2Proof
end

