-- ==== Sys2Proof/Syntax.lean ====
section
/-! DEFINITION. The steps of the FX9 as syntax: one constructor per row of spec/opcode_table.json.
Tile-controller words (R17), engine commands (R27) and element moves (R30) carry their operands; the
other rows are events of the package, which no word encodes, and carry the unit they strike and the
value the outside world supplies. -/

namespace Sys2Proof

/-- One step of the package: a word, a command, a move or an event. -/
inductive Instr where
  -- tile-controller words, in the order of the opcode table
  /-- NOP (R142). -/
  | nop (w : TWord)
  /-- MOV (R142). -/
  | mov (w : TWord)
  /-- MOVH (R142). -/
  | movh (w : TWord)
  /-- LEA (R142). -/
  | lea (w : TWord)
  /-- ADD (R142). -/
  | add (w : TWord)
  /-- SUB (R142). -/
  | sub (w : TWord)
  /-- MUL (R142). -/
  | mul (w : TWord)
  /-- MULH (R142). -/
  | mulh (w : TWord)
  /-- DIV (R143). -/
  | div (w : TWord)
  /-- REM (R143). -/
  | rem (w : TWord)
  /-- MIN (R142). -/
  | min (w : TWord)
  /-- MAX (R142). -/
  | max (w : TWord)
  /-- AND (R142). -/
  | and (w : TWord)
  /-- OR (R142). -/
  | or (w : TWord)
  /-- XOR (R142). -/
  | xor (w : TWord)
  /-- ANDN (R142). -/
  | andn (w : TWord)
  /-- SHL (R142). -/
  | shl (w : TWord)
  /-- SHR (R142). -/
  | shr (w : TWord)
  /-- SAR (R142). -/
  | sar (w : TWord)
  /-- ROL (R142). -/
  | rol (w : TWord)
  /-- CLZ (R142). -/
  | clz (w : TWord)
  /-- CTZ (R142). -/
  | ctz (w : TWord)
  /-- POPC (R142). -/
  | popc (w : TWord)
  /-- EXT (R142). -/
  | ext (w : TWord)
  /-- BFX (R142). -/
  | bfx (w : TWord)
  /-- BFI (R142). -/
  | bfi (w : TWord)
  /-- SEL (R142). -/
  | sel (w : TWord)
  /-- BR (R146). -/
  | br (w : TWord)
  /-- BRI (R146). -/
  | bri (w : TWord)
  /-- CALL (R146). -/
  | call (w : TWord)
  /-- LOOP (R149). -/
  | loop (w : TWord)
  /-- ENDL (R149). -/
  | endl (w : TWord)
  /-- KSET (R149). -/
  | kset (w : TWord)
  /-- KGET (R149). -/
  | kget (w : TWord)
  /-- HALT (R150). -/
  | halt (w : TWord)
  /-- YIELD (R150). -/
  | yield (w : TWord)
  /-- CMP (R144). -/
  | cmp (w : TWord)
  /-- PAND (R145). -/
  | pand (w : TWord)
  /-- POR (R145). -/
  | por (w : TWord)
  /-- PXOR (R145). -/
  | pxor (w : TWord)
  /-- PNOT (R145). -/
  | pnot (w : TWord)
  /-- PSET (R145). -/
  | pset (w : TWord)
  /-- PGET (R145). -/
  | pget (w : TWord)
  /-- PCNT (R145). -/
  | pcnt (w : TWord)
  /-- LD (R153). -/
  | ld (w : TWord)
  /-- ST (R153). -/
  | st (w : TWord)
  /-- ATOM (R156). -/
  | atom (w : TWord)
  /-- CAS (R156). -/
  | cas (w : TWord)
  /-- FENCE (R158). -/
  | fence (w : TWord)
  /-- CSRR (R159). -/
  | csrr (w : TWord)
  /-- CSRW (R159). -/
  | csrw (w : TWord)
  /-- CSRX (R159). -/
  | csrx (w : TWord)
  /-- TRAP (R160). -/
  | trapWord (w : TWord)
  /-- BKPT (R160). -/
  | bkpt (w : TWord)
  /-- TRET_RETRY (R161). -/
  | tretRetry (w : TWord)
  /-- TRET_NEXT (R161). -/
  | tretNext (w : TWord)
  /-- TRET_RESTART (R136). -/
  | tretRestart (w : TWord)
  /-- TIME_D (R163). -/
  | timeD (w : TWord)
  /-- TIME_S (R163). -/
  | timeS (w : TWord)
  /-- GEAR (R164). -/
  | gear (w : TWord)
  /-- GEARQ (R165). -/
  | gearq (w : TWord)
  /-- SCHED (R134). -/
  | sched (w : TWord)
  /-- SLACK (R134). -/
  | slack (w : TWord)
  /-- PWRQ (R166). -/
  | pwrq (w : TWord)
  /-- PWRCAP (R166). -/
  | pwrcap (w : TWord)
  /-- VADD (R176). -/
  | vadd (w : TWord)
  /-- VSUB (R176). -/
  | vsub (w : TWord)
  /-- VMUL (R176). -/
  | vmul (w : TWord)
  /-- VMIN (R176). -/
  | vmin (w : TWord)
  /-- VMAX (R176). -/
  | vmax (w : TWord)
  /-- VAND (R176). -/
  | vand (w : TWord)
  /-- VOR (R176). -/
  | vor (w : TWord)
  /-- VXOR (R176). -/
  | vxor (w : TWord)
  /-- VSHL (R176). -/
  | vshl (w : TWord)
  /-- VSHR (R176). -/
  | vshr (w : TWord)
  /-- VSAR (R176). -/
  | vsar (w : TWord)
  /-- VDIV (R176). -/
  | vdiv (w : TWord)
  /-- VFMA (R176). -/
  | vfma (w : TWord)
  /-- VFMS (R176). -/
  | vfms (w : TWord)
  /-- VABS (R176). -/
  | vabs (w : TWord)
  /-- VNEG (R176). -/
  | vneg (w : TWord)
  /-- VRCP (R177). -/
  | vrcp (w : TWord)
  /-- VSQRT (R177). -/
  | vsqrt (w : TWord)
  /-- VRSQ (R177). -/
  | vrsq (w : TWord)
  /-- VEXP2 (R177). -/
  | vexp2 (w : TWord)
  /-- VLOG2 (R177). -/
  | vlog2 (w : TWord)
  /-- VTANH (R177). -/
  | vtanh (w : TWord)
  /-- VSIG (R177). -/
  | vsig (w : TWord)
  /-- VCLZ (R176). -/
  | vclz (w : TWord)
  /-- VPOPC (R176). -/
  | vpopc (w : TWord)
  /-- VMOV (R176). -/
  | vmov (w : TWord)
  /-- VCMP (R178). -/
  | vcmp (w : TWord)
  /-- VSEL (R179). -/
  | vsel (w : TWord)
  /-- VCVT (R180). -/
  | vcvt (w : TWord)
  /-- VBSCL (R181). -/
  | vbscl (w : TWord)
  /-- VQNT (R182). -/
  | vqnt (w : TWord)
  /-- VDQNT (R183). -/
  | vdqnt (w : TWord)
  /-- VLD (R184). -/
  | vld (w : TWord)
  /-- VST (R184). -/
  | vst (w : TWord)
  /-- VGATH (R185). -/
  | vgath (w : TWord)
  /-- VSCAT (R185). -/
  | vscat (w : TWord)
  /-- VPERM (R188). -/
  | vperm (w : TWord)
  /-- VROT (R188). -/
  | vrot (w : TWord)
  /-- VBCAST (R188). -/
  | vbcast (w : TWord)
  /-- VEXTR (R188). -/
  | vextr (w : TWord)
  /-- VRED (R189). -/
  | vred (w : TWord)
  /-- VSCAN (R189). -/
  | vscan (w : TWord)
  /-- LDV (R263). -/
  | ldv (w : TWord)
  /-- STV (R263). -/
  | stv (w : TWord)
  /-- RECLAIM (R263). -/
  | reclaim (w : TWord)
  /-- BARINIT (R267). -/
  | barinit (w : TWord)
  /-- BARWAIT (R268). -/
  | barwait (w : TWord)
  /-- DQPUSH (R275). -/
  | dqpush (w : TWord)
  /-- DQPOP (R275). -/
  | dqpop (w : TWord)
  /-- DQSTEAL (R275). -/
  | dqsteal (w : TWord)
  /-- TSENS (R278). -/
  | tsens (w : TWord)
  /-- ENQ (R234). -/
  | enq (w : TWord) (cmd : Word64)
  /-- ENQS (R234). -/
  | enqs (w : TWord)
  /-- TOKW (R235). -/
  | tokw (w : TWord)
  /-- TOKS (R235). -/
  | toks (w : TWord)
  /-- QBIND (R237). -/
  | qbind (w : TWord)
  /-- SBAR (R233). -/
  | sbar (w : TWord)
  /-- EMIT (R238). -/
  | emit (w : TWord)
  /-- EMITA (R238). -/
  | emita (w : TWord)
  /-- EMITE (R238). -/
  | emite (w : TWord)
  /-- STAT (R239). -/
  | stat (w : TWord)
  /-- INSTW (R240). -/
  | instw (w : TWord)
  /-- RESUME (R240). -/
  | resume (w : TWord)
  /-- RGN (R240). -/
  | rgn (w : TWord)
  /-- SNAP (R325). -/
  | snap (w : TWord)
  /-- XARM (R356). -/
  | xarm (w : TWord)
  /-- XARM_D (R356). -/
  | xarmD (w : TWord)
  /-- XFIRE (R356). -/
  | xfire (w : TWord)
  /-- XWAIT (R356). -/
  | xwait (w : TWord)
  /-- XSTAT (R356). -/
  | xstat (w : TWord)
  /-- CTXNEW (R370). -/
  | ctxnew (w : TWord)
  /-- CTXGRANT (R372). -/
  | ctxgrant (w : TWord)
  /-- CTXREVOKE (R381). -/
  | ctxrevoke (w : TWord)
  /-- CTXRUN (R378). -/
  | ctxrun (w : TWord)
  /-- CTXSTOP (R378). -/
  | ctxstop (w : TWord)
  /-- CTXQ (R379). -/
  | ctxq (w : TWord)
  /-- MAP (R375). -/
  | mapRange (w : TWord)
  /-- UNMAP (R376). -/
  | unmap (w : TWord)
  /-- PIN_P (R377). -/
  | pinP (w : TWord)
  /-- PIN_U (R377). -/
  | pinU (w : TWord)
  -- engine commands
  /-- ENGINE_NOP (R27). -/
  | engineNop (e : Engine) (c : Cmd)
  /-- WLD (R201). -/
  | wld (c : Cmd)
  /-- MMA (R202). -/
  | mma (c : Cmd)
  /-- ACC_LD (R205). -/
  | accLd (c : Cmd)
  /-- ACC_ST (R206). -/
  | accSt (c : Cmd)
  /-- ACC_CLR (R207). -/
  | accClr (c : Cmd)
  /-- LOAD (R219). -/
  | loadPlane (c : Cmd)
  /-- LOADSH (R219). -/
  | loadsh (c : Cmd)
  /-- FIRE (R222). -/
  | fireRegion (e : Engine) (c : Cmd)
  /-- SWITCH (R223). -/
  | switchPlane (e : Engine) (c : Cmd)
  /-- ABORT (R224). -/
  | abortRegion (e : Engine) (c : Cmd)
  /-- OPEN (R231). -/
  | openPort (c : Cmd)
  /-- CLOSE (R231). -/
  | closePort (c : Cmd)
  /-- ADVANCE (R231). -/
  | advancePort (c : Cmd)
  /-- XC_FIRE (R357). -/
  | xcFire (c : Cmd)
  /-- MARK (R357). -/
  | mark (c : Cmd)
  -- element moves
  /-- MOVE (R30). -/
  | move (m : Mv)
  /-- GUARDED_MOVE (R98). -/
  | guardedMove (m : Mv)
  /-- SCALE_MOVE (R98). -/
  | scaleMove (m : Mv)
  /-- ALU_ADD (R100). -/
  | aluAdd (m : Mv)
  /-- ALU_SUB (R100). -/
  | aluSub (m : Mv)
  /-- ALU_MIN (R100). -/
  | aluMin (m : Mv)
  /-- ALU_MAX (R100). -/
  | aluMax (m : Mv)
  /-- ALU_AND (R100). -/
  | aluAnd (m : Mv)
  /-- ALU_OR (R100). -/
  | aluOr (m : Mv)
  /-- ALU_XOR (R100). -/
  | aluXor (m : Mv)
  /-- ALU_SHL (R100). -/
  | aluShl (m : Mv)
  /-- ALU_SHR (R100). -/
  | aluShr (m : Mv)
  /-- ALU_SAR (R100). -/
  | aluSar (m : Mv)
  /-- ALU_ABS (R100). -/
  | aluAbs (m : Mv)
  /-- ALU_NEG (R100). -/
  | aluNeg (m : Mv)
  /-- ALU_CMPEQ (R100). -/
  | aluCmpeq (m : Mv)
  /-- ALU_CMPLT (R100). -/
  | aluCmplt (m : Mv)
  /-- ALU_CMPLE (R100). -/
  | aluCmple (m : Mv)
  /-- ALU_SEL (R100). -/
  | aluSel (m : Mv)
  /-- ALU_PASS (R100). -/
  | aluPass (m : Mv)
  /-- MUL_MUL (R101). -/
  | mulMul (m : Mv)
  /-- MUL_MULS (R101). -/
  | mulMuls (m : Mv)
  /-- MUL_FMA (R101). -/
  | mulFma (m : Mv)
  /-- MUL_DIV (R101). -/
  | mulDiv (m : Mv)
  /-- SFU_RCP (R102). -/
  | sfuRcp (m : Mv)
  /-- SFU_SQRT (R102). -/
  | sfuSqrt (m : Mv)
  /-- SFU_RSQ (R102). -/
  | sfuRsq (m : Mv)
  /-- SFU_EXP2 (R102). -/
  | sfuExp2 (m : Mv)
  /-- SFU_LOG2 (R102). -/
  | sfuLog2 (m : Mv)
  /-- SFU_TANH (R102). -/
  | sfuTanh (m : Mv)
  /-- SFU_SIG (R102). -/
  | sfuSig (m : Mv)
  /-- SFU_LUT (R103). -/
  | sfuLut (m : Mv)
  /-- CVT_CVT (R104). -/
  | cvtCvt (m : Mv)
  /-- CVT_DEQ (R104). -/
  | cvtDeq (m : Mv)
  /-- CVT_QNT (R105). -/
  | cvtQnt (m : Mv)
  /-- RED_SUM (R106). -/
  | redSum (m : Mv)
  /-- RED_MAX (R106). -/
  | redMax (m : Mv)
  /-- RED_SCALE_MAX (R106). -/
  | redScaleMax (m : Mv)
  /-- RED_MIN (R106). -/
  | redMin (m : Mv)
  /-- RED_CNT (R106). -/
  | redCnt (m : Mv)
  /-- RED_STEER (R108). -/
  | redSteer (m : Mv)
  /-- RED_MERGE (R109). -/
  | redMerge (m : Mv)
  /-- RED_ACC (R107). -/
  | redAcc (m : Mv)
  /-- RED_FLUSH (R107). -/
  | redFlush (m : Mv)
  -- events: steps of the package that no word encodes
  /-- DEFERRED_INTEGRITY_TRAP (R153). -/
  | deferredIntegrityTrap (req : Nat)
  /-- APPLIED_AT_HOME (R287). -/
  | appliedAtHome (req : Nat)
  /-- MEMORY_RESPONSE (R153). -/
  | memoryResponse (req : Nat)
  /-- PLACEMENT_RETIRE (R314). -/
  | placementRetire (tile : Nat)
  /-- LAUNCH_RETIRE (R315). -/
  | launchRetire (launch : Nat)
  /-- SNAPSHOT_COMPLETE (R326). -/
  | snapshotComplete (graph : Nat)
  /-- PARTITION_FULL_SWAP (R386). -/
  | partitionFullSwap (part : Nat)
  /-- GRAPH_RESTORE (R329). -/
  | graphRestore (graph : Nat)
  /-- GEAR_TAKE_EFFECT (R127). -/
  | gearTakeEffect (tile : Nat)
  /-- GEAR_TRANSITION_END (R127). -/
  | gearTransitionEnd (tile : Nat)
  /-- VERSION_OVERFLOW (R263). -/
  | versionOverflow (tile : Nat) (thr : Nat)
  /-- BARRIER_RESUME (R269). -/
  | barrierResume (tile : Nat) (thr : Nat)
  /-- PARK_DROP (R271). -/
  | parkDrop (tile : Nat) (thr : Nat)
  /-- THERMAL_SAMPLE (R278). -/
  | thermalSample (slot : Nat) (temp : BitVec 16)
  /-- THERMAL_OVERRIDE (R128). -/
  | thermalOverride (tile : Nat)
  /-- DROOP_STRETCH_END (R129). -/
  | droopStretchEnd (tile : Nat)
  /-- DROOP_HALF_WIDTH_END (R129). -/
  | droopHalfWidthEnd (tile : Nat)
  /-- SHADOW_SET_SWAP (R122). -/
  | shadowSetSwap (tile : Nat)
  /-- REVOCATION_DEADLINE (R382). -/
  | revocationDeadline (rev : Nat)
  /-- SLAB_READY (R209). -/
  | slabReady (tile : Nat)
  /-- TIMING_TRAP (R212). -/
  | timingTrap (tile : Nat)
  /-- STALE_STAMP_MISS (R212). -/
  | staleStampMiss (tile : Nat)
  /-- ENGINE_SIGNAL (R200). -/
  | engineSignal (tile : Nat) (eng : Nat)
  /-- LOAD_END (R220). -/
  | loadEnd (tile : Nat)
  /-- SWITCH_TAG_ARRIVAL (R223). -/
  | switchTagArrival (tile : Nat) (side : Nat)
  /-- REGION_RETIRE (R226). -/
  | regionRetire (tile : Nat) (slot : Nat)
  /-- REGION_COMPLETION_STORE (R226). -/
  | regionCompletionStore (tile : Nat) (slot : Nat)
  /-- ENTRY_ARRIVAL (R72). -/
  | entryArrival (tile : Nat) (elem : Nat) (inp : Nat)
  /-- CAIRN_RECORD (R326). -/
  | cairnRecord (tile : Nat) (elem : Nat)
  /-- HANDLER_FIRE (R75). -/
  | handlerFire (tile : Nat) (elem : Nat)
  /-- DEFAULT_REACTION (R77). -/
  | defaultReaction (tile : Nat) (elem : Nat)
  /-- FINISHING_REACTION (R80). -/
  | finishingReaction (tile : Nat) (elem : Nat)
  /-- REACTION_EMIT (R78). -/
  | reactionEmit (tile : Nat) (elem : Nat)
  /-- SWITCH_ENTRY_WRITE (R223). -/
  | switchEntryWrite (tile : Nat) (elem : Nat) (out : Nat)
  /-- WAIT_SNAPSHOT (R91). -/
  | waitSnapshot (tile : Nat) (slot : Nat)
  /-- TRAP_PRESENT (R246). -/
  | trapPresent (tile : Nat) (set : Nat)
  /-- POOL_REFILL (R317). -/
  | poolRefill
  /-- METER_CHECK (R395). -/
  | meterCheck
  /-- TIME_SLICE (R373). -/
  | timeSlice
  /-- DROOP_TRIP (R129). -/
  | droopTrip (tile : Nat)
  /-- READ_PORT_DELIVER (R229). -/
  | readPortDeliver (tile : Nat) (port : Nat)
  /-- WRITE_PORT_CONSUME (R230). -/
  | writePortConsume (tile : Nat) (port : Nat)
  /-- SCREE_LINK (R323). -/
  | screeLink (what : ScreeTarget)
  /-- LAUNCH_SELECTION (R306). -/
  | launchSelection (queue : Nat)
  /-- LAUNCH_EXPANSION (R309). -/
  | launchExpansion (launch : Nat)
  /-- PLACEMENT (R310). -/
  | placement (die : Nat)
  /-- DISPATCH (R312). -/
  | dispatch (tile : Nat)
  /-- WALK_COMPLETE (R320). -/
  | walkComplete (walk : Nat)
  /-- FIRE_ENTRY_DELIVER (R346). -/
  | fireEntryDeliver
  /-- TRANSFER_START (R347). -/
  | transferStart (engine : Nat) (slot : Nat)
  /-- TRANSFER_COMPLETE (R347). -/
  | transferComplete (chan : Nat) (id : BitVec 32)
  /-- COPY_TRANSFER_STOP (R360). -/
  | copyTransferStop (chan : Nat) (id : BitVec 32)
  /-- SC_TOKEN_PASS (R294). -/
  | scTokenPass
  /-- HBM_SCRUB (R343). -/
  | hbmScrub (line : Nat)
  /-- TILE_FAILURE (R330). -/
  | tileFailure (tile : Nat)
  /-- DIE_SCHEDULER_FAILURE (R330). -/
  | dieSchedulerFailure (die : Nat)
  /-- COLUMN_CONTROLLER_FAILURE (R280). -/
  | columnControllerFailure (slot : Nat)
  /-- GATE_REFUSAL (R385). -/
  | gateRefusal (slot : Nat)
  /-- DQCFG_WRITE (R260). -/
  | dqcfgWrite (slot : Nat) (deque : Nat) (value : BitVec 64)
  /-- ENRGL_READ (R398). -/
  | enrglRead (tile : Nat) (set : Nat)
  /-- PKENL_READ (R398). -/
  | pkenlRead (tile : Nat) (set : Nat)
  /-- TAIL_WRITE (R389). -/
  | tailWrite (queue : Nat) (value : BitVec 32)
  /-- QUEUE_BASE_WRITE (R388). -/
  | queueBaseWrite (queue : Nat) (value : BitVec 64)
  /-- REGISTER_WRITE (R5). -/
  | registerWrite (addr : Nat) (value : BitVec 64)
  /-- LAYOUT (R387). -/
  | mbLayout
  /-- LAYOUT_PHASE2 (R387). -/
  | layoutPhase2
  /-- SETLIMIT (R397). -/
  | mbSetlimit
  /-- FEATSEL (R403). -/
  | mbFeatsel
  /-- ATTEST (R402). -/
  | mbAttest
  /-- CLRENRG (R398). -/
  | mbClrenrg
  /-- ERRLOG (R394). -/
  | mbErrlog
  /-- SWAP (R386). -/
  | mbSwap
  /-- BADOP (R394). -/
  | mbBadop (op : BitVec 8)
  /-- MAILBOX_COMPLETE (R394). -/
  | mailboxComplete
  /-- PACKAGE_RESET (R400). -/
  | packageReset
  /-- RECOVERY_WRITE (R401). -/
  | recoveryWrite (req : Recovery)
  /-- WATCHDOG_RESET (R387). -/
  | watchdogReset
  /-- LINK_DOWN (R393). -/
  | linkDown
  /-- FLIT_RECEIVE (R406). -/
  | flitReceive (port : Nat) (flit : Flit)
  /-- PORT_RETRAIN (R406). -/
  | portRetrain (port : Nat)
  /-- CREDIT (R408). -/
  | credit (port : Nat) (chan : Nat) (count : Nat)
  /-- FABRIC_OPEN_MESSAGE (R407). -/
  | fabricOpenMessage (port : Nat) (chan : Nat) (peer : PeerEnd)
  /-- FABRIC_CLOSE_MESSAGE (R407). -/
  | fabricCloseMessage (port : Nat) (chan : Nat)
  /-- FABRIC_RESET_MESSAGE (R415). -/
  | fabricResetMessage (port : Nat)
  /-- FCCTL_ENABLE (R407). -/
  | fcctlEnable (chan : Nat) (value : BitVec 64)
  /-- FCCTL_DISABLE (R407). -/
  | fcctlDisable (chan : Nat) (value : BitVec 64)
  /-- SUMMIT_ANSWER (R369). -/
  | summitAnswer
  /-- HOST_MEMORY_ACCESS (R392). -/
  | hostMemoryAccess (access : HostAccess)
  /-- LINK_RETRAINED (R393). -/
  | linkRetrained
  /-- FABRIC_RETRAIN_END (R406). -/
  | fabricRetrainEnd (port : Nat) (good : Bool)
  /-- SENSOR_FAILURE (R280). -/
  | sensorFailure (slot : Nat)
  /-- UNCORRECTABLE_STATE_ERROR (R280). -/
  | uncorrectableStateError (what : StateError)
deriving DecidableEq, Repr

end Sys2Proof
end

