-- ==== Sys2Proof/Machine/Fields.lean ====
section
/-! DEFINITION. The fields of a tile-controller word's MOD (R24), the type codes (R34) and the small
closed sets that instructions select by a code. -/

namespace Sys2Proof.Machine

/-- The formats of R34, in code order 0 to 13. -/
inductive Ty where
  | f32 | f16 | b16 | e4 | e5 | t8 | t4 | s32 | s16 | s8 | s4 | z32 | z16 | z8
deriving DecidableEq, Repr

/-- The format of a type code; 14 and 15 are reserved (R34). -/
def Ty.ofCode : Nat → Option Ty
  | 0 => some .f32 | 1 => some .f16 | 2 => some .b16 | 3 => some .e4 | 4 => some .e5
  | 5 => some .t8 | 6 => some .t4 | 7 => some .s32 | 8 => some .s16 | 9 => some .s8
  | 10 => some .s4 | 11 => some .z32 | 12 => some .z16 | 13 => some .z8 | _ => none

/-- The type code of a format (R34). -/
def Ty.code : Ty → Nat
  | .f32 => 0 | .f16 => 1 | .b16 => 2 | .e4 => 3 | .e5 => 4 | .t8 => 5 | .t4 => 6
  | .s32 => 7 | .s16 => 8 | .s8 => 9 | .s4 => 10 | .z32 => 11 | .z16 => 12 | .z8 => 13

/-- The width of an element in bits (R40, R43, R46). -/
def Ty.width : Ty → Nat
  | .f32 => 32 | .f16 => 16 | .b16 => 16 | .e4 => 8 | .e5 => 8 | .t8 => 8 | .t4 => 4
  | .s32 => 32 | .s16 => 16 | .s8 => 8 | .s4 => 4 | .z32 => 32 | .z16 => 16 | .z8 => 8

/-- An integer format (R46). -/
def Ty.isInt : Ty → Bool
  | .s32 | .s16 | .s8 | .s4 | .z32 | .z16 | .z8 => true
  | _ => false

/-- A signed integer format (R46). -/
def Ty.isSigned : Ty → Bool
  | .s32 | .s16 | .s8 | .s4 => true
  | _ => false

/-- A tapered format (R43). -/
def Ty.isTapered : Ty → Bool
  | .t8 | .t4 => true
  | _ => false

/-- F32, F16 and B16, the formats that FTZ applies to (R42) and that R173 calls FL. -/
def Ty.isFl : Ty → Bool
  | .f32 | .f16 | .b16 => true
  | _ => false

/-- The rounding modes of R24. -/
inductive Rm where
  | rne | rz | rdn | rup
deriving DecidableEq, Repr

/-- The rounding mode of a code (R24). -/
def Rm.ofCode : Nat → Rm
  | 0 => .rne | 1 => .rz | 2 => .rdn | _ => .rup

/-- The scopes of R24 and R286, from the narrowest. -/
inductive Scope where
  | tile | column | die | package | system
deriving DecidableEq, Repr

/-- The scope of a code (R24); 101 to 111 are reserved. -/
def Scope.ofCode : Nat → Option Scope
  | 0 => some .tile | 1 => some .column | 2 => some .die | 3 => some .package | 4 => some .system
  | _ => none

/-- The rank of a scope; a wider scope has a greater rank. -/
def Scope.rank : Scope → Nat
  | .tile => 0 | .column => 1 | .die => 2 | .package => 3 | .system => 4

/-- The condition codes of R24. -/
inductive Cond where
  | eq | ne | lt | le | gt | ge | un | or
deriving DecidableEq, Repr

/-- The condition of a code (R24); 8 to 15 are reserved. -/
def Cond.ofCode : Nat → Option Cond
  | 0 => some .eq | 1 => some .ne | 2 => some .lt | 3 => some .le
  | 4 => some .gt | 5 => some .ge | 6 => some .un | 7 => some .or | _ => none

/-- MOD[31:28], the family function. -/
def modFn (m : BitVec 32) : Nat := bits m.toNat 31 28
/-- MOD[26], sign-extend a load. -/
def modSx (m : BitVec 32) : Bool := bit m.toNat 26
/-- MOD[25:24], the memory width code. -/
def modSize (m : BitVec 32) : Nat := bits m.toNat 25 24
/-- MOD[23:20], the kinds of a fence. -/
def modKind (m : BitVec 32) : Nat := bits m.toNat 23 20
/-- MOD[19:17], the scope code. -/
def modScope (m : BitVec 32) : Nat := bits m.toNat 19 17
/-- MOD[16:14], the ordering code. -/
def modOrd (m : BitVec 32) : Nat := bits m.toNat 16 14
/-- MOD[13], inactive lanes are zeroed. -/
def modZl (m : BitVec 32) : Bool := bit m.toNat 13
/-- MOD[12], subnormals are flushed. -/
def modFtz (m : BitVec 32) : Bool := bit m.toNat 12
/-- MOD[11], saturate. -/
def modSat (m : BitVec 32) : Bool := bit m.toNat 11
/-- MOD[10:9], the rounding mode code. -/
def modRm (m : BitVec 32) : Nat := bits m.toNat 10 9
/-- MOD[8], a 64-bit scalar operation. -/
def modW64 (m : BitVec 32) : Bool := bit m.toNat 8
/-- MOD[7:4], the source type code of a conversion. -/
def modT2 (m : BitVec 32) : Nat := bits m.toNat 7 4
/-- MOD[3:0], the operation or destination type code. -/
def modT1 (m : BitVec 32) : Nat := bits m.toNat 3 0

/-- The operation type T1. A word that passed check 3 names a defined type; the default is never used by
one. -/
def modTy (m : BitVec 32) : Ty := (Ty.ofCode (modT1 m)).getD .f32

/-- The source type T2 of a conversion. -/
def modTy2 (m : BitVec 32) : Ty := (Ty.ofCode (modT2 m)).getD .f32

/-- The scope of an access (R24). -/
def modScopeOf (m : BitVec 32) : Scope := (Scope.ofCode (modScope m)).getD .system

/-- The rounding mode (R24). -/
def modRound (m : BitVec 32) : Rm := Rm.ofCode (modRm m)

/-- The width of a scalar integer operation (R141): 64 with W64, else the width of T1. -/
def modWidth (m : BitVec 32) : Nat := if modW64 m then 64 else (modTy m).width

/-- Whether a scalar integer operation is signed (R141). -/
def modSigned (m : BitVec 32) : Bool := (modTy m).isSigned

/-- The register group length c (R23). -/
def groupLen (w : TWord) : Nat := bits w.x.toNat 2 0 + 1

end Sys2Proof.Machine
end

