-- ==== Sys2Proof/Machine/Opcodes.lean ====
section
/-! DEFINITION. The tile controller's opcode map (R25) as data, the values that each instruction accepts
in X and MOD (R23, R24 and the family tables R134, R140, R144, R149, R151, R161, R173, R187, R241, R261,
R355, R368), and the checks 1 to 4 of R18. -/

namespace Sys2Proof.Machine

/-- The class that the opcode map gives an operand field; `label` is the A field of BR and CALL, which
accepts only a literal (R146). -/
inductive OpClass where
  | v | s | p | q | k | none | label
deriving DecidableEq, Repr

/-- A column of the opcode map: the class of a field, and whether it is marked # (R25). -/
structure FieldSpec where
  cls  : OpClass
  mark : Bool
deriving DecidableEq, Repr

/-- The use of the X field (R23): none, a group length of a vector word, the group length 1 that VCMP
requires (R173), or an engine number. -/
inductive XKind where
  | none | group | single | engine
deriving DecidableEq, Repr

/-- The MOD values of an instruction, one name per row of the family tables. -/
inductive ModKind where
  | zero | enq
  | s64 | sz64 | lea | intSat | int | ext | cmp | loop
  | fnMax (n : Nat)
  | gear | sched | csr | trap
  | ld | st | atom (fnMax : Nat) | fence
  | versioned | reclaim | cluster
  | varith | vminmax | vraw | vint | vabs | vrcp | vexp | vcmp | vcvt | vbscl | vqnt | vdqnt
  | vld | vst | vextr | vred (scan : Bool)
deriving DecidableEq, Repr

/-- One instruction of the opcode map (R25). `fn` is the FN value that tells apart the instructions that
share an opcode. -/
structure OpRow where
  opc : Nat
  fn  : Option Nat
  d   : FieldSpec
  a   : FieldSpec
  b   : FieldSpec
  c   : FieldSpec
  md  : ModKind
  xk  : XKind
  build : TWord → Word64 → Instr

/-- The column that the map writes `s`. -/
def opS : FieldSpec := ⟨.s, false⟩
/-- The column that the map writes `s#`. -/
def opS' : FieldSpec := ⟨.s, true⟩
/-- The column that the map writes `v`. -/
def opV : FieldSpec := ⟨.v, false⟩
/-- The column that the map writes `v#`. -/
def opV' : FieldSpec := ⟨.v, true⟩
/-- The column that the map writes `p`. -/
def opP : FieldSpec := ⟨.p, false⟩
/-- The column that the map writes `q`. -/
def opQ : FieldSpec := ⟨.q, false⟩
/-- The column that the map writes `k`. -/
def opK : FieldSpec := ⟨.k, false⟩
/-- An unused column. -/
def opU : FieldSpec := ⟨.none, false⟩
/-- The column that the map writes `#`. -/
def opL : FieldSpec := ⟨.label, true⟩

/-- Scalar integer and address, 0x000 to 0x07F (R25). -/
def opMapScalar : List OpRow := [
  ⟨0x001, none, opU, opU, opU, opU, .zero, .none, fun w _ => .nop w⟩,
  ⟨0x002, none, opS, opS', opU, opU, .sz64, .none, fun w _ => .mov w⟩,
  ⟨0x003, none, opS, opS', opU, opU, .s64, .none, fun w _ => .movh w⟩,
  ⟨0x004, none, opS, opS, opS', opU, .lea, .none, fun w _ => .lea w⟩,
  ⟨0x008, none, opS, opS, opS', opU, .intSat, .none, fun w _ => .add w⟩,
  ⟨0x009, none, opS, opS, opS', opU, .intSat, .none, fun w _ => .sub w⟩,
  ⟨0x00A, none, opS, opS, opS', opU, .intSat, .none, fun w _ => .mul w⟩,
  ⟨0x00B, none, opS, opS, opS', opU, .int, .none, fun w _ => .mulh w⟩,
  ⟨0x00C, none, opS, opS, opS', opU, .int, .none, fun w _ => .div w⟩,
  ⟨0x00D, none, opS, opS, opS', opU, .int, .none, fun w _ => .rem w⟩,
  ⟨0x00E, none, opS, opS, opS', opU, .int, .none, fun w _ => .min w⟩,
  ⟨0x00F, none, opS, opS, opS', opU, .int, .none, fun w _ => .max w⟩,
  ⟨0x010, none, opS, opS, opS', opU, .int, .none, fun w _ => .and w⟩,
  ⟨0x011, none, opS, opS, opS', opU, .int, .none, fun w _ => .or w⟩,
  ⟨0x012, none, opS, opS, opS', opU, .int, .none, fun w _ => .xor w⟩,
  ⟨0x013, none, opS, opS, opS', opU, .int, .none, fun w _ => .andn w⟩,
  ⟨0x014, none, opS, opS, opS', opU, .int, .none, fun w _ => .shl w⟩,
  ⟨0x015, none, opS, opS, opS', opU, .int, .none, fun w _ => .shr w⟩,
  ⟨0x016, none, opS, opS, opS', opU, .int, .none, fun w _ => .sar w⟩,
  ⟨0x017, none, opS, opS, opS', opU, .int, .none, fun w _ => .rol w⟩,
  ⟨0x018, none, opS, opS, opU, opU, .int, .none, fun w _ => .clz w⟩,
  ⟨0x019, none, opS, opS, opU, opU, .int, .none, fun w _ => .ctz w⟩,
  ⟨0x01A, none, opS, opS, opU, opU, .int, .none, fun w _ => .popc w⟩,
  ⟨0x01B, none, opS, opS, opU, opU, .ext, .none, fun w _ => .ext w⟩,
  ⟨0x01C, none, opS, opS, opS', opU, .sz64, .none, fun w _ => .bfx w⟩,
  ⟨0x01D, none, opS, opS, opS', opU, .s64, .none, fun w _ => .bfi w⟩,
  ⟨0x01E, none, opS, opS', opS', opP, .sz64, .none, fun w _ => .sel w⟩]

/-- Control, loops and predicates, 0x080 to 0x0FF (R25). -/
def opMapControl : List OpRow := [
  ⟨0x080, none, opU, opL, opU, opU, .zero, .none, fun w _ => .br w⟩,
  ⟨0x081, none, opU, opS, opU, opU, .zero, .none, fun w _ => .bri w⟩,
  ⟨0x082, none, opS, opL, opU, opU, .zero, .none, fun w _ => .call w⟩,
  ⟨0x084, none, opK, opS', opU, opU, .loop, .none, fun w _ => .loop w⟩,
  ⟨0x085, none, opK, opU, opU, opU, .zero, .none, fun w _ => .endl w⟩,
  ⟨0x086, none, opK, opS', opU, opU, .zero, .none, fun w _ => .kset w⟩,
  ⟨0x087, none, opS, opK, opU, opU, .zero, .none, fun w _ => .kget w⟩,
  ⟨0x088, none, opU, opU, opU, opU, .zero, .none, fun w _ => .halt w⟩,
  ⟨0x089, none, opU, opU, opU, opU, .zero, .none, fun w _ => .yield w⟩,
  ⟨0x0C0, none, opP, opS, opS', opU, .cmp, .none, fun w _ => .cmp w⟩,
  ⟨0x0C4, none, opP, opP, opP, opU, .zero, .none, fun w _ => .pand w⟩,
  ⟨0x0C5, none, opP, opP, opP, opU, .zero, .none, fun w _ => .por w⟩,
  ⟨0x0C6, none, opP, opP, opP, opU, .zero, .none, fun w _ => .pxor w⟩,
  ⟨0x0C7, none, opP, opP, opU, opU, .zero, .none, fun w _ => .pnot w⟩,
  ⟨0x0C8, none, opP, opS', opU, opU, .zero, .none, fun w _ => .pset w⟩,
  ⟨0x0C9, none, opS, opP, opU, opU, .zero, .none, fun w _ => .pget w⟩,
  ⟨0x0CA, none, opS, opP, opU, opU, .zero, .none, fun w _ => .pcnt w⟩]

/-- Scalar memory and cluster, 0x100 to 0x1BF (R25). -/
def opMapMemory : List OpRow := [
  ⟨0x100, none, opS, opS, opS', opU, .ld, .none, fun w _ => .ld w⟩,
  ⟨0x101, none, opU, opS, opS', opS, .st, .none, fun w _ => .st w⟩,
  ⟨0x104, none, opS, opS, opS', opS, (.atom 6), .none, fun w _ => .atom w⟩,
  ⟨0x105, none, opS, opS, opS, opS, (.atom 0), .none, fun w _ => .cas w⟩,
  ⟨0x108, none, opU, opU, opU, opU, .fence, .none, fun w _ => .fence w⟩,
  ⟨0x180, none, opS, opS, opS', opU, .versioned, .none, fun w _ => .ldv w⟩,
  ⟨0x181, none, opS, opS, opS, opU, .versioned, .none, fun w _ => .stv w⟩,
  ⟨0x182, none, opU, opS, opS', opU, .reclaim, .none, fun w _ => .reclaim w⟩,
  ⟨0x188, none, opU, opS', opS', opU, (.fnMax 7), .none, fun w _ => .barinit w⟩,
  ⟨0x189, none, opU, opS', opU, opU, .cluster, .none, fun w _ => .barwait w⟩,
  ⟨0x190, none, opU, opS', opS, opU, .cluster, .none, fun w _ => .dqpush w⟩,
  ⟨0x191, none, opS, opS', opU, opU, .cluster, .none, fun w _ => .dqpop w⟩,
  ⟨0x192, none, opS, opS', opU, opU, .cluster, .none, fun w _ => .dqsteal w⟩,
  ⟨0x198, none, opS, opS', opU, opU, .zero, .none, fun w _ => .tsens w⟩]

/-- Vector arithmetic, 0x200 to 0x2BF (R25). -/
def opMapVArith : List OpRow := [
  ⟨0x200, none, opV, opV, opV', opU, .varith, .group, fun w _ => .vadd w⟩,
  ⟨0x201, none, opV, opV, opV', opU, .varith, .group, fun w _ => .vsub w⟩,
  ⟨0x202, none, opV, opV, opV', opU, .varith, .group, fun w _ => .vmul w⟩,
  ⟨0x203, none, opV, opV, opV', opU, .vminmax, .group, fun w _ => .vmin w⟩,
  ⟨0x204, none, opV, opV, opV', opU, .vminmax, .group, fun w _ => .vmax w⟩,
  ⟨0x205, none, opV, opV, opV', opU, .vraw, .group, fun w _ => .vand w⟩,
  ⟨0x206, none, opV, opV, opV', opU, .vraw, .group, fun w _ => .vor w⟩,
  ⟨0x207, none, opV, opV, opV', opU, .vraw, .group, fun w _ => .vxor w⟩,
  ⟨0x208, none, opV, opV, opV', opU, .vint, .group, fun w _ => .vshl w⟩,
  ⟨0x209, none, opV, opV, opV', opU, .vint, .group, fun w _ => .vshr w⟩,
  ⟨0x20A, none, opV, opV, opV', opU, .vint, .group, fun w _ => .vsar w⟩,
  ⟨0x20B, none, opV, opV, opV', opU, .varith, .group, fun w _ => .vdiv w⟩,
  ⟨0x210, none, opV, opV, opV', opV, .varith, .group, fun w _ => .vfma w⟩,
  ⟨0x211, none, opV, opV, opV', opV, .varith, .group, fun w _ => .vfms w⟩,
  ⟨0x218, none, opV, opV', opU, opU, .vabs, .group, fun w _ => .vabs w⟩,
  ⟨0x219, none, opV, opV', opU, opU, .vabs, .group, fun w _ => .vneg w⟩,
  ⟨0x21A, none, opV, opV', opU, opU, .vrcp, .group, fun w _ => .vrcp w⟩,
  ⟨0x21B, none, opV, opV', opU, opU, .vrcp, .group, fun w _ => .vsqrt w⟩,
  ⟨0x21C, none, opV, opV', opU, opU, .vrcp, .group, fun w _ => .vrsq w⟩,
  ⟨0x21D, none, opV, opV', opU, opU, .vexp, .group, fun w _ => .vexp2 w⟩,
  ⟨0x21E, none, opV, opV', opU, opU, .vexp, .group, fun w _ => .vlog2 w⟩,
  ⟨0x21F, none, opV, opV', opU, opU, .vexp, .group, fun w _ => .vtanh w⟩,
  ⟨0x220, none, opV, opV', opU, opU, .vexp, .group, fun w _ => .vsig w⟩,
  ⟨0x221, none, opV, opV', opU, opU, .vint, .group, fun w _ => .vclz w⟩,
  ⟨0x222, none, opV, opV', opU, opU, .vint, .group, fun w _ => .vpopc w⟩,
  ⟨0x223, none, opV, opV', opU, opU, .vraw, .group, fun w _ => .vmov w⟩,
  ⟨0x228, none, opP, opV, opV', opU, .vcmp, .single, fun w _ => .vcmp w⟩,
  ⟨0x229, none, opV, opV', opV, opP, .vraw, .group, fun w _ => .vsel w⟩]

/-- Vector convert, quantise, memory and permute, 0x2C0 to 0x33F (R25). -/
def opMapVMove : List OpRow := [
  ⟨0x2C0, none, opV, opV, opU, opU, .vcvt, .group, fun w _ => .vcvt w⟩,
  ⟨0x2C1, none, opV, opV, opU, opU, .vbscl, .group, fun w _ => .vbscl w⟩,
  ⟨0x2C2, none, opV, opV, opV, opU, .vqnt, .group, fun w _ => .vqnt w⟩,
  ⟨0x2C3, none, opV, opV, opV, opU, .vdqnt, .group, fun w _ => .vdqnt w⟩,
  ⟨0x300, none, opV, opS, opS', opU, .vld, .group, fun w _ => .vld w⟩,
  ⟨0x301, none, opU, opS, opS', opV, .vst, .group, fun w _ => .vst w⟩,
  ⟨0x302, none, opV, opS, opV, opU, .vld, .group, fun w _ => .vgath w⟩,
  ⟨0x303, none, opU, opS, opV, opV, .vst, .group, fun w _ => .vscat w⟩,
  ⟨0x308, none, opV, opV, opV, opU, .vraw, .group, fun w _ => .vperm w⟩,
  ⟨0x309, none, opV, opV, opS', opU, .vraw, .group, fun w _ => .vrot w⟩,
  ⟨0x30A, none, opV, opS', opU, opU, .vraw, .group, fun w _ => .vbcast w⟩,
  ⟨0x30B, none, opS, opV, opS', opU, .vextr, .group, fun w _ => .vextr w⟩,
  ⟨0x30C, none, opS, opV, opU, opU, (.vred false), .group, fun w _ => .vred w⟩,
  ⟨0x30D, none, opV, opV, opU, opU, (.vred true), .group, fun w _ => .vscan w⟩]

/-- Engine, token, stream, copy, instant and region, 0x340 to 0x3AF (R25). -/
def opMapEngine : List OpRow := [
  ⟨0x340, none, opU, opU, opU, opU, .enq, .engine, fun w c => .enq w c⟩,
  ⟨0x341, none, opU, opS, opU, opU, .zero, .engine, fun w _ => .enqs w⟩,
  ⟨0x342, none, opU, opS', opU, opU, (.fnMax 15), .none, fun w _ => .tokw w⟩,
  ⟨0x343, none, opU, opS', opU, opU, (.fnMax 15), .none, fun w _ => .toks w⟩,
  ⟨0x344, none, opQ, opS', opU, opU, .zero, .none, fun w _ => .qbind w⟩,
  ⟨0x348, some 0, opU, opS', opS, opU, (.fnMax 1), .none, fun w _ => .xarm w⟩,
  ⟨0x348, some 1, opU, opS', opS, opU, (.fnMax 1), .none, fun w _ => .xarmD w⟩,
  ⟨0x349, none, opU, opS', opU, opU, .zero, .none, fun w _ => .xfire w⟩,
  ⟨0x34A, none, opU, opS', opS, opU, .zero, .none, fun w _ => .xwait w⟩,
  ⟨0x34B, none, opS, opS', opU, opU, .zero, .none, fun w _ => .xstat w⟩,
  ⟨0x34C, none, opU, opS', opU, opU, .zero, .none, fun w _ => .sbar w⟩,
  ⟨0x380, none, opQ, opV, opU, opU, (.fnMax 2), .none, fun w _ => .emit w⟩,
  ⟨0x381, none, opQ, opU, opU, opU, .zero, .none, fun w _ => .emita w⟩,
  ⟨0x382, none, opQ, opU, opU, opU, .zero, .none, fun w _ => .emite w⟩,
  ⟨0x383, none, opS, opQ, opU, opU, .zero, .none, fun w _ => .stat w⟩,
  ⟨0x384, none, opU, opS', opS, opU, .zero, .none, fun w _ => .instw w⟩,
  ⟨0x385, none, opU, opS', opS, opU, .zero, .none, fun w _ => .resume w⟩,
  ⟨0x386, none, opS, opS', opU, opU, .zero, .none, fun w _ => .rgn w⟩,
  ⟨0x387, none, opU, opS', opU, opU, .zero, .none, fun w _ => .snap w⟩]

/-- Gear, time, power, context and system, 0x3B0 to 0x3FE (R25). -/
def opMapSystem : List OpRow := [
  ⟨0x3B0, none, opU, opU, opU, opU, .gear, .none, fun w _ => .gear w⟩,
  ⟨0x3B1, none, opS, opU, opU, opU, .zero, .none, fun w _ => .gearq w⟩,
  ⟨0x3B2, none, opS, opU, opU, opU, .zero, .none, fun w _ => .timeD w⟩,
  ⟨0x3B3, none, opS, opU, opU, opU, .zero, .none, fun w _ => .timeS w⟩,
  ⟨0x3B4, none, opU, opS', opU, opU, .sched, .none, fun w _ => .sched w⟩,
  ⟨0x3B5, none, opU, opS', opS, opU, .zero, .none, fun w _ => .slack w⟩,
  ⟨0x3B8, none, opS, opU, opU, opU, .zero, .none, fun w _ => .pwrq w⟩,
  ⟨0x3B9, none, opU, opS', opU, opU, .zero, .none, fun w _ => .pwrcap w⟩,
  ⟨0x3D0, none, opS, opS, opU, opU, .zero, .none, fun w _ => .ctxnew w⟩,
  ⟨0x3D1, none, opU, opS', opS, opU, .zero, .none, fun w _ => .ctxgrant w⟩,
  ⟨0x3D2, none, opU, opS', opS', opU, .zero, .none, fun w _ => .ctxrevoke w⟩,
  ⟨0x3D3, none, opU, opS', opU, opU, .zero, .none, fun w _ => .ctxrun w⟩,
  ⟨0x3D4, none, opU, opS', opU, opU, .zero, .none, fun w _ => .ctxstop w⟩,
  ⟨0x3D5, none, opS, opS', opU, opU, .zero, .none, fun w _ => .ctxq w⟩,
  ⟨0x3D8, none, opU, opS', opS, opU, .zero, .none, fun w _ => .mapRange w⟩,
  ⟨0x3D9, none, opU, opS', opS, opU, .zero, .none, fun w _ => .unmap w⟩,
  ⟨0x3DA, some 0, opU, opS, opS', opU, (.fnMax 1), .none, fun w _ => .pinP w⟩,
  ⟨0x3DA, some 1, opU, opS, opS', opU, (.fnMax 1), .none, fun w _ => .pinU w⟩,
  ⟨0x3F0, none, opS, opU, opU, opU, .csr, .none, fun w _ => .csrr w⟩,
  ⟨0x3F1, none, opU, opS', opU, opU, .csr, .none, fun w _ => .csrw w⟩,
  ⟨0x3F2, none, opS, opS', opU, opU, .csr, .none, fun w _ => .csrx w⟩,
  ⟨0x3F8, none, opU, opU, opU, opU, .trap, .none, fun w _ => .trapWord w⟩,
  ⟨0x3F9, some 0, opU, opU, opU, opU, (.fnMax 2), .none, fun w _ => .tretRetry w⟩,
  ⟨0x3F9, some 1, opU, opU, opU, opU, (.fnMax 2), .none, fun w _ => .tretNext w⟩,
  ⟨0x3F9, some 2, opU, opU, opU, opU, (.fnMax 2), .none, fun w _ => .tretRestart w⟩,
  ⟨0x3FA, none, opU, opU, opU, opU, .zero, .none, fun w _ => .bkpt w⟩]

/-- The opcode map (R25). -/
def opMap : List OpRow :=
  opMapScalar ++ opMapControl ++ opMapMemory ++ opMapVArith ++ opMapVMove ++ opMapEngine ++ opMapSystem

/-- The first row of an opcode. -/
def opFirst (opc : Nat) : Option OpRow := opMap.find? fun r => r.opc == opc

/-- The row of an opcode and an FN value: where the map shares an opcode out by FN, the row that FN names,
else the first row of the opcode, whose MOD values then exclude the FN (check 3). -/
def opRow (opc fn : Nat) : Option OpRow :=
  match opMap.find? (fun r => r.opc == opc && (r.fn == none || r.fn == some fn)) with
  | some r => some r
  | none => opFirst opc

/-- Check 3 fails on a bit set outside the given MOD fields. -/
def modOnly (m mask : BitVec 32) : Bool := (m &&& ~~~mask) == 0

/-- The MOD field FN. -/
def mFN : BitVec 32 := 0xF0000000
/-- The MOD field SX. -/
def mSX : BitVec 32 := 0x04000000
/-- The MOD field SIZE. -/
def mSIZE : BitVec 32 := 0x03000000
/-- The MOD field KIND. -/
def mKIND : BitVec 32 := 0x00F00000
/-- The MOD field SCOPE. -/
def mSCOPE : BitVec 32 := 0x000E0000
/-- The MOD field ORD. -/
def mORD : BitVec 32 := 0x0001C000
/-- The MOD field ZL. -/
def mZL : BitVec 32 := 0x00002000
/-- The MOD field FTZ. -/
def mFTZ : BitVec 32 := 0x00001000
/-- The MOD field SAT. -/
def mSAT : BitVec 32 := 0x00000800
/-- The MOD field RM. -/
def mRM : BitVec 32 := 0x00000600
/-- The MOD field W64. -/
def mW64 : BitVec 32 := 0x00000100
/-- The MOD field T2. -/
def mT2 : BitVec 32 := 0x000000F0
/-- The MOD field T1. -/
def mT1 : BitVec 32 := 0x0000000F

/-- T1 and W64 name an integer scalar type (R140). -/
def isIntScalar (m : BitVec 32) : Bool :=
  if modW64 m then modT1 m == 7 || modT1 m == 11
  else [7, 8, 9, 11, 12, 13].contains (modT1 m)

/-- A type code that R34 defines and the feature set has (R403 bit 7). -/
def typeOk (feat : Nat) (t : Nat) : Bool := t < 14 && (bit feat 7 || !(t == 5 || t == 6))

/-- F32, F16 and B16 (R173 FL). -/
def isFlCode (t : Nat) : Bool := t < 3
/-- S32, S16, S8, Z32, Z16 and Z8 (R173 IN). -/
def isInCode (t : Nat) : Bool := [7, 8, 9, 11, 12, 13].contains t
/-- S32, S16 and S8 (R173 SI). -/
def isSiCode (t : Nat) : Bool := [7, 8, 9].contains t
/-- The narrow types 1 to 6. -/
def isNarrowCode (t : Nat) : Bool := 1 ≤ t && t ≤ 6

/-- The width of a type code; 32 for a reserved code, which other conditions exclude. -/
def codeWidth (t : Nat) : Nat := ((Ty.ofCode t).getD .f32).width

/-- The scope an ordering code admits: none for relaxed and SC accesses, any defined one otherwise
(R151). -/
def scopeOk (m : BitVec 32) (bare : List Nat) : Bool :=
  if bare.contains (modOrd m) then modScope m == 0 else modScope m ≤ 4

/-- The MOD values of an instruction (check 3), under a feature set (R403). -/
def modOk (feat : Nat) (k : ModKind) (m : BitVec 32) : Bool :=
  match k with
  | .zero => m == 0
  | .enq => true
  | .s64 => modOnly m (mW64 ||| mT1) && modW64 m && modT1 m == 7
  | .sz64 => modOnly m (mW64 ||| mT1) && modW64 m && (modT1 m == 7 || modT1 m == 11)
  | .lea => modOnly m (mFN ||| mW64 ||| mT1) && modW64 m && modT1 m == 7
  | .intSat => modOnly m (mSAT ||| mW64 ||| mT1) && isIntScalar m
  | .int => modOnly m (mW64 ||| mT1) && isIntScalar m
  | .ext => modOnly m mT1 && isInCode (modT1 m)
  | .cmp =>
    modOnly m (mFN ||| mFTZ ||| mW64 ||| mT1) && modFn m ≤ 7
      && (isIntScalar m && modFn m ≤ 5 && !modFtz m || (modT1 m == 0 && !modW64 m))
  | .loop => modOnly m 0x0000FFFF && decide (0 < sextN m.toNat 16)
  | .fnMax n => modOnly m mFN && modFn m ≤ n
  | .gear => modOnly m mFN && (modFn m == 0 || modFn m == 1 && bit feat 0)
  | .sched => modOnly m mFN && (modFn m == 0 || modFn m == 1 && bit feat 1)
  | .csr => modOnly m 0x00000FFF
  | .trap => modOnly m 0x0000FFFF
  | .ld =>
    modOnly m (mSX ||| mSIZE ||| mSCOPE ||| mORD) && ([0, 1].contains (modOrd m) || modOrd m == 4 && bit feat 3)
      && scopeOk m [0, 4]
  | .st =>
    modOnly m (mSIZE ||| mSCOPE ||| mORD) && ([0, 2].contains (modOrd m) || modOrd m == 4 && bit feat 3)
      && scopeOk m [0, 4]
  | .atom n =>
    modOnly m (mFN ||| mSX ||| mSIZE ||| mSCOPE ||| mORD) && modFn m ≤ n && 2 ≤ modSize m
      && modOrd m ≤ 3 && scopeOk m [0]
  | .fence => modOnly m (mKIND ||| mSCOPE) && modKind m != 0 && modScope m ≤ 4
  | .versioned => modOnly m (mSIZE ||| mSCOPE) && modSize m == 3 && modScope m ≤ 3 && bit feat 2
  | .reclaim => modOnly m mSCOPE && modScope m ≤ 3 && bit feat 2
  | .cluster => modOnly m mSCOPE && modScope m ≤ 3
  | .varith =>
    modOnly m (mZL ||| mFTZ ||| mSAT ||| mRM ||| mT1)
      && (isFlCode (modT1 m) || isInCode (modT1 m) && modRm m == 0 && !modFtz m)
  | .vminmax =>
    modOnly m (mZL ||| mFTZ ||| mT1) && (isFlCode (modT1 m) || isInCode (modT1 m) && !modFtz m)
  | .vraw => modOnly m (mZL ||| mT1) && typeOk feat (modT1 m)
  | .vint => modOnly m (mZL ||| mT1) && isInCode (modT1 m)
  | .vabs =>
    modOnly m (mZL ||| mFTZ ||| mSAT ||| mT1)
      && (isFlCode (modT1 m) && !modSat m || isSiCode (modT1 m) && !modFtz m)
  | .vrcp => modOnly m (mZL ||| mFTZ ||| mSAT ||| mRM ||| mT1) && isFlCode (modT1 m)
  | .vexp => modOnly m (mZL ||| mFTZ ||| mT1) && modT1 m == 0
  | .vcmp =>
    modOnly m (mFN ||| mZL ||| mFTZ ||| mT1)
      && (modT1 m == 0 && modFn m ≤ 7 || (modT1 m == 7 || modT1 m == 11) && modFn m ≤ 5 && !modFtz m)
  | .vcvt =>
    modOnly m (mFN ||| mZL ||| mFTZ ||| mSAT ||| mRM ||| mT2 ||| mT1) && typeOk feat (modT1 m)
      && typeOk feat (modT2 m)
      && (!(modT1 m == 5 || modT1 m == 6) || modRm m == 0 && !modSat m)
      && modFn m * Nat.min (codeWidth (modT1 m)) (codeWidth (modT2 m))
          < Nat.max (codeWidth (modT1 m)) (codeWidth (modT2 m))
  | .vbscl =>
    modOnly m (mZL ||| mFTZ ||| mRM ||| mT1) && isNarrowCode (modT1 m) && typeOk feat (modT1 m)
  | .vqnt =>
    modOnly m (mFN ||| mZL ||| mFTZ ||| mT1) && isNarrowCode (modT1 m) && typeOk feat (modT1 m)
      && modFn m * codeWidth (modT1 m) < 32
  | .vdqnt =>
    modOnly m (mFN ||| mZL ||| mFTZ ||| mSAT ||| mRM ||| mT2) && isNarrowCode (modT2 m)
      && typeOk feat (modT2 m) && modFn m * codeWidth (modT2 m) < 32
  | .vld =>
    modOnly m (mSX ||| mSIZE ||| mSCOPE ||| mORD ||| mZL ||| mT1) && typeOk feat (modT1 m)
      && modSize m ≤ 2 && !(modSx m && modSize m == 2) && modOrd m ≤ 1 && scopeOk m [0]
  | .vst =>
    modOnly m (mSIZE ||| mSCOPE ||| mORD ||| mT1) && typeOk feat (modT1 m)
      && modSize m ≤ 2 && (modOrd m == 0 || modOrd m == 2) && scopeOk m [0]
  | .vextr => modOnly m mT1 && [0, 7, 11].contains (modT1 m)
  | .vred scan =>
    modOnly m (mFN ||| mZL ||| mFTZ ||| mSAT ||| mRM ||| mT1) && [0, 7, 11].contains (modT1 m)
      && modFn m ≤ 5 && (modFn m < 3 || modT1 m == 11)
      && (modRm m == 0 || modT1 m == 0 && modFn m == 0)
      && (!modSat m || scan && modT1 m != 0 && modFn m == 0)
      && (!modFtz m || modT1 m == 0) && (!modZl m || scan)

/-- The X values of an instruction (R23; check 3). -/
def xOk (k : XKind) (x : BitVec 5) : Bool :=
  match k with
  | .none => x == 0
  | .group => x.toNat < 8
  | .single => x == 0
  | .engine => x.toNat < 8

/-- A literal in a vector field must fit the element width of T1 (R21; check 3). -/
def litFits (m : BitVec 32) (spec : FieldSpec) (o : Opnd) : Bool :=
  match o with
  | .lit v => spec.cls != .v || decide (v.toNat < 2 ^ codeWidth (modT1 m))
  | _ => true

/-- The operand is of the class a field takes (R22; check 4). The zero register matches every class; an
unused field holds 0x3FF; a literal stands only in a marked field; a vector group lies below VLEN. -/
def classOk (vlen c : Nat) (spec : FieldSpec) (o : Opnd) : Bool :=
  match o, spec.cls with
  | .lit _, .none => false
  | .lit _, _ => spec.mark
  | .zero, .label => false
  | .zero, _ => true
  | .v n, .v => n + c ≤ vlen && n < 640
  | .s n, .s => n < 64
  | .p n, .p => n < 24
  | .q n, .q => n < 16
  | .k n, .k => n < 8
  | _, _ => false

/-- Two vector groups of one word are equal or disjoint (R18 check 4). -/
def groupsOk (c : Nat) (x y : Opnd) : Bool :=
  match x, y with
  | .v n, .v m => n == m || n + c ≤ m || m + c ≤ n
  | _, _ => true

/-- An operand field by its number: 0 for D, 1 for A, 2 for B, 3 for C. -/
def wordField (w : TWord) : Nat → Opnd
  | 0 => w.d | 1 => w.a | 2 => w.b | _ => w.c

/-- The column of a row by its field number. -/
def rowField (r : OpRow) : Nat → FieldSpec
  | 0 => r.d | 1 => r.a | 2 => r.b | _ => r.c

/-- Check 4 of one field: its class, and its group against each other group of the word. -/
def fieldOk (vlen : Nat) (r : OpRow) (w : TWord) (i : Nat) : Bool :=
  classOk vlen (groupLen w) (rowField r i) (wordField w i)
    && (List.range 4).all fun j => (rowField r j).cls != .v || groupsOk (groupLen w) (wordField w i) (wordField w j)

/-- A failed check of R18: its number, and for check 4 the field, 0 to 3 for D, A, B and C. -/
structure Malformed where
  check : Nat
  field : Nat
deriving DecidableEq, Repr

/-- Check 3 of R18. -/
def check3Ok (feat : Nat) (r : OpRow) (w : TWord) : Bool :=
  xOk r.xk w.x && modOk feat r.md w.modf
    && (List.range 4).all fun i => litFits w.modf (rowField r i) (wordField w i)

/-- Check 4 of R18: the first field that fails. -/
def check4 (vlen : Nat) (r : OpRow) (w : TWord) : Option Nat :=
  (List.range 4).find? fun i => !fieldOk vlen r w i

/-- The guard names a predicate p0 to p23 (R18 check 2). -/
def guardOk (g : Guard) : Bool :=
  match g with
  | .always => true
  | .whenTrue n => n < 24
  | .whenFalse n => n < 24

/-- Whether an operand is a literal. -/
def opndIsLit : Opnd → Bool
  | .lit _ => true
  | _ => false

/-- LS selects at most one field, and never D (R17). -/
def oneLit (w : TWord) : Bool :=
  !opndIsLit w.d && !(opndIsLit w.a && opndIsLit w.b) && !(opndIsLit w.a && opndIsLit w.c) && !(opndIsLit w.b && opndIsLit w.c)

end Sys2Proof.Machine
end

