-- ==== Sys2Proof/Config.lean ====
section
/-! DEFINITION. What an implementation fixes and what the spec leaves free: the order in which units act
(R419), and values that the spec names without giving. An opaque constant has no body, so no proof can see
its value. -/

namespace Sys2Proof

/-- What of a store fails for good (R71, R225, R280, R330, R366): a memory line, a line of a tile's scratchpad, aligned 8 bytes of its
accumulator store (two words), one of its configuration planes, the entry at the head of one of its channels. -/
inductive StoreFault where
  | mem (line : Nat)
  | sp (tile line : Nat)
  | acc (tile pair : Nat)
  | plane (tile k : Nat)
  | entry (tile key : Nat)
deriving DecidableEq, Repr

/-- Which unit acts next: an issue slot of a tile (slot S or V), slot S where its word is not a wait for tokens (R236), a waiting word
of a thread, an engine of a tile at its ring head, an engine whose head command waits for no token (R236), the rows of the matrix
engine on one of its four ports or on their way to a store (port 4), the loader, the stages of an element's reactions, the next move
of an element, a sink that a region's completion counter serves, the column controllers at the end of a tick, a region whose
scree link falls due, a read port's fetch, an entry's way across a tile border, a request's way into its column's local queue,
a running copy transfer, the die scheduler's choice of a tile's resident contexts, an event ring's records beyond its own, a part of a
store that fails, or an event of the opcode table. -/
inductive Turn where
  | issue (tile : Nat) (vec : Bool)
  | issueEarly (tile : Nat)
  | retry (tile thr : Nat)
  | command (tile eng : Nat)
  | commandEarly (tile eng : Nat)
  | meRow (tile port : Nat)
  | load (tile : Nat)
  | stage (tile elem : Nat)
  | move (tile elem : Nat)
  | counter (tile elem out : Nat)
  | columns
  | linkDue (tile slot : Nat)
  | prefetch (tile port item : Nat)
  | cross (tile key : Nat)
  | accept (req : Nat)
  | copyStep (chan : Nat) (id : Nat)
  | park (tile : Nat)
  | ringDrain (ctx ring : Nat)
  | fail (what : StoreFault)
  | event (i : Instr)
deriving DecidableEq, Repr

/-- What acts at a tick, in order, of the activities whose durations R419 leaves open, and what the outside world supplies to the
events among them. UNVERIFIED (notes/assumptions/2.md). -/
opaque Config.turns : Nat → List Turn

/-- A value the spec leaves open, fresh for each number (notes/assumptions/3.md). -/
opaque Config.freeWord : Nat → BitVec 64

/-- The F32 code of a function of R102 where the model's bounds do not decide it: the function's FOP and the
operand (notes/assumptions/14.md). -/
opaque Config.sfuFallback : Nat → Nat → Nat

/-- The CRC-32 of a flit's bytes 0 to 75 (R405): its initial value, bit order and final XOR are open
(notes/assumptions/19.md). -/
opaque Config.linkCrc : List Byte → BitVec 32

/-- Whether a firmware image meets the signature and digest conditions of R401 (notes/assumptions/13.md). -/
opaque Config.imageVerifies : FirmwareImage → Bool

/-- The firmware image that the tray's flash holds; none where it holds none (R400). -/
opaque Config.flashImage : Option FirmwareImage

/-- The fused minimum of the security version (R401). -/
opaque Config.fusedVersion : Nat

/-- The bytes of an ATTEST report's body (R402), of the nonce, the firmware digest, FEATCAP, the locked feature set, LJSTAT,
the DCC and the leaf index: their places are open (notes/assumptions/13.md). -/
opaque Config.attestBody : List Byte → BitVec 384 → BitVec 128 → BitVec 128 → BitVec 64 → BitVec 64 → Nat → List Byte

/-- The column SRAM of a slot that Summit keeps for save areas and shadow storage, in 64 KiB units (R256, R384;
notes/assumptions/32.md). -/
opaque Config.slotReserve : Nat → Nat

/-- The bytes that the ATTEST report's two signatures take, of a report body and a leaf (R402;
notes/assumptions/13.md). -/
opaque Config.attestSignatures : List Byte → Nat → List Byte

end Sys2Proof
end

