-- ==== Sys2Proof/Machine/TileState.lean ====
section
/-! DEFINITION. The state of a tile as plain data (R119): threads, shadow sets, elements, channels,
regions, stream ports, the matrix engine and the stores. Registers that the spec gives no number of bits
for are naturals; a sparse table lists what differs from the reset value. -/

namespace Sys2Proof.Machine

/-- The states of a thread (R120), codes 0 to 4. -/
inductive ThreadState where
  | off | run | wait | halt | trap
deriving DecidableEq, Repr

/-- A register of a thread that an unfinished word will write (R131): its class (0 s, 1 p, 2 v, 3 k) and
number, the step from which its result stands, and the memory request it waits for. -/
structure Busy where
  cls : Nat
  num : Nat
  at_ : Nat
  req : Option Nat
deriving DecidableEq, Repr

/-- A pending fence (R158, R298): its kinds and scope, the requests it waits for, and the accesses of the thread's stream ports that
a walk or a fault holds, each with its item. -/
structure Fence where
  kinds : Nat
  scope : Nat
  ids   : List Nat
  ports : List (Nat × Nat)
deriving DecidableEq, Repr

/-- What a thread that has issued a word still has under way (R131, R150, R164, R269, R271). -/
structure Flight where
  /-- registers whose word has not completed -/
  busy     : List Busy
  /-- the step from which the next word may issue: the next step, 2 steps after a taken branch (R131, R139)
  or a YIELD (R150) -/
  notBefore : Nat
  /-- a GEAR of this thread has issued and not completed (R164) -/
  gearing  : Bool
  /-- a BARWAIT of this thread has been counted: slot, barrier, and the generation with its binding (R268) -/
  arrived  : Option (Nat × Nat × Nat)
  /-- the request that a waiting word has sent and whose answer it awaits (R369, R263, R275) -/
  asked    : Option Nat
  /-- the fence that is pending (R158) -/
  fence    : Option Fence
  /-- the tick at which a parked wait began (R271) -/
  waitFrom : Nat
  /-- loads that TRET.RETRY executes again before the thread goes on at its PC (R153) -/
  redo     : List Nat
  /-- the page on whose walk the thread's word is parked (R152, R320) -/
  parked   : Option Nat
  /-- the pages whose walks have ended for the thread's word -/
  walked   : List Nat
  /-- the word that trapped is a load that a TRET.RETRY executed again (R153) -/
  again    : Bool
deriving DecidableEq, Repr

/-- Nothing under way. -/
def Flight.none : Flight :=
  ⟨[], 0, false, Option.none, Option.none, Option.none, 0, [], Option.none, [], false⟩

/-- A thread (R119, R120): scalar registers of 64 bits, predicates and loop counters of 32 bits. -/
structure Thread where
  s  : Tab (BitVec 64)
  p  : Tab (BitVec 32)
  k  : Tab (BitVec 32)
  pc : Nat
  st : ThreadState
  fl : Flight
deriving DecidableEq, Repr

/-- A thread at reset: every register 0, PC 0, OFF (R120, R400). -/
def Thread.reset : Thread := ⟨[], [], [], 0, .off, Flight.none⟩

/-- An entry of a channel (R70, R71): kind code, payload and check code. -/
structure Entry where
  kind    : BitVec 3
  payload : BitVec 512
  crc     : BitVec 16
deriving DecidableEq, Repr

/-- A channel (R69): its entries, oldest first; the items that MERGE holds (R109); its depth; the scree
segments linked into it (R95); the instant of the next entry to be appended; whether END was appended; whether its
consumer has written its cairn record, from which the channel offers no slot (R338); the items that a firing has consumed
and whose MERGE is still to run, which keep their slots (R109); the tick of the last append and the entries appended at it,
which reach stage 1 a step later (R66); the newest entries that are still crossing a tile border (R13, R419). -/
structure Chan where
  q     : List Entry
  held  : List (BitVec 512)
  depth : Nat
  segs  : Nat
  next  : Nat
  ended : Bool
  shut  : Bool
  kept  : Nat
  wrote : Nat
  late  : Nat
  away  : Nat
deriving DecidableEq, Repr

/-- An empty channel. -/
def Chan.empty : Chan := ⟨[], [], 0, 0, 0, false, false, 0, 0, 0, 0⟩

/-- What an input of an element holds (R57 to R60, R72, R76): the type and scale mode in force, the LEN
count remaining, the latched codes, the ended flag, the drain count, and whether the head entry's status
has reached stage 2. -/
structure InState where
  ty      : Nat
  sm      : Nat
  len     : Nat
  codes   : BitVec 64
  latched : Bool
  ended   : Bool
  drain   : Nat
  seen    : Bool
  /-- side entries that have entered a delay line in input mode ahead of their instant entry -/
  pend    : List Entry
  /-- the step at which the status of the entry at stage 1 reaches stage 2 (R72, R82) -/
  taken   : Option Nat
  /-- the instant entries that stage 1 has taken from the channel, which is the instant of the next (R71, R115) -/
  cnt     : Nat
deriving DecidableEq, Repr

/-- An input at reset. -/
def InState.reset : InState := ⟨0, 0, 0, 0, false, false, 0, false, [], none, 0⟩

/-- An entry of a delay line (R83), with the side entries that travel with it in input mode. -/
structure LineEntry where
  kind  : BitVec 3
  item  : BitVec 512
  sides : List Entry
deriving DecidableEq, Repr

/-- What a trigger of the bundle in progress signalled (R113): its move index, unit, operation, the cause that has
no enable (0 none), the lanes that signal each condition, the lanes it computes, its operation type, and the value
that triggered it. -/
structure TrigRec where
  mov   : Nat
  unit  : Nat
  fop   : Nat
  alw   : Nat
  nar   : BitVec 16
  inv   : BitVec 16
  dz    : BitVec 16
  ovf   : BitVec 16
  lanes : BitVec 16
  ty    : Nat
  value : BitVec 512
deriving DecidableEq, Repr

/-- The kinds of reaction (R75, R77, R80). -/
inductive RxKind where
  | handler (h : Nat)
  | dflt
  | finishing
deriving DecidableEq, Repr

/-- What stands at the end of a bundle whose moves have run and whose triggers are still to be examined (R68, R113, R116):
the ports, the held items of the channels with the slots kept for a MERGE, what the triggers signalled, what the reaction
will emit, the input whose item a MERGE is still to take, and the index of the bundle's last move with its place in the
bundle. -/
structure BundleEnd where
  ports  : Tab (BitVec 512)
  held   : Tab (List (BitVec 512) × Nat)
  trigs  : List TrigRec
  outs   : Tab (BitVec 512)
  scales : Tab (BitVec 64)
  lines  : Tab (BitVec 512)
  merge  : Option Nat
  idx    : Nat
  mov    : Nat
deriving DecidableEq, Repr

/-- A reaction in the pipeline (R66 to R68, R78): its instant, kind, plane, the bundle and move reached, the
next move-store index, the inputs' type settings, the statuses and data items it consumed, the ports as they
stood when the bundle began, what the bundle's triggers signalled, and what it will emit. -/
structure Reaction where
  inst   : Nat
  kind   : RxKind
  plane  : Nat
  bundle : Nat
  mov    : Nat
  idx    : Nat
  done   : Bool
  ins    : Tab InState
  stat   : List Bool
  items  : Tab (BitVec 512)
  before : Tab (BitVec 512)
  opnds  : Bool
  trigs  : List TrigRec
  outs   : Tab (BitVec 512)
  scales : Tab (BitVec 64)
  lines  : Tab (BitVec 512)
  /-- half width was in force at its selection (R82) -/
  half   : Bool
  /-- its stage, 2 to 6, and the step at which it entered the stage (R66, R82) -/
  stage  : Nat
  since  : Nat
  /-- the bundles whose triggers have been examined (R113) -/
  exd    : Nat
  /-- the ends of the bundles that have run -/
  ends   : List BundleEnd
  /-- the entries that stage 1 has taken from each channel since the selection, up to the next one (R116) -/
  took   : Tab (List Entry)
  /-- the input-mode delay lines at the selection (R83, R116) -/
  fronts : Tab (List LineEntry)
  /-- the input whose item a MERGE of the handler is still to take (R109) -/
  merge  : Option Nat
  /-- the slots that its entries take of each output (R75) -/
  slots  : Tab Nat
deriving DecidableEq, Repr

/-- A fault that an element holds (R115): the record's two words, the saved trigger value, and the input of
a stage-1 fault. -/
structure ElemFault where
  w0    : BitVec 64
  w1    : BitVec 64
  value : BitVec 512
  stg1  : Bool
  inp   : Nat
deriving DecidableEq, Repr

/-- An element (R86): its current instant, the instants whose entries it has emitted, the finished flag, its
inputs, its ports (0 ALU.O, 1 ALU.R, 2 MUL.O, 3 MUL.R, 4 SFU.R, 5 CVT.R, 6 RED.O, 7 RED.R), delay lines, the
reactions in stages 2 to 6 in the order of their instants, its fault, the first instant under the plane of the switch in hand with that
plane, the SWITCH entries still to write, and the inputs that have delivered a CAIRN (R326). -/
structure Elem where
  inst     : Nat
  emitted  : Nat
  finished : Bool
  ins      : Tab InState
  ports    : Tab (BitVec 512)
  lines    : Tab (List LineEntry)
  rxs      : List Reaction
  fault    : Option ElemFault
  /-- the instant of a squashed reaction whose selection is not charged again (R417) -/
  paid     : Option Nat
  plane    : Nat
  swTag    : Option (Nat × Nat)
  swOwed   : List (Nat × BitVec 64)
  cairnIn  : List Nat
deriving DecidableEq, Repr

/-- An element at reset. -/
def Elem.reset : Elem := ⟨0, 0, false, [], [], [], [], none, none, 0, none, [], []⟩

/-- A SWITCH in hand on a side (R223): its tag, plane, signal, issue step and whether the tag has
reached the side. -/
structure PendSwitch where
  tag     : Nat
  plane   : Nat
  sig     : Option TokenRef
  issue   : Nat
  reached : Bool
  /-- the command's ring position (R136) -/
  pos     : Nat
deriving DecidableEq, Repr

/-- The states of a region slot (R217, R240). -/
inductive RegionState where
  | free | running | stopped | retiring
deriving DecidableEq, Repr

/-- A region slot (R217, R218, R226): its state, the sides it occupies, the planes in force, the record, the
frontier, the SWITCH in hand on each side, FIRE's signal and engine, the ENDs its sinks counted, the
instants each sink completed, the tick of the last movement of an entry, and an ABORT that waits for the
accepted writes with its signal. -/
structure Region where
  st     : RegionState
  ens    : Bool
  exs    : Bool
  pe     : Nat
  px     : Nat
  caddr  : BitVec 56
  cval   : BitVec 64
  flv    : Bool
  fl     : BitVec 9
  cscope : Nat
  front  : Nat
  swe    : Option PendSwitch
  swx    : Option PendSwitch
  sig    : Option TokenRef
  eng    : Nat
  ends   : List Nat
  sinks  : Tab Nat
  moved  : Nat
  stored : Option Nat
  abort  : Option (Option TokenRef)
  /-- the engine and the ring position of that ABORT (R136) -/
  abortAt : Option (Nat × Nat)
  snapAfter : Bool
  /-- a TRET.NEXT has left the completion store undone (R226) -/
  noStore : Bool
  /-- the accepted writes of the region's write ports that a CLOSE has unbound since (R226) -/
  gone   : List Nat
  /-- the stores in flight that happen before the region's completion store: those before its FIRE and before the EMITs to it
  (R291, R295, R238) -/
  before : List Nat
  /-- the entry that retirement has sent to its fire line (R226) -/
  sent   : Option Nat
  /-- the OTYPE in which each sink's next item was produced (R230, R223) -/
  otys   : Tab Nat
deriving DecidableEq, Repr

/-- A free region slot. -/
def Region.free : Region :=
  ⟨.free, false, false, 0, 0, 0, 0, false, 0, 0, 0, none, none, none, 0, [], [], 0, none, none, none, false, false, [], [], none, []⟩

/-- A stream port (R227 to R231): the eight words of its SPB, its position in items, whether it is closing,
whether END was delivered or counted, the codes last emitted, the fault that stops it, its accepted writes
that are not performed, what its indices come from, and the signals of the CLOSEs in hand. -/
structure StreamPort where
  spb     : List (BitVec 64)
  pos     : Nat
  closing : Bool
  ended   : Bool
  codes   : Option (BitVec 64)
  stopped : Bool
  writes  : List Nat
  /-- a write port's elements in an item as last taken (0 before the first), and the item from which they count with the stream
  position of that item (R228, R223) -/
  per     : Nat
  base    : Nat × Nat
  /-- a gathering port: the index element of its element 0; an index port: the index elements that others have taken (R228) -/
  ixFrom  : Int
  ixUsed  : Nat
  /-- the item whose access a walk or a fault holds (R298) -/
  miss    : Option Nat
  sigs    : List TokenRef
  /-- the ring position of the CLOSE in hand (R136) -/
  closeAt : Nat
  /-- the thread that enqueued the SPB (R298) -/
  thr     : Nat
  /-- items read ahead of their delivery: item n's payload at 2n, its codes at 2n + 1 -/
  ahead   : Tab (BitVec 512)
  /-- the writes of each instant that the port has accepted and its sink has not completed (R297) -/
  owed    : List (List Nat)
deriving DecidableEq, Repr

/-- A slab of B in the weight registers (R191, R201): its latched form and its raw elements by k × 128 + n,
and the latched scale codes by block × 128 + n. -/
structure Slab where
  tb    : Nat
  smb   : Nat
  xb    : Bool
  k     : Nat
  n     : Nat
  elems : Tab Nat
  codes : Tab Nat
deriving DecidableEq, Repr

/-- A row of a matrix-engine command on its way (R209): its index, the step of its next event, and its values: the slab values or
decoded elements that an accumulator row takes, or the accumulator words that a drain has read. -/
structure MeRow where
  row  : Nat
  at_  : Nat
  vals : List Int
deriving DecidableEq, Repr

/-- A matrix-engine command between issue and completion (R200, R209): its operation and argument, its signal if still
owed, its record, ring position, target, issue step, the next row of `total` to enter, the step at which that row is due, the
step at which the last one entered, the next row to reach the accumulator store with the step of the last access, the rows that
have entered and not reached it, the rows of a drain that have been read and not stored or delivered, the step
of its last write so far, the slab it uses or loads, whether it was enqueued in STRICT mode, whether a TRET.RETRY has
freed its next row from its step (R212), whether an accumulator row that fails its check holds the rows under way, and its lateness at issue with the stalls of its later rows since (R213). -/
structure MeRun where
  eop    : Nat
  arg    : BitVec 42
  sig    : Option TokenRef
  rec0   : BitVec 64
  rec1   : BitVec 64
  pos    : Nat
  target : Nat
  issue  : Nat
  row    : Nat
  due    : Nat
  ent    : Nat
  acc    : Nat
  accAt  : Nat
  rows   : List MeRow
  outs   : List MeRow
  last   : Nat
  slab   : Option Slab
  strict : Bool
  total  : Nat
  loose  : Bool
  held   : Bool
  late   : Nat
  stalls : Nat
deriving DecidableEq, Repr

/-- What an ENQ captured for a ring position, which is engine × 2^16 + position: for ME the target of the word it wrote, the
schedule base and mode (R132) and whether a TRET.RETRY freed the command from its target (R212); the thread that enqueued it (R298);
and the stores that happen before it (R295). -/
structure Captured where
  target  : Nat
  base    : Nat
  elastic : Bool
  retry   : Bool
  thr     : Nat
  stores  : List Nat
  /-- the step at which the ENQ put the command into the ring (R211) -/
  at_     : Nat
deriving DecidableEq, Repr

/-- The matrix engine of a set (R191, R201, R209, R214): the shadow slab, whether it is completed and unused, the active slab, the
commands on the west, shadow, drain and clear ports, the touch state of each row, the commands that have left their ports and whose
last write or signal is still to come, the commands that faults stopped, those of them that a TRET.RETRY has put back before their
ports are free, the scale codes latched on each array feed (R197), the feed groups that have ended (R197), and the step from which
slabs that a swap brought back may be used (R215). -/
structure MeState where
  shadow : Option Slab
  active : Option Slab
  fresh  : Bool
  west   : Option MeRun
  load   : Option MeRun
  drain  : Option MeRun
  clear  : Option MeRun
  touch  : Tab Nat
  done   : List MeRun
  again  : List MeRun
  back   : List MeRun
  codes  : Tab (BitVec 64)
  over_  : List Nat
  slabAt : Nat
deriving DecidableEq, Repr

/-- The matrix engine of a set at reset. -/
def MeState.reset : MeState := ⟨none, none, false, none, none, none, none, [], [], [], [], [], [], 0⟩

/-- An engine of a set besides its ring (R418, R242): whether the head's wait was performed, whether it is
stopped on a command fault, the step from which it takes its next command, the fire entry that the head has sent
(R357), and the stores in flight that its waits have made happen before its next command (R290, R295). -/
structure EngineState where
  waited  : Bool
  faulted : Bool
  free    : Nat
  sent    : Option Nat
  knows   : List Nat
deriving DecidableEq, Repr

/-- An element configuration image (R88): the 256 words of 64 bits by index, and the data items of its delay
lines by index. -/
structure Image where
  words : Tab (BitVec 64)
  dl    : Tab (BitVec 512)
deriving DecidableEq, Repr

/-- A configuration load in progress (R220): the side, plane and directory, the step at which it issued, its ring position and its
signal; the words read so far, the part it reads and the word of it (part 0 is the directory, 1 to 16 are the images, the tables
follow); what it has read; and the fault found, with the share offset that its record names. -/
structure LoadRun where
  side  : Nat
  pl    : Nat
  dir   : Nat
  issue : Nat
  pos   : Nat
  sig   : Option TokenRef
  words : Nat
  part  : Nat
  off   : Nat
  dirw  : Tab (BitVec 64)
  imgs  : Tab Image
  luts  : Tab (Tab (BitVec 32))
  bad   : Option (BitVec 64 × Nat)
deriving DecidableEq, Repr

/-- A trap record (R244): cause, thread and whether one is in TRAP for it, source, unit, slot, check, field,
position, address and details. -/
structure TrapRec where
  cause : Nat
  thr   : Nat
  thv   : Bool
  src   : Nat
  unit  : Nat
  slot  : Nat
  chk   : Nat
  fld   : Nat
  pos   : Nat
  addr  : BitVec 56
  det0  : BitVec 64
  det1  : BitVec 64
  /-- the deferred integrity record of a load (R153), or the record of a stopped transfer (R360) -/
  late  : Bool
deriving DecidableEq, Repr

/-- The record 0, which nothing raised. -/
def TrapRec.zero : TrapRec := ⟨0, 0, false, 0, 0, 0, 0, 0, 0, 0, 0, 0, false⟩

/-- The trap CSRs and the hold queue of a set (R244, R246). -/
structure TrapState where
  valid : Bool
  cur   : TrapRec
  vecEn : Bool
  hthr  : Nat
  vecPc : Nat
  hst   : Nat
  hpc   : Nat
  /-- the request that the handler thread awaited when it was taken from its waiting word -/
  hask  : Option Nat
  /-- the step at which a record was last dismissed (R247) -/
  left  : Nat
  /-- the step at which the presented record arose, if it was presented as it arose -/
  curAt : Option Nat
  held  : List TrapRec
  /-- the step of the last record that came to be held, and how many came at that step -/
  heldAt  : Nat
  heldNew : Nat
deriving DecidableEq, Repr

/-- The trap CSRs at reset: every field 0 (R244). -/
def TrapState.reset : TrapState := ⟨false, TrapRec.zero, false, 0, 0, 0, 0, none, 0, none, [], 0, 0⟩

/-- A stream register (R237 to R239): the bound slot, whether END was appended, the next instant. -/
structure QReg where
  slot  : Option Nat
  ended : Bool
  next  : Nat
deriving DecidableEq, Repr

/-- An unbound stream register. -/
def QReg.reset : QReg := ⟨none, false, 0⟩

/-- A restart snapshot (R135). -/
structure RpSnap where
  valid : Bool
  thr   : Nat
  pc    : Nat
  dly   : BitVec 32
  tok   : Tab Nat
  tails : Tab Nat
  front : Tab Nat
  spos  : Tab Nat
  /-- with each port's position, what its elements count from (R228) -/
  sper  : Tab (Nat × Nat × Nat)
deriving DecidableEq, Repr

/-- No snapshot. -/
def RpSnap.reset : RpSnap := ⟨false, 0, 0, 0, [], [], [], [], []⟩

/-- The state that a tile holds for one resident context (R119). -/
structure CtxSet where
  /-- CTXID (R123); none while no context is resident -/
  ctx      : Option Nat
  vlen     : Nat
  vbase    : Nat
  splen    : Nat
  spbase   : Nat
  acclen   : Nat
  accbase  : Nat
  ilen     : Nat
  ibase    : Nat
  schbase  : BitVec 64
  dly      : BitVec 32
  elastic  : Bool
  vprog    : Nat
  /-- the threads whose group word a TRET.RETRY resumes at register IDX (R171) -/
  vresume  : List Nat
  slk      : Tab (BitVec 16)
  reqL     : Bool
  gearPend : Option (Nat × Nat × Bool)
  causewait : BitVec 16
  rpsnap   : RpSnap
  elxen0   : BitVec 64
  elxen1   : BitVec 64
  tqcfg    : Tab (BitVec 8)
  ringLsz  : Tab Nat
  ringBase : Tab Nat
  head     : Tab (BitVec 16)
  tail     : Tab (BitVec 16)
  captured : Tab Captured
  tok      : Tab Nat
  /-- for each token of a queue, oldest first, the stores in flight that its signal promises (R290); one that is missing promises
  none -/
  tokIds   : Tab (List (List Nat))
  trap     : TrapState
  scrn     : Tab (BitVec 48)
  snapK    : Nat
  snapId   : Nat
  snapDone : Bool
  snapBusy : Bool
  pwrCap   : BitVec 32
  pwrCapNext : BitVec 32
  share    : BitVec 32
  enrgH    : BitVec 32
  pkenH    : BitVec 32
  energy   : Nat
  charged  : Nat
  bankCls  : Tab Nat
  threads  : Tab Thread
  elems    : Tab Elem
  regions  : Tab Region
  ports    : Tab StreamPort
  qregs    : Tab QReg
  eng      : Tab EngineState
  load     : Option LoadRun
  me       : MeState
  /-- asked to leave the tile at its next instant boundary (R378) -/
  stopReq  : Bool
  /-- TSC at which the set last left the tile (R122) -/
  leftAt   : Nat
  /-- the placement that runs in the set (R312) -/
  place    : Option Nat
  /-- the planes granted at dispatch (R311, R312) -/
  plreq    : Nat
deriving DecidableEq, Repr

/-- A shadow set at reset: every field at the reset value of its field map (R125, R244, R114). -/
def CtxSet.reset : CtxSet :=
  { ctx := none, vlen := 0, vbase := 0, splen := 0, spbase := 0, acclen := 0, accbase := 0, ilen := 0, ibase := 0,
    schbase := 0, dly := 0, elastic := false, vprog := 0, vresume := [], slk := [], reqL := false, gearPend := none,
    causewait := 0x0200, rpsnap := RpSnap.reset, elxen0 := 0xBBBBBBBBBBBBBBBB, elxen1 := 0xBBBBBBBBBBBBBBBB,
    tqcfg := [], ringLsz := [], ringBase := [], head := [], tail := [], captured := [], tok := [], tokIds := [],
    trap := TrapState.reset, scrn := [], snapK := 0, snapId := 0, snapDone := false, snapBusy := false,
    pwrCap := 0, pwrCapNext := 0, share := 0, enrgH := 0, pkenH := 0, energy := 0, charged := 0,
    bankCls := [], threads := [], elems := [], regions := [], ports := [], qregs := [], eng := [], load := none,
    me := MeState.reset, stopReq := false, leftAt := 0, place := none, plreq := 0 }

/-- A configuration plane of a side (R88, R216, R225): whether a load into it succeeded, whether its parity
fails, its 16 images. -/
structure Plane where
  valid : Bool
  bad   : Bool
  imgs  : Tab Image
deriving DecidableEq, Repr

/-- An empty plane. -/
def Plane.empty : Plane := ⟨false, false, []⟩

/-- A table of the tile LUT store (R88): its entries and the shadow set whose load filled it. -/
structure Lut where
  entries : Tab (BitVec 32)
  owner   : Option Nat
deriving DecidableEq, Repr

/-- A tile's clock (R126): the TSC at a tick from which edges count, that tick, the gear of the edges, and the edge at which
the pause in hand began, which is a full edge itself (0 for none). A stretch, a transition and a swap put the tick into the
future (R122, R127, R129). -/
structure Clock where
  base  : Nat
  since : Nat
  gearL : Bool
  mark  : Nat
deriving DecidableEq, Repr

/-- The vector word that holds slot V (R169): its set and thread, the group of its requests, the registers still to begin, the
step at which the next one begins, the step at which the word completes, and the destination's registers by class and number. -/
structure VectorRun where
  set  : Nat
  thr  : Nat
  grp  : Nat
  left : Nat
  next : Nat
  done : Nat
  regs : List (Nat × Nat)
deriving DecidableEq, Repr

/-- A tile (R119). -/
structure Tile where
  clk      : Clock
  /-- the effective gear is L (GEARST.EFF) -/
  effL     : Bool
  therm    : Bool
  /-- the thermal override has ended, and the return to the requested gear is still to come (R128) -/
  cool     : Bool
  /-- a transition under way and the TSC at which it began (R127) -/
  trans    : Option Nat
  drpHalf  : BitVec 16
  drpStr   : BitVec 4
  drpTh    : BitVec 6
  drpCnt   : BitVec 32
  /-- the TSC of the trip that began the stretch, and the edges it removed (R129) -/
  stretch  : Option (Nat × Nat)
  /-- the tick of the last sample that tripped -/
  tripAt   : Nat
  /-- droop half width: the first and last TSC it covers (R129) -/
  half     : Option (Nat × Nat)
  mtr      : Bool
  pool     : Nat
  poolAt   : Nat
  plown    : BitVec 4
  vregs    : Tab (BitVec 1024)
  sp       : Memory
  spBad    : List Nat
  acc      : Tab (BitVec 32)
  accBad   : List Nat
  istore   : Tab (BitVec 128)
  planes   : Tab Plane
  luts     : Tab Lut
  chans    : Tab Chan
  ptrS     : Nat
  ptrV     : Nat
  usedS    : Option Nat
  usedV    : Option Nat
  vbusy    : Nat
  /-- the vector word in slot V while registers of it are still to begin (R169) -/
  vrun     : Option VectorRun
  active   : Nat
  set0     : CtxSet
  set1     : CtxSet
  /-- the swap asked for: the incoming set has streamed in (R122) -/
  swapReady : Bool
  /-- the contexts' slices of the scheduling period in hand, in order, each with the tick at which it ends (R373) -/
  plan     : List (Nat × Nat)
  /-- PARK dropped the tile to gear L (R271) -/
  parked   : Bool
  removed  : Bool
deriving DecidableEq, Repr

/-- A tile at package reset (R125, R126, R400). -/
def Tile.reset : Tile :=
  { clk := ⟨0, 0, false, 0⟩, effL := false, therm := false, cool := false, trans := none, drpHalf := 0x0040, drpStr := 6, drpTh := 6,
    drpCnt := 0, stretch := none, tripAt := 0, half := none, mtr := false, pool := 0, poolAt := 0, plown := 0, vregs := [], sp := [],
    spBad := [], acc := [], accBad := [], istore := [], planes := [], luts := [], chans := [], ptrS := 0, ptrV := 0,
    usedS := none, usedV := none, vbusy := 0, vrun := none, active := 0, set0 := CtxSet.reset, set1 := CtxSet.reset,
    swapReady := false, plan := [], parked := false, removed := false }

end Sys2Proof.Machine
end

