-- ==== Sys2Proof/Machine/State.lean ====
section
/-! DEFINITION. The state of the FX9 package as plain data, its faults and refusals, and the state right
after package reset. Tables list what differs from the reset value; INVENTORY.md names the rule of each
field. -/

namespace Sys2Proof.Machine

/-- Why the machine stops with a fault. -/
inductive Fault where
  /-- Raised by a move that the configuration loader rejects (R33) and that reached an element all the same:
  no loaded image holds one. Safe: no behaviour of the hardware is excluded. -/
  | unloadable
deriving DecidableEq, Repr

/-- Why the model gives an instruction no meaning. -/
inductive Refusal where
  /-- Raised by an arm of exec that has no meaning yet. Safe: nothing is claimed of it. -/
  | notModelled (mnemonic : String)
deriving DecidableEq, Repr

/-- An agent of the memory model (R282). -/
inductive Agent where
  | thread (tile set thr : Nat)
  | port (tile set port : Nat)
  | region (tile set slot : Nat)
  | copy (chan id : Nat)
  | host
deriving DecidableEq, Repr

/-- Where a location lies (R283): physical memory, or the scratchpad of a tile by physical offset. -/
inductive Loc where
  | mem (pa : Nat)
  | sp (tile off : Nat)
deriving DecidableEq, Repr

/-- What a memory request does at its home (R153, R156, R259). -/
inductive ReqOp where
  | load | store
  | atom (fn : Nat)
  | cas
  | ldv | stv | reclaim
  | barinit | barrier
  | push | pop | steal
deriving DecidableEq, Repr

/-- Where the answer of a request goes: nowhere, a scalar register, or a lane of a register of a vector
group: first register, group length, register index, lane, element width. -/
inductive Dest where
  | none
  | sreg (n : Nat)
  | lane (v c j l : Nat)
deriving DecidableEq, Repr

/-- How far a request has come (R287): held in its tile until what is ordered before it is performed, sent on
its path, accepted in its own column's local queue, read ahead of an acquire that is still to be performed, applied at its home. -/
inductive ReqStage where
  | held | sent | accepted | early | applied
deriving DecidableEq, Repr

/-- What a store publishes to a reader that synchronises with it (R290, R291): the stores still in flight
that happen before it, the scope, and the agent. -/
structure SyncRec where
  ids   : List Nat
  scope : Nat
  agent : Agent
deriving DecidableEq, Repr

/-- A memory request in flight (R285 to R299): its agent, operation, virtual address, location, bytes, value,
compare value, sign extension, the scope and kind of its ordering, the requests that must be performed
within a scope before it (R289, R291; scope 5 is "sent", 6 "applied"), its stage, what it returned and whether
the line failed, the trap it answers with, its destination, its word's index, the group of lanes it belongs to
with the word's mask and .Z, the tick at which it reached its home, whether it waits there, what it
publishes, whether a later word's write of its destination has overtaken its answer (R139), and the step at which it completes
where a rule fixes that (R139, R169), the acquires of its thread that it may be read ahead of (R288, R289), and its place among what
its own column's local queue has accepted (R287). The mask of a store names the half bytes that it writes; 0 is all of them. -/
structure Req where
  id    : Nat
  agent : Agent
  op    : ReqOp
  va    : Nat
  loc   : Loc
  size  : Nat
  val   : BitVec 64
  cmp   : BitVec 64
  sx    : Bool
  scope : Nat
  acq   : Bool
  rel   : Bool
  sc    : Bool
  after : List (Nat × Nat)
  stage : ReqStage
  res   : BitVec 64
  bad   : Bool
  trap  : Option (Nat × BitVec 64)
  dst   : Dest
  pc    : Nat
  grp   : Nat
  mask  : BitVec 32
  zl    : Bool
  since : Nat
  waiting : Bool
  pub   : Option SyncRec
  got   : List SyncRec
  dead  : Bool
  due   : Option Nat
  ahead : List Nat
  place : Nat
deriving DecidableEq, Repr

/-- A barrier of a column controller (R260, R267, R268): its registers, the participants counted in the
current generation, and whether an error struck its state. -/
structure Barrier where
  gen    : BitVec 16
  arr    : Nat
  cnt    : Nat
  bnd    : Bool
  gu     : Bool
  pk     : Bool
  ls     : Bool
  ctx    : Nat
  parts  : List (Nat × Nat × Nat)
  failed : Bool
  /-- the number of the BARINIT that bound it: generations of different bindings are told apart by it (R267, R268) -/
  epoch  : Nat
  /-- the release latency that the arrivals counted so far make (R268) -/
  lat    : Nat
deriving DecidableEq, Repr

/-- An unbound barrier (R260). -/
def Barrier.reset : Barrier := ⟨0, 0, 0, false, false, false, false, 0, [], false, 0, 0⟩

/-- A release of a barrier that has not reached every participant (R268 to R273): slot, barrier, the generation with its binding, the release tick T and the latency, the flags, the participants still to resume, those that change gear with the
tick X from which they may, whether that was decided, and the resume tick of LOCKSTEP. -/
structure Release where
  slot  : Nat
  bar   : Nat
  gen   : Nat
  tick  : Nat
  lat   : Nat
  ls    : Bool
  gu    : Bool
  pk    : Bool
  parts : List (Nat × Nat × Nat)
  ups   : List ((Nat × Nat × Nat) × Nat)
  /-- the participants whose sets are not active at T + lat: they resume at the first step edge after their return (R273) -/
  away  : List (Nat × Nat × Nat)
  set_  : Bool
  meet  : Nat
deriving DecidableEq, Repr

/-- A deque of a column controller (R260, R274): enabled, context, segments, entries from the bottom to the
top, and whether an error struck it. -/
structure Deque where
  en     : Bool
  ctx    : Nat
  segs   : Nat
  q      : List (BitVec 64)
  failed : Bool
deriving DecidableEq, Repr

/-- A deque at reset (R260). -/
def Deque.reset : Deque := ⟨false, 0, 0, [], false⟩

/-- A versioned word (R262). -/
structure VWord where
  newest   : BitVec 16
  nlive    : Nat
  vals     : Tab (BitVec 64)
  poisoned : Bool
deriving DecidableEq, Repr

/-- A versioned word at mapping: L 0, one live version, version 0 holds 0 (R262). -/
def VWord.reset : VWord := ⟨0, 1, [], false⟩

/-- A column controller (R259, R260, R278). -/
structure Column where
  verswait : BitVec 32
  bars     : Tab Barrier
  deques   : Tab Deque
  temp     : BitVec 16
  fail     : Bool
  crit     : Bool
  sampled  : Nat
  removed  : Bool
deriving DecidableEq, Repr

/-- A column controller at reset (R260); the sample that boot takes is 40 °C. DESIGN CHOICE
(notes/assumptions/8.md). -/
def Column.reset : Column := ⟨0x1000, [], [], 160, false, false, 0, false⟩

/-- A share of one tile (R372): scratchpad rows, accumulator rows, vector registers, instruction words. -/
structure Share where
  sp  : Nat
  acc : Nat
  v   : Nat
  il  : Nat
deriving DecidableEq, Repr

/-- A range of a context's address space (R319, R374, R375): first address, bytes, first physical address,
permissions, attributes, for a demand range the owner of its pool and its address there or that of its backing, the
address in the parent's space from which it was composed, the MAP range that it is part of, and whether a child's save
range holds it back (R370). -/
structure Mapping where
  va    : Nat
  size  : Nat
  pa    : Nat
  r     : Bool
  w     : Bool
  vers  : Bool
  pin   : Bool
  dmd   : Bool
  owner : Nat
  src   : Nat
  pva   : Nat
  base  : Nat
  span  : Nat
  held  : Bool
deriving DecidableEq, Repr

/-- The states of a context (R367). -/
inductive CtxState where
  | stopped | running | trapped | lost
deriving DecidableEq, Repr

/-- The descriptor of a live context (R367), its tile shares, its address space, its demand frames by page
number, the pages that have one in the order in which they got it, pinned demand pages, the parent's addresses of its save ranges, its scree segments in use by die, the SNAP identifiers accepted, and the dies on which its save range
faults (R383). -/
structure Ctx where
  st     : CtxState
  depth  : Nat
  parent : Nat
  part   : Nat
  pceil  : Nat
  revk   : Bool
  revdl  : BitVec 32
  htile  : Nat
  dmask  : BitVec 64
  troot  : BitVec 64
  saves  : Tab (Nat × Nat)
  saveVa : Tab Nat
  scrn   : Nat
  scrnUsed : Tab Nat
  nring  : Nat
  ertab  : BitVec 56
  pwr    : Nat
  pwru   : Nat
  frm    : Nat
  frmu   : Nat
  slt    : Nat
  sltu   : Nat
  ts     : Nat
  tsu    : Nat
  trec   : List (BitVec 64)
  torig  : Option TrapRec
  twhere : Option (Nat × Nat)
  shares : Tab Share
  maps   : List Mapping
  frames : Tab Nat
  ages   : List Nat
  pinned : List Nat
  snapId : Nat
  saveBad : List Nat
deriving DecidableEq, Repr

/-- The root (R367): depth 0, parent 0x3FF, partition 0xF. Its ceiling, mask and amounts are DESIGN CHOICE
(notes/assumptions/6.md). -/
def Ctx.root : Ctx :=
  { st := .running, depth := 0, parent := 0x3FF, part := 0xF, pceil := 7, revk := false, revdl := 0, htile := 0,
    dmask := 0, troot := 0, saves := [], saveVa := [], scrn := 0, scrnUsed := [], nring := 0, ertab := 0, pwr := 38400000, pwru := 0,
    frm := 6291456, frmu := 0, slt := 65535, sltu := 0, ts := 256, tsu := 0, trec := [0, 0, 0, 0],
    torig := none, twhere := none, shares := [], maps := [], frames := [], ages := [], pinned := [], snapId := 0, saveBad := [] }

/-- What a context instruction asks of Summit (R368): the instruction by number (0 CTXNEW, 1 CTXGRANT,
2 CTXREVOKE, 3 CTXRUN, 4 CTXSTOP, 5 CTXQ, 6 MAP, 7 UNMAP, 8 PIN.P, 9 PIN.U), the issuing thread, its context,
operands and destination, the block that the word read, whether Summit has applied it, the accesses that a shootdown waits for, whether
it is answered and how: a value, or a refusal reason. -/
structure SummitReq where
  id      : Nat
  op      : Nat
  tile    : Nat
  set     : Nat
  thr     : Nat
  ctx     : Nat
  a       : BitVec 64
  b       : BitVec 64
  dst     : Opnd
  block   : List (BitVec 64)
  tick    : Nat
  applied : Bool
  waits   : List Nat
  ready   : Bool
  reason  : Nat
  value   : BitVec 64
deriving DecidableEq, Repr

/-- A revocation in hand (R381, R382). -/
structure Revocation where
  id     : Nat
  req    : Nat
  issuer : Nat
  child  : Nat
  kind   : Nat
  b      : BitVec 64
  dl     : Nat
  due    : Bool
deriving DecidableEq, Repr

/-- A launch queue's control block (R388) and the records taken ahead of the head (R306). -/
structure Queue where
  lsz   : Nat
  base  : BitVec 56
  en    : Bool
  tag   : Nat
  tail  : BitVec 32
  head  : BitVec 32
  ovf   : BitVec 32
  taken : List Nat
deriving DecidableEq, Repr

/-- A launch queue at reset (R388). -/
def Queue.reset : Queue := ⟨0, 0, false, 0, 0, 0, 0, []⟩

/-- A launch (R303, R306, R309, R315, R316): its context, queue, record, the priority it keeps, expansion, counts and
status, and the dies that were handed its D indices. -/
structure Launch where
  id       : Nat
  ctx      : Nat
  queue    : Nat
  words    : List (BitVec 64)
  prio     : Nat
  expanded : Bool
  count    : Nat
  nc       : Nat
  total    : Nat
  waiting  : List Nat
  live     : Nat
  disc     : Nat
  done     : Nat
  status   : Nat
  cause    : Nat
  tile     : Nat
  levels   : List (Nat × Nat)
  dies     : List Nat
  signalled : Bool
  recorded : Bool
  /-- the tick at which it retired (R316) -/
  retiredAt : Nat
  /-- whether the frame exhaustion that its reads met was reported (R321) -/
  starved  : Bool
deriving DecidableEq, Repr

/-- A placement that has taken a tile (R310, R312, R314). -/
structure Placement where
  id     : Nat
  launch : Nat
  ctx    : Nat
  p      : Nat
  tile   : Nat
  set    : Option Nat
  going  : Bool
deriving DecidableEq, Repr

/-- A set that is out of its tile (R326, R378): its context, the tile it left, the number under which `State.tiles` holds
it with its windows' contents, and the graph that it left with. -/
structure SavedSet where
  ctx   : Nat
  tile  : Nat
  held  : Nat
  graph : Option Nat
deriving DecidableEq, Repr

/-- A cairn snapshot of a graph (R325 to R329): its context, instant, identifier, tiles with the set on each,
the elements that have written their record (tile × 32 + element), the sources that have emitted their CAIRN and the
sinks that have counted one (tile and channel key), and whether the die scheduler took it for a pre-emption of its own. A tile
that the context's set has left is none of its tiles any more: the set is out with the graph. -/
structure Graph where
  id    : Nat
  ctx   : Nat
  k     : Nat
  ident : Nat
  tiles : List (Nat × Nat)
  elems : List Nat
  srcs  : List (Nat × Nat)
  sinks : List (Nat × Nat)
  sched : Bool
deriving DecidableEq, Repr

/-- An armed slot of a copy engine (R346): the template's eight words, the fire line, the arming context, tile
and set, and the queue of start entries. -/
structure ArmedSlot where
  words : List (BitVec 64)
  line  : Nat
  ctx   : Nat
  tile  : Nat
  set   : Nat
  q     : List (BitVec 32)
deriving DecidableEq, Repr

/-- A running transfer (R347, R350, R353): its ID, template, argument, armer, whether its start conditions have been met
(R352, R409), the index values read (R351), the pieces moved below `low` and beyond it, the items that a transform has
given, the bytes written, whether every piece is moved, SENT after its last fabric item (R412), the transform's region
slot, the stop that holds it with its address and whether it was reported (R359, R360), its status, and the stores of its
completion record (R354). -/
structure Transfer where
  id     : BitVec 32
  words  : List (BitVec 64)
  arg    : BitVec 32
  ctx    : Nat
  tile   : Nat
  set    : Nat
  bound  : Bool
  index  : List (BitVec 32)
  low    : Nat
  past   : List Nat
  got    : Nat
  bytes  : Nat
  ended  : Bool
  ack    : Nat
  tslot  : Nat
  stop   : Option (Nat × Nat)
  told   : Bool
  status : Nat
  record : Option (List Nat)
deriving DecidableEq, Repr

/-- A copy channel (R345): NEXT, WM, the completed IDs ahead of WM, the running transfers. Its fault state is that of the
first of them that is stopped. -/
structure CopyChan where
  next  : BitVec 32
  wm    : BitVec 32
  ends  : List (BitVec 32)
  runs  : List Transfer
deriving DecidableEq, Repr

/-- A copy channel as granted (R345). -/
def CopyChan.reset : CopyChan := ⟨0, 0, [], []⟩

/-- An entry on its way to a fire line (R346): line, argument, and its sender's number. -/
structure FireEntry where
  id   : Nat
  line : Nat
  arg  : BitVec 32
deriving DecidableEq, Repr

/-- A fabric channel (R407 to R409): its registers, the entries received and not delivered, the entries sent
and not acknowledged, credits, and its attachment: a stream port (tile, set, port) or a copy transfer (channel and ID). -/
structure FabChan where
  en     : Bool
  dir    : Bool
  st     : Nat
  reason : Nat
  rch    : BitVec 16
  sent   : BitVec 32
  ackd   : BitVec 32
  recv   : BitVec 32
  buf    : List Entry
  credit : Nat
  port   : Option (Nat × Nat × Nat)
  copy   : Option Nat
deriving DecidableEq, Repr

/-- A fabric channel at reset (R407). -/
def FabChan.reset : FabChan := ⟨false, false, 0, 0, 0, 0, 0, 0, [], 32, none, none⟩

/-- A fabric port (R405, R406): the next sequence to send, the next expected, the flits not acknowledged, each with the local
channel whose entry it carries, the failed retrains in a row, whether it is down and whether it retrains. -/
structure FabPort where
  seq      : BitVec 12
  expect   : BitVec 12
  replay   : List (Flit × Option Nat)
  fails    : Nat
  down     : Bool
  training : Bool
deriving DecidableEq, Repr

/-- A fabric port at reset (R406). -/
def FabPort.reset : FabPort := ⟨0, 0, [], 0, false, false⟩

/-- An event ring beyond its own records (R390): the segments linked into it and the records that wait there. -/
structure RingOver where
  segs : Nat
  q    : List (List (BitVec 64))
deriving DecidableEq, Repr

/-- A walk of a die's translation unit (R320): the page it resolves, the accesses parked on it, the address of
the first of them, and whether its frame exhaustion was reported (R321). -/
structure Walk where
  id   : Nat
  die  : Nat
  ctx  : Nat
  page : Nat
  who  : List Agent
  va   : Nat
  told : Bool
deriving DecidableEq, Repr

/-- The stages of boot (R400, R401, R399): the ROM's first step, reading the firmware image, firmware
running and waiting for FEATSEL or LAYOUT, running, recovery-wait, thermal shutdown. -/
inductive Boot where
  | rom | image | waiting | running | recovery | shutdown
deriving DecidableEq, Repr

/-- A partition swapped out (R386): its tiles, each with the number under which `State.tiles` holds it meanwhile, its
columns with their barriers and deques, and whether the host asked for it. -/
structure PartSave where
  part   : Nat
  tiles  : List (Nat × Nat)
  cols   : Tab Column
  byHost : Bool
deriving DecidableEq, Repr

/-- A swap of a partition that is to be done (R386): out or in, and whether the host asked for it. -/
structure SwapAsk where
  part   : Nat
  out    : Bool
  byHost : Bool
deriving DecidableEq, Repr

/-- The MF's mailbox (R394): its registers, whether the command in progress has been performed, and the completion writes
sent. -/
structure Mailbox where
  arg   : Tab (BitVec 64)
  busy  : Bool
  ended : Bool
  op    : Nat
  stat  : Nat
  res   : Tab (BitVec 64)
  told  : Nat
deriving DecidableEq, Repr

/-- A meter (R395, R396, R398): the quanta of the interval in progress, of the last 64 intervals, the energy
accumulator in microjoules with the picojoules beyond it, and whether its throttle is engaged. -/
structure Meter where
  now   : Nat
  past  : List Nat
  accum : Nat
  frac  : Nat
  hot   : Bool
deriving DecidableEq, Repr

/-- A meter at reset. -/
def Meter.reset : Meter := ⟨0, [], 0, 0, false⟩

/-- The unit that acts in a step: tile, set, thread, engine and element (notes/assumptions/2.md). -/
structure Focus where
  tile : Nat
  set  : Nat
  thr  : Nat
  eng  : Nat
  elem : Nat
deriving DecidableEq, Repr

/-- The package. -/
structure State where
  dcc       : Nat
  /-- the units that still act at this tick; the model's own (notes/assumptions/2.md) -/
  agenda    : List Turn
  /-- the unit that acts; the model's own (notes/assumptions/2.md) -/
  focus     : Focus
  /-- the number of the next free value; the model's own (notes/assumptions/3.md) -/
  fresh     : Nat
  /-- the number of the next request, launch, placement, walk, graph or revocation; the model's own
  (notes/assumptions/3.md) -/
  serial    : Nat
  tiles     : Tab Tile
  columns   : Tab Column
  vwords    : Tab VWord
  releases  : List Release
  mem       : Memory
  memBad    : List Nat
  reqs      : List Req
  /-- what the value at a location (byte) or object publishes (R290) -/
  sync      : Tab (List SyncRec)
  /-- per thread (tile × 8 + set × 4 + thread): in-flight stores that happen before it, what its relaxed
  loads have returned, and what its last fence publishes (R290, R291) -/
  known     : Tab (List Nat)
  seen      : Tab (List SyncRec)
  fenced    : Tab SyncRec
  /-- the tick and rank of the last operation on an object of a column controller (R264, R268, R276) -/
  ranks     : Tab (Nat × Nat)
  scToken   : Nat
  scDone    : Nat
  /-- the tick at which the token comes to its node (R294) -/
  scAt      : Nat
  walks     : List Walk
  tlb       : List (Nat × Nat)
  dieOut    : List Nat
  ctxs      : Tab Ctx
  summit    : List SummitReq
  revs      : List Revocation
  queueOwner : Tab Nat
  counters  : Tab (BitVec 32)
  counterOwner : Tab Nat
  queues    : Tab Queue
  lastQueue : Tab Nat
  rings     : Tab RingOver
  launches  : Tab Launch
  places    : Tab Placement
  saved     : List SavedSet
  graphs    : Tab Graph
  chanOwner : Tab Nat
  fireOwner : Tab Nat
  vfOwner   : Tab Nat
  copies    : Tab CopyChan
  slots     : Tab ArmedSlot
  fires     : List FireEntry
  fabChans  : Tab FabChan
  fabPorts  : Tab FabPort
  linkUp    : Bool
  notifies  : List (Nat × BitVec 32)
  box       : Mailbox
  ljSeq     : BitVec 32
  ljState   : Nat
  layout    : Tab (List (BitVec 64))
  staged    : Tab (List (BitVec 64))
  committed : Bool
  partsOut  : Tab PartSave
  swapAsks  : List SwapAsk
  boot      : Boot
  /-- the image that a recovery write put into the flash (R401); none while it holds `Config.flashImage` -/
  flash     : Option FirmwareImage
  fwVersion : Nat
  fwDigest  : BitVec 384
  featcap   : BitVec 128
  featsel   : Option (BitVec 128)
  lmsLeaf   : Nat
  limit     : Nat
  /-- the limit from the next interval on (R397) -/
  limitNext : Nat
  meters    : Tab Meter
  scrubbed  : Nat
  uncorrected : Nat
  gateBad   : Nat
  rootEvent : BitVec 64
  /-- what the host last read (R392) -/
  hostRead  : BitVec 64
  /-- whether that read ended with the link's poisoned completion (R365) -/
  hostPoison : Bool
deriving DecidableEq, Repr

/-- The package right after package reset (R5, R126, R400): the ROM has yet to run; values the spec does not
give are those of the log entries that INVENTORY.md names. -/
def State.reset : State :=
  { dcc := 0, agenda := [], focus := ⟨0, 0, 0, 0, 0⟩, fresh := 0, serial := 0, tiles := [], columns := [], vwords := [],
    releases := [], mem := [], memBad := [], reqs := [], sync := [], known := [], seen := [], fenced := [], ranks := [],
    scToken := 0, scDone := 0, scAt := 0, walks := [], tlb := [], dieOut := [], ctxs := [(0, Ctx.root)], summit := [], revs := [],
    queueOwner := [], counters := [], counterOwner := [], queues := [], lastQueue := [], rings := [], launches := [], places := [],
    saved := [], graphs := [], chanOwner := [], fireOwner := [], vfOwner := [], copies := [], slots := [], fires := [],
    fabChans := [], fabPorts := [], linkUp := true, notifies := [], box := ⟨[], false, false, 0, 0, [], 0⟩, ljSeq := 0,
    ljState := 0, layout := [], staged := [], committed := false, partsOut := [], swapAsks := [], boot := .rom,
    flash := none, fwVersion := 0, fwDigest := 0, featcap := 0x1FF, featsel := none, lmsLeaf := 0, limit := 2400, limitNext := 2400,
    meters := [], scrubbed := 0, uncorrected := 0, gateBad := 0, rootEvent := 0, hostRead := 0, hostPoison := false }

end Sys2Proof.Machine
end

