-- ==== Sys2Proof/Machine/Ops.lean ====
section
/-! DEFINITION. The named operations over the state: tiles, shadow sets, threads, windows, clocks, restart
snapshots, the entry of a trap (R246, R380) and the return from one (R161, R247), and the frame in which
every tile-controller word runs (R19, R20, R139, R147). -/

namespace Sys2Proof.Machine

/-! ### Tiles, sets, threads -/

/-- A tile. -/
def getTile (s : State) (t : Nat) : Tile := Tab.get Tile.reset s.tiles t

/-- The state with a tile replaced. -/
def setTile (s : State) (t : Nat) (v : Tile) : State := { s with tiles := Tab.set s.tiles t v }

/-- The state with a tile changed. -/
def modTile (s : State) (t : Nat) (f : Tile → Tile) : State := setTile s t (f (getTile s t))

/-- A shadow set of a tile. -/
def tileSet (t : Tile) (i : Nat) : CtxSet := if i = 0 then t.set0 else t.set1

/-- A tile with a shadow set replaced. -/
def putTileSet (t : Tile) (i : Nat) (c : CtxSet) : Tile :=
  if i = 0 then { t with set0 := c } else { t with set1 := c }

/-- A shadow set. -/
def getSet (s : State) (t i : Nat) : CtxSet := tileSet (getTile s t) i

/-- The state with a shadow set replaced. -/
def setSet (s : State) (t i : Nat) (c : CtxSet) : State := modTile s t fun x => putTileSet x i c

/-- The state with a shadow set changed. -/
def modSet (s : State) (t i : Nat) (f : CtxSet → CtxSet) : State := setSet s t i (f (getSet s t i))

/-- A thread of a set. -/
def setThread? (c : CtxSet) (n : Nat) : Thread := Tab.get Thread.reset c.threads n

/-- A set with a thread changed. -/
def modThreadOf (c : CtxSet) (n : Nat) (f : Thread → Thread) : CtxSet :=
  { c with threads := Tab.set c.threads n (f (setThread? c n)) }

/-- A thread. -/
def getThread (s : State) (t i n : Nat) : Thread := setThread? (getSet s t i) n

/-- The state with a thread changed. -/
def modThread (s : State) (t i n : Nat) (f : Thread → Thread) : State :=
  modSet s t i fun c => modThreadOf c n f

/-- The tile that acts. -/
def curTile (s : State) : Tile := getTile s s.focus.tile
/-- The set that acts. -/
def curSet (s : State) : CtxSet := getSet s s.focus.tile s.focus.set
/-- The thread that acts. -/
def curThread (s : State) : Thread := getThread s s.focus.tile s.focus.set s.focus.thr
/-- The state with the acting tile changed. -/
def modCurTile (s : State) (f : Tile → Tile) : State := modTile s s.focus.tile f
/-- The state with the acting set changed. -/
def modCurSet (s : State) (f : CtxSet → CtxSet) : State := modSet s s.focus.tile s.focus.set f
/-- The state with the acting thread changed. -/
def modCurThread (s : State) (f : Thread → Thread) : State :=
  modThread s s.focus.tile s.focus.set s.focus.thr f
/-- The context that acts; the root's number where no context is resident (notes/assumptions/11.md). -/
def curCtx (s : State) : Nat := (curSet s).ctx.getD 0

/-- The set of a tile that holds a context, if one does. -/
def setOfCtx (t : Tile) (ctx : Nat) : Option Nat :=
  if t.set0.ctx = some ctx then some 0 else if t.set1.ctx = some ctx then some 1 else none

/-- Where a context's set for a tile stands: in the tile, or out of it under the number that holds it. -/
def whereSet (s : State) (t ctx : Nat) : Option (Nat × Nat) :=
  match setOfCtx (getTile s t) ctx with
  | some i => some (t, i)
  | none => (s.saved.find? fun v => v.ctx == ctx && v.tile == t).map fun v => (v.held, 0)

/-! ### Contexts -/

/-- The descriptor of a context; a number that names no live context reads as the root's descriptor with
nothing in it, which no caller uses. -/
def getCtx (s : State) (c : Nat) : Ctx := Tab.get { Ctx.root with pwr := 0, frm := 0, slt := 0, ts := 0 } s.ctxs c

/-- Whether a context is live (R367). -/
def isLive (s : State) (c : Nat) : Bool := (Tab.find? s.ctxs c).isSome

/-- The state with a context changed. -/
def modCtx (s : State) (c : Nat) (f : Ctx → Ctx) : State :=
  { s with ctxs := Tab.set s.ctxs c (f (getCtx s c)) }

/-- Whether context `a` is context `c` or an ancestor of it, looking up to `fuel` levels. -/
def isAncestorN (s : State) (a : Nat) : Nat → Nat → Bool
  | 0, c => a == c
  | fuel + 1, c => a == c || ((getCtx s c).depth != 0 && isAncestorN s a fuel (getCtx s c).parent)

/-- Whether context `c` lies in the subtree of `a` (R367: at most 8 levels). -/
def inSubtree (s : State) (a c : Nat) : Bool := isLive s c && isAncestorN s a 9 c

/-- Whether a context runs: it and every ancestor are in state running (R378). -/
def ctxRunsN (s : State) : Nat → Nat → Bool
  | 0, c => (getCtx s c).st == .running
  | fuel + 1, c =>
    (getCtx s c).st == .running && ((getCtx s c).depth == 0 || ctxRunsN s fuel (getCtx s c).parent)

/-- The partition of a context; 15 for the root (R367). -/
def partOf (s : State) (c : Nat) : Nat := (getCtx s c).part

/-- Whether a partition is swapped out or on its way out (R386). -/
def partStops (s : State) (p : Nat) : Bool := (Tab.find? s.partsOut p).isSome || s.swapAsks.any fun a => a.part == p && a.out

/-- Whether a context runs (R378, R386). -/
def ctxRuns (s : State) (c : Nat) : Bool := ctxRunsN s 9 c && !partStops s (partOf s c)

/-- The partition that holds a slot under the layout in force (R384); one that is swapped out does not (R386). -/
def slotPart (s : State) (slot : Nat) : Option Nat :=
  (List.range 12).find? fun p =>
    bit ((((Tab.get [] s.layout p).headD 0).toNat)) slot && (Tab.find? s.partsOut p).isNone

/-- The slot of a tile in the package (R9): tiles of a die stand in rows of eight, four to a 2 × 2 square. -/
def tileSlot (t : Nat) : Nat := t / 64 * 16 + t % 64 / 16 * 4 + t % 8 / 2

/-- The die of a tile (R9). -/
def tileDie (t : Nat) : Nat := t / 64

/-- The feature set in force (R403). -/
def features (s : State) : Nat :=
  match s.featsel with
  | some f => (s.featcap &&& f).toNat % 512
  | none => s.featcap.toNat % 512

/-- Whether a type code names a format of this part: codes 5 and 6 only with the feature of tapered formats (R403). -/
def typeThere (s : State) (t : Nat) : Bool := t < 14 && (bit (features s) 7 || !(t == 5 || t == 6))

/-! ### Clocks (R126, R127, R129) -/

/-- The TSC of a clock at a tick. -/
def clockTsc (c : Clock) (dcc : Nat) : Nat :=
  if dcc ≤ c.since then c.base
  else if c.gearL then c.base + (dcc / 4 - c.since / 4)
  else c.base + (dcc - c.since)

/-- Whether a tick is a step edge of a clock; the edge at which a pause begins is one (R122, R127, R129). -/
def clockEdge (c : Clock) (dcc : Nat) : Bool := (c.since < dcc && (!c.gearL || dcc % 4 == 0)) || (c.mark != 0 && dcc == c.mark)

/-- The TSC of a tile now. -/
def tscOf (s : State) (t : Nat) : Nat := clockTsc (getTile s t).clk s.dcc

/-- Whether this tick is a step edge of a tile. -/
def edgeNow (s : State) (t : Nat) : Bool := clockEdge (getTile s t).clk s.dcc

/-- The clock that counts no edge after this tick up to tick `until_` and then counts edges of a gear. -/
def clockPause (c : Clock) (dcc until_ : Nat) (gearL : Bool) : Clock := ⟨clockTsc c dcc, until_, gearL, if clockEdge c dcc then dcc else 0⟩

/-- The tick of the n-th edge of a gear after a tick. -/
def edgesAfter (tick n : Nat) (gearL : Bool) : Nat := if gearL then (tick / 4 + n) * 4 else tick + n

/-- The step edges that the stretch in hand has still to remove at a tick: those of a trip at this very edge (R129). -/
def stretchNow (t : Tile) (dcc : Nat) : Nat :=
  match t.stretch with
  | some (trip, n) => if t.clk.mark != 0 && t.clk.mark == dcc && clockTsc t.clk dcc == trip then n else 0
  | none => 0

/-- A tile's clock after a pause of some ticks that begins now: a trip at the same edge removes its edges behind it (R129,
R138). -/
def tilePause (t : Tile) (dcc ticks : Nat) (gearL : Bool) : Clock :=
  clockPause t.clk dcc (edgesAfter (dcc + ticks) (stretchNow t dcc) gearL) gearL

/-- Whether half width is in force at a tile's step (R130, R395). -/
def halfWidth (t : Tile) (tsc : Nat) : Bool :=
  t.mtr || (match t.half with | some (a, b) => a ≤ tsc && tsc ≤ b | none => false)

/-! ### Free values -/

/-- A fresh value that nothing constrains, and the state that has used it (notes/assumptions/3.md). -/
def freeValue (s : State) : BitVec 64 × State := (Config.freeWord s.fresh, { s with fresh := s.fresh + 1 })

/-- A fresh number for a request, launch, placement, walk, graph or revocation. -/
def newSerial (s : State) : Nat × State := (s.serial, { s with serial := s.serial + 1 })

/-! ### Windows (R121) -/

/-- The bytes of a set's scratchpad share. -/
def shareBytes (c : CtxSet) : Nat := c.splen * 2048

/-- The physical scratchpad offset of a share offset. -/
def spPhys (c : CtxSet) (a : Nat) : Nat := c.spbase * 2048 + a

/-- The number that `n` bytes of a share spell. -/
def shareRead (t : Tile) (c : CtxSet) (a n : Nat) : Nat := Memory.read t.sp (spPhys c a) n

/-- A 64-bit word of a share. -/
def shareWord (t : Tile) (c : CtxSet) (a : Nat) : BitVec 64 := BitVec.ofNat 64 (shareRead t c a 8)

/-- The acting set's share with `n` bytes written. -/
def shareWrite (s : State) (t i a n v : Nat) : State :=
  modTile s t fun x => { x with sp := Memory.write x.sp (spPhys (tileSet x i) a) n v }

/-- Whether the 64-byte line of a scratchpad byte fails its check. -/
def spLineBad (t : Tile) (phys : Nat) : Bool := t.spBad.contains (phys / 64)

/-- A vector register of a set. -/
def vregRead (t : Tile) (c : CtxSet) (n : Nat) : BitVec 1024 := Tab.get 0 t.vregs (c.vbase + n)

/-- The state with a vector register of a set written. -/
def vregWrite (s : State) (t i n : Nat) (v : BitVec 1024) : State :=
  modTile s t fun x => { x with vregs := Tab.set x.vregs ((tileSet x i).vbase + n) v }

/-- A word of a set's instruction window. -/
def iword (t : Tile) (c : CtxSet) (pc : Nat) : BitVec 128 := Tab.get 0 t.istore (c.ibase + pc)

/-! ### Restart snapshots (R135, R136, R214) -/

/-- The items a stream port has passed. -/
def portPos (c : CtxSet) (p : Nat) : Nat := ((Tab.find? c.ports p).map StreamPort.pos).getD 0

/-- The set after a restart point of a thread at a word (R135, R214). -/
def snapshotSet (c : CtxSet) (thr pc : Nat) : CtxSet :=
  { c with
    rpsnap :=
      { valid := true, thr := thr, pc := pc, dly := c.dly, tok := c.tok
        tails := (List.range 6).map fun e => (e, (Tab.get 0 c.tail e).toNat)
        front := (List.range 4).map fun r => (r, (Tab.get Region.free c.regions r).front)
        spos := (List.range 8).map fun p => (p, portPos c p)
        sper := (List.range 8).map fun p => (p, ((Tab.find? c.ports p).map fun x => (x.per, x.base)).getD (0, 0, 0)) }
    me := { c.me with touch := [] }
    regions := Tab.mapAll (fun _ r => { r with snapAfter := false }) c.regions }

/-! ### Trap entry (R246) and reflection (R380) -/

/-- A trap record of a thread's word: its cause, the word's index, the faulting address and the detail. -/
def wordRec (cause thr pc : Nat) (addr : Nat) (det0 : BitVec 64) : TrapRec :=
  { cause := cause, thr := thr, thv := true, src := 0, unit := 0, slot := 0, chk := 0, fld := 0, pos := pc,
    addr := BitVec.ofNat 56 addr, det0 := det0, det1 := 0, late := false }

/-- A trap record of a unit other than a thread. -/
def unitRec (cause src unit slot pos : Nat) (addr : Nat) (det0 det1 : BitVec 64) : TrapRec :=
  { cause := cause, thr := 0, thv := false, src := src, unit := unit, slot := slot, chk := 0, fld := 0, pos := pos,
    addr := BitVec.ofNat 56 addr, det0 := det0, det1 := det1, late := false }

/-- A record about a context (R380): SRC 5 and every unit field 0. -/
def ctxRec (cause : Nat) (addr : Nat) (det0 det1 : BitVec 64) : TrapRec :=
  unitRec cause 5 0 0 0 addr det0 det1

/-- TRCAUSE of a record (R244), VALID set. -/
def trcauseWord (valid : Bool) (r : TrapRec) : BitVec 64 :=
  BitVec.ofNat 64 ((if valid then 2 ^ 63 else 0) + r.cause % 256 * 2 ^ 48 + r.thr % 8 * 2 ^ 45
    + (if r.thv then 2 ^ 44 else 0) + r.src % 16 * 2 ^ 40 + r.unit % 8 * 2 ^ 37 + r.slot % 4 * 2 ^ 35
    + r.chk % 8 * 2 ^ 32 + r.fld % 4 * 2 ^ 30)

/-- The thread of a record in TRAP (R120). A trap of the thread's own word ends what the word has under way: its parked access
and the request that it awaits. Both stand where another unit's record, or the deferred record of an earlier load (R153), stops
the thread. -/
def enterTrap (c : CtxSet) (r : TrapRec) : CtxSet :=
  if r.thv then modThreadOf c r.thr fun th =>
    if r.src = 0 && !r.late then
      { th with st := .trap, fl := { th.fl with walked := [], asked := none, parked := none, again := !th.fl.redo.isEmpty } }
    else { th with st := .trap }
  else c

/-- The set after a record is presented to its handler thread (R246 steps 2 to 4). -/
def presentSet (c : CtxSet) (r : TrapRec) : CtxSet :=
  let h := setThread? c c.trap.hthr
  let c := { c with trap := { c.trap with
    valid := true, cur := r, hst := (match h.st with
      | .off => 0 | .run => 1 | .wait => 2 | .halt => 3 | .trap => 4), hpc := h.pc, hask := h.fl.asked } }
  modThreadOf c c.trap.hthr fun th =>
    { th with st := .run, pc := c.trap.vecPc, fl := { th.fl with asked := none, notBefore := 0 } }

/-- Whether a context handles a cause: TRVEC.EN, the delegation mask, and a handler thread that is not itself
in TRAP for the record (R246 step 1). -/
def handles (s : State) (c : CtxSet) (ctx : Nat) (r : TrapRec) : Bool :=
  c.trap.vecEn && bit (getCtx s ctx).dmask.toNat r.cause && !(r.thv && r.thr == c.trap.hthr)

/-- Every live descendant of a context, itself included. -/
def subtree (s : State) (a : Nat) : List Nat := (s.ctxs.map Prod.fst).filter fun c => inSubtree s a c

/-- The sets of a context asked to leave their tiles at the next instant boundary (R378). -/
def stopSets (s : State) (cs : List Nat) : State :=
  let ask (c : CtxSet) : CtxSet :=
    match c.ctx with
    | some x => if cs.contains x then { c with stopReq := true } else c
    | none => c
  { s with tiles := Tab.mapAll (fun _ t => { t with set0 := ask t.set0, set1 := ask t.set1 }) s.tiles }

/-- The event that Summit reports to the host (R394 ERRLOG, R380). -/
def reportRoot (s : State) (ev : BitVec 64) : State :=
  { s with rootEvent := ev, box := { s.box with res := Tab.set s.box.res 3 ev, told := s.box.told + 1 } }

/-- The place of a record among those of one step (R246): elements in ascending number, then engines, then threads; the others, whose
place the rule does not give, after them. DESIGN CHOICE (notes/assumptions/118.md). -/
def recRank (r : TrapRec) : Nat :=
  match r.src with
  | 2 => r.det0.toNat / 2 ^ 55 % 32
  | 1 => 32 + r.unit
  | 0 => 64 + r.thr
  | _ => 96

/-- A record put among the newest of the hold queue, behind those of its step that come before it. -/
def insertRec (r : TrapRec) : List TrapRec → List TrapRec
  | [] => [r]
  | x :: t => if recRank r < recRank x then r :: x :: t else x :: insertRec r t

/-- A record held at a step (R246): behind those that arose in earlier steps. -/
def holdRec (tr : TrapState) (tsc : Nat) (r : TrapRec) : TrapState :=
  let n := if tr.heldAt = tsc then tr.heldNew else 0
  let k := tr.held.length - n
  { tr with held := tr.held.take k ++ insertRec r (tr.held.drop k), heldAt := tsc, heldNew := n + 1 }

/-- A record presented at a step: its handler thread issues from the next step on. -/
def presentAt (c : CtxSet) (tsc : Nat) (r : TrapRec) : CtxSet :=
  modThreadOf (presentSet c r) c.trap.hthr fun th => { th with fl := { th.fl with notBefore := tsc + 1 } }

/-- A record that arrives at a set: held while another is presented or held (R246), else presented if the
context handles it; `none` where it is to be reflected. One that comes before the presented record of the same step takes
its place. -/
def arrive (s : State) (t i : Nat) (r : TrapRec) : Option State :=
  let c := enterTrap (getSet s t i) r
  let s1 := setSet s t i c
  let tsc := tscOf s t
  match c.ctx with
  | none => some s1
  | some ctx =>
    if c.trap.valid && r.thv && r.thr == c.trap.hthr then none
    else if c.trap.valid && c.trap.curAt == some tsc && recRank r < recRank c.trap.cur then
      if handles s c ctx r then
        some (setSet s t i { c with trap := { holdRec c.trap tsc c.trap.cur with cur := r } })
      else none
    else if c.trap.valid || !c.trap.held.isEmpty then some (setSet s t i { c with trap := holdRec c.trap tsc r })
    else if handles s c ctx r then
      some (setSet s t i (presentAt { c with trap := { c.trap with curAt := some tsc } } tsc r))
    else none

/-- Reflection of context `x`'s record (R380): x is stopped with its record in TREC, and its parent receives a
child trap at its HTILE, level by level up to the root. -/
def reflect (s : State) (t i : Nat) (r : TrapRec) : Nat → Nat → State
  | 0, _ => s
  | fuel + 1, x =>
    let s1 := modCtx s x fun c =>
      { c with st := .trapped, trec := [trcauseWord true r, r.addr.zeroExtend 64, r.det0, r.det1],
               torig := some r, twhere := some (t, i) }
    let s2 := stopSets s1 (subtree s1 x)
    let up : TrapRec := ctxRec 0x22 r.addr.toNat (BitVec.ofNat 64 (x + r.cause * 65536)) r.det0
    if (getCtx s x).depth = 0 then reportRoot s2 up.det0
    else
      let par := (getCtx s x).parent
      if (getCtx s par).depth = 0 then reportRoot s2 up.det0
      else
        let h := (getCtx s par).htile
        match whereSet s2 h par with
        | some (u, j) =>
          let c := getSet s2 u j
          if c.trap.vecEn && bit (getCtx s par).dmask.toNat 0x22 then
            match arrive s2 u j up with
            | some s3 => s3
            | none => reflect s2 u j up fuel par
          else reflect s2 u j up fuel par
        | none => reflect s2 h 0 up fuel par

/-- Taking a trap, whatever its source (R246): the one operation through which every trap goes. -/
def raiseTrap (s : State) (t i : Nat) (r : TrapRec) : State :=
  match arrive s t i r with
  | some s1 => s1
  | none => reflect (setSet s t i (enterTrap (getSet s t i) r)) t i r 9 ((getSet s t i).ctx.getD 0)

/-- The next held record is presented (R246, R247); nothing where one is presented already. -/
def presentNext (s : State) (t i : Nat) : State :=
  let c := getSet s t i
  match c.trap.held, c.ctx with
  | r :: rest, some ctx =>
    if c.trap.valid then s
    else
      let c1 := { c with trap := { c.trap with held := rest, curAt := none } }
      if handles s c ctx r then setSet s t i (presentAt c1 (tscOf s t) r)
      else reflect (setSet s t i c1) t i r 9 ctx
  | _, _ => s

/-- The presented record dismissed and the handler thread returned to where it was (R247): VALID is cleared, the other fields of
the trap CSRs stand (R252). -/
def leaveHandler (c : CtxSet) : CtxSet :=
  let tr := c.trap
  let c1 := { c with trap := { tr with valid := false } }
  modThreadOf c1 tr.hthr fun th =>
    { th with pc := tr.hpc, fl := { th.fl with asked := tr.hask },
              st := (match tr.hst with | 0 => .off | 1 => .run | 2 => .wait | 3 => .halt | _ => .trap) }

/-! ### The frame of a tile-controller word -/

/-- What a word's effect decides: it is done and the next word follows; it is done and the PC moves; the
thread waits in it; it is not ready and has not issued; it stops the thread; or it traps. -/
inductive Res where
  | done (s : State)
  | jump (s : State) (pc : Int)
  | wait (s : State)
  | hold
  | stop (s : State)
  | trap (s : State) (r : TrapRec)

/-- The index of the word that a thread executes: a load that is executed again (R153), else its PC. -/
def fetchPc (th : Thread) : Nat := th.fl.redo.headD th.pc

/-- The thread moves to a word index; one outside the instruction window raises the instruction-bound trap
against the word that produced it (R147). A load executed again leaves the PC as it is (R153). -/
def goPc (s : State) (pc : Int) (taken : Bool) : State :=
  let c := curSet s
  let th := curThread s
  if !th.fl.redo.isEmpty then
    modCurThread s fun x =>
      { x with st := .run
               fl := { x.fl with redo := x.fl.redo.tail, notBefore := tscOf s s.focus.tile + 1, walked := [], asked := none, parked := none } }
  else if 0 ≤ pc && pc < (c.ilen : Int) then
    modCurThread s fun x =>
      { x with pc := pc.toNat, st := .run
               fl := { x.fl with notBefore := tscOf s s.focus.tile + (if taken then 2 else 1), walked := [], asked := none, parked := none } }
  else raiseTrap s s.focus.tile s.focus.set (wordRec 0x03 s.focus.thr th.pc 0 0)

/-- Bit 0 of the guard predicate decides whether a scalar word executes (R19). -/
def guardHolds (th : Thread) : Guard → Bool
  | .always => true
  | .whenTrue n => (Tab.get 0 th.p n).getLsbD 0
  | .whenFalse n => !(Tab.get 0 th.p n).getLsbD 0

/-- The lanes in which a vector word executes (R19). -/
def guardMask (th : Thread) : Guard → BitVec 32
  | .always => 0xFFFFFFFF
  | .whenTrue n => Tab.get 0 th.p n
  | .whenFalse n => ~~~Tab.get 0 th.p n

/-- The restart snapshot of a marked word, taken when it issues and before its effect (R20). A waiting word
that is evaluated again, or that was parked on a translation, has issued before. -/
def markRestart (w : TWord) (s : State) : State :=
  let th := curThread s
  if w.rst && th.st == .run && th.fl.asked.isNone && th.fl.parked.isNone && th.fl.walked.isEmpty then
    modCurSet s fun c => snapshotSet c s.focus.thr (fetchPc th)
  else s

/-- The end of a word under its effect (R139). -/
def finishWord (s : State) (r : Res) : State :=
  match r with
  | .done s1 => goPc s1 ((curThread s).pc + 1) false
  | .jump s1 pc => goPc s1 pc true
  | .wait s1 => modCurThread s1 fun x => { x with st := .wait }
  | .hold => s
  | .stop s1 => s1
  | .trap s1 r => raiseTrap s1 s.focus.tile s.focus.set r

/-- A word with a scalar guard: where the guard is false the next word follows, and only the snapshot of a
restart point is taken (R19, R20). A word that is not ready leaves the state as it is. -/
def runWord (w : TWord) (s : State) (eff : State → Res) : State :=
  let s1 := markRestart w s
  if guardHolds (curThread s) w.guard then
    match eff s1 with
    | .hold => s
    | r => finishWord s1 r
  else finishWord s1 (.done s1)

/-- A vector word: the guard is a mask over lanes, so it always runs (R19). -/
def runVector (w : TWord) (s : State) (eff : BitVec 32 → State → Res) : State :=
  let s1 := markRestart w s
  match eff (guardMask (curThread s) w.guard) s1 with
  | .hold => s
  | r => finishWord s1 r

/-- A trap of the acting thread's word, precise to it (R139). -/
def trapNow (s : State) (cause : Nat) : Res :=
  .trap s (wordRec cause s.focus.thr (fetchPc (curThread s)) 0 0)

/-- A trap of the acting thread's word with an address. -/
def trapAt (s : State) (cause addr : Nat) : Res :=
  .trap s (wordRec cause s.focus.thr (fetchPc (curThread s)) addr 0)

/-- A trap of the acting thread's word with an address and a detail. -/
def trapDet (s : State) (cause addr : Nat) (det : BitVec 64) : Res :=
  .trap s (wordRec cause s.focus.thr (fetchPc (curThread s)) addr det)

/-- illegal-operand (R245). -/
def illegalOperand (s : State) : Res := trapNow s 0x02

end Sys2Proof.Machine
end

