-- ==== Sys2Proof/Machine/Boot.lean ====
section
/-! DEFINITION. Package reset and boot (R399, R400, R401). -/

namespace Sys2Proof.Machine

/-- Whether a physical address lies in a stack column's SRAM (R256). -/
def inSram (pa : Nat) : Bool := 0x000100000000 ≤ pa && pa < 0x000280000000

/-- The firmware image in the tray's flash. -/
def flashNow (s : State) : Option FirmwareImage :=
  match s.flash with
  | some i => some i
  | none => Config.flashImage

/-- Whether the ROM accepts a firmware image (R401). -/
def imageAccepted (i : FirmwareImage) : Bool := Config.imageVerifies i && Config.fusedVersion ≤ i.version

/-- The firmware image read and verified: the firmware starts, or the package halts in recovery-wait (R400, R401). -/
def verifyImage (s : State) : State :=
  match flashNow s with
  | some i => if imageAccepted i then { s with boot := .waiting, fwVersion := i.version, fwDigest := i.digest } else { s with boot := .recovery }
  | none => { s with boot := .recovery }

/-- The ROM's first step (R400): every SRAM is cleared, with valid codes. -/
def clearSram (s : State) : State :=
  { s with mem := s.mem.filter fun c => !inSram c.1, memBad := s.memBad.filter fun n => !inSram (64 * n), boot := .image }

/-- Boot goes on by one of its steps (R400). -/
def bootStage (s : State) : State :=
  match s.boot with
  | .rom => clearSram s
  | .image => verifyImage s
  | _ => s

/-- The package after a package reset (R126, R400). What is not the package's goes on: host memory and the flash, and the HBM, of
which the spec says nothing but that it is trained; so does the leaf counter (R402) (notes/assumptions/33.md). -/
def resetPackage (s : State) : State :=
  { State.reset with
    mem := s.mem, memBad := s.memBad, fresh := s.fresh, serial := s.serial, hostRead := s.hostRead, flash := s.flash
    lmsLeaf := s.lmsLeaf }

/-- PACKAGE_RESET (R400). -/
def execPackageReset (s : State) : Host.Outcome State Fault Refusal := .next (resetPackage s)

/-- RECOVERY_WRITE (R401): in recovery-wait the management function takes a new image into the one slot, or a request for
reset. -/
def execRecoveryWrite (req : Recovery) (s : State) : Host.Outcome State Fault Refusal :=
  if s.boot != .recovery then .next s
  else
    match req with
    | .write i => .next { s with flash := some i }
    | .reset => .next (resetPackage s)

end Sys2Proof.Machine
end

