-- ==== Sys2Proof/Machine/Numbers.lean ====
section
/-! DEFINITION. Exact numbers, the formats of R40 to R47, the scale code SC8 of R48 to R50 and the
conversions of R61 to R65. Every arithmetic step is exact; a result is rounded once. -/

namespace Sys2Proof.Machine

/-- An exact rational: `num / den`, with `den` above 0. -/
structure Frac where
  num : Int
  den : Nat
deriving DecidableEq, Repr

/-- The sum of two rationals, over the larger denominator where one divides the other. -/
def fracAdd (x y : Frac) : Frac :=
  if x.den = y.den then ⟨x.num + y.num, x.den⟩
  else if x.den % y.den = 0 then ⟨x.num + y.num * ((x.den / y.den : Nat) : Int), x.den⟩
  else if y.den % x.den = 0 then ⟨x.num * ((y.den / x.den : Nat) : Int) + y.num, y.den⟩
  else ⟨x.num * (y.den : Int) + y.num * (x.den : Int), x.den * y.den⟩

/-- The negative of a rational. -/
def fracNeg (x : Frac) : Frac := ⟨-x.num, x.den⟩

/-- The product of two rationals. -/
def fracMul (x y : Frac) : Frac := ⟨x.num * y.num, x.den * y.den⟩

/-- The quotient of two rationals, the divisor not zero. -/
def fracDiv (x y : Frac) : Frac :=
  if y.num < 0 then ⟨-(x.num * (y.den : Int)), x.den * y.num.natAbs⟩
  else ⟨x.num * (y.den : Int), x.den * y.num.natAbs⟩

/-- The order of two rationals. -/
def fracLt (x y : Frac) : Bool := decide (x.num * (y.den : Int) < y.num * (x.den : Int))

/-- The equality of two rationals as values. -/
def fracEq (x y : Frac) : Bool := decide (x.num * (y.den : Int) = y.num * (x.den : Int))

/-- The magnitude of a rational. -/
def fracAbs (x : Frac) : Frac := ⟨(x.num.natAbs : Int), x.den⟩

/-- `m × 2^e` as a rational. -/
def fracScale (m : Int) (e : Int) : Frac :=
  if 0 ≤ e then ⟨m * ((2 ^ e.toNat : Nat) : Int), 1⟩ else ⟨m, 2 ^ (-e).toNat⟩

/-- A rational times `2^e`. -/
def fracShift (x : Frac) (e : Int) : Frac :=
  if 0 ≤ e then ⟨x.num * ((2 ^ e.toNat : Nat) : Int), x.den⟩ else ⟨x.num, x.den * 2 ^ (-e).toNat⟩

/-- floor(log2(n / d)) for positive n and d. -/
def floorLog2 (n d : Nat) : Int :=
  let k : Int := (Nat.log2 n : Int) - (Nat.log2 d : Int)
  if 0 ≤ k then (if d * 2 ^ k.toNat ≤ n then k else k - 1)
  else (if d ≤ n * 2 ^ (-k).toNat then k else k - 1)

/-- A magnitude n/d rounded to an integer; `neg` is the sign of the value (R24, R62). RNE ties go to the
even integer. -/
def roundMag (neg : Bool) (n d : Nat) (rm : Rm) : Nat :=
  let q := n / d
  let r := n % d
  match rm with
  | .rne => if 2 * r > d then q + 1 else if 2 * r = d then q + q % 2 else q
  | .rz => q
  | .rdn => if neg && r != 0 then q + 1 else q
  | .rup => if !neg && r != 0 then q + 1 else q

/-- A decoded value (R47): a signed zero, a real other than zero, an infinity, NaN or NaR. -/
inductive Num where
  | zero (neg : Bool)
  | real (x : Frac)
  | inf (neg : Bool)
  | nan
  | nar
deriving DecidableEq, Repr

/-- The value of a rational, with a sign for zero. -/
def numOf (neg0 : Bool) (x : Frac) : Num := if x.num = 0 then .zero neg0 else .real x

/-- The value of an integer. -/
def numInt (i : Int) : Num := numOf false ⟨i, 1⟩

/-- The sign of a value; NaN and NaR have none. -/
def numNeg? : Num → Bool
  | .zero n => n
  | .real x => decide (x.num < 0)
  | .inf n => n
  | _ => false

/-- NaN or NaR. -/
def numIsNan : Num → Bool
  | .nan => true
  | .nar => true
  | _ => false

/-- Not an infinity, NaN or NaR. -/
def numIsFinite : Num → Bool
  | .zero _ => true
  | .real _ => true
  | _ => false

/-- The value with its sign changed. -/
def numNegate : Num → Num
  | .zero n => .zero (!n)
  | .real x => .real (fracNeg x)
  | .inf n => .inf (!n)
  | v => v

/-- The magnitude of a value. -/
def numAbs : Num → Num
  | .zero _ => .zero false
  | .real x => .real (fracAbs x)
  | .inf _ => .inf false
  | v => v

/-- The rational of a finite value; 0 for the others. -/
def numFrac : Num → Frac
  | .real x => x
  | _ => ⟨0, 1⟩

/-- The layout of a floating format with IEEE structure (R40): exponent bits, fraction bits, bias and the
code of the greatest finite magnitude. -/
structure FloatFmt where
  ebits : Nat
  fbits : Nat
  bias  : Nat
  maxc  : Nat
deriving DecidableEq, Repr

/-- The layout of a format of R40. -/
def floatFmt : Ty → Option FloatFmt
  | .f32 => some ⟨8, 23, 127, 0x7F7FFFFF⟩
  | .f16 => some ⟨5, 10, 15, 0x7BFF⟩
  | .b16 => some ⟨8, 7, 127, 0x7F7F⟩
  | .e4 => some ⟨4, 3, 7, 0x7E⟩
  | .e5 => some ⟨5, 2, 15, 0x7B⟩
  | _ => none

/-- The canonical NaN of a format (R41); 0 for an integer format, which has none. -/
def canonNan : Ty → Nat
  | .f32 => 0x7FC00000 | .f16 => 0x7E00 | .b16 => 0x7FC0 | .e4 => 0x7F | .e5 => 0x7E
  | .t8 => 0x80 | .t4 => 0x8 | _ => 0

/-- The value of a magnitude code of a floating format: x = 0 gives the subnormals (R40). -/
def floatMag (f : FloatFmt) (c : Nat) : Frac :=
  let x := c / 2 ^ f.fbits
  let m := c % 2 ^ f.fbits
  if x = 0 then fracScale m (1 - (f.bias : Int) - (f.fbits : Int))
  else fracScale (2 ^ f.fbits + m : Nat) ((x : Int) - (f.bias : Int) - (f.fbits : Int))

/-- The bits of a body from its top bit: the run's bit value and its length (R43). -/
def taperRun : Nat → Nat → Nat
  | _, 0 => 0
  | b, n + 1 => if bit b n == bit b (n + 1) then taperRun b n + 1 else 0

/-- The magnitude of a tapered body of `nb` bits, the body not zero (R43). -/
def taperMag (nb b : Nat) : Frac :=
  let m := taperRun b (nb - 1) + 1
  let k : Int := if bit b (nb - 1) then (m : Int) - 1 else -(m : Int)
  let left := nb - m - 1
  if left = 0 then fracScale 1 (2 * k)
  else
    let nf := left - 1
    let e0 : Int := if bit b nf then 1 else 0
    fracScale (2 ^ nf + b % 2 ^ nf : Nat) (2 * k + e0 - (nf : Int))

/-- dec(x, T) of R47, with the flush of R42. -/
def dec (t : Ty) (ftz : Bool) (bitsIn : Nat) : Num :=
  let u := bitsIn % 2 ^ t.width
  let neg := bit u (t.width - 1)
  match floatFmt t with
  | some f =>
    let c := u % 2 ^ (t.width - 1)
    if c ≤ f.maxc then
      if c = 0 || (ftz && t.isFl && c < 2 ^ f.fbits) then .zero neg
      else .real (if neg then fracNeg (floatMag f c) else floatMag f c)
    else if t != .e4 && c = (2 ^ f.ebits - 1) * 2 ^ f.fbits then .inf neg
    else .nan
  | none =>
    if t.isTapered then
      let b := u % 2 ^ (t.width - 1)
      if b = 0 then (if neg then .nar else .zero false)
      else .real (if neg then fracNeg (taperMag (t.width - 1) b) else taperMag (t.width - 1) b)
    else if t.isSigned then numInt (sextN u t.width)
    else numInt (u : Int)

/-- The condition that a conversion or an operation signals (R61, R99, R104). -/
inductive Cnd where
  | none | dz | inv | ovf | nar
deriving DecidableEq, Repr

/-- The code of a value rounded to a floating format without an upper exponent limit (R62 ROUND and
encode), as a magnitude code that may lie above the greatest finite one. -/
def roundCode (f : FloatFmt) (neg : Bool) (x : Frac) (rm : Rm) : Nat :=
  let n := x.num.natAbs
  let emin : Int := 1 - (f.bias : Int)
  let p := floorLog2 n x.den
  let qe : Int := (if p < emin then emin else p) - (f.fbits : Int)
  let m := if 0 ≤ qe then roundMag neg n (x.den * 2 ^ qe.toNat) rm
           else roundMag neg (n * 2 ^ (-qe).toNat) x.den rm
  (qe - (emin - (f.fbits : Int))).toNat * 2 ^ f.fbits + m

/-- The sign bit of a format. -/
def signBit (t : Ty) (neg : Bool) : Nat := if neg then 2 ^ (t.width - 1) else 0

/-- The code of an infinity of a format that has them. -/
def infCode (t : Ty) (f : FloatFmt) (neg : Bool) : Nat := signBit t neg + (2 ^ f.ebits - 1) * 2 ^ f.fbits

/-- A conversion to a floating format (R62): the code and the condition. -/
def convFloat (t : Ty) (f : FloatFmt) (rm : Rm) (sat ftz : Bool) (v : Num) : Nat × Cnd :=
  match v with
  | .nan => (canonNan t, .none)
  | .nar => (canonNan t, .none)
  | .inf neg =>
    if t = .e4 then (if sat then (signBit t neg + f.maxc, .none) else (canonNan t, .inv))
    else (infCode t f neg, .none)
  | .zero neg => (signBit t neg, .none)
  | .real x =>
    let neg := decide (x.num < 0)
    if ftz && t.isFl && fracLt (fracAbs x) (floatMag f (2 ^ f.fbits)) then (signBit t neg, .none)
    else
      let c := roundCode f neg x rm
      if c ≤ f.maxc then (signBit t neg + c, .none)
      else
        let toinf := rm = .rne || (rm = .rup && !neg) || (rm = .rdn && neg)
        if sat || !toinf then (signBit t neg + f.maxc, .ovf)
        else if t = .e4 then (canonNan t, .ovf)
        else (infCode t f neg, .ovf)

/-- The nearest of the tapered bodies `b` to `last` to a magnitude, by the body's order; halfway, the body
with bit 0 clear (R63). -/
def taperNearest (nb : Nat) (x : Frac) : Nat → Nat → Nat
  | _, 0 => 2 ^ nb - 1
  | b, fuel + 1 =>
    let lo := taperMag nb b
    let hi := taperMag nb (b + 1)
    let twice : Frac := ⟨2 * x.num, x.den⟩
    let mid := fracAdd lo hi
    if fracLt twice mid then b
    else if fracEq twice mid then (if b % 2 = 0 then b else b + 1)
    else taperNearest nb x (b + 1) fuel

/-- A conversion to T8 or T4 (R63). -/
def convTaper (t : Ty) (v : Num) : Nat :=
  let nb := t.width - 1
  match v with
  | .zero _ => 0
  | .real x => signBit t (decide (x.num < 0)) + taperNearest nb (fracAbs x) 1 (2 ^ nb - 2)
  | _ => canonNan t

/-- The least and greatest integer of an integer format (R46). -/
def intRange (signed : Bool) (w : Nat) : Int × Int :=
  if signed then (-((2 ^ (w - 1) : Nat) : Int), ((2 ^ (w - 1) : Nat) : Int) - 1)
  else (0, ((2 ^ w : Nat) : Int) - 1)

/-- A rational rounded to an integer (R24 RM; RNE ties to even). -/
def roundInt (x : Frac) (rm : Rm) : Int :=
  let neg := decide (x.num < 0)
  let m := roundMag neg x.num.natAbs x.den rm
  if neg then -(m : Int) else (m : Int)

/-- A conversion of a real to an integer format (R64). -/
def convInt (t : Ty) (rm : Rm) (v : Num) : Nat × Cnd :=
  let (lo, hi) := intRange t.isSigned t.width
  match v with
  | .zero _ => (0, .none)
  | .real x =>
    let i := roundInt x rm
    if i < lo then (wrapI lo t.width, .inv)
    else if hi < i then (wrapI hi t.width, .inv)
    else (wrapI i t.width, .none)
  | .inf neg => (wrapI (if neg then lo else hi) t.width, .inv)
  | .nan => (0, .inv)
  | .nar => (0, .inv)

/-- A conversion between integer formats (R65). -/
def convIntInt (t : Ty) (sat : Bool) (i : Int) : Nat × Cnd :=
  let (lo, hi) := intRange t.isSigned t.width
  if i < lo then (if sat then (wrapI lo t.width, .ovf) else (wrapI i t.width, .none))
  else if hi < i then (if sat then (wrapI hi t.width, .ovf) else (wrapI i t.width, .none))
  else (wrapI i t.width, .none)

/-- The conversion of a value of source type S to type T (R61 to R65). -/
def convert (src t : Ty) (rm : Rm) (sat ftz : Bool) (v : Num) : Nat × Cnd :=
  match floatFmt t with
  | some f => convFloat t f rm sat ftz v
  | none =>
    if t.isTapered then (convTaper t v, .none)
    else if src.isInt then convIntInt t sat (numFrac v).num
    else convInt t rm v

/-- The greatest finite magnitude of a floating or tapered format (R40, R44, R45). -/
def maxF (t : Ty) : Frac :=
  match floatFmt t with
  | some f => floatMag f f.maxc
  | none => taperMag (t.width - 1) (2 ^ (t.width - 1) - 1)

/-- The value of an SC8 code from 0x01 to 0xFE (R48). -/
def scaleValue (c : Nat) : Frac := fracScale (4 + c % 4 : Nat) ((c / 4 % 64 : Nat) - 33 : Int)

/-- ENC_SC8(x, rm) of R49. -/
def encScale (v : Num) (rm : Rm) : Nat :=
  match v with
  | .nan => 0xFF
  | .nar => 0xFF
  | .inf _ => 0xFF
  | .zero _ => 0x00
  | .real x =>
    if x.num < 0 then 0xFF
    else
      let n := x.num.natAbs
      let p0 := floorLog2 n x.den
      let y := fracShift x (2 - p0)
      let g0 := roundMag false (y.num - 4 * (y.den : Int)).toNat y.den rm
      let p := if g0 = 4 then p0 + 1 else p0
      let g := if g0 = 4 then 0 else g0
      let e := p + 31
      if 63 < e || (e = 63 && g = 3) then 0xFE
      else if e < 0 || (e = 0 && g = 0) then 0x01
      else e.toNat * 4 + g

/-- An F32 word with a NaN made canonical (R41). -/
def canonF32 (x : Nat) : Nat := if numIsNan (dec .f32 false x) then canonNan .f32 else x

/-- The scaled value SV of R50, of a decoded element under a code. -/
def scaledNum (v : Num) (c : Nat) : Num :=
  if c = 0xFF then .nan
  else if c = 0 then
    match v with
    | .nan => .nan
    | .nar => .nan
    | .inf _ => .nan
    | _ => .zero false
  else
    match v with
    | .nar => .nan
    | .real x => .real (fracMul x (scaleValue c))
    | w => w

/-- SV(x, T, c) of R50. -/
def sv (t : Ty) (bitsIn c : Nat) : Num := scaledNum (dec t false bitsIn) c

/-- The exact sum of two values (R99 rules 1, 2, 4 and 5, R174): the condition is INV for ∞ − ∞. An exact
zero sum is −0 where every addend is −0, or under RDN where the addends are not all +0. -/
def numAdd (rm : Rm) (a b : Num) : Num × Cnd :=
  match a, b with
  | .inf x, .inf y => if x = y then (.inf x, .none) else (.nan, .inv)
  | .inf x, .zero _ => (.inf x, .none)
  | .inf x, .real _ => (.inf x, .none)
  | .zero _, .inf y => (.inf y, .none)
  | .real _, .inf y => (.inf y, .none)
  | .zero x, .zero y => (.zero (if x = y then x else rm = .rdn), .none)
  | .zero _, .real y => (.real y, .none)
  | .real x, .zero _ => (.real x, .none)
  | .real x, .real y => (numOf (rm = .rdn) (fracAdd x y), .none)
  | _, _ => (.nan, .none)

/-- The exact product of two values (R99, R174): INV for 0 × ∞. -/
def numMul (a b : Num) : Num × Cnd :=
  if numIsNan a || numIsNan b then (.nan, .none)
  else
    let neg := numNeg? a != numNeg? b
    match a, b with
    | .zero _, .inf _ => (.nan, .inv)
    | .inf _, .zero _ => (.nan, .inv)
    | .inf _, _ => (.inf neg, .none)
    | _, .inf _ => (.inf neg, .none)
    | .real x, .real y => (.real (fracMul x y), .none)
    | _, _ => (.zero neg, .none)

/-- The exact quotient of two values (R99, R174): INV for 0 / 0 and ∞ / ∞, DZ for a finite dividend other
than zero over zero. -/
def numDiv (a b : Num) : Num × Cnd :=
  if numIsNan a || numIsNan b then (.nan, .none)
  else
    let neg := numNeg? a != numNeg? b
    match a, b with
    | .zero _, .zero _ => (.nan, .inv)
    | .inf _, .inf _ => (.nan, .inv)
    | .inf _, _ => (.inf neg, .none)
    | _, .inf _ => (.zero neg, .none)
    | .real _, .zero _ => (.inf neg, .dz)
    | .real x, .real y => (.real (fracDiv x y), .none)
    | _, _ => (.zero neg, .none)

/-- a × b + c before its one rounding (R101 FMA, R176 VFMA). -/
def numFma (rm : Rm) (a b c : Num) : Num × Cnd :=
  let (p, k) := numMul a b
  match k with
  | .none => numAdd rm p c
  | k => if numIsNan c then (.nan, .none) else (p, k)

/-- The order of two values that are not NaN: −0 equals +0. -/
def numCmp (a b : Num) : Ordering :=
  match a, b with
  | .inf x, .inf y => if x = y then .eq else if x then .lt else .gt
  | .inf x, _ => if x then .lt else .gt
  | _, .inf y => if y then .gt else .lt
  | x, y =>
    if fracLt (numFrac x) (numFrac y) then .lt
    else if fracLt (numFrac y) (numFrac x) then .gt else .eq

/-- The lesser or greater of two values, with −0 below +0 and NaN where an operand is NaN (R100, R176). -/
def numMinMax (wantMax : Bool) (a b : Num) : Num :=
  if numIsNan a || numIsNan b then .nan
  else
    match numCmp a b with
    | .lt => if wantMax then b else a
    | .gt => if wantMax then a else b
    | .eq => if numNeg? a then (if wantMax then b else a) else (if wantMax then a else b)

/-- The condition of a compare (R144): UN and OR ask for NaN, the others are false on NaN but NE. -/
def numCond (c : Cond) (a b : Num) : Bool :=
  let un := numIsNan a || numIsNan b
  let o := numCmp a b
  match c with
  | .eq => !un && o == .eq
  | .ne => un || o != .eq
  | .lt => !un && o == .lt
  | .le => !un && o != .gt
  | .gt => !un && o == .gt
  | .ge => !un && o != .lt
  | .un => un
  | .or => !un

/-- The condition of an integer compare (R144). -/
def intCond (c : Cond) (a b : Int) : Bool :=
  match c with
  | .eq => a == b
  | .ne => a != b
  | .lt => decide (a < b)
  | .le => decide (a ≤ b)
  | .gt => decide (b < a)
  | .ge => decide (b ≤ a)
  | .un => false
  | .or => true

/-- The sum of a list of values, exact (R106, R189): NaN where a value is NaN or both infinities stand;
the condition is INV in the second case. -/
def numSum (rm : Rm) : List Num → Num × Cnd
  | [] => (.zero false, .none)
  | [x] => (x, .none)
  | l =>
    if l.any numIsNan then (.nan, .none)
    else if l.contains (.inf false) && l.contains (.inf true) then (.nan, .inv)
    else if l.contains (.inf false) then (.inf false, .none)
    else if l.contains (.inf true) then (.inf true, .none)
    else
      let s := l.foldl (fun acc v => fracAdd acc (numFrac v)) ⟨0, 1⟩
      if s.num = 0 then
        (.zero (l.all (fun v => v == .zero true) || (rm == .rdn && !l.all (fun v => v == .zero false))), .none)
      else (.real s, .none)

/-- An F32 result under the rules of R99: RNE, subnormals kept, the bound with OVF. -/
def f32Result (r : Num × Cnd) : Nat × Cnd :=
  let (c, k) := convert .f32 .f32 .rne true false r.1
  (c, if r.2 = .none then k else r.2)

/-- An F32 result rounded with RNE, without saturation (R203). -/
def f32Rne (sat : Bool) (v : Num) : Nat := (convert .f32 .f32 .rne sat false v).1

/-- The quotient of two integers truncated toward zero, with the zero-divisor and overflow cases of R143 at
width w. -/
def intDivCases (sg : Bool) (w : Nat) (a b : Int) : Int :=
  let (lo, hi) := intRange sg w
  if b = 0 then (if sg then (if 0 ≤ a then hi else lo) else hi)
  else if sg && a == lo && b == -1 then lo
  else Int.tdiv a b

/-- The remainder of R143: the sign of a, and a itself over zero. -/
def intRemCases (a b : Int) : Int := if b = 0 then a else a - b * Int.tdiv a b

end Sys2Proof.Machine
end

