-- ==== Sys2Proof/Machine/Operands.lean ====
section
/-! DEFINITION. The operand forms of a tile-controller word: how a field is read and written (R21 to R23),
and the memory operand (R26). -/

namespace Sys2Proof.Machine

/-- The 64-bit value of a literal in a scalar field (R21): sign-extended, zero-extended for an unsigned
type. -/
def litScalar (uns : Bool) (v : BitVec 32) : BitVec 64 := if uns then v.zeroExtend 64 else v.signExtend 64

/-- A scalar source (R21, R22): a register, a literal, or 0. -/
def readS (uns : Bool) (th : Thread) : Opnd → BitVec 64
  | .s n => Tab.get 0 th.s n
  | .lit v => litScalar uns v
  | _ => 0

/-- A predicate source (R22). -/
def readP (th : Thread) : Opnd → BitVec 32
  | .p n => Tab.get 0 th.p n
  | _ => 0

/-- A loop-counter source (R22). -/
def readK (th : Thread) : Opnd → BitVec 32
  | .k n => Tab.get 0 th.k n
  | _ => 0

/-- A scalar destination of the acting thread; the zero register discards (R22). -/
def writeS (s : State) (d : Opnd) (v : BitVec 64) : State :=
  match d with
  | .s n => modCurThread s fun th => { th with s := Tab.set th.s n v }
  | _ => s

/-- A predicate destination of the acting thread. -/
def writeP (s : State) (d : Opnd) (v : BitVec 32) : State :=
  match d with
  | .p n => modCurThread s fun th => { th with p := Tab.set th.p n v }
  | _ => s

/-- A loop-counter destination of the acting thread. -/
def writeK (s : State) (d : Opnd) (v : BitVec 32) : State :=
  match d with
  | .k n => modCurThread s fun th => { th with k := Tab.set th.k n v }
  | _ => s

/-- Whether an instruction's type is unsigned, so that its literal is zero-extended (R21). -/
def typeUnsigned (w : TWord) : Bool := modT1 w.modf == 11 || modT1 w.modf == 12 || modT1 w.modf == 13

/-- Source A of a typed scalar word. -/
def srcA (w : TWord) (s : State) : BitVec 64 := readS (typeUnsigned w) (curThread s) w.a
/-- Source B of a typed scalar word. -/
def srcB (w : TWord) (s : State) : BitVec 64 := readS (typeUnsigned w) (curThread s) w.b
/-- Source A of a word without a type: a literal is sign-extended. -/
def argA (w : TWord) (s : State) : BitVec 64 := readS false (curThread s) w.a
/-- Source B of a word without a type. -/
def argB (w : TWord) (s : State) : BitVec 64 := readS false (curThread s) w.b
/-- Source C of a word without a type. -/
def argC (w : TWord) (s : State) : BitVec 64 := readS false (curThread s) w.c

/-- The effective address of a memory operand (R26). -/
def effAddr (w : TWord) (s : State) : Nat := ((argA w s).toNat + (argB w s).toNat) % 2 ^ 56

/-- A register of a vector group as a source (R22, R23): register j of the group, a literal broadcast to
every lane and replicated into its elements (R21), or zero. -/
def readV (t : Tile) (c : CtxSet) (width : Nat) (o : Opnd) (j : Nat) : BitVec 1024 :=
  match o with
  | .v n => vregRead t c (n + j)
  | .lit v =>
    if width = 32 then BitVec.ofNat 1024 ((List.range 32).foldl (fun acc _ => acc * 2 ^ 32 + v.toNat) 0)
    else BitVec.ofNat 1024 ((List.range (1024 / width)).foldl (fun acc _ => acc * 2 ^ width + v.toNat % 2 ^ width) 0)
  | _ => 0

/-- A register of a vector group written; the zero register discards. -/
def writeV (s : State) (o : Opnd) (j : Nat) (v : BitVec 1024) : State :=
  match o with
  | .v n => vregWrite s s.focus.tile s.focus.set (n + j) v
  | _ => s

/-- Element `e` of width `width` in a vector register (R39). -/
def elemOf (v : BitVec 1024) (width e : Nat) : Nat := v.toNat / 2 ^ (width * e) % 2 ^ width

/-- A vector register made of its elements, element 0 first. -/
def packElems (width : Nat) : List Nat → Nat
  | [] => 0
  | x :: t => x % 2 ^ width + 2 ^ width * packElems width t

/-- The lane mask applied to a result (R19): an inactive lane keeps the old value, or is zeroed under .Z. -/
def maskLanes (mask : BitVec 32) (zl : Bool) (old new : BitVec 1024) : BitVec 1024 :=
  BitVec.ofNat 1024 (packElems 32 ((List.range 32).map fun i =>
    if mask.getLsbD i then elemOf new 32 i else if zl then 0 else elemOf old 32 i))

end Sys2Proof.Machine
end

