-- ==== Sys2Proof/Machine/Flags.lean ====
section
/-! DEFINITION. Predicates as the comparison instructions compute them (R144), and the integer mould of the
scalar instructions (R141): widths, sign, saturation. -/

namespace Sys2Proof.Machine

/-- EXTW of R141 as an integer: the low `w` bits read as signed or unsigned. -/
def extw (sg : Bool) (w : Nat) (x : Nat) : Int := if sg then sextN x w else (x % 2 ^ w : Nat)

/-- CLAMP of R141: an integer held to the range of its type (R46). -/
def clampType (sg : Bool) (w : Nat) (t : Int) : Int := clampI t (intRange sg w).1 (intRange sg w).2

/-- The 64-bit register value of a result (R141): its low `w` bits, then extended. -/
def extendResult (sg : Bool) (w : Nat) (t : Int) : BitVec 64 := BitVec.ofInt 64 (extw sg w (wrapI t w))

/-- The two-operand mould of R141. -/
def scalarValue (m : BitVec 32) (op : Nat → Bool → Int → Int → Int) (a b : BitVec 64) : BitVec 64 :=
  let w := modWidth m
  let sg := modSigned m
  let t := op w sg (extw sg w a.toNat) (extw sg w b.toNat)
  extendResult sg w (if modSat m then clampType sg w t else t)

/-- Whether the condition of a scalar comparison holds (R144). -/
def cmpHolds (m : BitVec 32) (a b : BitVec 64) : Bool :=
  let c := (Cond.ofCode (modFn m)).getD .eq
  if modT1 m = 0 && !modW64 m then
    numCond c (dec .f32 (modFtz m) (a.toNat % 2 ^ 32)) (dec .f32 (modFtz m) (b.toNat % 2 ^ 32))
  else intCond c (extw (modSigned m) (modWidth m) a.toNat) (extw (modSigned m) (modWidth m) b.toNat)

/-- The predicate that a scalar condition writes (R144). -/
def predOf (c : Bool) : BitVec 32 := if c then 0xFFFFFFFF else 0

end Sys2Proof.Machine
end

