-- ==== Sys2Proof/Machine/Translate.lean ====
section
/-! DEFINITION. Physical places (R256, R259, R342, R388, R407), the address spaces of contexts (R319 to R321,
R374, R375), the translation caches and the walks of the die translation units (R320). -/

namespace Sys2Proof.Machine

/-- What lies at a physical address: a column's SRAM, a column's control page, a launch queue's control block,
a fabric channel's control block, an HBM channel, host memory, or nothing. -/
inductive Place where
  | column (slot off : Nat)
  | control (slot off : Nat)
  | queue (q off : Nat)
  | fabric (chan off : Nat)
  | hbm (stack chan : Nat)
  | host
  | hole
deriving DecidableEq, Repr

/-- Where the model puts host memory in the physical space; the spec gives it no address
(notes/assumptions/4.md). -/
def hostBase : Nat := 2 ^ 51

/-- The first physical address of HBM (R342). -/
def hbmFirst : Nat := 0x004000000000
/-- The physical address behind HBM: 384 GiB (R10). -/
def hbmEnd : Nat := 0x00A000000000

/-- What lies at a physical address. -/
def placeOf (pa : Nat) : Place :=
  if hostBase ≤ pa then .host
  else if hbmFirst ≤ pa && pa < hbmEnd then
    let o := pa - hbmFirst
    .hbm (o / 0xC00000000) (o % 0xC00000000 / 2048 % 16)
  else if 0x000100000000 ≤ pa && pa < 0x000280000000 then
    let o := pa - 0x000100000000
    .column (o / 0x6000000) (o % 0x6000000)
  else if 0x000300000000 ≤ pa && pa < 0x000300400000 then
    let o := pa - 0x000300000000
    .control (o / 0x10000) (o % 0x10000)
  else if 0x000310000000 ≤ pa && pa < 0x000310010000 then
    let o := pa - 0x000310000000
    .queue (o / 64) (o % 64)
  else if 0x000320000000 ≤ pa && pa < 0x000320400000 then
    let o := pa - 0x000320000000
    if o % 0x10000 < 48 * 64 then .fabric (o / 0x10000 * 48 + o % 0x10000 / 64) (o % 64) else .hole
  else .hole

/-- The node of the SC token ring that serves an address (R294): on each die 16 columns, then the 32
channels of its two stacks. -/
def scNode (pa : Nat) : Option Nat :=
  match placeOf pa with
  | .column slot _ => some (slot / 16 * 48 + slot % 16)
  | .hbm stack chan => some (stack / 2 * 48 + 16 + stack % 2 * 16 + chan)
  | _ => none

/-- The slot whose column controller is the home of an address. -/
def columnOf (pa : Nat) : Option Nat :=
  match placeOf pa with
  | .column slot _ => some slot
  | .control slot _ => some slot
  | _ => none

/-- The mapping of a context that holds a virtual address. -/
def mappingOf (s : State) (ctx va : Nat) : Option Mapping :=
  (getCtx s ctx).maps.find? fun m => !m.held && m.va ≤ va && va < m.va + m.size

/-- The context and page number that name the frame of a page in a demand range (R375): those of the owner's
range. -/
def demandKey (ctx : Nat) (m : Mapping) (va : Nat) : Nat × Nat :=
  if m.owner = ctx then (ctx, va / 65536) else (m.owner, (m.src + (va - m.va)) / 65536)

/-- The physical address of a mapped virtual address; none for a demand page that nothing has touched. -/
def physOf (s : State) (ctx : Nat) (m : Mapping) (va : Nat) : Option Nat :=
  if m.dmd then
    let k := demandKey ctx m va
    (Tab.find? (getCtx s k.1).frames k.2).map fun pa => pa + va % 65536
  else some (m.pa + (va - m.va))

/-- The key of a page in the translation caches. -/
def pageKey (ctx va : Nat) : Nat := ctx * 2 ^ 40 + va / 65536

/-- What a translation gives: an address with its mapping, an access that must wait for a walk, or no
mapping. -/
inductive Xlat where
  | hit (pa : Nat) (m : Mapping)
  | miss
  | none
deriving DecidableEq, Repr

/-- A translation by a unit of a tile, where the walks of some pages have ended for it. -/
def translate (s : State) (tile ctx : Nat) (walked : List Nat) (va : Nat) : Xlat :=
  let key := pageKey ctx va
  let found : Option (Nat × Mapping) :=
    match mappingOf s ctx va with
    | some m => (physOf s ctx m va).map fun pa => (pa, m)
    | Option.none => Option.none
  match found with
  | some (pa, m) => if s.tlb.contains (tile, key) || walked.contains key then .hit pa m else .miss
  | Option.none =>
    if (walked.contains key || s.tlb.contains (tile, key)) && (mappingOf s ctx va).isNone then .none else .miss

/-- Whether an agent is parked on a walk. -/
def parkedOn (s : State) (a : Agent) : Bool := s.walks.any fun w => w.who.contains a

/-- How many accesses a die's parked-miss storage holds (R320). -/
def parkedCount (s : State) (die : Nat) : Nat :=
  ((s.walks.filter fun w => w.die == die).map fun w => w.who.length).sum

/-- An agent's access parked on the walk of a page (R320): misses to one page coalesce into one walk; the
storage of a die holds 512 accesses, and a full one leaves the access where it is. -/
def park (s : State) (die ctx va : Nat) (a : Agent) : State :=
  if parkedOn s a || 512 ≤ parkedCount s die then s
  else
    let page := va / 65536
    if s.walks.any (fun w => w.die == die && w.ctx == ctx && w.page == page) then
      { s with walks := s.walks.map fun w =>
          if w.die == die && w.ctx == ctx && w.page == page then { w with who := w.who ++ [a] } else w }
    else
      let (id, s1) := newSerial s
      { s1 with walks := s1.walks ++ [⟨id, die, ctx, page, [a], va, false⟩] }

/-- The acting thread as an agent. -/
def curAgent (s : State) : Agent := .thread s.focus.tile s.focus.set s.focus.thr

/-- The acting thread's word parked on the walk of a page (R152). -/
def parkThread (s : State) (va : Nat) : Res :=
  .stop (modCurThread (park s (tileDie s.focus.tile) (curCtx s) va (curAgent s)) fun th =>
    { th with fl := { th.fl with parked := some (pageKey (curCtx s) va) } })

/-- The HBM range of a layout's entry (R384): first physical address and bytes. -/
def hbmRange (e : List (BitVec 64)) : Nat × Nat := (bits (e.getD 2 0).toNat 35 0 * 65536, bits (e.getD 2 0).toNat 63 40 * 65536)

/-- Whether a layout gives a physical address to a partition's HBM range. -/
def hbmTaken (lay : Tab (List (BitVec 64))) (pa : Nat) : Bool :=
  lay.any fun p => p.2.getD 0 0 != 0 && (hbmRange p.2).1 ≤ pa && pa < (hbmRange p.2).1 + (hbmRange p.2).2

/-- Whether a frame of HBM is free: in no partition's range, and serving no demand page. -/
def frameFree (s : State) (pa : Nat) : Bool :=
  hbmFirst ≤ pa && pa < hbmEnd && !hbmTaken s.layout pa && s.ctxs.all fun c => c.2.frames.all fun f => f.2 != pa

/-- A frame for a demand page (R321 step 1): the lowest free one of HBM, which begins HBM or follows a range or a frame in use; none
where all of HBM is taken. DESIGN CHOICE (notes/assumptions/4.md). -/
def newFrame (s : State) : Option Nat :=
  let starts := hbmFirst :: (s.layout.map fun p => (hbmRange p.2).1 + (hbmRange p.2).2) ++ s.ctxs.flatMap fun c => c.2.frames.map fun f => f.2 + 65536
  (starts.filter (frameFree s)).min?

/-- Whether a context's pool holds a free frame. -/
def poolHasFrame (s : State) (owner : Nat) : Bool :=
  (getCtx s owner).frames.length + (getCtx s owner).frmu < (getCtx s owner).frm && (newFrame s).isSome

/-- The frame given to a page of an owner, filled with zeros and valid check codes (R321 step 1). -/
def giveFrame (s : State) (owner page : Nat) : State :=
  match newFrame s with
  | none => s
  | some pa =>
    let s1 := modCtx s owner fun c => { c with frames := Tab.set c.frames page pa, ages := c.ages.filter (fun p => p != page) ++ [page] }
    { s1 with mem := Memory.clear s1.mem pa 65536
              memBad := s1.memBad.filter fun l => !(pa / 64 ≤ l && l < pa / 64 + 1024) }

/-- The pages of a context that have a frame, the oldest first. -/
def pagesByAge (c : Ctx) : List Nat := c.ages.filter fun p => (Tab.find? c.frames p).isSome

end Sys2Proof.Machine
end

