-- ==== Sys2Proof/Machine/Requests.lean ====
section
/-! DEFINITION. Memory requests and their order (R154, R155, R158, R285 to R292, R299, R343): when an access is
performed within a scope, what it waits for, and what it publishes. -/

namespace Sys2Proof.Machine

/-- The tile of an agent; none for a copy engine and the host. -/
def agentTile : Agent → Option Nat
  | .thread t _ _ => some t
  | .port t _ _ => some t
  | .region t _ _ => some t
  | .copy _ _ => none
  | .host => none

/-- Whether agent `b` lies in agent `a`'s instance of a scope code (R286). -/
def inInstance (scope : Nat) (a b : Agent) : Bool :=
  if scope = 4 then true
  else if scope = 3 then a != .host && b != .host
  else
    match agentTile a, agentTile b with
    | some x, some y =>
      if scope = 2 then tileDie x == tileDie y
      else if scope = 1 then tileSlot x == tileSlot y
      else x == y
    | _, _ => a == b

/-- Whether an ordering between agents at two scopes exists (R288). -/
def scopesMeet (sa : Nat) (a : Agent) (sb : Nat) (b : Agent) : Bool := inInstance sa a b && inInstance sb b a

/-- The slot whose column controller is the home of a location. -/
def locColumn : Loc → Option Nat
  | .mem pa => columnOf pa
  | .sp _ _ => none

/-- Whether a request has a load part (R289). -/
def reqLoads : ReqOp → Bool
  | .load | .atom _ | .cas | .ldv | .pop | .steal => true
  | _ => false

/-- Whether a request has a store part (R289). -/
def reqStores : ReqOp → Bool
  | .store | .atom _ | .cas | .stv | .reclaim | .push | .barrier | .barinit => true
  | _ => false

/-- Whether two requests overlap a byte. -/
def overlaps (l1 : Loc) (n1 : Nat) (l2 : Loc) (n2 : Nat) : Bool :=
  match l1, l2 with
  | .mem a, .mem b => a < b + n2 && b < a + n1
  | .sp t a, .sp u b => t == u && a < b + n2 && b < a + n1
  | _, _ => false

/-- Whether a request has been applied at its home. -/
def isApplied (r : Req) : Bool := r.stage == .applied

/-- Whether a request is performed within the scope code `code` of agent `g` (R287); code 5 is "sent", 6 "applied", 7 "taken into its
own column's local queue". -/
def performed (g : Agent) (code : Nat) (e : Req) : Bool :=
  if isApplied e then true
  else if code = 5 then e.stage != .held
  else if code = 7 then e.stage == .accepted
  else if reqLoads e.op then false
  else
    match agentTile e.agent, e.loc with
    | some x, .mem _ =>
      if code = 0 then e.stage != .held && agentTile g == some x
      else if code = 1 then
        e.stage == .accepted && locColumn e.loc == some (tileSlot x) && (agentTile g).map tileSlot == some (tileSlot x)
      else false
    | _, _ => false

/-- A request by its number; none once it is complete. -/
def findReq (s : State) (id : Nat) : Option Req := s.reqs.find? fun r => r.id == id

/-- Whether a request is performed within a scope, by its number: one that is complete is. -/
def performedId (s : State) (g : Agent) (code id : Nat) : Bool :=
  match findReq s id with
  | none => true
  | some e => performed g code e

/-- Whether everything ordered before a request is performed. -/
def orderMet (s : State) (r : Req) : Bool := r.after.all fun p => performedId s r.agent p.2 p.1

/-- The requests of an agent, oldest first. -/
def reqsOf (s : State) (a : Agent) : List Req := s.reqs.filter fun r => r.agent == a

/-- The number of a thread in the tables of R291. -/
def threadKey (tile set thr : Nat) : Nat := tile * 8 + set * 4 + thr

/-- The number of the acting thread. -/
def curKey (s : State) : Nat := threadKey s.focus.tile s.focus.set s.focus.thr

/-- The stores in flight that happen before the acting thread's next access: its own and those it has
synchronised with (R291). -/
def storesBefore (s : State) : List Nat :=
  ((reqsOf s (curAgent s)).filter fun r => reqStores r.op).map (fun r => r.id)
    ++ (Tab.get [] s.known (curKey s)).filter fun id => (findReq s id).isSome

/-- Whether a request waits behind its own column's local queue. -/
def ownColumn (e : Req) : Bool := (locColumn e.loc).isSome && locColumn e.loc == (agentTile e.agent).map tileSlot

/-- Whether a new request may be read ahead of an earlier acquire of its thread (R288, R289): a plain load. What the acquire then
returns decides whether the load is served again. DEDUCED (notes/assumptions/26.md). -/
def mayPass (op : ReqOp) (acq sc : Bool) : Bool := op == .load && !acq && !sc

/-- How far an acquire must have come before a later access of its thread may follow it (R289): at TILE the tile's path keeps the two
in order, at COLUMN the local queue of the own column does, else its value must be fixed. -/
def acquireCode (e : Req) : Nat := if e.scope = 0 then 5 else if e.scope = 1 && ownColumn e then 7 else 6

/-- The acquires of the acting thread that are still to be performed. -/
def openAcquires (s : State) : List Req := (reqsOf s (curAgent s)).filter fun e => e.acq && !isApplied e

/-- What orders a new request of the acting thread (R154, R155, R157, R289, R291). -/
def orderBefore (s : State) (op : ReqOp) (loc : Loc) (size scope : Nat) (acq rel sc : Bool) : List (Nat × Nat) :=
  let own := reqsOf s (curAgent s)
  let acqs := ((openAcquires s).filter fun e => acquireCode e != 6 || !mayPass op acq sc).map fun e => (e.id, acquireCode e)
  let ovl := (own.filter fun e => overlaps e.loc e.size loc size).map fun e => (e.id, 5)
  let rels := if rel then own.map (fun e => (e.id, scope)) ++ (storesBefore s).map (fun id => (id, scope)) else []
  let scs := if sc then (own.filter fun e => e.sc).map fun e => (e.id, 6) else []
  acqs ++ ovl ++ rels ++ scs

/-- A new request of the acting thread. -/
def threadReq (s : State) (op : ReqOp) (va : Nat) (loc : Loc) (size scope : Nat) (acq rel sc : Bool) : Req :=
  { id := s.serial, agent := curAgent s, op := op, va := va, loc := loc, size := size, val := 0, cmp := 0,
    sx := false, scope := scope, acq := acq, rel := rel, sc := sc,
    after := orderBefore s op loc size scope acq rel sc, stage := .held, res := 0, bad := false, trap := none,
    dst := .none, pc := fetchPc (curThread s), grp := s.serial, mask := 0, zl := false, since := s.dcc,
    waiting := false
    pub := if rel then some ⟨storesBefore s, scope, curAgent s⟩ else Tab.find? s.fenced (curKey s)
    got := [], dead := false, due := none
    ahead := if mayPass op acq sc then ((openAcquires s).filter fun e => acquireCode e == 6).map fun e => e.id else [], place := 0 }

/-- Whether another request of a tile's may take the scratchpad bank of a new one (R121, R232): one to another line of the same
bank, other than a lane of the same word's in another register. -/
def bankTaken (s : State) (r : Req) (tile off : Nat) : Bool :=
  s.reqs.any fun e => !isApplied e && (match e.loc with
    | .sp u o => u == tile && o / 64 % 32 == off / 64 % 32 &&
        !(e.grp == r.grp && e.agent == r.agent && (o / 64 == off / 64 || laneOf e != laneOf r))
    | .mem _ => false)
where
  /-- The register of the group that a lane's request answers. -/
  laneOf (r : Req) : Nat := match r.dst with | .lane _ _ j _ => j | _ => 0

/-- Whether a load of a tile's own scratchpad meets no bank conflict (R139, R169): no other access is on its way to the bank, and no
stream port and no matrix-engine command runs on the tile, whose accesses take banks too. DEDUCED (notes/assumptions/104.md). -/
def bankQuiet (s : State) (r : Req) : Bool :=
  match r.agent, r.loc with
  | .thread t i _, .sp u off =>
    let c := getSet s t i
    t == u && c.ports.isEmpty && c.me.west.isNone && c.me.load.isNone && c.me.drain.isNone && c.me.clear.isNone && !bankTaken s r t off
  | _, _ => false

/-- A request enters its tile's path as soon as what is ordered before it allows (R299). A scalar load of the own scratchpad share
without a bank conflict completes six steps after its issue (R139); a vector load's step is set when the word has issued (R169). -/
def pushReq (s : State) (r : Req) : State :=
  let s1 := { s with serial := s.serial + 1 }
  let r1 := if orderMet s1 r then { r with stage := .sent } else r
  let due := if r1.stage = .sent && r.op = .load && r.ahead.isEmpty && bankQuiet s1 r then some (tscOf s1 ((agentTile r.agent).getD 0) + 6) else none
  { s1 with reqs := s1.reqs ++ [{ r1 with due := due }] }

/-- A request that its unit holds until a turn sends it (R297): what a stream port has accepted is still in flight. -/
def holdReq (s : State) (r : Req) : State := { s with serial := s.serial + 1, reqs := s.reqs ++ [r] }

/-- A request replaced. -/
def putReq (s : State) (r : Req) : State :=
  { s with reqs := s.reqs.map fun e => if e.id == r.id then r else e }

/-- A request removed: it is complete. -/
def dropReq (s : State) (id : Nat) : State := { s with reqs := s.reqs.filter fun e => e.id != id }

/-- The requests listed before a given one. -/
def reqsBefore (s : State) (id : Nat) : List Req := s.reqs.takeWhile fun e => e.id != id

/-- Whether an earlier request of a request's tile to the same column is still on its way there (R299). -/
def pathBehind (s : State) (r : Req) : Bool :=
  (reqsBefore s r.id).any fun e => e.stage == .sent && agentTile e.agent == agentTile r.agent && locColumn e.loc == locColumn r.loc

/-- A held request is sent, behind the tile's earlier requests (R299); a request to the tile's own column enters
that controller's local queue, in the order in which its tile sent it (R287). -/
def advanceReq (s : State) (id : Nat) : State :=
  match findReq s id with
  | some r =>
    if r.stage = .held && orderMet s r then
      let s1 := dropReq s id
      { s1 with reqs := s1.reqs ++ [{ r with stage := .sent }] }
    else if r.stage = .sent && ownColumn r && !pathBehind s r then
      putReq { s with serial := s.serial + 1 } { r with stage := .accepted, place := s.serial + 1 }
    else s
  | none => s

/-- The key of a location's byte in the table of what values publish. -/
def locKey : Loc → Nat
  | .mem pa => pa
  | .sp t off => 2 ^ 60 + t * 2 ^ 24 + off

/-- The keys of the bytes of an access. -/
def locKeys (l : Loc) (n : Nat) : List Nat := (List.range n).map fun i => locKey l + i

/-- What the values at the bytes of an access publish (R290). -/
def published (s : State) (l : Loc) (n : Nat) : List SyncRec := ((locKeys l n).flatMap fun k => Tab.get [] s.sync k).eraseDups

/-- The HBM channel or column whose path a request takes; requests of one tile to one HBM channel are applied in
the order sent (R343). -/
def hbmNode : Loc → Option Nat
  | .mem pa => (match placeOf pa with | .hbm _ _ => scNode pa | _ => none)
  | .sp _ _ => none

/-- Whether two agents are transfers of one copy channel. -/
def sameChannel (a b : Agent) : Bool :=
  match a, b with
  | .copy c _, .copy d _ => c == d
  | _, _ => false

/-- Whether two agents are of one tile. -/
def sameTile (a b : Agent) : Bool := (agentTile a).isSome && agentTile a == agentTile b

/-- Whether a request keeps another from being applied: the same agent's or copy channel's, issued before it, to overlapping bytes
(R155, R350); the same tile's, sent before it, to overlapping bytes or through one HBM path (R299, R343); or one that the column's
local queue has taken before it, from any tile of the cluster, to overlapping bytes (R287). -/
def blocksReq (before : Bool) (e r : Req) : Bool :=
  !isApplied e && e.id != r.id &&
    ((e.agent == r.agent || sameChannel e.agent r.agent) && e.id < r.id && overlaps e.loc e.size r.loc r.size
      || before && sameTile e.agent r.agent && e.stage != .held && e.stage != .early
          && (overlaps e.loc e.size r.loc r.size || (hbmNode e.loc).isSome && hbmNode e.loc == hbmNode r.loc)
      || e.stage == .accepted && (agentTile r.agent).map tileSlot == (agentTile e.agent).map tileSlot
          && (r.place = 0 || e.place < r.place) && overlaps e.loc e.size r.loc r.size)

/-- Whether some request keeps another from being applied. -/
def blocked (s : State) (r : Req) : Bool :=
  let before := reqsBefore s r.id
  s.reqs.any fun e => blocksReq (before.any fun x => x.id == e.id) e r

/-- Whether an SC request has come to its node of the token's ring and is not performed (R294). -/
def scArrived (e : Req) : Bool := e.sc && !isApplied e && e.place != 0

/-- Whether a request's home is at a node of the token's ring. -/
def atNode (r : Req) (node : Nat) : Bool := match r.loc with | .mem pa => scNode pa == some node | .sp _ _ => false

/-- Whether an SC request may be performed now (R157, R294): it and the token are at its node, fewer than four were
performed in this visit, and no other SC request that waits there came to the node earlier. -/
def scTurn (s : State) (r : Req) : Bool :=
  scArrived r && atNode r s.scToken && s.scAt ≤ s.dcc && s.scDone < 4 &&
    s.reqs.all fun e => !(scArrived e && atNode e s.scToken && e.place < r.place)

/-- Whether a request may be applied at its home now. -/
def canApply (s : State) (r : Req) : Bool :=
  (r.stage == .sent || r.stage == .accepted) && !r.waiting && orderMet s r
    && !blocked s r && (!r.sc || scTurn s r)

/-- The earlier store of the same agent that covers a load and is the latest in program order to overlap it: the load may return
it before it is applied (R155, R285). A register of a control page answers every load itself (R259). -/
def forwardFrom (s : State) (r : Req) : Option Req :=
  let l := s.reqs.filter fun e => e.agent == r.agent && e.id < r.id && !isApplied e && reqStores e.op && overlaps e.loc e.size r.loc r.size
  match l.foldl (fun (m : Option Req) e => match m with | some x => if x.id < e.id then some e else some x | none => some e) none with
  | some e => if e.op = .store && e.loc == r.loc && e.size == r.size && !isRegisterLoc r.loc then some e else none
  | none => none
where
  /-- A location whose bytes are registers (R259, R388, R407). -/
  isRegisterLoc : Loc → Bool
    | .mem pa => (match placeOf pa with | .control _ _ => true | .queue _ _ => true | .fabric _ _ => true | _ => false)
    | .sp _ _ => false

/-- What a thread learns when an access of it returns a published value (R290): an acquire adds the stores to
those that happen before it; a relaxed load keeps them for a later fence. -/
def learn (s : State) (key : Nat) (a : Agent) (acq : Bool) (scope : Nat) (recs : List SyncRec) : State :=
  if acq then
    let ids := (recs.filter fun p => scopesMeet p.scope p.agent scope a).flatMap fun p => p.ids
    { s with known := Tab.set s.known key (((Tab.get [] s.known key) ++ ids).filter fun id => (findReq s id).isSome) }
  else if recs.isEmpty then s
  else { s with seen := Tab.set s.seen key (Tab.get [] s.seen key ++ recs) }

/-- What an agent's request learns. -/
def learnReq (s : State) (r : Req) : State :=
  match r.agent with
  | .thread t i n => learn s (threadKey t i n) r.agent r.acq r.scope r.got
  | _ => s

/-- Whether every earlier access of the acting thread, and every store that happens before it, is performed
within a scope: what a release waits for (R289, R291). -/
def releaseMet (s : State) (scope : Nat) : Bool :=
  (reqsOf s (curAgent s)).all (performed (curAgent s) scope)
    && (Tab.get [] s.known (curKey s)).all fun id => performedId s (curAgent s) scope id

/-- Whether a pending fence of a thread is satisfied (R158, R298). -/
def fenceMet (s : State) (tile set thr : Nat) : Bool :=
  match (getThread s tile set thr).fl.fence with
  | none => true
  | some f => f.ids.all (fun id => performedId s (.thread tile set thr) f.scope id) && f.ports.isEmpty

/-- The acting thread's satisfied fence is over: by its kinds it has learned what the loads before it returned, and the stores after
it publish what happens before it (R290). -/
def endFence (s : State) : State :=
  match (curThread s).fl.fence with
  | none => s
  | some f =>
    let k := curKey s
    let s1 := if bit f.kinds 0 || bit f.kinds 1 then
        { learn s k (curAgent s) true f.scope (Tab.get [] s.seen k) with seen := Tab.set s.seen k [] } else s
    let s2 := if bit f.kinds 1 || bit f.kinds 3 then
        { s1 with fenced := Tab.set s1.fenced k ⟨storesBefore s1, f.scope, curAgent s1⟩ } else s1
    modCurThread s2 fun th => { th with fl := { th.fl with fence := none } }

/-- The fence that a thread has pending is over where it is satisfied. -/
def settleFence (s : State) : State := if fenceMet s s.focus.tile s.focus.set s.focus.thr then endFence s else s

/-- What a thread's fence waits for of a stream port, after the port's access to an item has been made with some writes, or was
discarded (R298). -/
def portDone (s : State) (tile set p thr : Nat) (ids : List Nat) (hit : Nat → Bool) : State :=
  modThread s tile set thr fun th =>
    match th.fl.fence with
    | some f =>
      if f.ports.any fun x => x.1 == p && hit x.2 then
        { th with fl := { th.fl with fence := some { f with ids := f.ids ++ ids, ports := f.ports.filter fun x => !(x.1 == p && hit x.2) } } }
      else th
    | none => th

/-- The acting thread marks its destination busy until a request answers (R131). -/
def busyUntil (s : State) (d : Opnd) (id : Nat) : State :=
  match d with
  | .s n => modCurThread s fun th => { th with fl := { th.fl with busy := th.fl.busy ++ [⟨0, n, 0, some id⟩] } }
  | _ => s

end Sys2Proof.Machine
end

