-- ==== Sys2Proof/Machine/Collar.lean ====
section
/-! DEFINITION. The collar's images and regions (R73, R85, R88, R217): the fields of a configuration image, the
elements of a region, and the instant boundary at which gear transitions, swaps and plane switches happen. -/

namespace Sys2Proof.Machine

/-! ### Images -/

/-- The image of an element in a plane of its side (R88): planes are numbered side × 2 + plane. -/
def imageOf (t : Tile) (elem pl : Nat) : Image :=
  Tab.get ⟨[], []⟩ (Tab.get Plane.empty t.planes (elem / 16 * 2 + pl)).imgs (elem % 16)

/-- Word i of 64 bits of an image. -/
def imgWord (im : Image) (i : Nat) : Nat := (Tab.get 0 im.words i).toNat

/-- Handler descriptor h (R73). -/
def hDesc (im : Image) (h : Nat) : Nat := imgWord im (8 + h)
/-- PAT of a handler for input i: 0 X, 1 P, 2 A, 3 Q. -/
def hPat (im : Image) (h i : Nat) : Nat := bits (hDesc im h) (49 + 2 * i) (48 + 2 * i)
/-- OMASK bit of a handler. -/
def hOmask (im : Image) (h o : Nat) : Bool := bit (hDesc im h) (40 + o)
/-- PRIO of a handler. -/
def hPrio (im : Image) (h : Nat) : Nat := bits (hDesc im h) 39 37
/-- EN of a handler. -/
def hEn (im : Image) (h : Nat) : Bool := bit (hDesc im h) 36
/-- The cost of a handler in a gear (R73, R81). -/
def hCost (im : Image) (h : Nat) (gearL : Bool) : Nat := if gearL then bits (hDesc im h) 31 28 else bits (hDesc im h) 35 32
/-- MSTART of a handler. -/
def hStart (im : Image) (h : Nat) : Nat := bits (hDesc im h) 27 22
/-- The bundle count of a handler. -/
def hBundles (im : Image) (h : Nat) : Nat := bits (hDesc im h) 21 20 + 1

/-- Move-store word i (R88, R30). -/
def imgMove (im : Image) (i : Nat) : BitVec 32 := BitVec.ofNat 32 (imgWord im (16 + i / 2) / 2 ^ (32 * (i % 2)))

/-- Constant i: 16 lanes (R88). -/
def imgConst (im : Image) (i : Nat) : BitVec 512 :=
  BitVec.ofNat 512 (packElems 64 ((List.range 8).map fun j => imgWord im (48 + 8 * i + j)))

/-- Input descriptor i (R88). -/
def inDesc (im : Image) (i : Nat) : Nat := imgWord im (112 + i)
/-- IK: 0 unconnected, 1 link, 2 region source. -/
def inKind (im : Image) (i : Nat) : Nat := bits (inDesc im i) 63 62
/-- FROM of an input. -/
def inFrom (im : Image) (i : Nat) : Nat := bits (inDesc im i) 61 48
/-- ITYPE of an input. -/
def inType (im : Image) (i : Nat) : Nat := bits (inDesc im i) 47 44
/-- ISM of an input. -/
def inSm (im : Image) (i : Nat) : Nat := bits (inDesc im i) 43 42
/-- The channel depth of an input. -/
def inDepth (im : Image) (i : Nat) : Nat := bits (inDesc im i) 41 37 + 1
/-- DLY: a delay line stands in front of the input. -/
def inDly (im : Image) (i : Nat) : Bool := bit (inDesc im i) 36
/-- DLN of an input. -/
def inDln (im : Image) (i : Nat) : Nat := bits (inDesc im i) 35 34
/-- CONS of an input. -/
def inCons (im : Image) (i : Nat) : Bool := bit (inDesc im i) 33
/-- LOC of an input. -/
def inLoc (im : Image) (i : Nat) : Bool := bit (inDesc im i) 32

/-- Output descriptor o (R88). -/
def outDesc (im : Image) (o : Nat) : Nat := imgWord im (120 + o)
/-- OK: 0 unconnected, 1 link, 2 region sink. -/
def outKind (im : Image) (o : Nat) : Nat := bits (outDesc im o) 63 62
/-- TO of an output. -/
def outTo (im : Image) (o : Nat) : Nat := bits (outDesc im o) 61 48
/-- OTYPE of an output. -/
def outType (im : Image) (o : Nat) : Nat := bits (outDesc im o) 47 44
/-- LOC of an output. -/
def outLoc (im : Image) (o : Nat) : Bool := bit (outDesc im o) 43

/-- Delay-line descriptor d (R88). -/
def dlDesc (im : Image) (d : Nat) : Nat := imgWord im (128 + d)
/-- The depth of a delay line. -/
def dlDepth (im : Image) (d : Nat) : Nat := bits (dlDesc im d) 63 60 + 1
/-- Whether pre-loaded entry i of a line is a data item. -/
def dlPre (im : Image) (d i : Nat) : Bool := bit (dlDesc im d) (44 + i)
/-- The index of a line's first pre-loaded data item. -/
def dlOff (im : Image) (d : Nat) : Nat := bits (dlDesc im d) 43 38
/-- The input in front of which a line stands, if it is in input mode. -/
def dlInput (im : Image) (d : Nat) : Option Nat := (List.range 8).find? fun i => inDly im i && inDln im i == d

/-- LUT map byte i (R88). -/
def lutMap (im : Image) (i : Nat) : Nat := bits (imgWord im 132) (8 * i + 7) (8 * i)

/-! ### Regions -/

/-- The elements of a region (R216, R217). -/
def regionElems (r : Region) : List Nat :=
  (if r.ens then List.range 16 else []) ++ (if r.exs then (List.range 16).map (· + 16) else [])

/-- Whether a region holds sides. -/
def regionHeld (r : Region) : Bool := r.st != .free

/-- A set whose regions' monitors do not count for some ticks (R91). -/
def pauseRegions (c : CtxSet) (n : Nat) : CtxSet := { c with regions := Tab.mapAll (fun _ g => { g with moved := g.moved + n }) c.regions }

/-- A set that leaves its tile's clock or returns to it at a tick: its monitors' idle counts stand in place of the ticks from
which they count, and become such ticks again (R91). -/
def idleRegions (c : CtxSet) (dcc : Nat) : CtxSet := { c with regions := Tab.mapAll (fun _ g => { g with moved := dcc - g.moved }) c.regions }

/-- A region of a set. -/
def regionOf (c : CtxSet) (slot : Nat) : Region := Tab.get Region.free c.regions slot

/-- An element of a set. -/
def elemOfSet (c : CtxSet) (e : Nat) : Elem := Tab.get Elem.reset c.elems e

/-- The slot of the region that holds an element, if one does. -/
def slotOfElem (c : CtxSet) (e : Nat) : Option Nat :=
  (List.range 4).find? fun r => regionHeld (regionOf c r) && (regionElems (regionOf c r)).contains e

/-- The plane in force of an element's side (R217). -/
def planeOf (c : CtxSet) (e : Nat) : Nat :=
  match slotOfElem c e with
  | some r => if e < 16 then (regionOf c r).pe else (regionOf c r).px
  | none => 0

/-- Whether an element holds a fault of its reaction, which stops the reaction (R116). -/
def reactionFault (e : Elem) : Bool :=
  match e.fault with
  | some f => !f.stg1
  | none => false

/-- Whether an element is at an instant boundary (R85): no reaction of it occupies stages 2 to 6. A reaction that a
fault stopped counts as none (R117); it is the youngest, and those before it complete. -/
def elemBoundary (e : Elem) : Bool := e.rxs.isEmpty || (reactionFault e && e.rxs.length == 1)

/-- Whether a region is at an instant boundary (R85, R117). -/
def regionBoundary (c : CtxSet) (slot : Nat) : Bool :=
  (regionElems (regionOf c slot)).all fun e => elemBoundary (elemOfSet c e)

/-- Whether every region of a set is at an instant boundary. -/
def setBoundary (c : CtxSet) : Bool :=
  (List.range 4).all fun r => !regionHeld (regionOf c r) || regionBoundary c r

/-! ### Rings and the matrix engine's target (R125, R132) -/

/-- The key of a ring position among what ENQ captured. -/
def ringKey (eng pos : Nat) : Nat := eng * 65536 + pos % 65536

/-- The head of a ring. -/
def ringHead (c : CtxSet) (e : Nat) : Nat := (Tab.get 0 c.head e).toNat
/-- The tail of a ring. -/
def ringTail (c : CtxSet) (e : Nat) : Nat := (Tab.get 0 c.tail e).toNat
/-- The commands in a ring: TAIL less HEAD, mod 2^16. -/
def ringCount (c : CtxSet) (e : Nat) : Nat := (ringTail c e + 65536 - ringHead c e) % 65536

/-- What ENQ captured for a position of a ring. -/
def capturedAt (c : CtxSet) (eng pos : Nat) : Captured :=
  Tab.get ⟨0, 0, false, false, 0, [], 0⟩ c.captured (ringKey eng pos)

/-- The words a ring holds: 2^LSZ, none where LSZ is 0 (R125). -/
def ringSize (c : CtxSet) (e : Nat) : Nat :=
  let l := Tab.get 0 c.ringLsz e
  if l = 0 then 0 else 2 ^ l

/-- The share offset of a ring position (R234). -/
def ringAddr (c : CtxSet) (e pos : Nat) : Nat := Tab.get 0 c.ringBase e * 64 + 8 * (pos % ringSize c e)

/-- The stamp of a command word of the matrix engine (R28). -/
def stampOf (cmd : Word64) : Nat := bits cmd.toNat 41 26

/-- The target of the command at a position of the matrix engine's ring (R132): the schedule base captured for the position and the
stamp of the word that stands there. -/
def ringTarget (t : Tile) (c : CtxSet) (pos : Nat) : Nat :=
  ((capturedAt c 0 pos).base + stampOf (shareWord t c (ringAddr c 0 pos))) % 2 ^ 64

/-- Whether every command in the ME ring with a target below a TSC has issued (R164): what is in the ring has not. -/
def meTargetsMet (t : Tile) (c : CtxSet) (tsc : Nat) : Bool :=
  (List.range (ringCount c 0)).all fun i => tsc ≤ ringTarget t c (ringHead c 0 + i)

/-- The commands of a matrix engine that have issued and are not complete, nor stopped by a fault. -/
def meLive (m : MeState) : List MeRun := [m.west, m.load, m.drain, m.clear].filterMap id ++ m.done ++ m.back

/-- The other set of a tile. -/
def otherSet (i : Nat) : Nat := if i = 0 then 1 else 0

/-- The active set of a tile. -/
def activeSet (t : Tile) : CtxSet := tileSet t t.active

/-- Whether a swap is due at the active set's boundary (R122, R164): the incoming set has streamed in. -/
def swapDue (t : Tile) : Bool := t.swapReady

end Sys2Proof.Machine
end

