-- ==== Sys2Proof/Machine/Memory.lean ====
section
/-! DEFINITION. Scalar loads, stores, atomics and fences (R151 to R158), and HALT (R150), which awaits them. -/

namespace Sys2Proof.Machine

/-- The first address of the scratchpad aperture (R284). -/
def apertureBase : Nat := 0xFF000000000000

/-- The kinds of access that R152 tells apart: plain, SC, atomic, versioned, vector, and the reading of a
block (R369). -/
inductive AccessKind where
  | plain | sc | atomic | versioned | vector | block
deriving DecidableEq, Repr

/-- Whether an access of a kind and size may reach a place under a mapping (R152, R157, R259, R262, R388). -/
def kindOk (k : AccessKind) (size : Nat) (p : Place) (m : Mapping) : Bool :=
  m.vers == (k == .versioned) &&
    (match p with
    | .control _ _ => k == .plain && size == 8
    | .queue _ _ => k == .plain && size == 8
    | .fabric _ _ => k == .plain && size == 8
    | .host => k != .sc
    | .hole => false
    | _ => true)

/-- The outcome of the checks of R152 for one address: a location, a miss that parks, or a trap. -/
inductive Checked where
  | ok (loc : Loc)
  | miss
  | trap (cause : Nat)
deriving DecidableEq, Repr

/-- The checks of R152 and R284 for the acting thread, after alignment. -/
def checkAddress (s : State) (va size : Nat) (needR needW : Bool) (k : AccessKind) : Checked :=
  if apertureBase ≤ va then
    let off := va - apertureBase
    if k = .sc || k = .versioned then .trap 0x07
    else if shareBytes (curSet s) < off + size then .trap 0x08
    else .ok (.sp s.focus.tile (spPhys (curSet s) off))
  else
    match translate s s.focus.tile (curCtx s) (curThread s).fl.walked va with
    | .miss => .miss
    | .none => .trap 0x05
    | .hit pa m =>
      if (needR && !m.r) || (needW && !m.w) then .trap 0x06
      else if k = .sc && (match placeOf pa with
          | .column slot _ => (Tab.get Column.reset s.columns slot).removed | _ => false) then .trap 0x06
      else if kindOk k size (placeOf pa) m then .ok (.mem pa)
      else .trap 0x07

/-- Whether an LD.SC of the acting thread is not yet performed: the thread issues no later word (R293). -/
def scLoadPending (s : State) : Bool :=
  (reqsOf s (curAgent s)).any fun r => r.sc && r.op == .load && !isApplied r

/-- Whether the acting thread's memory words may issue: no fence is pending (R158) and its word is not parked
on a walk (R152). -/
def memoryReady (s : State) : Bool :=
  fenceMet s s.focus.tile s.focus.set s.focus.thr && !parkedOn s (curAgent s)

/-- The state in which a satisfied fence is over and the parked word has its translation. -/
def memoryBegin (s : State) : State :=
  modCurThread (endFence s) fun th => { th with fl := { th.fl with parked := none } }

/-- A scalar access of the acting thread (R152): alignment, translation and permission, then the access. -/
def scalarAccess (s : State) (va size : Nat) (needR needW : Bool) (k : AccessKind) (go : State → Loc → Res) : Res :=
  if !memoryReady s then .hold
  else if va % size != 0 then trapAt s 0x04 va
  else
    match checkAddress s va size needR needW k with
    | .trap cause => trapAt s cause va
    | .miss => parkThread s va
    | .ok loc => go (memoryBegin s) loc

/-- The bytes of a memory access (R24 SIZE). -/
def accessSize (m : BitVec 32) : Nat := 2 ^ modSize m

/-- The kind of access of an ordering code. -/
def ordKind (m : BitVec 32) : AccessKind := if modOrd m = 4 then .sc else .plain

/-- The scope code of an access: an SC access orders at PACKAGE (R157). -/
def ordScope (m : BitVec 32) : Nat := if modOrd m = 4 then 3 else modScope m

/-- Whether an ordering code is an acquire, as a load or atomic (R154, R157). -/
def isAcquire (m : BitVec 32) : Bool := modOrd m == 1 || modOrd m == 3 || modOrd m == 4

/-- Whether an ordering code is a release, as a store or atomic (R154, R157). -/
def isRelease (m : BitVec 32) : Bool := modOrd m == 2 || modOrd m == 3 || modOrd m == 4

/-- The request of an LD (R153). -/
def loadReq (s : State) (w : TWord) (va : Nat) (loc : Loc) : Req :=
  { threadReq s .load va loc (accessSize w.modf) (ordScope w.modf) (isAcquire w.modf) false (modOrd w.modf == 4) with
    sx := modSx w.modf
    dst := (match w.d with | .s n => .sreg n | _ => .none) }

/-- LD (R153). -/
def execLd (w : TWord) (s : State) : Host.Outcome State Fault Refusal :=
  .next (runWord w s fun s1 =>
    let va := effAddr w s1
    scalarAccess s1 va (accessSize w.modf) true false (ordKind w.modf) fun s2 loc =>
      .done (busyUntil (pushReq s2 (loadReq s2 w va loc)) w.d s2.serial))

/-- The request of an ST (R153). -/
def storeReq (s : State) (w : TWord) (va : Nat) (loc : Loc) (v : BitVec 64) : Req :=
  { threadReq s .store va loc (accessSize w.modf) (ordScope w.modf) false (isRelease w.modf) (modOrd w.modf == 4) with
    val := v }

/-- ST (R153). -/
def execSt (w : TWord) (s : State) : Host.Outcome State Fault Refusal :=
  .next (runWord w s fun s1 =>
    let va := effAddr w s1
    scalarAccess s1 va (accessSize w.modf) false true (ordKind w.modf) fun s2 loc =>
      .done (pushReq s2 (storeReq s2 w va loc (argC w s1))))

/-- The request of an ATOM or a CAS (R156). -/
def atomReq (s : State) (w : TWord) (op : ReqOp) (va : Nat) (loc : Loc) (v cmp : BitVec 64) : Req :=
  { threadReq s op va loc (accessSize w.modf) (modScope w.modf) (isAcquire w.modf) (isRelease w.modf) false with
    val := v, cmp := cmp, sx := modSx w.modf
    dst := (match w.d with | .s n => .sreg n | _ => .none) }

/-- ATOM (R156). -/
def execAtom (w : TWord) (s : State) : Host.Outcome State Fault Refusal :=
  .next (runWord w s fun s1 =>
    let va := effAddr w s1
    scalarAccess s1 va (accessSize w.modf) true true .atomic fun s2 loc =>
      .done (busyUntil (pushReq s2 (atomReq s2 w (.atom (modFn w.modf)) va loc (argC w s1) 0)) w.d s2.serial))

/-- CAS (R156): the address is A alone. -/
def execCas (w : TWord) (s : State) : Host.Outcome State Fault Refusal :=
  .next (runWord w s fun s1 =>
    let va := (argA w s1).toNat % 2 ^ 56
    scalarAccess s1 va (accessSize w.modf) true true .atomic fun s2 loc =>
      .done (busyUntil (pushReq s2 (atomReq s2 w .cas va loc (argC w s1) (argB w s1))) w.d s2.serial))

/-- The stream ports open under an SPB that the acting thread enqueued (R298). -/
def portsOf (s : State) : List (Nat × StreamPort) := (curSet s).ports.filter fun p => p.2.thr == s.focus.thr

/-- The requests a fence waits for (R158, R298): by its kinds, the earlier loads, the earlier stores with those
that happen before them, and the writes of the thread's stream ports. -/
def fenceIds (s : State) (kinds : Nat) : List Nat :=
  let own := reqsOf s (curAgent s)
  let loads := if bit kinds 0 || bit kinds 1 then (own.filter fun r => reqLoads r.op).map fun r => r.id else []
  let stores := if bit kinds 2 || bit kinds 3 then
      storesBefore s ++ (portsOf s).flatMap fun p => p.2.writes else []
  let cum := if bit kinds 1 || bit kinds 3 then storesBefore s else []
  loads ++ stores ++ cum

/-- The accesses of the thread's stream ports that are parked, or stopped on a fault, when a fence issues (R298): the read ports' for a
fence of loads, the write ports' for one of stores. -/
def fencePorts (s : State) (kinds : Nat) : List (Nat × Nat) :=
  (portsOf s).filterMap fun p =>
    if p.1 < 4 && !(bit kinds 0 || bit kinds 1) || 4 ≤ p.1 && !(bit kinds 2 || bit kinds 3) then none
    else p.2.miss.map fun k => (p.1, k)

/-- FENCE (R158): later memory words of the thread wait until it is satisfied. -/
def execFence (w : TWord) (s : State) : Host.Outcome State Fault Refusal :=
  .next (runWord w s fun s1 =>
    if !memoryReady s1 then .hold
    else
      let s2 := endFence s1
      let f : Fence := ⟨modKind w.modf, modScope w.modf, fenceIds s2 (modKind w.modf), fencePorts s2 (modKind w.modf)⟩
      .done (modCurThread s2 fun th => { th with fl := { th.fl with fence := some f } }))

/-- HALT (R150): once every earlier access of the thread is performed. -/
def execHalt (w : TWord) (s : State) : Host.Outcome State Fault Refusal :=
  .next (runWord w s fun s1 =>
    if !(reqsOf s1 (curAgent s1)).isEmpty || !memoryReady s1 then .hold
    else .stop (modCurThread s1 fun th => { th with st := .halt, pc := th.pc + 1, fl := Flight.none }))

end Sys2Proof.Machine
end

