-- ==== Sys2Proof/Machine/Cluster.lean ====
section
/-! DEFINITION. The cluster instructions (R261 to R278): versioned words, barriers, deques and the thermal
sensor, as a thread issues them and as the column controller serves them. -/

namespace Sys2Proof.Machine

/-! ### Words that a column controller answers -/

/-- The words that put their thread into WAIT until they are answered (R120); RECLAIM, DQPOP and DQSTEAL leave it
in RUN, not ready (notes/assumptions/16.md). -/
def stayWord (waits : Bool) (s : State) : Res := if waits then .wait s else .stop s

/-- The acting thread's request is sent and awaited. -/
def sendAsk (waits : Bool) (s : State) (r : Req) : Res :=
  stayWord waits (modCurThread (pushReq s r) fun th =>
    { th with fl := { th.fl with asked := some r.id, waitFrom := s.dcc } })

/-- A trap that a column controller answers with. -/
def answerTrap (s : State) (r : Req) (p : Nat × BitVec 64) : Res := trapDet s p.1 r.va p.2

/-- A word that a column controller answers: sent once, then awaited (R120); a failing line or state raises an
integrity trap. -/
def askWord (waits : Bool) (s : State) (send : State → Res) (finish : State → Req → Res) : Res :=
  match (curThread s).fl.asked with
  | none => send s
  | some id =>
    match findReq s id with
    | none => send s
    | some r =>
      if isApplied r && !r.waiting then
        let s1 := learnReq (dropReq s id) r
        if r.bad then trapAt s1 0x09 r.va
        else match r.trap with
          | some p => answerTrap s1 r p
          | none => finish s1 r
      else stayWord waits s

/-- COLUMN for the scope codes 000 and 001 of the cluster class (R261). -/
def clusterScope (m : BitVec 32) : Nat := if modScope m = 0 then 1 else modScope m

/-- An object number (R261): slot and index; none where A[63:10] is not 0. -/
def objectOf (a : BitVec 64) : Option (Nat × Nat) :=
  if a.toNat < 1024 then some (a.toNat / 16, a.toNat % 16) else none

/-- The physical address that stands for a barrier: its BARST register (R260). -/
def barrierLoc (slot n : Nat) : Loc := .mem (0x000300000000 + slot * 0x10000 + 0x100 + 8 * n)
/-- The physical address that stands for a deque: its DQCFG register (R260). -/
def dequeLoc (slot n : Nat) : Loc := .mem (0x000300000000 + slot * 0x10000 + 0x200 + 16 * n)

/-- The slot and index of a barrier's location. -/
def barrierOfLoc : Loc → Nat × Nat
  | .mem pa => ((pa - 0x000300000000) / 0x10000, (pa % 0x10000 - 0x100) / 8)
  | .sp _ _ => (0, 0)

/-- The slot and index of a deque's location. -/
def dequeOfLoc : Loc → Nat × Nat
  | .mem pa => ((pa - 0x000300000000) / 0x10000, (pa % 0x10000 - 0x200) / 16)
  | .sp _ _ => (0, 0)

/-! ### Versioned words -/

/-- A versioned instruction once its operands are checked (R263): B within 16 bits, then the checks of R152. -/
def versionedWord (w : TWord) (s : State) (waits : Bool) (b : BitVec 64) (checkB needR needW : Bool)
    (req : State → Nat → Loc → Req) (finish : State → Req → Res) : Res :=
  askWord waits s (fun s1 =>
    if checkB && 65535 < b.toNat then illegalOperand s1
    else
      let va := (argA w s1).toNat % 2 ^ 56
      scalarAccess s1 va 8 needR needW .versioned fun s2 loc => sendAsk waits s2 (req s2 va loc)) finish

/-- LDV (R263). -/
def execLdv (w : TWord) (s : State) : Host.Outcome State Fault Refusal :=
  .next (runWord w s fun s1 =>
    versionedWord w s1 true (argB w s1) true true false
      (fun s2 va loc =>
        { threadReq s2 .ldv va loc 8 (clusterScope w.modf) true false false with val := argB w s1 })
      (fun s2 r => .done (writeS s2 w.d r.res)))

/-- STV (R263): D receives the new version number. -/
def execStv (w : TWord) (s : State) : Host.Outcome State Fault Refusal :=
  .next (runWord w s fun s1 =>
    versionedWord w s1 true (argB w s1) false false true
      (fun s2 va loc =>
        { threadReq s2 .stv va loc 8 (clusterScope w.modf) false true false with val := argB w s1 })
      (fun s2 r => .done (writeS s2 w.d r.res)))

/-- RECLAIM (R263). -/
def execReclaim (w : TWord) (s : State) : Host.Outcome State Fault Refusal :=
  .next (runWord w s fun s1 =>
    versionedWord w s1 false (argB w s1) true false true
      (fun s2 va loc =>
        { threadReq s2 .reclaim va loc 8 (clusterScope w.modf) false false false with val := argB w s1 })
      (fun s2 _ => .done s2))

/-- The word of a version trap (R265). -/
def versionDetail (ver kind : Nat) : BitVec 64 := BitVec.ofNat 64 (ver % 65536 * 65536 + kind)

/-- Whether version n of a word is live, retired or ahead (R262): the distance L − n mod 2^16. -/
def versionDist (v : VWord) (n : Nat) : Nat := (v.newest.toNat + 65536 - n % 65536) % 65536

/-- The key of what a version publishes (R290). -/
def versionKey (pa n : Nat) : Nat := 2 ^ 80 + pa * 65536 + n

/-- The versioned word of a location. -/
def vwordOf (s : State) (pa : Nat) : VWord := Tab.get VWord.reset s.vwords pa

/-- The address of a memory location. -/
def locPa : Loc → Nat
  | .mem pa => pa
  | .sp _ off => off

/-- A request answered at its home. -/
def answer (s : State) (r : Req) (v : BitVec 64) : State :=
  putReq s { r with stage := .applied, waiting := false, res := v }

/-- A request answered with a trap. -/
def answerWithTrap (s : State) (r : Req) (cause : Nat) (det : BitVec 64) : State :=
  putReq s { r with stage := .applied, waiting := false, trap := some (cause, det) }

/-- The waiting LDVs of a version answered, in the tick of the STV that creates it (R264). -/
def wakeLdvs (s : State) (pa n : Nat) (v : BitVec 64) (recs : List SyncRec) : State :=
  { s with reqs := s.reqs.map fun e =>
      if e.waiting && e.op == .ldv && locPa e.loc == pa && e.val.toNat % 65536 == n then
        { e with stage := .applied, waiting := false, res := v, got := recs }
      else e }

/-- An STV performed (R263): the next version is created. -/
def performStv (s : State) (r : Req) : State :=
  let pa := locPa r.loc
  let v := vwordOf s pa
  let l := v.newest + 1
  let v1 := { v with newest := l, nlive := v.nlive + 1, vals := Tab.set v.vals (l.toNat % 65536) r.val }
  let recs := r.pub.toList
  let s1 := { s with vwords := Tab.set s.vwords pa v1, sync := Tab.set s.sync (versionKey pa l.toNat) recs }
  wakeLdvs (answer s1 r (l.setWidth 64)) pa l.toNat r.val recs

/-- The ticks that an STV may wait at a column (R260). -/
def verswaitOf (s : State) (pa : Nat) : Nat :=
  Nat.max 64 (Tab.get Column.reset s.columns ((columnOf pa).getD 0)).verswait.toNat

/-- Whether an STV waits on a word, and its count has not expired (R263). -/
def stvWaits (s : State) (pa : Nat) (e : Req) : Bool :=
  e.waiting && e.op == .stv && locPa e.loc == pa && s.dcc < e.since + verswaitOf s pa

/-- The place of a thread's request among those of a tick: ascending tile, then thread (R264, R268, R276). -/
def threadRank (r : Req) : Nat :=
  match r.agent with
  | .thread t _ th => t * 4 + th
  | _ => 0

/-- The STV that is performed next of those that wait on a word (R264). -/
def nextStv (s : State) (pa : Nat) : Option Req :=
  (s.reqs.filter (stvWaits s pa)).foldl (fun (m : Option Req) e => match m with
    | some x => if threadRank e < threadRank x then some e else some x
    | none => some e) none

/-- Waiting STVs performed while versions are free (R264). -/
def drainStvs (pa : Nat) : Nat → State → State
  | 0, s => s
  | fuel + 1, s =>
    if 4 ≤ (vwordOf s pa).nlive then s
    else match nextStv s pa with
      | some r => drainStvs pa fuel (performStv s r)
      | none => s

/-- The end of a tick at the column controllers (R264): the STVs that this tick's RECLAIMs have unblocked are performed, after every
RECLAIM of the tick. -/
def settleColumns (s : State) : State :=
  ((s.reqs.filter fun e => e.waiting && e.op == .stv).map fun e => locPa e.loc).eraseDups.foldl (fun acc pa => drainStvs pa 4 acc) s

/-- LDV, STV and RECLAIM at the column controller (R262, R263). -/
def applyVersioned (s : State) (r : Req) : State :=
  let pa := locPa r.loc
  let v := vwordOf s pa
  if v.poisoned then putReq s { r with stage := .applied, bad := true }
  else
    let n := r.val.toNat % 65536
    let d := versionDist v n
    match r.op with
    | .ldv =>
      if d < v.nlive then
        putReq s { r with stage := .applied, res := Tab.get 0 v.vals n, got := Tab.get [] s.sync (versionKey pa n) }
      else if d < 32768 then answerWithTrap s r 0x20 (versionDetail n 2)
      else putReq s { r with waiting := true, since := s.dcc }
    | .stv =>
      if 4 ≤ v.nlive || s.reqs.any (stvWaits s pa) then putReq s { r with waiting := true, since := s.dcc } else performStv s r
    | _ =>
      if 32768 ≤ d then answerWithTrap s r 0x20 (versionDetail n 3)
      else
        let v1 := if d < v.nlive then
            { v with nlive := d, vals := v.vals.filter fun p =>
                (v.newest.toNat + 65536 - p.1) % 65536 < d } else v
        answer { s with vwords := Tab.set s.vwords pa v1 } r 0

/-! ### Barriers -/

/-- Whether a context holds a share on a tile of a slot. -/
def holdsSlot (s : State) (ctx slot : Nat) : Bool :=
  (getCtx s ctx).shares.any fun p => tileSlot p.1 == slot

/-- BARINIT (R267). -/
def execBarinit (w : TWord) (s : State) : Host.Outcome State Fault Refusal :=
  .next (runWord w s fun s1 =>
    askWord true s1 (fun s2 =>
      let b := argB w s2
      match objectOf (argA w s2) with
      | none => illegalOperand s2
      | some (slot, n) =>
        if 1024 < b.toNat then illegalOperand s2
        else if !bit (features s2) 0 && (modFn w.modf / 2 != 0) then illegalOperand s2
        else if !holdsSlot s2 (curCtx s2) slot then trapNow s2 0x06
        else sendAsk true s2
          { threadReq s2 .barinit 0 (barrierLoc slot n) 8 0 false false false with
            val := BitVec.ofNat 64 (b.toNat + modFn w.modf * 65536) })
      (fun s2 _ => .done s2))

/-- A barrier of a column. -/
def barrierOf (s : State) (slot n : Nat) : Barrier :=
  Tab.get Barrier.reset (Tab.get Column.reset s.columns slot).bars n

/-- A column changed. -/
def modColumn (s : State) (slot : Nat) (f : Column → Column) : State :=
  { s with columns := Tab.set s.columns slot (f (Tab.get Column.reset s.columns slot)) }

/-- A barrier replaced. -/
def putBarrier (s : State) (slot n : Nat) (b : Barrier) : State :=
  modColumn s slot fun c => { c with bars := Tab.set c.bars n b }

/-- The context of the agent of a request. -/
def reqCtx (s : State) (r : Req) : Nat :=
  match r.agent with
  | .thread t i _ => (getSet s t i).ctx.getD 0
  | .port t i _ => (getSet s t i).ctx.getD 0
  | .region t i _ => (getSet s t i).ctx.getD 0
  | _ => 0

/-- BARINIT at the controller (R267). -/
def applyBarinit (s : State) (r : Req) : State :=
  let (slot, n) := barrierOfLoc r.loc
  let b := barrierOf s slot n
  let ctx := reqCtx s r
  let count := r.val.toNat % 65536
  let flags := r.val.toNat / 65536
  if b.bnd && b.ctx != ctx then answerWithTrap s r 0x06 0
  else if b.bnd && 0 < b.arr then answerWithTrap s r 0x02 0
  else if count = 0 then answer (putBarrier s slot n { b with bnd := false }) r 0
  else
    answer (putBarrier s slot n
      { gen := 0, arr := 0, cnt := count, bnd := true, gu := bit flags 2, pk := bit flags 1, ls := bit flags 0,
        ctx := ctx, parts := [], failed := false, epoch := r.id, lat := 0 }) r 0

/-- BARWAIT (R268): a release, an arrival, and a wait for the generation's release. An arrival that was counted is
waited on, not counted again. -/
def execBarwait (w : TWord) (s : State) : Host.Outcome State Fault Refusal :=
  .next (runWord w s fun s1 =>
    if (curThread s1).fl.arrived.isSome then
      .wait (modCurThread s1 fun th => { th with fl := { th.fl with asked := none } })
    else
      askWord true s1 (fun s2 =>
        match objectOf (argA w s2) with
        | none => illegalOperand s2
        | some (slot, n) =>
          sendAsk true s2 (threadReq s2 .barrier 0 (barrierLoc slot n) 8 (clusterScope w.modf) true true false))
        (fun s2 _ => .wait s2))

/-- The release latency that an arrival from a tile makes (R268). -/
def arrivalLatency (slot tile : Nat) : Nat := if tileSlot tile == slot then 8 else if tileDie tile == slot / 16 then 24 else 96

/-- The generation of a barrier in hand, with the BARINIT that bound it. -/
def barrierGen (b : Barrier) : Nat := b.epoch * 65536 + b.gen.toNat

/-- The stores that the arrivals of a generation publish to every participant (R290). -/
def barrierKey (slot n gen : Nat) : Nat := 2 ^ 160 + (gen * 64 + slot) * 16 + n

/-- BARWAIT's arrival at the controller (R268). -/
def applyBarrier (s : State) (r : Req) : State :=
  let (slot, n) := barrierOfLoc r.loc
  let b := barrierOf s slot n
  if b.failed then putReq s { r with stage := .applied, bad := true }
  else if !b.bnd || b.ctx != reqCtx s r then answerWithTrap s r 0x06 0
  else
    match r.agent with
    | .thread t i th =>
      let key := barrierKey slot n (barrierGen b)
      let s1 := modThread (dropReq s r.id) t i th fun x =>
        { x with fl := { x.fl with arrived := some (slot, n, barrierGen b), asked := none } }
      let s2 := { s1 with sync := Tab.set s1.sync key (Tab.get [] s1.sync key ++ r.pub.toList) }
      let parts := b.parts ++ [(t, i, th)]
      let lat := Nat.max b.lat (arrivalLatency slot t)
      if b.arr + 1 = b.cnt then
        let rel : Release :=
          { slot := slot, bar := n, gen := barrierGen b, tick := s.dcc, lat := lat, ls := b.ls,
            gu := b.gu, pk := b.pk, parts := parts, ups := [], away := [], set_ := false, meet := 0 }
        putBarrier { s2 with releases := s2.releases ++ [rel] } slot n
          { b with gen := b.gen + 1, arr := 0, parts := [], lat := 0 }
      else putBarrier s2 slot n { b with arr := b.arr + 1, parts := parts, lat := lat }
    | _ => answerWithTrap s r 0x06 0

/-- A participant whose tile changes gear on release, and the tick from which it may (R269 to R273): parked under
PARK, or in gear L under GEARUP with its regions at an instant boundary. -/
def gearUpAt (s : State) (rel : Release) (p : Nat × Nat × Nat) : Option Nat :=
  let t := getTile s p.1
  let due := rel.tick + rel.lat
  if t.active != p.2.1 then none
  else if t.therm then none
  else if t.parked && t.effL then some (if due ≤ t.clk.since then t.clk.since + 1 else due)
  else if rel.gu && (tileSet t p.2.1).reqL && t.effL && !t.therm && setBoundary (tileSet t p.2.1) then some due
  else none

/-- The least multiple of 4 at or above a tick. -/
def up4 (n : Nat) : Nat := (n + 3) / 4 * 4

/-- What a release does at tick T + lat (R270 to R273): which participants change gear, the resume tick of
LOCKSTEP, and REQ := H under GEARUP, with a transition left pending where a region is not at a boundary. -/
def settleRelease (s : State) (rel : Release) : Release × State :=
  let due := rel.tick + rel.lat
  let ups := rel.parts.filterMap fun p => (gearUpAt s rel p).map fun x => (p, x)
  let away := rel.parts.filter fun p => (getTile s p.1).active != p.2.1 || (getTile s p.1).removed
  let latest := ups.foldl (fun m u => Nat.max m u.2) due
  let raise (s : State) (p : Nat × Nat × Nat) : State :=
    let t := getTile s p.1
    if rel.gu && (tileSet t p.2.1).reqL then
      modSet s p.1 p.2.1 fun c =>
        { c with reqL := false
                 gearPend := if t.active == p.2.1 && t.effL && !t.therm && !setBoundary c && c.gearPend.isNone
                   then some (4, clockTsc t.clk s.dcc, false) else c.gearPend }
    else s
  ({ rel with ups := ups, away := away, set_ := true, meet := up4 (latest + 48) }, rel.parts.foldl raise s)

/-- A tile goes to gear H with no step edge on 48 ticks from this one (R269). -/
def gearUpTile (s : State) (tile : Nat) : State :=
  modTile s tile fun t =>
    { putTileSet t t.active (pauseRegions (activeSet t) 48) with clk := ⟨clockTsc t.clk (s.dcc - 1), s.dcc + 47, false, 0⟩, effL := false, parked := false }

/-- The releases at the beginning of a tick: those that are due are settled, and the gear changes that begin at
this tick begin. -/
def releaseTick (s : State) : State :=
  let settle (acc : State × List Release) (rel : Release) : State × List Release :=
    if !rel.set_ && rel.tick + rel.lat ≤ s.dcc then
      let (r1, s1) := settleRelease acc.1 rel
      (s1, acc.2 ++ [r1])
    else (acc.1, acc.2 ++ [rel])
  let (s1, rels) := s.releases.foldl settle (s, [])
  let begins (rel : Release) (u : (Nat × Nat × Nat) × Nat) : Bool :=
    rel.set_ && (if rel.ls then rel.meet - 48 ≤ s.dcc else u.2 ≤ s.dcc)
  let tiles := rels.flatMap fun rel => (rel.ups.filter (begins rel)).map fun u => u.1.1
  let rels1 := rels.map fun rel => { rel with ups := rel.ups.filter fun u => !begins rel u }
  { (tiles.eraseDups.foldl gearUpTile s1) with releases := rels1 }

/-- Whether a participant of a release resumes now (R269, R270, R273). -/
def resumesNow (s : State) (rel : Release) (p : Nat × Nat × Nat) : Bool :=
  rel.set_ && rel.parts.contains p && (getTile s p.1).active == p.2.1 && edgeNow s p.1
    && !(rel.ups.any fun u => u.1 == p)
    && (if rel.ls && !rel.away.contains p then rel.meet ≤ s.dcc else rel.tick + rel.lat ≤ s.dcc)

/-- The release of the generation at which a thread has arrived. -/
def releaseOf (s : State) (a : Nat × Nat × Nat) : Option Release :=
  s.releases.find? fun r => r.slot == a.1 && r.bar == a.2.1 && r.gen == a.2.2

/-- A participant resumes: BARWAIT completes, an acquire at its own scope of every arrival of the generation (R268, R290), and the next
word may issue at this edge. -/
def resumeThread (s : State) (tile set thr : Nat) (a : Nat × Nat × Nat) (rel : Release) : State :=
  let p := (tile, set, thr)
  let rest := rel.parts.filter fun q => q != p
  let s1 := { s with
    releases := (s.releases.map fun r =>
      if r.slot == rel.slot && r.bar == rel.bar && r.gen == rel.gen then { r with parts := rest } else r).filter
        fun r => !r.parts.isEmpty
    focus := { s.focus with tile := tile, set := set, thr := thr } }
  let recs := Tab.get [] s1.sync (barrierKey a.1 a.2.1 a.2.2)
  let own := recs.find? fun r => r.agent == .thread tile set thr
  let s2 := learn s1 (threadKey tile set thr) (.thread tile set thr) true ((own.map fun r => r.scope).getD 1) recs
  let s3 := if rest.isEmpty then { s2 with sync := Tab.erase s2.sync (barrierKey a.1 a.2.1 a.2.2) } else s2
  let s4 := modThread s3 tile set thr fun th => { th with fl := { th.fl with arrived := none } }
  modThread (goPc s4 ((getThread s4 tile set thr).pc + 1) false) tile set thr fun th =>
    { th with fl := { th.fl with notBefore := tscOf s tile } }

/-- BARRIER_RESUME (R269): a waiting participant's resume edge. -/
def execBarrierResume (tile thr : Nat) (s : State) : Host.Outcome State Fault Refusal :=
  let set := (getTile s tile).active
  let th := getThread s tile set thr
  match th.fl.arrived with
  | some a =>
    match releaseOf s a with
    | some rel =>
      if th.st == .wait && resumesNow s rel (tile, set, thr) then .next (resumeThread s tile set thr a rel)
      else .next s
    | none => .next s
  | none => .next s

/-- Whether PARK drops a waiter's tile to gear L now (R271). -/
def parkDropNow (s : State) (tile thr : Nat) : Bool :=
  let t := getTile s tile
  let c := activeSet t
  let th := setThread? c thr
  match th.fl.arrived with
  | some a =>
    let pk := match releaseOf s a with
      | some rel => rel.pk && s.dcc < rel.tick + rel.lat
      | none => (barrierOf s a.1 a.2.1).pk
    pk && th.st == .wait && !t.effL && edgeNow s tile && th.fl.waitFrom + 256 ≤ s.dcc
      && (List.range 4).all (fun n => n == thr || (setThread? c n).st != .run)
      && meTargetsMet t c (clockTsc t.clk s.dcc) && setBoundary c && !swapDue t
  | none => false

/-- PARK_DROP (R271): an H → L transition of the effective gear alone. -/
def execParkDrop (tile thr : Nat) (s : State) : Host.Outcome State Fault Refusal :=
  if parkDropNow s tile thr then
    .next (modTile s tile fun t =>
      { putTileSet t t.active (pauseRegions (activeSet t) 16) with
               effL := true, parked := true, trans := some (clockTsc t.clk s.dcc)
               clk := tilePause t s.dcc 16 true })
  else .next s

/-! ### Deques -/

/-- The key of what a deque's entries publish: one record per entry, in the deque's order (R290). -/
def dequeKey (slot n : Nat) : Nat := 2 ^ 120 + slot * 16 + n

/-- A deque instruction's request. -/
def dequeReq (w : TWord) (s : State) (op : ReqOp) (obj : Nat × Nat) (acq rel : Bool) (v : BitVec 64) : Req :=
  { threadReq s op 0 (dequeLoc obj.1 obj.2) 16 (clusterScope w.modf) acq rel false with val := v }

/-- EMPTY (R275). -/
def dequeEmpty : BitVec 64 := 0xFFFFFFFFFFFFFFFF

/-- DQPUSH (R275). -/
def execDqpush (w : TWord) (s : State) : Host.Outcome State Fault Refusal :=
  .next (runWord w s fun s1 =>
    askWord true s1 (fun s2 =>
      match objectOf (argA w s2) with
      | none => illegalOperand s2
      | some obj =>
        if argB w s2 = dequeEmpty then illegalOperand s2
        else sendAsk true s2 (dequeReq w s2 .push obj false true (argB w s2)))
      (fun s2 _ => .done s2))

/-- DQPOP (R275). -/
def execDqpop (w : TWord) (s : State) : Host.Outcome State Fault Refusal :=
  .next (runWord w s fun s1 =>
    askWord false s1 (fun s2 =>
      match objectOf (argA w s2) with
      | none => illegalOperand s2
      | some obj => sendAsk false s2 (dequeReq w s2 .pop obj true false 0))
      (fun s2 r => .done (writeS s2 w.d r.res)))

/-- DQSTEAL (R275). -/
def execDqsteal (w : TWord) (s : State) : Host.Outcome State Fault Refusal :=
  .next (runWord w s fun s1 =>
    askWord false s1 (fun s2 =>
      match objectOf (argA w s2) with
      | none => illegalOperand s2
      | some obj => sendAsk false s2 (dequeReq w s2 .steal obj true false 0))
      (fun s2 r => .done (writeS s2 w.d r.res)))

/-- A deque of a column. -/
def dequeOf (s : State) (slot n : Nat) : Deque :=
  Tab.get Deque.reset (Tab.get Column.reset s.columns slot).deques n

/-- A deque replaced. -/
def putDeque (s : State) (slot n : Nat) (d : Deque) : State :=
  modColumn s slot fun c => { c with deques := Tab.set c.deques n d }

/-- The deque after an entry is taken: its segments return when it is empty (R274). -/
def takenFrom (d : Deque) (q : List (BitVec 64)) : Deque := { d with q := q, segs := if q.isEmpty then 0 else d.segs }

/-- The entries a deque can hold (R274). -/
def dequeRoom (d : Deque) : Nat := 64 + 64 * d.segs

/-- A push inserted at the bottom. -/
def performPush (s : State) (r : Req) : State :=
  let (slot, n) := dequeOfLoc r.loc
  let d := dequeOf s slot n
  let key := dequeKey slot n
  answer { putDeque s slot n { d with q := r.val :: d.q } with
    sync := Tab.set s.sync key (r.pub.toList ++ Tab.get [] s.sync key) } r 0

/-- DQPUSH, DQPOP and DQSTEAL at the controller (R274, R275). -/
def applyDeque (s : State) (r : Req) : State :=
  let (slot, n) := dequeOfLoc r.loc
  let d := dequeOf s slot n
  let key := dequeKey slot n
  let recs := Tab.get [] s.sync key
  if d.failed then putReq s { r with stage := .applied, bad := true }
  else if !d.en || d.ctx != reqCtx s r then answerWithTrap s r 0x06 0
  else
    match r.op with
    | .push =>
      if d.q.length < dequeRoom d then performPush s r
      else if 8 ≤ d.segs then answerWithTrap s r 0x16 (BitVec.ofNat 64 (slot * 16 + n))
      else putReq s { r with waiting := true, since := s.dcc }
    | .pop =>
      match d.q with
      | [] => putReq s { r with stage := .applied, res := dequeEmpty, acq := false }
      | x :: q =>
        putReq { putDeque s slot n (takenFrom d q) with sync := Tab.set s.sync key recs.tail }
          { r with stage := .applied, res := x, got := recs.head?.toList }
    | _ =>
      match d.q.getLast? with
      | none => putReq s { r with stage := .applied, res := dequeEmpty, acq := false }
      | some x =>
        putReq { putDeque s slot n (takenFrom d d.q.dropLast) with sync := Tab.set s.sync key recs.dropLast }
          { r with stage := .applied, res := x, got := recs.getLast?.toList }

/-! ### Ranks within one tick (R264, R268, R276) -/

/-- The rank of an operation among those that reach one object in one tick: by kind, then tile, then thread. -/
def rankOf (r : Req) : Nat :=
  let kind := match r.op with
    | .ldv => 0 | .reclaim => 1 | .stv => 2 | .steal => 1 | _ => 0
  match r.agent with
  | .thread t _ th => kind * 1024 + t * 4 + th
  | _ => kind * 1024

/-- Whether an operation is ranked on its object. -/
def isRanked : ReqOp → Bool
  | .ldv | .stv | .reclaim | .barrier | .push | .pop | .steal => true
  | _ => false

/-- Whether an operation may still be served in this tick: none of a higher rank was. -/
def rankMet (s : State) (r : Req) : Bool :=
  !isRanked r.op ||
    (match Tab.find? s.ranks (locPa r.loc) with
    | some (tick, rank) => tick != s.dcc || rank ≤ rankOf r
    | none => true)

/-- The rank of an operation served in this tick is kept. -/
def noteRank (s : State) (r : Req) : State :=
  if isRanked r.op then { s with ranks := Tab.set s.ranks (locPa r.loc) (s.dcc, rankOf r) } else s

/-! ### Events of cluster instructions -/

/-- VERSION_OVERFLOW (R263): an STV that has waited VERSWAIT ticks takes the version trap, and nothing is written. A thread whose set
is not active finds the trap as the answer of its word, which is evaluated again on return (R120). -/
def execVersionOverflow (tile thr : Nat) (s : State) : Host.Outcome State Fault Refusal :=
  let late (set : Nat) : Option Req :=
    ((getThread s tile set thr).fl.asked.bind (findReq s)).filter fun r =>
      r.op == .stv && r.waiting && r.since + verswaitOf s (locPa r.loc) ≤ s.dcc
  let det (r : Req) : BitVec 64 := versionDetail (vwordOf s (locPa r.loc)).newest.toNat 1
  let set := (getTile s tile).active
  match late set with
  | some r =>
    let th := getThread s tile set thr
    if th.st == .wait then .next (raiseTrap (dropReq s r.id) tile set (wordRec 0x20 thr th.pc r.va (det r)))
    else .next (answerWithTrap s r 0x20 (det r))
  | none =>
    match late (otherSet set) with
    | some r => .next (answerWithTrap s r 0x20 (det r))
    | none => .next s

/-- TSENS (R278): the latest sample of a slot. -/
def sensorWord (s : State) (slot : Nat) : BitVec 64 :=
  let c := Tab.get Column.reset s.columns slot
  let t := c.temp.toInt
  BitVec.ofNat 64 (slot * 2 ^ 32 + (if c.fail then 2 ^ 19 else 0) + (if 460 ≤ t then 2 ^ 18 else 0)
    + (if c.crit then 2 ^ 17 else 0) + (if 380 < t then 2 ^ 16 else 0) + c.temp.toNat)

/-- TSENS (R278). -/
def execTsens (w : TWord) (s : State) : Host.Outcome State Fault Refusal :=
  .next (runWord w s fun s1 =>
    let a := (argA w s1).toNat
    let slot := if a = 2 ^ 64 - 1 then tileSlot s1.focus.tile else a
    if 63 < slot then illegalOperand s1
    else if partOf s1 (curCtx s1) != 15 && slotPart s1 slot != some (partOf s1 (curCtx s1)) then trapNow s1 0x06
    else .done (writeS s1 w.d (sensorWord s1 slot)))

end Sys2Proof.Machine
end

