-- ==== Sys2Proof/WellFormed.lean ====
section
/-! DEFINITION. Which instructions are well formed: for a tile-controller word the checks 2 to 4 of R18, for
an engine command the checks of R29, for an element move those of R33 that concern one word, and for an
event the ranges of the units it names. -/

namespace Sys2Proof

open Sys2Proof.Machine

/-- The opcode, the FN value that the map ties to the instruction, the operands and the immediate command of
a tile-controller word (R25); none for the other instructions. -/
def tileParts : Instr → Option (Nat × Option Nat × TWord × Word64)
  | .nop w => some (0x001, none, w, 0)
  | .mov w => some (0x002, none, w, 0)
  | .movh w => some (0x003, none, w, 0)
  | .lea w => some (0x004, none, w, 0)
  | .add w => some (0x008, none, w, 0)
  | .sub w => some (0x009, none, w, 0)
  | .mul w => some (0x00A, none, w, 0)
  | .mulh w => some (0x00B, none, w, 0)
  | .div w => some (0x00C, none, w, 0)
  | .rem w => some (0x00D, none, w, 0)
  | .min w => some (0x00E, none, w, 0)
  | .max w => some (0x00F, none, w, 0)
  | .and w => some (0x010, none, w, 0)
  | .or w => some (0x011, none, w, 0)
  | .xor w => some (0x012, none, w, 0)
  | .andn w => some (0x013, none, w, 0)
  | .shl w => some (0x014, none, w, 0)
  | .shr w => some (0x015, none, w, 0)
  | .sar w => some (0x016, none, w, 0)
  | .rol w => some (0x017, none, w, 0)
  | .clz w => some (0x018, none, w, 0)
  | .ctz w => some (0x019, none, w, 0)
  | .popc w => some (0x01A, none, w, 0)
  | .ext w => some (0x01B, none, w, 0)
  | .bfx w => some (0x01C, none, w, 0)
  | .bfi w => some (0x01D, none, w, 0)
  | .sel w => some (0x01E, none, w, 0)
  | .br w => some (0x080, none, w, 0)
  | .bri w => some (0x081, none, w, 0)
  | .call w => some (0x082, none, w, 0)
  | .loop w => some (0x084, none, w, 0)
  | .endl w => some (0x085, none, w, 0)
  | .kset w => some (0x086, none, w, 0)
  | .kget w => some (0x087, none, w, 0)
  | .halt w => some (0x088, none, w, 0)
  | .yield w => some (0x089, none, w, 0)
  | .cmp w => some (0x0C0, none, w, 0)
  | .pand w => some (0x0C4, none, w, 0)
  | .por w => some (0x0C5, none, w, 0)
  | .pxor w => some (0x0C6, none, w, 0)
  | .pnot w => some (0x0C7, none, w, 0)
  | .pset w => some (0x0C8, none, w, 0)
  | .pget w => some (0x0C9, none, w, 0)
  | .pcnt w => some (0x0CA, none, w, 0)
  | .ld w => some (0x100, none, w, 0)
  | .st w => some (0x101, none, w, 0)
  | .atom w => some (0x104, none, w, 0)
  | .cas w => some (0x105, none, w, 0)
  | .fence w => some (0x108, none, w, 0)
  | .ldv w => some (0x180, none, w, 0)
  | .stv w => some (0x181, none, w, 0)
  | .reclaim w => some (0x182, none, w, 0)
  | .barinit w => some (0x188, none, w, 0)
  | .barwait w => some (0x189, none, w, 0)
  | .dqpush w => some (0x190, none, w, 0)
  | .dqpop w => some (0x191, none, w, 0)
  | .dqsteal w => some (0x192, none, w, 0)
  | .tsens w => some (0x198, none, w, 0)
  | .vadd w => some (0x200, none, w, 0)
  | .vsub w => some (0x201, none, w, 0)
  | .vmul w => some (0x202, none, w, 0)
  | .vmin w => some (0x203, none, w, 0)
  | .vmax w => some (0x204, none, w, 0)
  | .vand w => some (0x205, none, w, 0)
  | .vor w => some (0x206, none, w, 0)
  | .vxor w => some (0x207, none, w, 0)
  | .vshl w => some (0x208, none, w, 0)
  | .vshr w => some (0x209, none, w, 0)
  | .vsar w => some (0x20A, none, w, 0)
  | .vdiv w => some (0x20B, none, w, 0)
  | .vfma w => some (0x210, none, w, 0)
  | .vfms w => some (0x211, none, w, 0)
  | .vabs w => some (0x218, none, w, 0)
  | .vneg w => some (0x219, none, w, 0)
  | .vrcp w => some (0x21A, none, w, 0)
  | .vsqrt w => some (0x21B, none, w, 0)
  | .vrsq w => some (0x21C, none, w, 0)
  | .vexp2 w => some (0x21D, none, w, 0)
  | .vlog2 w => some (0x21E, none, w, 0)
  | .vtanh w => some (0x21F, none, w, 0)
  | .vsig w => some (0x220, none, w, 0)
  | .vclz w => some (0x221, none, w, 0)
  | .vpopc w => some (0x222, none, w, 0)
  | .vmov w => some (0x223, none, w, 0)
  | .vcmp w => some (0x228, none, w, 0)
  | .vsel w => some (0x229, none, w, 0)
  | .vcvt w => some (0x2C0, none, w, 0)
  | .vbscl w => some (0x2C1, none, w, 0)
  | .vqnt w => some (0x2C2, none, w, 0)
  | .vdqnt w => some (0x2C3, none, w, 0)
  | .vld w => some (0x300, none, w, 0)
  | .vst w => some (0x301, none, w, 0)
  | .vgath w => some (0x302, none, w, 0)
  | .vscat w => some (0x303, none, w, 0)
  | .vperm w => some (0x308, none, w, 0)
  | .vrot w => some (0x309, none, w, 0)
  | .vbcast w => some (0x30A, none, w, 0)
  | .vextr w => some (0x30B, none, w, 0)
  | .vred w => some (0x30C, none, w, 0)
  | .vscan w => some (0x30D, none, w, 0)
  | .enq w c => some (0x340, none, w, c)
  | .enqs w => some (0x341, none, w, 0)
  | .tokw w => some (0x342, none, w, 0)
  | .toks w => some (0x343, none, w, 0)
  | .qbind w => some (0x344, none, w, 0)
  | .xarm w => some (0x348, some 0, w, 0)
  | .xarmD w => some (0x348, some 1, w, 0)
  | .xfire w => some (0x349, none, w, 0)
  | .xwait w => some (0x34A, none, w, 0)
  | .xstat w => some (0x34B, none, w, 0)
  | .sbar w => some (0x34C, none, w, 0)
  | .emit w => some (0x380, none, w, 0)
  | .emita w => some (0x381, none, w, 0)
  | .emite w => some (0x382, none, w, 0)
  | .stat w => some (0x383, none, w, 0)
  | .instw w => some (0x384, none, w, 0)
  | .resume w => some (0x385, none, w, 0)
  | .rgn w => some (0x386, none, w, 0)
  | .snap w => some (0x387, none, w, 0)
  | .gear w => some (0x3B0, none, w, 0)
  | .gearq w => some (0x3B1, none, w, 0)
  | .timeD w => some (0x3B2, none, w, 0)
  | .timeS w => some (0x3B3, none, w, 0)
  | .sched w => some (0x3B4, none, w, 0)
  | .slack w => some (0x3B5, none, w, 0)
  | .pwrq w => some (0x3B8, none, w, 0)
  | .pwrcap w => some (0x3B9, none, w, 0)
  | .ctxnew w => some (0x3D0, none, w, 0)
  | .ctxgrant w => some (0x3D1, none, w, 0)
  | .ctxrevoke w => some (0x3D2, none, w, 0)
  | .ctxrun w => some (0x3D3, none, w, 0)
  | .ctxstop w => some (0x3D4, none, w, 0)
  | .ctxq w => some (0x3D5, none, w, 0)
  | .mapRange w => some (0x3D8, none, w, 0)
  | .unmap w => some (0x3D9, none, w, 0)
  | .pinP w => some (0x3DA, some 0, w, 0)
  | .pinU w => some (0x3DA, some 1, w, 0)
  | .csrr w => some (0x3F0, none, w, 0)
  | .csrw w => some (0x3F1, none, w, 0)
  | .csrx w => some (0x3F2, none, w, 0)
  | .trapWord w => some (0x3F8, none, w, 0)
  | .tretRetry w => some (0x3F9, some 0, w, 0)
  | .tretNext w => some (0x3F9, some 1, w, 0)
  | .tretRestart w => some (0x3F9, some 2, w, 0)
  | .bkpt w => some (0x3FA, none, w, 0)
  | _ => none

/-- The engine of a number (R27). -/
def engineOf : Nat → Option Engine
  | 0 => some .me | 1 => some .ce | 2 => some .cx | 3 => some .cl | 4 => some .sp | 5 => some .xc | _ => none

/-- The number of an engine (R27). -/
def engineNum : Engine → Nat
  | .me => 0 | .ce => 1 | .cx => 2 | .cl => 3 | .sp => 4 | .xc => 5

/-- The engine, operation code and fields of an engine command (R27); none for the other instructions. -/
def cmdParts : Instr → Option (Engine × Nat × Cmd)
  | .engineNop e c => some (e, 0, c)
  | .wld c => some (.me, 1, c)
  | .mma c => some (.me, 2, c)
  | .accLd c => some (.me, 3, c)
  | .accSt c => some (.me, 4, c)
  | .accClr c => some (.me, 5, c)
  | .fireRegion e c => some (e, 1, c)
  | .switchPlane e c => some (e, 2, c)
  | .abortRegion e c => some (e, 3, c)
  | .loadPlane c => some (.cl, 1, c)
  | .loadsh c => some (.cl, 2, c)
  | .openPort c => some (.sp, 1, c)
  | .closePort c => some (.sp, 2, c)
  | .advancePort c => some (.sp, 3, c)
  | .xcFire c => some (.xc, 1, c)
  | .mark c => some (.xc, 2, c)
  | _ => none

/-- The EARG bits that an operation of an engine uses (R28, R199, R219, R221, R231, R357); none where the
engine has no such operation. -/
def argMask : Engine → Nat → Option (BitVec 42)
  | .me, 0 => some 0x3FFFFF00000
  | .me, 1 => some 0x3FFFFF00000
  | .me, 2 => some 0x3FFFFFFFE1F
  | .me, 3 => some 0x3FFFFFFFE1C
  | .me, 4 => some 0x3FFFFFFFE18
  | .me, 5 => some 0x3FFFFFFFE08
  | .ce, 0 => some 0
  | .ce, 1 => some 0x3FFFFC00000
  | .ce, 2 => some 0x3FFFFFFFF80
  | .ce, 3 => some 0x30000000000
  | .cx, 0 => some 0
  | .cx, 1 => some 0x33FFFC00000
  | .cx, 2 => some 0x3FFFFFFFF80
  | .cx, 3 => some 0x30000000000
  | .cl, 0 => some 0
  | .cl, 1 => some 0x3000001FFFF
  | .cl, 2 => some 0x2000001FFFF
  | .sp, 0 => some 0
  | .sp, 1 => some 0x3FFFF000000
  | .sp, 2 => some 0x38000000000
  | .sp, 3 => some 0x3FFFFFFFF80
  | .xc, 0 => some 0
  | .xc, 1 => some 0x3FEFFFFFFFF
  | .xc, 2 => some 0x3FFFFFFFFFF
  | _, _ => none

/-- The arguments of an operation hold no reserved bit, and PX stands on CE only with BOTH (R29, R221). -/
def argOk (e : Engine) (eop : Nat) (arg : BitVec 42) : Bool :=
  match argMask e eop with
  | some m => (arg &&& ~~~m) == 0 && !(e == .ce && eop == 1 && arg.getLsbD 37 && !arg.getLsbD 39)
  | none => false

/-- The number of a port (R31). -/
def portNum : Port → Nat
  | .inp n => n | .out n => 8 + n
  | .aluO => 16 | .aluT => 17 | .aluR => 18
  | .mulO => 19 | .mulT => 20 | .mulR => 21
  | .sfuT => 22 | .sfuR => 23 | .cvtT => 24 | .cvtR => 25
  | .redO => 26 | .redT => 27 | .redR => 28
  | .konst => 29 | .zero => 30 | .dline => 31

/-- The port of a number of five bits (R31). -/
def portOf (n : Nat) : Port :=
  if n < 8 then .inp n else if n < 16 then .out (n - 8)
  else match n with
    | 16 => .aluO | 17 => .aluT | 18 => .aluR | 19 => .mulO | 20 => .mulT | 21 => .mulR
    | 22 => .sfuT | 23 => .sfuR | 24 => .cvtT | 25 => .cvtR | 26 => .redO | 27 => .redT | 28 => .redR
    | 29 => .konst | 30 => .zero | _ => .dline

/-- The port is legal as a source (R31). -/
def srcOk : Port → Bool
  | .inp n => n < 8
  | .aluR | .mulR | .sfuR | .cvtR | .redR | .konst | .zero | .dline => true
  | _ => false

/-- The port is legal as a destination (R31). -/
def dstOk : Port → Bool
  | .out n => n < 8
  | .aluO | .aluT | .mulO | .mulT | .sfuT | .cvtT | .redO | .redT | .dline => true
  | _ => false

/-- The port is a trigger (R31). -/
def isTrig : Port → Bool
  | .aluT | .mulT | .sfuT | .cvtT | .redT => true
  | _ => false

/-- The operation code, trigger port and fields of an element move (R30, R32); the trigger is none for a move
without operation. -/
def moveParts : Instr → Option (Nat × Option Port × Mv)
  | .move m => some (0, none, m)
  | .guardedMove m => some (0, none, m)
  | .scaleMove m => some (0, none, m)
  | .aluAdd m => some (1, some .aluT, m)
  | .aluSub m => some (2, some .aluT, m)
  | .aluMin m => some (3, some .aluT, m)
  | .aluMax m => some (4, some .aluT, m)
  | .aluAnd m => some (5, some .aluT, m)
  | .aluOr m => some (6, some .aluT, m)
  | .aluXor m => some (7, some .aluT, m)
  | .aluShl m => some (8, some .aluT, m)
  | .aluShr m => some (9, some .aluT, m)
  | .aluSar m => some (10, some .aluT, m)
  | .aluAbs m => some (11, some .aluT, m)
  | .aluNeg m => some (12, some .aluT, m)
  | .aluCmpeq m => some (13, some .aluT, m)
  | .aluCmplt m => some (14, some .aluT, m)
  | .aluCmple m => some (15, some .aluT, m)
  | .aluSel m => some (16, some .aluT, m)
  | .aluPass m => some (17, some .aluT, m)
  | .mulMul m => some (1, some .mulT, m)
  | .mulMuls m => some (2, some .mulT, m)
  | .mulFma m => some (3, some .mulT, m)
  | .mulDiv m => some (4, some .mulT, m)
  | .sfuRcp m => some (1, some .sfuT, m)
  | .sfuSqrt m => some (2, some .sfuT, m)
  | .sfuRsq m => some (3, some .sfuT, m)
  | .sfuExp2 m => some (4, some .sfuT, m)
  | .sfuLog2 m => some (5, some .sfuT, m)
  | .sfuTanh m => some (6, some .sfuT, m)
  | .sfuSig m => some (7, some .sfuT, m)
  | .sfuLut m => some (8, some .sfuT, m)
  | .cvtCvt m => some (1, some .cvtT, m)
  | .cvtDeq m => some (2, some .cvtT, m)
  | .cvtQnt m => some (3, some .cvtT, m)
  | .redSum m => some (1, some .redT, m)
  | .redMax m => some (2, some .redT, m)
  | .redScaleMax m => some (2, some .redT, m)
  | .redMin m => some (3, some .redT, m)
  | .redCnt m => some (4, some .redT, m)
  | .redSteer m => some (5, some .redT, m)
  | .redMerge m => some (6, some .redT, m)
  | .redAcc m => some (7, some .redT, m)
  | .redFlush m => some (8, some .redT, m)
  | _ => none

/-- The IMM values of an operation of a unit, for a destination (R33: an index no wider than its field and
the rest of IMM zero; R98 for outputs; R112 for CVT, DEQ, QNT and a scale maximum). -/
def immOk (i : Instr) (m : Mv) : Bool :=
  let v := m.imm.toNat
  let bc := m.lane == .bcast
  match i with
  | .aluSel _ | .mulFma _ | .redMerge _ => v < 8 && !bc
  | .sfuLut _ => v < 4 && !bc
  | .cvtCvt _ => v < 128 && v % 16 < 14 && !bc
  | .cvtDeq _ => v < 128 && v % 16 == 0 && !bc
  | .cvtQnt _ => v < 128 && 1 ≤ v % 16 && v % 16 ≤ 6 && !bc
  | .redScaleMax _ => v < 128 && 1 ≤ v % 16 && v % 16 ≤ 6 && !bc
  | .redMax _ => v == 0
  | .guardedMove _ => v % 64 == 0 && 128 ≤ v && !bc
  | .scaleMove _ => v % 64 == 32 && m.lane == .all && m.tov == .inForce
  | _ =>
    if bc then v < 16
    else if m.src == .konst then v < 8
    else if m.src == .dline || m.dst == .dline then v < 4
    else v == 0 || (v == 64 && (match m.dst with | .out _ => true | _ => false))

/-- One move word is well formed (R33, R98, R112). -/
def moveWf (i : Instr) (trig : Option Port) (m : Mv) : Bool :=
  srcOk m.src && dstOk m.dst
    && (match trig with
        | some p => m.dst == p
        | none => !isTrig m.dst)
    && immOk i m
    && (match i with
        | .guardedMove _ | .scaleMove _ => (match m.dst with | .out _ => true | _ => false)
        | _ => true)
    && (m.tov == .inForce || isTrig m.dst || (match m.dst with | .out _ => true | _ => false))
    && !(m.eoh && !m.eob)
    && !(m.lane == .bcast && (m.src == .konst || m.src == .dline || m.dst == .dline))
    && (match i with
        | .mulMuls _ | .cvtDeq _ => (match m.src with | .inp _ => true | _ => false)
        | _ => true)

/-- A tile-controller word is well formed under a feature set and a number of vector registers: its guard,
and the checks 3 and 4 of R18 against its row of the opcode map; an ENQ word has no MOD (R17). -/
def wordWf (feat vlen opc : Nat) (fn : Option Nat) (w : TWord) : Bool :=
  match opMap.find? (fun r => r.opc == opc && r.fn == fn) with
  | some r =>
    guardOk w.guard && oneLit w && check3Ok feat r w && (check4 vlen r w).isNone
      && (fn == none || fn == some (modFn w.modf))
      && (r.md != .enq || w.modf == 0)
  | none => false

/-- The engine of a command that two engines have is one of the two (R27). -/
def engineHas : Instr → Bool
  | .fireRegion e _ => e == .ce || e == .cx
  | .switchPlane e _ => e == .ce || e == .cx
  | .abortRegion e _ => e == .ce || e == .cx
  | _ => true

/-- The units that an event names exist. -/
def eventWf : Instr → Bool
  | .deferredIntegrityTrap _ => true
  | .gearTakeEffect tile => tile < 256
  | .gearTransitionEnd tile => tile < 256
  | .versionOverflow tile thr => tile < 256 && thr < 4
  | .barrierResume tile thr => tile < 256 && thr < 4
  | .parkDrop tile thr => tile < 256 && thr < 4
  | .thermalSample slot _ => slot < 64
  | .thermalOverride tile => tile < 256
  | .droopTrip tile => tile < 256
  | .droopStretchEnd tile => tile < 256
  | .droopHalfWidthEnd tile => tile < 256
  | .shadowSetSwap tile => tile < 256
  | .revocationDeadline _ => true
  | .slabReady tile => tile < 256
  | .timingTrap tile => tile < 256
  | .staleStampMiss tile => tile < 256
  | .engineSignal tile eng => tile < 256 && eng < 6
  | .loadEnd tile => tile < 256
  | .switchTagArrival tile side => tile < 256 && side < 2
  | .regionRetire tile slot => tile < 256 && slot < 4
  | .regionCompletionStore tile slot => tile < 256 && slot < 4
  | .readPortDeliver tile port => tile < 256 && port < 8
  | .writePortConsume tile port => tile < 256 && port < 8
  | .entryArrival tile elem inp => tile < 256 && elem < 32 && inp < 8
  | .cairnRecord tile elem => tile < 256 && elem < 32
  | .handlerFire tile elem => tile < 256 && elem < 32
  | .defaultReaction tile elem => tile < 256 && elem < 32
  | .finishingReaction tile elem => tile < 256 && elem < 32
  | .reactionEmit tile elem => tile < 256 && elem < 32
  | .switchEntryWrite tile elem out => tile < 256 && elem < 32 && out < 8
  | .waitSnapshot tile slot => tile < 256 && slot < 4
  | .screeLink _ => true
  | .trapPresent tile set => tile < 256 && set < 2
  | .poolRefill => true
  | .meterCheck => true
  | .timeSlice => true
  | .launchSelection queue => queue < 1024
  | .launchExpansion _ => true
  | .placement die => die < 4
  | .dispatch tile => tile < 256
  | .placementRetire tile => tile < 256
  | .launchRetire _ => true
  | .walkComplete _ => true
  | .snapshotComplete _ => true
  | .graphRestore _ => true
  | .fireEntryDeliver => true
  | .transferStart engine slot => engine < 48 && slot < 64
  | .transferComplete chan _ => chan < 768
  | .copyTransferStop chan _ => chan < 768
  | .scTokenPass => true
  | .hbmScrub _ => true
  | .tileFailure tile => tile < 256
  | .dieSchedulerFailure die => die < 4
  | .columnControllerFailure slot => slot < 64
  | .partitionFullSwap part => part < 12
  | .gateRefusal slot => slot < 64
  | .dqcfgWrite slot deque _ => slot < 64 && deque < 16
  | .enrglRead tile set => tile < 256 && set < 2
  | .pkenlRead tile set => tile < 256 && set < 2
  | .tailWrite queue _ => queue < 1024
  | .queueBaseWrite queue _ => queue < 1024
  | .registerWrite _ _ => true
  | .mbLayout => true
  | .layoutPhase2 => true
  | .mbSetlimit => true
  | .mbFeatsel => true
  | .mbAttest => true
  | .mbClrenrg => true
  | .mbErrlog => true
  | .mbSwap => true
  | .mbBadop _ => true
  | .mailboxComplete => true
  | .packageReset => true
  | .recoveryWrite _ => true
  | .watchdogReset => true
  | .linkDown => true
  | .flitReceive port _ => port < 6
  | .portRetrain port => port < 6
  | .credit port chan _ => port < 6 && chan < 3072
  | .fabricOpenMessage port chan _ => port < 6 && chan < 3072
  | .fabricCloseMessage port chan => port < 6 && chan < 3072
  | .fabricResetMessage port => port < 6
  | .fcctlEnable chan _ => chan < 3072
  | .fcctlDisable chan _ => chan < 3072
  | .appliedAtHome _ => true
  | .memoryResponse _ => true
  | .summitAnswer => true
  | .hostMemoryAccess _ => true
  | .linkRetrained => true
  | .fabricRetrainEnd port _ => port < 6
  | .sensorFailure slot => slot < 64
  | .uncorrectableStateError _ => true
  | _ => false

/-- An instruction is well formed under a feature set (R403) and a context's VLEN (R125). -/
def WellFormed (feat vlen : Nat) (i : Instr) : Bool :=
  match tileParts i with
  | some (opc, fn, w, _) => wordWf feat vlen opc fn w
  | none =>
    match cmdParts i with
    | some (e, eop, c) => engineHas i && argOk e eop c.arg
    | none =>
      match moveParts i with
      | some (_, trig, m) => moveWf i trig m
      | none => eventWf i

end Sys2Proof
end

