-- ==== Sys2Proof/Decode.lean ====
section
/-! DEFINITION. The decoder, total on any word and on any bytes, and the encoder: tile-controller words (R17,
R18), engine command words (R27, R29) and element moves (R30 to R32). -/

namespace Sys2Proof

open Sys2Proof.Machine

/-! ### Tile-controller words -/

/-- A register operand by its number in the 10-bit name space; none for a reserved number (R22). -/
def opndOf (n : Nat) : Option Opnd :=
  if n < 0x280 then some (.v n)
  else if n < 0x2C0 then some (.s (n - 0x280))
  else if n < 0x2C0 + 24 then some (.p (n - 0x2C0))
  else if 0x2E0 ≤ n && n < 0x2F0 then some (.q (n - 0x2E0))
  else if 0x2F0 ≤ n && n < 0x2F8 then some (.k (n - 0x2F0))
  else if n = 0x3FF then some .zero
  else none

/-- The number of an operand in the name space (R22); a field that LIT replaces holds 0x3FF (R18). -/
def opndNum : Opnd → Nat
  | .v n => n | .s n => 0x280 + n | .p n => 0x2C0 + n | .q n => 0x2E0 + n | .k n => 0x2F0 + n
  | .zero => 0x3FF | .lit _ => 0x3FF

/-- The guard of the fields G and GS; none for 24 to 30, and for 31 with GS = 1 (R17, R18 check 2). -/
def guardOf (g : Nat) (gs : Bool) : Option Guard :=
  if g < 24 then some (if gs then .whenFalse g else .whenTrue g)
  else if g = 31 && !gs then some .always
  else none

/-- The fields G and GS of a guard. -/
def guardBits : Guard → Nat × Bool
  | .always => (31, false)
  | .whenTrue n => (n, false)
  | .whenFalse n => (n, true)

/-- An operand field of a word: the literal where LS selects the field, else the register it names. A
selected field must hold 0x3FF (R18 check 4). -/
def fieldOpnd (w : Word128) (i : Nat) : Option Opnd :=
  let num := (w.extractLsb' (101 - 10 * i) 10).toNat
  if i != 0 && (w.extractLsb' 69 2).toNat == i then
    (if num = 0x3FF then some (.lit (w.extractLsb' 32 32)) else none)
  else opndOf num

/-- The operand of a field where check 4 has not been made: a selected field gives the literal, a reserved
number the zero register. -/
def fieldDraft (w : Word128) (i : Nat) : Opnd :=
  if i != 0 && (w.extractLsb' 69 2).toNat == i then .lit (w.extractLsb' 32 32)
  else (opndOf (w.extractLsb' (101 - 10 * i) 10).toNat).getD .zero

/-- The operands of a word under a row of the opcode map; an ENQ word has no MOD (R17). -/
def draftWord (w : Word128) (r : OpRow) (g : Guard) : TWord :=
  { rst := w.getLsbD 117, guard := g, d := fieldDraft w 0, a := fieldDraft w 1, b := fieldDraft w 2
    c := fieldDraft w 3, x := w.extractLsb' 64 5
    modf := if r.md = .enq then 0 else w.extractLsb' 0 32 }

/-- The instruction of a tile-controller word under a feature set and a VLEN, or the first check of R18 that
fails. -/
def decodeWord (feat vlen : Nat) (w : Word128) : Except Malformed Instr :=
  match opRow (w.extractLsb' 118 10).toNat (w.extractLsb' 28 4).toNat with
  | none => .error ⟨1, 0⟩
  | some r =>
    match guardOf (w.extractLsb' 112 5).toNat (w.getLsbD 111) with
    | none => .error ⟨2, 0⟩
    | some g =>
      let t := draftWord w r g
      if !check3Ok feat r t then .error ⟨3, 0⟩
      else
        match (List.range 4).find? fun i => (fieldOpnd w i).isNone || !fieldOk vlen r t i with
        | some i => .error ⟨4, i⟩
        | none => .ok (r.build t (w.extractLsb' 0 64))

/-- The LS field and the literal of a word's operands (R17, R21). -/
def litField (w : TWord) : Nat × BitVec 32 :=
  match w.a, w.b, w.c with
  | .lit v, _, _ => (1, v)
  | _, .lit v, _ => (2, v)
  | _, _, .lit v => (3, v)
  | _, _, _ => (0, 0)

/-- A tile-controller word of its fields (R17). -/
def packWord (opc : Nat) (w : TWord) : Word128 :=
  BitVec.ofNat 10 opc ++ BitVec.ofBool w.rst ++ BitVec.ofNat 5 (guardBits w.guard).1
    ++ BitVec.ofBool (guardBits w.guard).2
    ++ BitVec.ofNat 10 (opndNum w.d) ++ BitVec.ofNat 10 (opndNum w.a) ++ BitVec.ofNat 10 (opndNum w.b)
    ++ BitVec.ofNat 10 (opndNum w.c) ++ BitVec.ofNat 2 (litField w).1 ++ w.x ++ (litField w).2 ++ w.modf

/-- The word of a tile-controller instruction; none for the others. An ENQ word carries its command in bits
[63:0] (R17). -/
def encodeWord (i : Instr) : Option Word128 :=
  match tileParts i with
  | some (opc, _, w, cmd) =>
    match i with
    | .enq _ _ => some ((packWord opc w).extractLsb' 64 64 ++ cmd)
    | _ => some (packWord opc w)
  | none => none

/-! ### Engine command words -/

/-- One side of the token fields; none where the field is not valid and its queue or count is nonzero
(R27). -/
def tokenOf (valid : Bool) (queue : BitVec 4) (less1 : BitVec 3) : Option (Option TokenRef) :=
  if valid then some (some ⟨queue, less1⟩)
  else if queue = 0 && less1 = 0 then some none
  else none

/-- The instruction of an operation of an engine (R27); none where the engine assigns no such code. -/
def cmdInstr (e : Engine) (eop : Nat) (c : Cmd) : Option Instr :=
  match e, eop with
  | e, 0 => some (.engineNop e c)
  | .me, 1 => some (.wld c) | .me, 2 => some (.mma c) | .me, 3 => some (.accLd c)
  | .me, 4 => some (.accSt c) | .me, 5 => some (.accClr c)
  | .ce, 1 => some (.fireRegion .ce c) | .ce, 2 => some (.switchPlane .ce c) | .ce, 3 => some (.abortRegion .ce c)
  | .cx, 1 => some (.fireRegion .cx c) | .cx, 2 => some (.switchPlane .cx c) | .cx, 3 => some (.abortRegion .cx c)
  | .cl, 1 => some (.loadPlane c) | .cl, 2 => some (.loadsh c)
  | .sp, 1 => some (.openPort c) | .sp, 2 => some (.closePort c) | .sp, 3 => some (.advancePort c)
  | .xc, 1 => some (.xcFire c) | .xc, 2 => some (.mark c)
  | _, _ => none

/-- The instruction of a command word found on the ring of an engine; none where it fails the checks of
R29. -/
def decodeCmd (eng : Nat) (w : Word64) : Option Instr :=
  match engineOf eng, tokenOf (w.getLsbD 63) (w.extractLsb' 59 4) (w.extractLsb' 56 3),
      tokenOf (w.getLsbD 55) (w.extractLsb' 51 4) (w.extractLsb' 48 3) with
  | some e, some wait, some sig =>
    let eop := (w.extractLsb' 42 6).toNat
    if argOk e eop (w.extractLsb' 0 42) then cmdInstr e eop ⟨wait, sig, w.extractLsb' 0 42⟩ else none
  | _, _, _ => none

/-- One side of a command's token fields (R27). -/
def tokenBits : Option TokenRef → BitVec 8
  | some t => 1#1 ++ t.queue ++ t.less1
  | none => 0

/-- The command word of an engine command; none for the others (R27). -/
def encodeCmd (i : Instr) : Option (Nat × Word64) :=
  match cmdParts i with
  | some (e, eop, c) => some (engineNum e, tokenBits c.wait ++ tokenBits c.sig ++ BitVec.ofNat 6 eop ++ c.arg)
  | none => none

/-! ### Element moves -/

/-- The LANE field (R30). -/
def laneOf : Nat → LaneSel
  | 0 => .all | 1 => .lo | 2 => .hi | _ => .bcast

/-- The code of a LANE selection (R30). -/
def laneNum : LaneSel → Nat
  | .all => 0 | .lo => 1 | .hi => 2 | .bcast => 3

/-- The TOV field (R30). -/
def tovOf : Nat → TypeOverride
  | 0 => .inForce | 1 => .f32 | 2 => .s32 | _ => .z32

/-- The code of a type override (R30). -/
def tovNum : TypeOverride → Nat
  | .inForce => 0 | .f32 => 1 | .s32 => 2 | .z32 => 3

/-- The fields of a move word (R30). -/
def moveFields (w : Word32) : Mv :=
  { src := portOf (w.extractLsb' 27 5).toNat, dst := portOf (w.extractLsb' 22 5).toNat
    lane := laneOf (w.extractLsb' 14 2).toNat, tov := tovOf (w.extractLsb' 12 2).toNat
    eob := w.getLsbD 11, eoh := w.getLsbD 10, imm := w.extractLsb' 0 8 }

/-- A move without operation: to an output, SCL of IMM makes it a scale move and GD a guarded one, whatever the rest of
the word holds (R98). -/
def plainMove (m : Mv) : Instr :=
  match m.dst with
  | .out _ => if m.imm.getLsbD 5 then .scaleMove m else if m.imm.getLsbD 7 then .guardedMove m else .move m
  | _ => .move m

/-- The operations of the ALU unit by FOP (R32). -/
def aluOp (fop : Nat) (m : Mv) : Option Instr :=
  match fop with
  | 1 => some (.aluAdd m)
  | 2 => some (.aluSub m)
  | 3 => some (.aluMin m)
  | 4 => some (.aluMax m)
  | 5 => some (.aluAnd m)
  | 6 => some (.aluOr m)
  | 7 => some (.aluXor m)
  | 8 => some (.aluShl m)
  | 9 => some (.aluShr m)
  | 10 => some (.aluSar m)
  | 11 => some (.aluAbs m)
  | 12 => some (.aluNeg m)
  | 13 => some (.aluCmpeq m)
  | 14 => some (.aluCmplt m)
  | 15 => some (.aluCmple m)
  | 16 => some (.aluSel m)
  | 17 => some (.aluPass m)
  | _ => none

/-- The operations of the MUL unit by FOP (R32). -/
def mulOp (fop : Nat) (m : Mv) : Option Instr :=
  match fop with
  | 1 => some (.mulMul m)
  | 2 => some (.mulMuls m)
  | 3 => some (.mulFma m)
  | 4 => some (.mulDiv m)
  | _ => none

/-- The operations of the SFU unit by FOP (R32). -/
def sfuOp (fop : Nat) (m : Mv) : Option Instr :=
  match fop with
  | 1 => some (.sfuRcp m)
  | 2 => some (.sfuSqrt m)
  | 3 => some (.sfuRsq m)
  | 4 => some (.sfuExp2 m)
  | 5 => some (.sfuLog2 m)
  | 6 => some (.sfuTanh m)
  | 7 => some (.sfuSig m)
  | 8 => some (.sfuLut m)
  | _ => none

/-- The operations of the CVT unit by FOP (R32). -/
def cvtOp (fop : Nat) (m : Mv) : Option Instr :=
  match fop with
  | 1 => some (.cvtCvt m)
  | 2 => some (.cvtDeq m)
  | 3 => some (.cvtQnt m)
  | _ => none

/-- The operations of the RED unit by FOP (R32). -/
def redOp (fop : Nat) (m : Mv) : Option Instr :=
  match fop with
  | 1 => some (.redSum m)
  | 2 => some (if m.imm.extractLsb' 0 4 == 0 || m.imm.getLsbD 7 then .redMax m else .redScaleMax m)
  | 3 => some (.redMin m)
  | 4 => some (.redCnt m)
  | 5 => some (.redSteer m)
  | 6 => some (.redMerge m)
  | 7 => some (.redAcc m)
  | 8 => some (.redFlush m)
  | _ => none

/-- The instruction of a move word; none where FOP is unassigned for the destination or Res is nonzero
(R30, R32). The other checks of R33 are the configuration loader's. -/
def decodeMove (w : Word32) : Option Instr :=
  let m := moveFields w
  let fop := (w.extractLsb' 16 6).toNat
  if w.extractLsb' 8 2 != 0 then none
  else if fop = 0 then some (plainMove m)
  else
    match m.dst with
    | .aluT => aluOp fop m
    | .mulT => mulOp fop m
    | .sfuT => sfuOp fop m
    | .cvtT => cvtOp fop m
    | .redT => redOp fop m
    | _ => none

/-- A move word of its fields (R30). -/
def packMove (fop : Nat) (m : Mv) : Word32 :=
  BitVec.ofNat 5 (portNum m.src) ++ BitVec.ofNat 5 (portNum m.dst) ++ BitVec.ofNat 6 fop
    ++ BitVec.ofNat 2 (laneNum m.lane) ++ BitVec.ofNat 2 (tovNum m.tov) ++ BitVec.ofBool m.eob
    ++ BitVec.ofBool m.eoh ++ 0#2 ++ m.imm

/-- The move word of an element move; none for the others. -/
def encodeMove (i : Instr) : Option Word32 :=
  match moveParts i with
  | some (fop, _, m) => some (packMove fop m)
  | none => none

/-! ### Bytes -/

/-- Which store a word is read from: the instruction store, the ring of an engine, a move store. -/
inductive WordKind where
  | tile
  | ring (eng : Nat)
  | move
deriving DecidableEq, Repr

/-- Why bytes are no instruction: a check of R18, the checks of R29, those of R30 and R32, or too few
bytes. -/
inductive Reject where
  | check (m : Malformed)
  | command
  | move
  | short
deriving DecidableEq, Repr

/-- The decoder on bytes, lowest address first (R1). -/
def decode (feat vlen : Nat) (k : WordKind) (bs : List Byte) : Except Reject Instr :=
  match k with
  | .tile =>
    if bs.length < 16 then .error .short
    else
      match decodeWord feat vlen (BitVec.ofNat 128 (leNat (bs.take 16))) with
      | .ok i => .ok i
      | .error m => .error (.check m)
  | .ring e =>
    if bs.length < 8 then .error .short
    else
      match decodeCmd e (BitVec.ofNat 64 (leNat (bs.take 8))) with
      | some i => .ok i
      | none => .error .command
  | .move =>
    if bs.length < 4 then .error .short
    else
      match decodeMove (BitVec.ofNat 32 (leNat (bs.take 4))) with
      | some i => .ok i
      | none => .error .move

/-- The words of an instruction as bytes, lowest address first; empty for an event, which no word encodes. -/
def encode (i : Instr) : List Byte :=
  match encodeWord i, encodeCmd i, encodeMove i with
  | some w, _, _ => leBytes w.toNat 16
  | none, some (_, w), _ => leBytes w.toNat 8
  | none, none, some w => leBytes w.toNat 4
  | none, none, none => []

/-- The instruction that the decoder reads from a word numbered as spec/opcode_table.json numbers it: a move
word up to 32 bits, a command of the matrix engine up to 64, a tile-controller word above, under every
feature and the whole vector register file. -/
def decodeTableWord (nbits w : Nat) : Option Instr :=
  let k : WordKind := if nbits ≤ 32 then .move else if nbits ≤ 64 then .ring 0 else .tile
  match decode 0x1FF 640 k (leBytes w 16) with
  | .ok i => some i
  | .error _ => none

end Sys2Proof
end

