-- ==== Sys2Proof/Machine/Flits.lean ====
section
/-! DEFINITION. Fabric flits and the sending side of a fabric port (R405, R406). -/

namespace Sys2Proof.Machine

/-- Bytes a to a + n - 1 of a flit, as a number. -/
def flitField (f : Flit) (a n : Nat) : Nat := f.toNat / 2 ^ (8 * a) % 2 ^ (8 * n)

/-- The LCRC of a flit's bytes 0 to 75 (R405). -/
def flitCrc (body : Nat) : Nat := (Config.linkCrc (leBytes body 76)).toNat

/-- A flit of its fields (R405). -/
def flitOf (dch kind seq ack payload chk : Nat) : Flit :=
  let body := dch % 2 ^ 16 + kind % 8 * 2 ^ 16 + seq % 2 ^ 12 * 2 ^ 32 + ack % 2 ^ 12 * 2 ^ 48
    + payload % 2 ^ 512 * 2 ^ 64 + chk % 2 ^ 16 * 2 ^ 576
  BitVec.ofNat 640 (body + flitCrc body * 2 ^ 608)

/-- The payload of a link-control flit: channel, credits, message (R405). -/
def linkPayload (chan credits msg : Nat) : Nat := chan % 2 ^ 16 + credits % 256 * 2 ^ 16 + msg % 256 * 2 ^ 24

/-- The fabric port of a channel (R407). -/
def fabPortOf (n : Nat) : Nat := n % 48 / 8

/-- A fabric port. -/
def portOfFab (s : State) (p : Nat) : FabPort := Tab.get FabPort.reset s.fabPorts p

/-- The state with a fabric port changed. -/
def modFabPort (s : State) (p : Nat) (f : FabPort → FabPort) : State :=
  { s with fabPorts := Tab.set s.fabPorts p (f (portOfFab s p)) }

/-- A flit sent at a port: it takes the next SEQ and stays in the replay buffer until it is acknowledged (R406), with the
local channel whose entry it carries. A port that is down sends none. -/
def sendFlit (s : State) (p : Nat) (chan : Option Nat) (dch kind payload chk : Nat) : State :=
  let x := portOfFab s p
  if x.down then s
  else
    modFabPort s p fun y =>
      { y with seq := y.seq + 1
               replay := y.replay ++ [(flitOf dch kind y.seq.toNat (y.expect - 1).toNat payload chk, chan)] }

/-- A link-control message about a local channel, sent at its port (R405, R407, R408). -/
def sendControl (s : State) (n credits msg : Nat) (rch : Nat) : State :=
  sendFlit s (fabPortOf n) none rch 3 (linkPayload rch credits msg) 0

/-- Whether a port can take another flit: its replay buffer holds 1,024 (R406). -/
def flitRoom (s : State) (p : Nat) : Bool :=
  let x := portOfFab s p
  !x.down && !x.training && x.replay.length < 1024

end Sys2Proof.Machine
end

