-- ==== Sys2Proof/Machine/Registers.lean ====
section
/-! DEFINITION. The registers that memory accesses reach: a column's control page (R259, R260), the control blocks
of launch queues (R388, R389) and of fabric channels (R407), and the mailbox registers of the management
function (R394), under the access codes of R5. -/

namespace Sys2Proof.Machine

/-- A 64-bit word of two 32-bit halves. -/
def twoHalves (hi lo : BitVec 32) : BitVec 64 := BitVec.ofNat 64 (hi.toNat * 2 ^ 32 + lo.toNat)

/-! ### The column control page -/

/-- BARSTn (R260). -/
def barstWord (b : Barrier) : BitVec 64 :=
  BitVec.ofNat 64 (b.gen.toNat * 2 ^ 48 + b.arr % 2048 * 2 ^ 32 + b.cnt % 2048 * 2 ^ 16 + (if b.bnd then 2 ^ 15 else 0)
    + (if b.gu then 2 ^ 14 else 0) + (if b.pk then 2 ^ 13 else 0) + (if b.ls then 2 ^ 12 else 0) + b.ctx % 1024)

/-- DQCFGn (R260). -/
def dqcfgWord (d : Deque) : BitVec 64 := BitVec.ofNat 64 ((if d.en then 2 ^ 16 else 0) + d.ctx % 1024)

/-- DQSTn (R260). -/
def dqstWord (d : Deque) : BitVec 64 := BitVec.ofNat 64 (d.segs * 2 ^ 32 + d.q.length)

/-- A register of a column's control page; an offset that holds none reads 0 (R259). -/
def controlRead (s : State) (slot off : Nat) : BitVec 64 :=
  if off = 0 then BitVec.ofNat 64 slot
  else if off = 8 then (Tab.get Column.reset s.columns slot).verswait.setWidth 64
  else if 0x100 ≤ off && off < 0x180 && off % 8 = 0 then barstWord (barrierOf s slot ((off - 0x100) / 8))
  else if 0x200 ≤ off && off < 0x300 && off % 16 = 0 then dqcfgWord (dequeOf s slot ((off - 0x200) / 16))
  else if 0x200 ≤ off && off < 0x300 && off % 16 = 8 then dqstWord (dequeOf s slot ((off - 0x200) / 16))
  else 0

/-- DQCFGn written: the deque is emptied and its segments return, whatever is written; the operations of its tick
came before it (R260). A push that waits for room is performed if the deque is still its context's, and else faults (R274): DEDUCED
(notes/assumptions/114.md). -/
def dqcfgSet (s : State) (slot n : Nat) (v : BitVec 64) : State :=
  let d : Deque := { en := v.getLsbD 16, ctx := bits v.toNat 9 0, segs := 0, q := [], failed := false }
  let s1 := { putDeque s slot n d with
    sync := Tab.erase s.sync (dequeKey slot n)
    ranks := Tab.set s.ranks (locPa (dequeLoc slot n)) (s.dcc, 1048576) }
  (s1.reqs.filter fun r => r.op == .push && r.waiting && dequeOfLoc r.loc == (slot, n)).foldl (fun acc r =>
    if !d.en || d.ctx != reqCtx s r then answerWithTrap acc r 0x06 0
    else if (dequeOf acc slot n).q.length < dequeRoom (dequeOf acc slot n) then performPush acc r else acc) s1

/-- A write to a column's control page; one to an offset that holds no register is ignored (R259). -/
def controlWrite (s : State) (slot off : Nat) (v : BitVec 64) : State :=
  if off = 8 then modColumn s slot fun c => { c with verswait := v.setWidth 32 }
  else if 0x200 ≤ off && off < 0x300 && off % 16 = 0 then dqcfgSet s slot ((off - 0x200) / 16) v
  else s

/-! ### Launch queues -/

/-- A launch queue. -/
def queueOf (s : State) (q : Nat) : Queue := Tab.get Queue.reset s.queues q

/-- A launch queue replaced. -/
def putQueue (s : State) (q : Nat) (v : Queue) : State := { s with queues := Tab.set s.queues q v }

/-- A queue's tenant tag (R388): the holding context. -/
def queueTag (s : State) (q : Nat) : Nat := Tab.get 0 s.queueOwner q

/-- A word of a queue's control block (R388). -/
def queueRead (s : State) (q off : Nat) : BitVec 64 :=
  let k := queueOf s q
  if off = 0 then BitVec.ofNat 64 (k.lsz * 2 ^ 60 + k.base.toNat)
  else if off = 8 then BitVec.ofNat 64 ((if k.en then 2 ^ 16 else 0) + queueTag s q)
  else if off = 16 then twoHalves k.head k.tail
  else if off = 24 then k.ovf.setWidth 64
  else 0

/-- The records in a queue that no lead has taken. -/
def queueWaiting (k : Queue) : Nat := (k.tail - k.head).toNat - k.taken.length

/-- The records of a tenant that are enqueued and not retired, over all its queues but one (R389). -/
def tenantRecords (s : State) (ctx except : Nat) : Nat :=
  ((s.queues.filter fun p => queueTag s p.1 == ctx && p.1 != except).map fun p => queueWaiting p.2).sum
    + (s.launches.filter fun l => l.2.ctx == ctx && !l.2.recorded).length

/-- The greatest number of records that a queue may hold beyond HEAD (R389): its size and its tenant's quota. -/
def queueLimit (s : State) (q : Nat) : Nat :=
  let k := queueOf s q
  let c := getCtx s (queueTag s q)
  let size := if k.lsz < 3 then 0 else 2 ^ k.lsz
  let quota := c.slt - c.sltu - tenantRecords s (queueTag s q) q + k.taken.length
  if size ≤ quota then size else quota

/-- TAIL written (R389): clipped to the queue's size and the tenant's quota, with OVF counting the clip. -/
def tailSet (s : State) (q : Nat) (v : BitVec 32) : State :=
  let k := queueOf s q
  let lim := queueLimit s q
  if (v - k.head).toNat ≤ lim then putQueue s q { k with tail := v }
  else putQueue s q { k with tail := k.head + BitVec.ofNat 32 lim, ovf := k.ovf + 1 }

/-- BASE and LSZ written (R388): only while EN is 0, and not with LSZ 1 or 2. -/
def queueBaseSet (s : State) (q : Nat) (v : BitVec 64) : State :=
  let k := queueOf s q
  let lsz := bits v.toNat 63 60
  if k.en || lsz = 1 || lsz = 2 then s
  else putQueue s q { k with lsz := lsz, base := v.setWidth 56 }

/-- A word of a queue's control block written (R388). -/
def queueWrite (s : State) (q off : Nat) (v : BitVec 64) : State :=
  if off = 0 then queueBaseSet s q v
  else if off = 8 then putQueue s q { queueOf s q with en := v.getLsbD 16 }
  else if off = 16 then tailSet s q (v.setWidth 32)
  else s

/-! ### Fabric channels -/

/-- A fabric channel. -/
def fabOf (s : State) (n : Nat) : FabChan := Tab.get FabChan.reset s.fabChans n

/-- A fabric channel replaced. -/
def putFab (s : State) (n : Nat) (c : FabChan) : State := { s with fabChans := Tab.set s.fabChans n c }

/-- A word of a fabric channel's control block (R407). -/
def fabRead (s : State) (n off : Nat) : BitVec 64 :=
  let c := fabOf s n
  if off = 0 then
    BitVec.ofNat 64 ((if c.en then 2 ^ 63 else 0) + (if c.dir then 2 ^ 62 else 0) + c.st % 4 * 2 ^ 60
      + c.reason % 16 * 2 ^ 56 + c.rch.toNat * 2 ^ 32)
  else if off = 8 then twoHalves c.sent c.ackd
  else if off = 16 then c.recv.setWidth 64
  else 0

/-- FCCTL written with EN = 1 (R407): a closed channel takes DIR and RCH, sends an open message and waits for its
peer. -/
def fcctlOn (s : State) (n : Nat) (v : BitVec 64) : State :=
  let c := fabOf s n
  if c.en then s
  else
    sendControl (putFab s n { c with en := true, dir := v.getLsbD 62, rch := (v >>> 32).setWidth 16, st := 1, reason := 0 })
      n 0 1 ((v >>> 32).setWidth 16 : BitVec 16).toNat

/-- A channel's entries in flight are no longer counted for it. -/
def disownFlits (s : State) (n : Nat) : State :=
  modFabPort s (fabPortOf n) fun p => { p with replay := p.replay.map fun f => if f.2 == some n then (f.1, none) else f }

/-- FCCTL written with EN = 0 (R407): the channel closes, its entries in flight are discarded, its counters are 0 and
its attachment stops; a close message goes to the peer. -/
def fcctlOff (s : State) (n : Nat) (v : BitVec 64) : State :=
  let c := fabOf s n
  if c.en then
    let c1 : FabChan := { c with
      en := false, st := 0, reason := 0, sent := 0, ackd := 0, recv := 0, buf := [], credit := 32, port := none, copy := none }
    sendControl (putFab (disownFlits s n) n c1) n 0 2 c.rch.toNat
  else putFab s n { c with dir := v.getLsbD 62, rch := (v >>> 32).setWidth 16 }

/-- A word of a fabric channel's control block written (R407). -/
def fabWrite (s : State) (n off : Nat) (v : BitVec 64) : State :=
  if off = 0 then (if v.getLsbD 63 then fcctlOn s n v else fcctlOff s n v) else s

/-! ### Any register -/

/-- The mailbox registers of the management function, at their offsets (R394); the model reaches them at addresses
below 4,096, which hold nothing else. -/
def mailboxRead (s : State) (off : Nat) : BitVec 64 :=
  if 0x008 ≤ off && off ≤ 0x020 then Tab.get 0 s.box.arg ((off - 8) / 8)
  else if off = 0x028 then BitVec.ofNat 64 ((if s.box.busy then 2 ^ 63 else 0) + s.box.stat)
  else if 0x030 ≤ off && off ≤ 0x048 then Tab.get 0 s.box.res ((off - 0x30) / 8)
  else 0

/-- MBARG0 to MBARG3 written (R394). -/
def mailboxWrite (s : State) (off : Nat) (v : BitVec 64) : State :=
  if 0x008 ≤ off && off ≤ 0x020 && off % 8 = 0 then { s with box := { s.box with arg := Tab.set s.box.arg ((off - 8) / 8) v } }
  else s

/-- The 64-bit register at a physical address; 0 where there is none. -/
def regRead (s : State) (pa : Nat) : BitVec 64 :=
  match placeOf pa with
  | .control slot off => controlRead s slot off
  | .queue q off => queueRead s q off
  | .fabric n off => fabRead s n off
  | _ => if pa < 4096 then mailboxRead s pa else 0

/-- The register at a physical address written by a context: a queue's block takes a write from its tenant and the
tenant's ancestors alone (R388). -/
def regWrite (s : State) (ctx pa : Nat) (v : BitVec 64) : State :=
  match placeOf pa with
  | .control slot off => controlWrite s slot off v
  | .queue q off => if inSubtree s ctx (queueTag s q) then queueWrite s q off v else s
  | .fabric n off => fabWrite s n off v
  | _ => if pa < 4096 then mailboxWrite s pa v else s

/-- Whether the host reaches a queue's control block (R388, R392, R393): the link is up, a virtual function is bound to the queue's context, and the queue is one
of the first eight that the context holds. A virtual function that the root holds is bound to no context. DESIGN CHOICE
(notes/assumptions/120.md). -/
def hostReaches (s : State) (q : Nat) : Bool :=
  s.linkUp && queueTag s q != 0 && (s.vfOwner.any fun v => v.2 == queueTag s q)
    && (s.queueOwner.filter fun p => p.2 == queueTag s q && p.1 < q).length < 8

/-- Whether the host reaches a register: a queue's control block only through a virtual function (R392). -/
def hostMay (s : State) (pa : Nat) : Bool :=
  match placeOf pa with
  | .queue q _ => hostReaches s q
  | _ => s.linkUp

/-- Whether an address is a register's. -/
def isRegister (pa : Nat) : Bool :=
  match placeOf pa with
  | .control _ _ => true | .queue _ _ => true | .fabric _ _ => true | _ => false

end Sys2Proof.Machine
end

