-- ==== Sys2Proof/Machine/Home.lean ====
section
/-! DEFINITION. What happens to a memory request at its home (R153, R156, R285), the answers that return (R153,
R186), the serialising token (R294), and the host's accesses (R392). -/

namespace Sys2Proof.Machine

/-! ### Bytes at a location -/

/-- `n` bytes at a location, as a number. -/
def locRead (s : State) (l : Loc) (n : Nat) : Nat :=
  match l with
  | .mem pa => Memory.read s.mem pa n
  | .sp t off => Memory.read (getTile s t).sp off n

/-- `n` bytes of a number written at a location. -/
def locWrite (s : State) (l : Loc) (n v : Nat) : State :=
  match l with
  | .mem pa => { s with mem := Memory.write s.mem pa n v }
  | .sp t off => modTile s t fun x => { x with sp := Memory.write x.sp off n v }

/-- Whether the 64-byte line of a location fails its check; host memory fails while the link is down (R393). -/
def lineBad (s : State) (l : Loc) : Bool :=
  match l with
  | .mem pa => s.memBad.contains (pa / 64) || (hostBase ≤ pa && !s.linkUp)
  | .sp t off => spLineBad (getTile s t) off

/-- The extension of a loaded value (R153). -/
def extendLoad (sx : Bool) (n v : Nat) : BitVec 64 :=
  if sx then BitVec.ofInt 64 (sextN v (8 * n)) else BitVec.ofNat 64 v

/-- The new value of an atomic at a width of `n` bytes (R156). -/
def atomValue (fn : Nat) (sx : Bool) (n : Nat) (old c : Nat) : Nat :=
  let w := 8 * n
  let lt := if sx then decide (sextN old w < sextN c w) else decide (old % 2 ^ w < c % 2 ^ w)
  match fn with
  | 0 => (old + c) % 2 ^ w
  | 1 => if lt then old else c % 2 ^ w
  | 2 => if lt then c % 2 ^ w else old
  | 3 => Nat.land old (c % 2 ^ w)
  | 4 => Nat.lor old (c % 2 ^ w)
  | 5 => Nat.xor old (c % 2 ^ w)
  | _ => c % 2 ^ w

/-- Whether a request writes any of one of its bytes: a store with a mask may leave a byte as it is. -/
def writesByte (r : Req) (i : Nat) : Bool := r.op != .store || r.mask == 0 || r.mask.getLsbD (2 * i) || r.mask.getLsbD (2 * i + 1)

/-- What a store leaves published at its bytes (R290): a plain store ends a release sequence, an atomic continues
it. -/
def publish (s : State) (r : Req) (keep : Bool) : State :=
  let set (t : Tab (List SyncRec)) (k : Nat) : Tab (List SyncRec) :=
    let recs := r.pub.toList ++ (if keep then Tab.get [] t k else [])
    if recs.isEmpty then Tab.erase t k else Tab.set t k recs
  { s with sync := (((List.range r.size).filter (writesByte r)).map fun i => locKey r.loc + i).foldl set s.sync }

/-- The line of a location verifies again: a write of the whole line made its code (R230). -/
def lineMade (s : State) (l : Loc) : State :=
  match l with
  | .mem pa => { s with memBad := s.memBad.filter fun x => x != pa / 64 }
  | .sp t off => modTile s t fun x => { x with spBad := x.spBad.filter fun y => y != off / 64 }

/-- The half bytes of a store that its mask names, over the bytes that stand there. -/
def maskedValue (mask : BitVec 32) (n old new : Nat) : Nat :=
  if mask = 0 then new else packElems 4 ((List.range (2 * n)).map fun i => (if mask.getLsbD i then new else old) / 16 ^ i % 16)

/-- The loads that were read ahead of an acquire, now that its value is fixed (R288 to R292): where it synchronises with what it
returned, they are served again, else those that no other acquire holds have their value. -/
def closeAcquire (s : State) (id : Nat) (joined : Bool) : State :=
  let close (acc : State) (e : Req) : State :=
    let e1 := { e with ahead := e.ahead.erase id }
    if e.stage != .early then putReq acc e1
    else if joined then putReq acc { e1 with stage := .sent, got := [] }
    else if e1.ahead.isEmpty then learnReq (putReq acc { e1 with stage := .applied }) e1
    else putReq acc e1
  (s.reqs.filter fun e => e.ahead.contains id).foldl close s

/-- A request that has taken its value at its home: what it learns, and the loads that waited for it as an acquire; a load that is
ahead of an acquire keeps its value until that is performed. -/
def tookValue (s : State) (r : Req) : State :=
  if !r.ahead.isEmpty then putReq s { r with stage := .early }
  else
    let s1 := learnReq (putReq s { r with stage := .applied }) r
    if r.acq then closeAcquire s1 r.id (r.got.any fun p => scopesMeet p.scope p.agent r.scope r.agent) else s1

/-- A load, store or atomic applied at its home (R153, R156). A store into a failing line writes nothing, unless it is
part of a write of the whole line, which `sx` says of a store (R230); a load of a failing line answers with the failure. -/
def applyAccess (s : State) (r : Req) : State :=
  let recs := published s r.loc r.size
  let reg := match r.loc with | .mem pa => if isRegister pa then some pa else none | .sp _ _ => none
  match r.op with
  | .load =>
    match reg with
    | some pa => tookValue s { r with res := regRead s pa }
    | none =>
      if lineBad s r.loc then tookValue s { r with bad := true }
      else tookValue s { r with bad := false, res := extendLoad r.sx r.size (locRead s r.loc r.size), got := recs }
  | .store =>
    match reg with
    | some pa => dropReq (regWrite s (reqCtx s r) pa r.val) r.id
    | none =>
      if lineBad s r.loc && !r.sx then dropReq s r.id
      else
        let v := maskedValue r.mask r.size (locRead s r.loc r.size) r.val.toNat
        dropReq (publish (locWrite (lineMade s r.loc) r.loc r.size v) r false) r.id
  | .atom fn =>
    if lineBad s r.loc then tookValue s { r with bad := true }
    else
      let old := locRead s r.loc r.size
      tookValue (publish (locWrite s r.loc r.size (atomValue fn r.sx r.size old r.val.toNat)) r true)
        { r with res := extendLoad r.sx r.size old, got := recs }
  | _ =>
    if lineBad s r.loc then tookValue s { r with bad := true }
    else
      let old := locRead s r.loc r.size
      let s1 := if old = r.cmp.toNat % 2 ^ (8 * r.size) then publish (locWrite s r.loc r.size r.val.toNat) r true else s
      tookValue s1 { r with res := extendLoad r.sx r.size old, got := recs }

/-- A request applied at its home. -/
def applyReq (s : State) (r : Req) : State :=
  let s1 := if r.sc then { s with scDone := s.scDone + 1 } else s
  let s2 := noteRank s1 r
  match r.op with
  | .ldv => applyVersioned s2 r
  | .stv => applyVersioned s2 r
  | .reclaim => applyVersioned s2 r
  | .barinit => applyBarinit s2 r
  | .barrier => applyBarrier s2 r
  | .push => applyDeque s2 r
  | .pop => applyDeque s2 r
  | .steal => applyDeque s2 r
  | _ => applyAccess s2 r

/-- A load answered by the earlier store of its own agent that covers it (R155, R285). -/
def forwardReq (s : State) (r e : Req) : State :=
  tookValue s { r with res := extendLoad r.sx r.size (e.val.toNat % 2 ^ (8 * r.size)), got := [] }

/-- Whether an SC request comes to its node of the token's ring now (R294): nothing else keeps it from being performed. -/
def scComes (s : State) (r : Req) : Bool :=
  r.sc && r.place == 0 && r.stage == .sent && !r.waiting && orderMet s r && !blocked s r
    && (match r.loc with | .mem pa => (scNode pa).isSome | .sp _ _ => false)

/-- APPLIED_AT_HOME (R287): the request with this number is applied at its home, or a load takes the value of its
own agent's store before that store is applied. -/
def execAppliedAtHome (req : Nat) (s : State) : Host.Outcome State Fault Refusal :=
  match findReq s req with
  | none => .next s
  | some r =>
    if canApply s r && rankMet s r then .next (applyReq s r)
    else if scComes s r then .next (putReq { s with serial := s.serial + 1 } { r with place := s.serial + 1 })
    else if r.op == .load && !r.sc && (r.stage == .sent || r.stage == .held) && orderMet s r then
      match forwardFrom s r with
      | some e => .next (forwardReq s r e)
      | none => .next s
    else .next s

/-! ### Answers -/

/-- The lanes of the vector word to which a request belongs. -/
def laneGroup (s : State) (r : Req) : List Req := s.reqs.filter fun e => e.grp == r.grp && e.agent == r.agent

/-- The register of a lane's destination within its group. -/
def laneReg (r : Req) : Nat :=
  match r.dst with
  | .lane _ _ j _ => j
  | _ => 0

/-- The registers of a vector word below register j that have not been written yet keep register j from being
written (R186). -/
def regReady (s : State) (r : Req) : Bool :=
  (laneGroup s r).all fun e => (laneReg r < laneReg e) || (laneReg e == laneReg r && isApplied e)

/-- The agent's tile, set and thread. -/
def agentThread : Agent → Nat × Nat × Nat
  | .thread t i n => (t, i, n)
  | .port t i n => (t, i, n)
  | .region t i n => (t, i, n)
  | _ => (0, 0, 0)

/-- A thread's register no longer waits for a request. -/
def unbusy (s : State) (a : Agent) (id : Nat) : State :=
  let (t, i, n) := agentThread a
  modThread s t i n fun th => { th with fl := { th.fl with busy := th.fl.busy.filter fun b => b.req != some id } }

/-- Register j of a VLD or VGATH written from the answers of its lanes (R184, R185): an inactive lane keeps its value
or is zeroed. -/
def writeLanes (s : State) (r : Req) : State :=
  match r.dst with
  | .lane v _ j _ =>
    let (t, i, _) := agentThread r.agent
    let old := vregRead (getTile s t) (getSet s t i) (v + j)
    let lanes := (laneGroup s r).filter fun e => laneReg e == j
    let value (l : Nat) : Nat :=
      match lanes.find? (fun e => match e.dst with | .lane _ _ _ m => m == l | _ => false) with
      | some e => e.res.toNat
      | none => if r.zl && !r.mask.getLsbD l then 0 else elemOf old 32 l
    if r.dead then s
    else vregWrite s t i (v + j) (BitVec.ofNat 1024 (packElems 32 ((List.range 32).map value)))
  | _ => s

/-- Whether a deferred trap of a VLD or VGATH of a set stands, from its raising until its TRET (R153): the opcode of the
word it names tells. -/
def vectorTrapHeld (t : Tile) (c : CtxSet) : Bool :=
  let isLoad (r : TrapRec) : Bool :=
    r.late && r.src == 0 && ((iword t c r.pos).extractLsb' 118 10 == 0x300 || (iword t c r.pos).extractLsb' 118 10 == 0x302)
  (c.trap.valid && isLoad c.trap.cur) || c.trap.held.any isLoad

/-- The end of a vector memory word when its last lane has answered (R171): VPROG is 0 unless a deferred trap of the
set's holds it. -/
def endLanes (s : State) (r : Req) : State :=
  if (laneGroup s r).isEmpty then
    let (t, i, _) := agentThread r.agent
    if vectorTrapHeld (getTile s t) (getSet s t i) then unbusy s r.agent r.grp
    else unbusy (modSet s t i fun c => { c with vprog := 0 }) r.agent r.grp
  else s

/-- The answer of a lane's register: every lane of the register answers at once. -/
def answerLanes (s : State) (r : Req) : State :=
  let j := laneReg r
  let s1 := writeLanes s r
  let s2 := { s1 with reqs := s1.reqs.filter fun e => !(e.grp == r.grp && e.agent == r.agent && laneReg e == j) }
  endLanes s2 r

/-- The answer of a scalar request: its register is written. -/
def answerScalar (s : State) (r : Req) : State :=
  let (t, i, n) := agentThread r.agent
  let s1 := match r.dst with
    | .sreg k => if r.dead then s else modThread s t i n fun th => { th with s := Tab.set th.s k r.res }
    | _ => s
  unbusy (dropReq s1 r.id) r.agent r.id

/-- Whether a request answers a thread's register rather than a waiting word. -/
def answersRegister (r : Req) : Bool :=
  match r.op with
  | .load => true
  | .atom _ => true
  | .cas => true
  | _ => false

/-- Whether a request's answer may come now: one whose step the spec fixes comes at it (R139, R169). -/
def answerDue (s : State) (r : Req) : Bool :=
  match r.due with
  | some d => d ≤ tscOf s ((agentTile r.agent).getD 0)
  | none => true

/-- MEMORY_RESPONSE (R153): the value of a performed load or atomic reaches its register; a vector word's register is
written when all its lanes, and every earlier register, have answered (R186). -/
def execMemoryResponse (req : Nat) (s : State) : Host.Outcome State Fault Refusal :=
  match findReq s req with
  | none => .next s
  | some r =>
    if !isApplied r || r.bad || !answersRegister r || !answerDue s r then .next s
    else
      match r.dst with
      | .lane _ _ _ _ =>
        if regReady s r && !((laneGroup s r).any fun e => laneReg e == laneReg r && e.bad) then .next (answerLanes s r)
        else .next s
      | _ => .next (answerScalar s r)

/-- The deferred integrity trap of a load (R153): D is not written, and the thread issues no further word. -/
def deferTrap (s : State) (r : Req) : State :=
  let (t, i, n) := agentThread r.agent
  raiseTrap (unbusy (dropReq s r.id) r.agent r.id) t i { wordRec 0x09 n r.pc r.va 0 with late := true }

/-- The deferred integrity trap of a VLD or VGATH (R186): the register and every later one keep their values, and IDX
names it. -/
def deferLanes (s : State) (r : Req) : State :=
  let (t, i, n) := agentThread r.agent
  let s1 := { s with reqs := s.reqs.filter fun e => !(e.grp == r.grp && e.agent == r.agent) }
  let s2 := modSet (unbusy s1 r.agent r.grp) t i fun c =>
    if vectorTrapHeld (getTile s t) c then c else { c with vprog := laneReg r }
  raiseTrap s2 t i { wordRec 0x09 n r.pc r.va 0 with late := true }

/-- DEFERRED_INTEGRITY_TRAP (R153): a load found that its line fails its check. -/
def execDeferredIntegrityTrap (req : Nat) (s : State) : Host.Outcome State Fault Refusal :=
  match findReq s req with
  | none => .next s
  | some r =>
    if !isApplied r || !r.bad || !answersRegister r || !answerDue s r then .next s
    else
      match r.dst with
      | .lane _ _ _ _ => if regReady s r then .next (deferLanes s r) else .next s
      | _ => .next (deferTrap s r)

/-! ### The serialising token and the scrubber -/

/-- Whether an SC request is pending at a node of the ring. -/
def scPending (s : State) (node : Nat) : Bool := s.reqs.any fun r => scArrived r && atNode r node

/-- The next node of the ring, passing over the column controllers of slots out of service (R294). -/
def nextNode (s : State) : Nat → Nat → Nat
  | 0, n => (n + 1) % 192
  | fuel + 1, n =>
    let m := (n + 1) % 192
    if m % 48 < 16 && (Tab.get Column.reset s.columns (m / 48 * 16 + m % 48)).removed then nextNode s fuel m else m

/-- The tick at which the token comes to its next node (R294): a cycle later on the die, 8 ticks later on the next. A cycle of a
node is taken for a tick. DESIGN CHOICE (notes/assumptions/119.md). -/
def tokenComes (s : State) (node : Nat) : Nat := if node / 48 = s.scToken / 48 then s.dcc + 1 else s.dcc + 8

/-- SC_TOKEN_PASS (R294): a node with no pending SC access, or that has performed four, passes the token on. -/
def execScTokenPass (s : State) : Host.Outcome State Fault Refusal :=
  if s.dcc < s.scAt || (scPending s s.scToken && s.scDone < 4) then .next s
  else
    let n := nextNode s 192 s.scToken
    .next { s with scToken := n, scDone := 0, scAt := tokenComes s n }

/-- HBM_SCRUB (R343): a line is read and corrected words are written back; no byte changes. -/
def execHbmScrub (line : Nat) (s : State) : Host.Outcome State Fault Refusal :=
  match placeOf (line * 64) with
  | .hbm _ _ => .next { s with scrubbed := line }
  | _ => .next s

/-! ### The host -/

/-- HOST_MEMORY_ACCESS (R392, R301): the host reads or writes device memory, as a member of SYSTEM; what a load
reads goes to the host, or, from a line that fails its check, a poisoned completion (R365; what Summit records of it is DESIGN
CHOICE, notes/assumptions/122.md). Only a link that is up and a package that runs take it (R400, R401). -/
def execHostMemoryAccess (access : HostAccess) (s : State) : Host.Outcome State Fault Refusal :=
  if s.boot != .running || !s.linkUp then .next s
  else match access with
  | .load addr size =>
    if isRegister addr then .next { s with hostRead := if hostMay s addr then regRead s addr else 0, hostPoison := false }
    else if lineBad s (.mem addr) then .next { s with hostPoison := true, uncorrected := s.uncorrected + 1 }
    else .next { s with hostRead := BitVec.ofNat 64 (Memory.read s.mem addr size), hostPoison := false }
  | .store addr size v =>
    if isRegister addr then .next (if hostMay s addr then regWrite s 0 addr v else s)
    else if lineBad s (.mem addr) then .next s
    else .next { locWrite s (.mem addr) size v.toNat with sync := (locKeys (.mem addr) size).foldl Tab.erase s.sync }

/-- REGISTER_WRITE (R5): a register with no row of its own, under its access codes, by the host's root driver. -/
def execRegisterWrite (addr : Nat) (value : BitVec 64) (s : State) : Host.Outcome State Fault Refusal :=
  if (s.boot == .running || s.boot == .waiting) && hostMay s addr then .next (regWrite s 0 addr value) else .next s

/-- DQCFG_WRITE (R260). -/
def execDqcfgWrite (slot deque : Nat) (value : BitVec 64) (s : State) : Host.Outcome State Fault Refusal :=
  if s.boot == .running then .next (dqcfgSet s slot deque value) else .next s

/-- TAIL_WRITE (R389). -/
def execTailWrite (queue : Nat) (value : BitVec 32) (s : State) : Host.Outcome State Fault Refusal :=
  if s.boot == .running && hostReaches s queue then .next (tailSet s queue value) else .next s

/-- QUEUE_BASE_WRITE (R388). -/
def execQueueBaseWrite (queue : Nat) (value : BitVec 64) (s : State) : Host.Outcome State Fault Refusal :=
  if s.boot == .running && hostReaches s queue then .next (queueBaseSet s queue value) else .next s

end Sys2Proof.Machine
end

