-- ==== Sys2Proof/Machine/System.lean ====
section
/-! DEFINITION. The system instructions: CSR access (R123 to R125, R159), traps raised on purpose (R160), time, gear
and power (R163 to R166), SCHED and SLACK (R134); and the charging of power quanta (R81, R166, R317). -/

namespace Sys2Proof.Machine

/-! ### CSRs -/

/-- The code of a thread state (R120). -/
def threadCode : ThreadState → Nat
  | .off => 0 | .run => 1 | .wait => 2 | .halt => 3 | .trap => 4

/-- The droop half-width steps that remain at a TSC (R165). -/
def halfLeft (t : Tile) (tsc : Nat) : Nat :=
  match t.half with
  | some (a, b) => b + 1 - Nat.max a tsc
  | none => 0

/-- The step edges that the current stretch still removes, read at the edge of its trip (R129, R165). -/
def stretchLeft (t : Tile) (tsc : Nat) : Nat :=
  match t.stretch with
  | some (trip, edges) => if tsc = trip then edges else 0
  | none => 0

/-- Whether droop half width covers a step (R129). -/
def droopHalf (t : Tile) (tsc : Nat) : Bool :=
  match t.half with
  | some (a, b) => a ≤ tsc && tsc ≤ b
  | none => false

/-- Whether a transition is in progress at a tick (R127). -/
def inTransition (t : Tile) (dcc : Nat) : Bool := t.trans.isSome && dcc ≤ t.clk.since

/-- A flag's weight. -/
def flagAt (b : Bool) (n : Nat) : Nat := if b then 2 ^ n else 0

/-- GEARST (R125). -/
def gearstWord (t : Tile) (c : CtxSet) (dcc : Nat) : Nat :=
  flagAt t.mtr 7 + flagAt (droopHalf t (clockTsc t.clk dcc)) 6 + flagAt c.gearPend.isSome 4 + flagAt t.therm 3
    + flagAt (inTransition t dcc) 2 + flagAt t.effL 1 + flagAt c.reqL 0

/-- A word of sixteen 4-bit token counts (R135). -/
def tokenWord (tok : Tab Nat) : Nat := packElems 4 ((List.range 16).map fun i => Tab.get 0 tok i)

/-- The restart snapshot's CSRs (R135). -/
def rpsnapWord (r : RpSnap) (i : Nat) : Nat :=
  match i with
  | 0 => r.dly.toNat * 2 ^ 32 + r.thr % 4 * 2 ^ 14 + flagAt r.valid 13 + r.pc % 8192
  | 1 => tokenWord r.tok
  | 2 => packElems 16 ((List.range 4).map fun e => Tab.get 0 r.tails e)
  | 3 => packElems 16 [Tab.get 0 r.tails 4, Tab.get 0 r.tails 5]
  | 4 => packElems 32 [Tab.get 0 r.front 0, Tab.get 0 r.front 1]
  | 5 => packElems 32 [Tab.get 0 r.front 2, Tab.get 0 r.front 3]
  | n => packElems 32 [Tab.get 0 r.spos (2 * (n - 6)), Tab.get 0 r.spos (2 * (n - 6) + 1)]

/-- The status of a region slot (R240, RGST). -/
def rgnWord (c : CtxSet) (slot : Nat) : BitVec 64 :=
  let r := regionOf c slot
  let faulted := (regionElems r).find? fun e => (elemOfSet c e).fault.isSome
  let st := match r.st with | .free => 0 | .running => 1 | .stopped => 2 | .retiring => 3
  BitVec.ofNat 64 (flagAt faulted.isSome 45 + (faulted.getD 0) % 32 * 2 ^ 40 + flagAt r.swx.isSome 39
    + flagAt r.swe.isSome 38 + r.px % 2 * 2 ^ 37 + r.pe % 2 * 2 ^ 36 + flagAt r.exs 35 + flagAt r.ens 34
    + st * 2 ^ 32 + r.front % 2 ^ 32)

/-- The key of the package's meter among the meters of the partitions 0 to 11. -/
def packageMeter : Nat := 15

/-- A meter. -/
def meterOf (s : State) (k : Nat) : Meter := Tab.get Meter.reset s.meters k

/-- The energy accumulator of the partition that owns a tile (R398); 0 where none does. -/
def tileEnergy (s : State) (tile : Nat) : Nat :=
  match slotPart s (tileSlot tile) with
  | some p => (meterOf s p).accum
  | none => 0

/-- The value of a CSR for a thread; none where the number holds no CSR (R123, R124). -/
def csrValue (s : State) (tile set thr csr : Nat) : Option Nat :=
  let t := getTile s tile
  let c := tileSet t set
  let th := setThread? c thr
  let tr := c.trap
  if csr = 0x000 then some (th.pc % 8192 * 2 ^ 16 + threadCode th.st * 2 ^ 4 + thr % 4)
  else if csr = 0x001 then some ((c.ctx.getD 0) % 1024)
  else if csr = 0x002 then some (tile % 256)
  else if csr = 0x008 then some (c.vlen * 2 ^ 16 + c.vbase)
  else if csr = 0x009 then some (c.splen * 2 ^ 16 + c.spbase)
  else if csr = 0x00A then some (c.acclen * 2 ^ 16 + c.accbase)
  else if csr = 0x00B then some (c.ilen * 2 ^ 16 + c.ibase)
  else if csr = 0x00C then some t.plown.toNat
  else if csr = 0x010 then some c.schbase.toNat
  else if csr = 0x011 then some (c.dly.toNat * 2 ^ 32 + flagAt c.elastic 0)
  else if csr = 0x012 then some (c.vprog % 8)
  else if 0x018 ≤ csr && csr ≤ 0x01B then some (Tab.get 0 c.slk (csr - 0x018)).toNat
  else if csr = 0x020 then some (gearstWord t c s.dcc)
  else if csr = 0x021 then some (t.drpHalf.toNat * 2 ^ 16 + t.drpStr.toNat * 2 ^ 8 + t.drpTh.toNat)
  else if csr = 0x022 then some t.drpCnt.toNat
  else if csr = 0x028 then some c.causewait.toNat
  else if 0x030 ≤ csr && csr ≤ 0x039 then some (rpsnapWord c.rpsnap (csr - 0x030))
  else if csr = 0x040 then some c.elxen0.toNat
  else if csr = 0x041 then some c.elxen1.toNat
  else if 0x050 ≤ csr && csr ≤ 0x05F then some (Tab.get 0xFF c.tqcfg (csr - 0x050)).toNat
  else if 0x060 ≤ csr && csr ≤ 0x065 then
    some (Tab.get 0 c.ringLsz (csr - 0x060) * 2 ^ 24 + Tab.get 0 c.ringBase (csr - 0x060) * 2 ^ 6)
  else if 0x068 ≤ csr && csr ≤ 0x06D then some (ringTail c (csr - 0x068) * 2 ^ 16 + ringHead c (csr - 0x068))
  else if csr = 0x100 then some (trcauseWord tr.valid tr.cur).toNat
  else if csr = 0x101 then some (tr.cur.pos % 65536)
  else if csr = 0x102 then some tr.cur.addr.toNat
  else if csr = 0x103 then some tr.cur.det0.toNat
  else if csr = 0x104 then some tr.cur.det1.toNat
  else if csr = 0x108 then some (flagAt tr.vecEn 31 + tr.hthr % 4 * 2 ^ 16 + tr.vecPc % 8192)
  else if csr = 0x109 then some (tr.hst % 8 * 2 ^ 16 + tr.hpc % 8192)
  else if csr = 0x10A then some (Nat.min tr.held.length 255)
  else if 0x110 ≤ csr && csr ≤ 0x113 then some (rgnWord c (csr - 0x110)).toNat
  else if 0x118 ≤ csr && csr ≤ 0x11B then
    let w := (Tab.get 0 c.scrn (csr - 0x118)).toNat
    some (w / 65536 * 2 ^ 32 + w % 65536)
  else if csr = 0x11C then
    some (c.snapK % 2 ^ 32 * 2 ^ 32 + c.snapId % 65536 * 2 ^ 16 + flagAt c.snapDone 1 + flagAt c.snapBusy 0)
  else if csr = 0x180 then some (c.pwrCapNext.toNat * 2 ^ 32 + c.share.toNat)
  else if csr = 0x188 then some (tileEnergy s tile % 2 ^ 32)
  else if csr = 0x189 then some c.enrgH.toNat
  else if csr = 0x18A then some ((meterOf s packageMeter).accum % 2 ^ 32)
  else if csr = 0x18B then some c.pkenH.toNat
  else none

/-- The side effect of a read (R5 RS, R398): ENRGL and PKENL latch the high half. -/
def csrReadEffect (s : State) (tile set csr : Nat) : State :=
  if csr = 0x188 then modSet s tile set fun c => { c with enrgH := BitVec.ofNat 32 (tileEnergy s tile / 2 ^ 32) }
  else if csr = 0x18A then
    modSet s tile set fun c => { c with pkenH := BitVec.ofNat 32 ((meterOf s packageMeter).accum / 2 ^ 32) }
  else s

/-- The fields of a CSR that a thread may write (R124, R125, R244): the bits that are not Res, for a CSR whose Level
is T, or O for a thread of the partition that owns the cluster, which is a context of depth 1 (R14), or of the root; none
otherwise. -/
def csrFields (s : State) (tile set csr : Nat) : Option Nat :=
  let ctx := (getSet s tile set).ctx.getD 0
  let depth := (getCtx s ctx).depth
  let owner := depth == 0 || (depth == 1 && slotPart s (tileSlot tile) == some (partOf s ctx))
  if csr = 0x011 then some 0xFFFFFFFF00000001
  else if csr = 0x012 then some 0x7
  else if 0x018 ≤ csr && csr ≤ 0x01B then some 0xFFFF
  else if csr = 0x021 then (if owner then some 0xFFFF0F3F else none)
  else if csr = 0x022 then (if owner then some 0xFFFFFFFF else none)
  else if csr = 0x028 then some 0xFFFF
  else if csr = 0x040 then some 0xFFFFFFFFFFFFFFFF
  else if csr = 0x041 then some 0xFFFFFFFFFFFFFFFF
  else if csr = 0x100 then some 0x80FFFFFFC0000000
  else if csr = 0x101 then some 0xFFFF
  else if csr = 0x102 then some 0xFFFFFFFFFFFFFF
  else if csr = 0x103 then some 0xFFFFFFFFFFFFFFFF
  else if csr = 0x104 then some 0xFFFFFFFFFFFFFFFF
  else if csr = 0x108 then some 0x80031FFF
  else if csr = 0x109 then some 0x71FFF
  else if csr = 0x10A then some 0xFF
  else if 0x110 ≤ csr && csr ≤ 0x113 then some 0x3FFFFFFFFFFF
  else if 0x118 ≤ csr && csr ≤ 0x11B then some 0xFFFFFFFF0000FFFF
  else if csr = 0x11C then some 0xFFFFFFFFFFFF0003
  else none

/-- Whether a write of a value is accepted (R124, R6): the thread may write the CSR, and no reserved field takes a
nonzero value. -/
def csrWriteOk (s : State) (tile set csr : Nat) (v : BitVec 64) : Bool :=
  match csrFields s tile set csr with
  | some m => v &&& ~~~(BitVec.ofNat 64 m) == 0
  | none => false

/-- A CSR written field by field: RW fields take the value, RO fields keep theirs (R5, R159). -/
def csrWrite (s : State) (tile set csr : Nat) (v : BitVec 64) : State :=
  if csr = 0x012 then modSet s tile set fun c => { c with vprog := v.toNat % 8 }
  else if 0x018 ≤ csr && csr ≤ 0x01B then
    modSet s tile set fun c => { c with slk := Tab.set c.slk (csr - 0x018) (v.setWidth 16) }
  else if csr = 0x021 then
    modTile s tile fun t =>
      { t with drpHalf := (v >>> 16).setWidth 16, drpStr := (v >>> 8).setWidth 4, drpTh := v.setWidth 6 }
  else if csr = 0x022 then modTile s tile fun t => { t with drpCnt := v.setWidth 32 }
  else if csr = 0x028 then modSet s tile set fun c => { c with causewait := v.setWidth 16 }
  else if csr = 0x040 then modSet s tile set fun c => { c with elxen0 := v }
  else if csr = 0x041 then modSet s tile set fun c => { c with elxen1 := v }
  else if csr = 0x108 then
    modSet s tile set fun c => { c with trap := { c.trap with
      vecEn := v.getLsbD 31, hthr := bits v.toNat 17 16, vecPc := bits v.toNat 12 0 } }
  else s

/-- Whether a register's word is still unfinished at a step (R131). -/
def busyNow (tsc : Nat) (b : Busy) : Bool := b.req.isSome || tsc < b.at_

/-- Whether every earlier word of the acting thread has completed (R139, R159): no register has a result under way, no load or
atomic is in flight, a fence is satisfied. -/
def earlierDone (s : State) : Bool :=
  ((curThread s).fl.busy.all fun b => !busyNow (tscOf s s.focus.tile) b)
    && ((reqsOf s (curAgent s)).all fun r => !reqLoads r.op) && fenceMet s s.focus.tile s.focus.set s.focus.thr

/-- The CSR number of a word (R159). -/
def csrNumber (w : TWord) : Nat := bits w.modf.toNat 11 0

/-- The acting thread's view of a CSR. -/
def curCsr (s : State) (csr : Nat) : Option Nat := csrValue s s.focus.tile s.focus.set s.focus.thr csr

/-- CSRR (R159). -/
def execCsrr (w : TWord) (s : State) : Host.Outcome State Fault Refusal :=
  .next (runWord w s fun s1 =>
    if !earlierDone s1 then .hold
    else
      match curCsr s1 (csrNumber w) with
      | none => illegalOperand s1
      | some v =>
        .done (writeS (csrReadEffect s1 s1.focus.tile s1.focus.set (csrNumber w)) w.d (BitVec.ofNat 64 v)))

/-- CSRW (R159). -/
def execCsrw (w : TWord) (s : State) : Host.Outcome State Fault Refusal :=
  .next (runWord w s fun s1 =>
    if !earlierDone s1 then .hold
    else if csrWriteOk s1 s1.focus.tile s1.focus.set (csrNumber w) (argA w s1) then
      .done (csrWrite s1 s1.focus.tile s1.focus.set (csrNumber w) (argA w s1))
    else illegalOperand s1)

/-- CSRX (R159): the old value to D and the write, indivisibly; a refused write leaves D. -/
def execCsrx (w : TWord) (s : State) : Host.Outcome State Fault Refusal :=
  .next (runWord w s fun s1 =>
    if !earlierDone s1 then .hold
    else
      match curCsr s1 (csrNumber w) with
      | none => illegalOperand s1
      | some v =>
        if csrWriteOk s1 s1.focus.tile s1.focus.set (csrNumber w) (argA w s1) then
          .done (csrWrite (writeS (csrReadEffect s1 s1.focus.tile s1.focus.set (csrNumber w)) w.d (BitVec.ofNat 64 v))
            s1.focus.tile s1.focus.set (csrNumber w) (argA w s1))
        else illegalOperand s1)

/-- ENRGL_READ (R398): the read of ENRGL by a unit of a set latches the high half. -/
def execEnrglRead (tile set : Nat) (s : State) : Host.Outcome State Fault Refusal :=
  .next (csrReadEffect s tile set 0x188)

/-- PKENL_READ (R398). -/
def execPkenlRead (tile set : Nat) (s : State) : Host.Outcome State Fault Refusal :=
  .next (csrReadEffect s tile set 0x18A)

/-! ### Traps raised on purpose -/

/-- TRAP (R160): the code of MOD in the record. -/
def execTrapWord (w : TWord) (s : State) : Host.Outcome State Fault Refusal :=
  .next (runWord w s fun s1 => trapDet s1 0x0A 0 (BitVec.ofNat 64 (bits w.modf.toNat 15 0)))

/-- BKPT (R160). -/
def execBkpt (w : TWord) (s : State) : Host.Outcome State Fault Refusal :=
  .next (runWord w s fun s1 => trapNow s1 0x0B)

/-! ### Time and gear -/

/-- TIME.D (R163): the DCC. -/
def execTimeD (w : TWord) (s : State) : Host.Outcome State Fault Refusal :=
  .next (runWord w s fun s1 => .done (writeS s1 w.d (BitVec.ofNat 64 s1.dcc)))

/-- TIME.S (R163): the TSC. -/
def execTimeS (w : TWord) (s : State) : Host.Outcome State Fault Refusal :=
  .next (runWord w s fun s1 => .done (writeS s1 w.d (BitVec.ofNat 64 (tscOf s1 s1.focus.tile))))

/-- GEAR (R164): the request stands until its conditions hold; the thread is not ready until it completes. A GEAR
while one is pending does not issue. -/
def execGear (w : TWord) (s : State) : Host.Outcome State Fault Refusal :=
  .next (runWord w s fun s1 =>
    if (curSet s1).gearPend.isSome then .hold
    else
      .done (modCurThread
        (modCurSet s1 fun c => { c with gearPend := some (s1.focus.thr, tscOf s1 s1.focus.tile, modFn w.modf == 1) })
        fun th => { th with fl := { th.fl with gearing := true } }))

/-- GEARQ (R165). -/
def gearqWord (s : State) : BitVec 64 :=
  let t := curTile s
  let tsc := tscOf s s.focus.tile
  BitVec.ofNat 64 (stretchLeft t tsc % 65536 * 2 ^ 32 + halfLeft t tsc % 65536 * 2 ^ 16
    + gearstWord t (curSet s) s.dcc % 256)

/-- GEARQ (R165). -/
def execGearq (w : TWord) (s : State) : Host.Outcome State Fault Refusal :=
  .next (runWord w s fun s1 => .done (writeS s1 w.d (gearqWord s1)))

/-- SCHED (R134): a new schedule base and mode. -/
def execSched (w : TWord) (s : State) : Host.Outcome State Fault Refusal :=
  .next (runWord w s fun s1 =>
    let a := (argA w s1).toInt
    if a < 0 || 0xFFFFFFFF < a then illegalOperand s1
    else .done (modCurSet s1 fun c =>
      { c with schbase := BitVec.ofNat 64 (tscOf s1 s1.focus.tile + a.toNat), elastic := modFn w.modf == 1, dly := 0 }))

/-- SLACK (R134). -/
def execSlack (w : TWord) (s : State) : Host.Outcome State Fault Refusal :=
  .next (runWord w s fun s1 =>
    let a := (argA w s1).toInt
    let b := (argB w s1).toInt
    if a < 0 || 3 < a || b < 0 || 65535 < b then illegalOperand s1
    else .done (modCurSet s1 fun c => { c with slk := Tab.set c.slk a.toNat (BitVec.ofInt 16 b) }))

/-! ### Power -/

/-- A number held to 32 bits, saturating. -/
def sat32 (n : Nat) : Nat := Nat.min n (2 ^ 32 - 1)

/-- PWRQ (R166): the quanta in the tile's pool, and those charged to the active set in this interval. -/
def execPwrq (w : TWord) (s : State) : Host.Outcome State Fault Refusal :=
  .next (runWord w s fun s1 =>
    .done (writeS s1 w.d (BitVec.ofNat 64
      (sat32 (activeSet (curTile s1)).charged * 2 ^ 32 + sat32 (curTile s1).pool))))

/-- PWRCAP (R166): the set's cap from the next interval; 0 is none. -/
def execPwrcap (w : TWord) (s : State) : Host.Outcome State Fault Refusal :=
  .next (runWord w s fun s1 =>
    let a := (argA w s1).toInt
    if a < 0 || 0xFFFFFFFF < a then illegalOperand s1
    else .done (modCurSet s1 fun c => { c with pwrCapNext := BitVec.ofInt 32 a }))

/-- Whether the active set of a tile may be charged quanta (R81, R166, R317): the pool holds them, and neither the
set's share nor its cap is passed. -/
def canCharge (s : State) (tile q : Nat) : Bool :=
  let t := getTile s tile
  let c := activeSet t
  q = 0 || (q ≤ t.pool && c.charged + q ≤ c.share.toNat && (c.pwrCap == 0 || c.charged + q ≤ c.pwrCap.toNat))

/-- Quanta added to a partition's meter. -/
def meterAdd (s : State) (key q : Nat) : State :=
  { s with meters := Tab.modify Meter.reset s.meters key fun m => { m with now := m.now + q } }

/-- Quanta charged to the active set of a tile, its pool and its partition's meter (R75, R395). -/
def charge (s : State) (tile q : Nat) : State :=
  let s1 := modTile s tile fun x =>
    putTileSet { x with pool := x.pool - q } x.active
      { activeSet x with charged := (activeSet x).charged + q, energy := (activeSet x).energy + q }
  match slotPart s (tileSlot tile) with
  | some p => meterAdd s1 p q
  | none => s1

end Sys2Proof.Machine
end

