-- ==== Sys2Proof/Machine/Engines.lean ====
section
/-! DEFINITION. Command rings, token queues and the frame of an engine command (R27, R29, R234 to R236, R242, R295,
R418), and the instructions ENQ, ENQS, TOKW, TOKS and SBAR (R233 to R235). -/

namespace Sys2Proof.Machine

/-! ### Token queues -/

/-- TQCFG of a token queue (R125). -/
def tqcfgOf (c : CtxSet) (q : Nat) : Nat := (Tab.get 0xFF c.tqcfg q).toNat
/-- The consumer of a token queue. -/
def tqCons (c : CtxSet) (q : Nat) : Nat := tqcfgOf c q % 16
/-- The producer of a token queue. -/
def tqProd (c : CtxSet) (q : Nat) : Nat := tqcfgOf c q / 16

/-- Tokens added to a queue, to at most 15, each with the stores in flight that its signal promises; one lost to saturation pairs with
nothing (R200, R235, R290). -/
def addTokens (c : CtxSet) (q n : Nat) (ids : List Nat) : CtxSet :=
  let old := Tab.get 0 c.tok q
  let l := (List.range old).map fun i => (Tab.get [] c.tokIds q).getD i []
  { c with tok := Tab.set c.tok q (Nat.min 15 (old + n))
           tokIds := Tab.set c.tokIds q ((l ++ List.replicate n ids).take 15) }

/-- Tokens taken from a queue, oldest first. -/
def takeTokens (c : CtxSet) (q n : Nat) : CtxSet :=
  { c with tok := Tab.set c.tok q (Tab.get 0 c.tok q - n), tokIds := Tab.set c.tokIds q ((Tab.get [] c.tokIds q).drop n) }

/-- The stores in flight that the oldest tokens of a queue promise to a wait for them (R290). -/
def tokenIds (s : State) (c : CtxSet) (q n : Nat) : List Nat :=
  (((Tab.get [] c.tokIds q).take n).flatMap id).filter fun i => (findReq s i).isSome

/-- The count of a token word: 1 to 15 (R235). -/
def tokenCount (a : BitVec 64) : Option Nat := if 1 ≤ a.toNat && a.toNat ≤ 15 then some a.toNat else none

/-- TOKW (R235): a wait for tokens, an acquire of the popped signals. -/
def execTokw (w : TWord) (s : State) : Host.Outcome State Fault Refusal :=
  .next (runWord w s fun s1 =>
    let q := modFn w.modf
    match tokenCount (argA w s1) with
    | none => illegalOperand s1
    | some n =>
      if tqCons (curSet s1) q != 8 then illegalOperand s1
      else if Tab.get 0 (curSet s1).tok q < n then .wait s1
      else
        .done (learn (modCurSet s1 fun c => takeTokens c q n) (curKey s1) (curAgent s1) true 0
          [⟨tokenIds s1 (curSet s1) q n, 0, curAgent s1⟩]))

/-- TOKS (R235): a release of the thread's earlier stores, at TILE. -/
def execToks (w : TWord) (s : State) : Host.Outcome State Fault Refusal :=
  .next (runWord w s fun s1 =>
    let q := modFn w.modf
    match tokenCount (argA w s1) with
    | none => illegalOperand s1
    | some n =>
      if tqProd (curSet s1) q != 8 then illegalOperand s1
      else if !releaseMet s1 0 then .hold
      else
        let s2 := settleFence s1
        .done (modCurSet s2 fun c => addTokens c q n (storesBefore s2)))

/-! ### Rings -/

/-- Whether a fire line is granted to a context (R345). -/
def ownsLine (s : State) (ctx line : Nat) : Bool := Tab.get 0 s.fireOwner line == ctx
/-- Whether a copy channel is granted to a context (R345). -/
def ownsChan (s : State) (ctx chan : Nat) : Bool := chan < 768 && Tab.get 0 s.chanOwner chan == ctx

/-- The fields of EARG by position. -/
def argBits (c : Cmd) (hi lo : Nat) : Nat := bits c.arg.toNat hi lo

/-- Whether a command's token fields name queues of the engine (R125, R234). -/
def tokensOk (cs : CtxSet) (e : Nat) (c : Cmd) : Bool :=
  (match c.wait with | some r => tqCons cs r.queue.toNat == e | none => true)
    && (match c.sig with | some r => tqProd cs r.queue.toNat == e | none => true)

/-- Whether an XC command names a line or channel of the context (R357). -/
def grantsOk (s : State) (ctx : Nat) (e : Nat) (i : Instr) : Bool :=
  match i with
  | .xcFire c => e != 5 || ownsLine s ctx (argBits c 41 33)
  | .mark c => e != 5 || ownsChan s ctx (argBits c 41 32)
  | _ => true

/-- The target that an ENQ captures (R132). -/
def captureTarget (c : CtxSet) (cmd : Word64) : Nat := (c.schbase.toNat + stampOf cmd) % 2 ^ 64

/-- Whether a target keeps the order of the ring (R132): not below that of the command before it in the ring. -/
def targetOk (c : CtxSet) (target : Nat) : Bool :=
  ringCount c 0 = 0 || (capturedAt c 0 (ringTail c 0 + 65535)).target ≤ target

/-- Whether a command word may be enqueued on an engine's ring (R29, R132, R234, R357). -/
def enqueueOk (s : State) (e : Nat) (cmd : Word64) : Bool :=
  let c := curSet s
  match decodeCmd e cmd with
  | none => false
  | some i =>
    match cmdParts i with
    | none => false
    | some (_, _, f) =>
      ringSize c e != 0 && tokensOk c e f && grantsOk s (curCtx s) e i && (e != 0 || targetOk c (captureTarget c cmd))

/-- A command word written at the ring's tail with what the ENQ captures (R132, R234, R295): the target and mode of a
matrix-engine command, the thread, and the accesses that happen before it. -/
def enqueue (s : State) (e : Nat) (cmd : Word64) : State :=
  let c := curSet s
  let tail := ringTail c e
  let ids := (reqsOf s (curAgent s)).map (fun r => r.id) ++ storesBefore (settleFence s)
  let cap : Captured := ⟨captureTarget c cmd, c.schbase.toNat, c.elastic, false, s.focus.thr, ids, tscOf s s.focus.tile⟩
  modCurSet (shareWrite s s.focus.tile s.focus.set (ringAddr c e tail) 8 cmd.toNat) fun x =>
    { x with tail := Tab.set x.tail e (BitVec.ofNat 16 (tail + 1)), captured := Tab.set x.captured (ringKey e tail) cap }

/-- ENQ and ENQS (R234): a malformed word is refused, a full ring is waited on. -/
def enqueueWord (s : State) (e : Nat) (cmd : Word64) : Res :=
  if 5 < e || !enqueueOk s e cmd then illegalOperand s
  else if ringSize (curSet s) e ≤ ringCount (curSet s) e then .wait s
  else .done (enqueue s e cmd)

/-- The engine that X names (R23). -/
def engineField (w : TWord) : Nat := bits w.x.toNat 2 0

/-- ENQ (R234). -/
def execEnq (w : TWord) (cmd : Word64) (s : State) : Host.Outcome State Fault Refusal :=
  .next (runWord w s fun s1 => enqueueWord s1 (engineField w) cmd)

/-- ENQS (R234): the command word is in sA. -/
def execEnqs (w : TWord) (s : State) : Host.Outcome State Fault Refusal :=
  .next (runWord w s fun s1 => enqueueWord s1 (engineField w) (argA w s1))

/-- Whether a request of the tile is under way to a bank of a mask (R233). -/
def bankBusy (s : State) (tile mask : Nat) : Bool :=
  s.reqs.any fun r => !isApplied r && (match r.loc with
    | .sp t off => t == tile && bit mask (off / 64 % 32)
    | .mem _ => false)

/-- SBAR (R233): the owner class of the masked banks, once every access to them is performed. -/
def execSbar (w : TWord) (s : State) : Host.Outcome State Fault Refusal :=
  .next (runWord w s fun s1 =>
    let a := (argA w s1).toNat
    if a / 2 ^ 34 != 0 then illegalOperand s1
    else if bankBusy s1 s1.focus.tile (a % 2 ^ 32) then .hold
    else .done (modCurSet s1 fun c =>
      { c with bankCls := (List.range 32).foldl (fun t b => if bit a b then Tab.set t b (bits a 33 32) else t) c.bankCls }))

/-! ### The frame of an engine command -/

/-- What an engine holds besides its ring. -/
def engState (c : CtxSet) (e : Nat) : EngineState := Tab.get ⟨false, false, 0, none, []⟩ c.eng e

/-- The acting set's engine changed. -/
def modEng (s : State) (e : Nat) (f : EngineState → EngineState) : State :=
  modCurSet s fun c => { c with eng := Tab.set c.eng e (f (engState c e)) }

/-- A command fault of the acting set's engine (R242, R29): the head stays, and the record names the engine, the ring
position and the code. -/
def commandFault (s : State) (e code : Nat) : State :=
  raiseTrap (modEng s e fun x => { x with faulted := true }) s.focus.tile s.focus.set
    (unitRec 0x13 1 e 0 (ringHead (curSet s) e) 0 (BitVec.ofNat 64 code) 0)

/-- The FORMAT code of an engine (R198, R242). -/
def formatCode (e : Nat) : Nat := if e = 0 then 10 else 1

/-- Whether the command at a ring's head comes after what its ENQ released, at a scope (R295). -/
def headOrdered (s : State) (e scope : Nat) : Bool :=
  let c := curSet s
  let cap := capturedAt c e (ringHead c e)
  (cap.stores ++ (engState c e).knows).all fun id => performedId s (.thread s.focus.tile s.focus.set cap.thr) scope id

/-- Whether a command's wait can be performed, or has been (R27, R236). -/
def waitMet (s : State) (e : Nat) (c : Cmd) : Bool :=
  (engState (curSet s) e).waited ||
    (match c.wait with
    | some r => r.less1.toNat + 1 ≤ Tab.get 0 (curSet s).tok r.queue.toNat
    | none => true)

/-- The stores in flight that happen before the effect of the command at a ring's head (R291, R295): those before its ENQ, and those
promised by the tokens of its engine's waits. -/
def headStores (s : State) (e : Nat) : List Nat :=
  let c := curSet s
  ((capturedAt c e (ringHead c e)).stores ++ (engState c e).knows).filter fun i => (findReq s i).isSome

/-- A command's wait performed, once (R418): an acquire of what its tokens promise (R295). -/
def takeWait (s : State) (e : Nat) (c : Cmd) : State :=
  if (engState (curSet s) e).waited then s
  else
    let n (r : TokenRef) : Nat := r.less1.toNat + 1
    let s1 := match c.wait with
      | some r => modCurSet s fun x => takeTokens x r.queue.toNat (n r)
      | none => s
    let ids := match c.wait with | some r => tokenIds s (curSet s) r.queue.toNat (n r) | none => []
    modEng s1 e fun x => { x with waited := true, knows := x.knows.filter (fun i => (findReq s i).isSome) ++ ids }

/-- A signal raised in a set, which promises some stores in flight (R200, R236, R290). -/
def promiseSignal (c : CtxSet) (sig : Option TokenRef) (ids : List Nat) : CtxSet :=
  match sig with
  | some r => addTokens c r.queue.toNat (r.less1.toNat + 1) ids
  | none => c

/-- A signal raised in a set that promises no store in flight. -/
def raiseSignal (c : CtxSet) (sig : Option TokenRef) : CtxSet := promiseSignal c sig []

/-- The engine passes to its next command, from the next step on. -/
def nextCommand (s : State) (e : Nat) : State :=
  let tsc := tscOf s s.focus.tile
  modCurSet s fun c =>
    { c with
      head := Tab.set c.head e (BitVec.ofNat 16 (ringHead c e + 1))
      captured := Tab.erase c.captured (ringKey e (ringHead c e))
      eng := Tab.set c.eng e ⟨false, false, tsc + 1, none, (engState c e).knows⟩ }

/-- A command at the head of a ring: when what its ENQ released is performed, its wait can be performed and nothing it
must wait for stands in its way, its checks are made, then its wait is performed, then it takes effect (R295, R418). A
command that a check stops consumes no tokens. -/
def runCommand (s : State) (e : Nat) (c : Cmd) (scope : Nat) (ready : State → Bool) (check : State → Option Nat)
    (eff : State → State) : Host.Outcome State Fault Refusal :=
  if !headOrdered s e scope || !waitMet s e c || !ready s then .next s
  else
    match check s with
    | some code => .next (commandFault s e code)
    | none => .next (eff (takeWait s e c))

/-- The engine's next command: its word, or the code of the fault that fetching it raises (R29, R242), or none where the
engine takes none now. -/
inductive Fetched where
  | none
  | fault (code : Nat)
  | bad
  | cmd (i : Instr)
deriving DecidableEq, Repr

/-- The fetch of an engine of the acting set (R234, R29). -/
def fetchCommand (s : State) (e : Nat) : Fetched :=
  let t := curTile s
  let c := curSet s
  if (engState c e).faulted || ringCount c e = 0 || ringSize c e = 0 || tscOf s s.focus.tile < (engState c e).free then .none
  else
    let a := ringAddr c e (ringHead c e)
    if spLineBad t (spPhys c a) then .bad
    else
      match decodeCmd e (shareWord t c a) with
      | Option.none => .fault (formatCode e)
      | some i =>
        match cmdParts i with
        | some (_, _, f) =>
          if tokensOk c e f && grantsOk s (curCtx s) e i then .cmd i else .fault (formatCode e)
        | Option.none => .fault (formatCode e)

end Sys2Proof.Machine
end

