-- ==== Sys2Proof/Machine/Sfu.lean ====
section
/-! DEFINITION. The correctly rounded functions of R102, R103 and R177. A square root is rounded from its
exact square; the transcendental functions are rounded from rational bounds computed in fixed point. -/

namespace Sys2Proof.Machine

/-- The scale of the fixed-point bounds. -/
def fxScale : Nat := 2 ^ 340

/-- The quotient of two naturals, rounded up. -/
def ceilDiv (a b : Nat) : Nat := (a + b - 1) / b

/-- Lower and upper bounds, closed intervals of naturals over a common scale. -/
structure Bounds where
  lo : Nat
  hi : Nat
deriving DecidableEq, Repr

/-- The partial sum of the series of e^t from term k on, where `term` bounds the term before it; the last
bound is doubled to cover the rest of the series. -/
def expSeries (t : Bounds) : Nat → Nat → Bounds → Bounds → Bounds
  | 0, _, term, acc => ⟨acc.lo, acc.hi + 2 * term.hi⟩
  | fuel + 1, k, term, acc =>
    let next : Bounds := ⟨term.lo * t.lo / (fxScale * k), ceilDiv (term.hi * t.hi) (fxScale * k)⟩
    if next.hi ≤ 1 then ⟨acc.lo, acc.hi + 4⟩
    else expSeries t fuel (k + 1) next ⟨acc.lo + next.lo, acc.hi + next.hi⟩

/-- Bounds of e^t over the scale, for 0 ≤ t ≤ 110. -/
def expBounds (t : Bounds) : Bounds := expSeries t 1000 1 ⟨fxScale, fxScale⟩ ⟨fxScale, fxScale⟩

/-- The series of atanh z = Σ z^(2k+1)/(2k+1) from term k on; `pow` bounds z^(2k+1). -/
def atanhSeries (z2 : Bounds) : Nat → Nat → Bounds → Bounds → Bounds
  | 0, _, pow, acc => ⟨acc.lo, acc.hi + 2 * pow.hi⟩
  | fuel + 1, k, pow, acc =>
    let acc' : Bounds := ⟨acc.lo + pow.lo / (2 * k + 1), acc.hi + ceilDiv pow.hi (2 * k + 1)⟩
    let next : Bounds := ⟨pow.lo * z2.lo / fxScale, ceilDiv (pow.hi * z2.hi) fxScale⟩
    if next.hi ≤ 1 then ⟨acc'.lo, acc'.hi + 4⟩ else atanhSeries z2 fuel (k + 1) next acc'

/-- Bounds of atanh(n/d) over the scale, for 0 ≤ n/d ≤ 1/3. -/
def atanhBounds (n d : Nat) : Bounds :=
  let z : Bounds := ⟨n * fxScale / d, ceilDiv (n * fxScale) d⟩
  let z2 : Bounds := ⟨z.lo * z.lo / fxScale, ceilDiv (z.hi * z.hi) fxScale⟩
  atanhSeries z2 400 0 z ⟨0, 0⟩

/-- Bounds of ln 2 over the scale: 2 atanh(1/3). -/
def ln2Bounds : Bounds :=
  let b := atanhBounds 1 3
  ⟨2 * b.lo, 2 * b.hi⟩

/-- The F32 code on which the rounding of two bounds agrees, or a fallback where it does not. -/
def agreeF32 (ftz sat : Bool) (lo hi : Frac) (fallback : Nat) : Nat × Cnd :=
  let x := convFloat .f32 ⟨8, 23, 127, 0x7F7FFFFF⟩ .rne sat ftz (numOf false lo)
  let y := convFloat .f32 ⟨8, 23, 127, 0x7F7FFFFF⟩ .rne sat ftz (numOf false hi)
  if x = y then x else (fallback, .none)

/-- 2^x for a rational x other than 0. -/
def exp2Real (ftz sat : Bool) (x : Frac) (fallback : Nat) : Nat × Cnd :=
  let i := x.num / (x.den : Int)
  let f := (x.num % (x.den : Int)).toNat
  if 129 ≤ i then convFloat .f32 ⟨8, 23, 127, 0x7F7FFFFF⟩ .rne sat ftz (.real (fracScale 1 200))
  else if i < -152 then convFloat .f32 ⟨8, 23, 127, 0x7F7FFFFF⟩ .rne sat ftz (.real (fracScale 1 (-200)))
  else if f = 0 then convFloat .f32 ⟨8, 23, 127, 0x7F7FFFFF⟩ .rne sat ftz (.real (fracScale 1 i))
  else
    let l := ln2Bounds
    let e := expBounds ⟨l.lo * f / x.den, ceilDiv (l.hi * f) x.den⟩
    agreeF32 ftz sat (fracShift ⟨(e.lo : Int), fxScale⟩ i) (fracShift ⟨(e.hi : Int), fxScale⟩ i) fallback

/-- log2 x for a positive rational x. -/
def log2Real (ftz : Bool) (x : Frac) (fallback : Nat) : Nat × Cnd :=
  let n := x.num.natAbs
  let p := floorLog2 n x.den
  let m := fracShift x (-p)
  let mn := m.num.natAbs
  if mn = m.den then convFloat .f32 ⟨8, 23, 127, 0x7F7FFFFF⟩ .rne true ftz (numInt p)
  else
    let a := atanhBounds (mn - m.den) (mn + m.den)
    let l := ln2Bounds
    let lo := 2 * a.lo * fxScale / l.hi
    let hi := ceilDiv (2 * a.hi * fxScale) l.lo
    agreeF32 ftz true ⟨p * (fxScale : Int) + (lo : Int), fxScale⟩ ⟨p * (fxScale : Int) + (hi : Int), fxScale⟩
      fallback

/-- tanh x for a rational x other than 0. |tanh x| is below |x|, so that under FTZ an x of at most 2^−126 gives a zero. -/
def tanhReal (ftz : Bool) (x : Frac) (fallback : Nat) : Nat × Cnd :=
  let n := x.num.natAbs
  let sgn : Int := if x.num < 0 then -1 else 1
  if ftz && n * 2 ^ 126 ≤ x.den then (signBit .f32 (decide (x.num < 0)), .none)
  else if 16 * x.den ≤ n then convFloat .f32 ⟨8, 23, 127, 0x7F7FFFFF⟩ .rne true ftz (numInt sgn)
  else
    let e := expBounds ⟨2 * n * fxScale / x.den, ceilDiv (2 * n * fxScale) x.den⟩
    let lo : Frac := ⟨sgn * ((e.lo - fxScale : Nat) : Int), e.lo + fxScale⟩
    let hi : Frac := ⟨sgn * ((e.hi - fxScale : Nat) : Int), e.hi + fxScale⟩
    agreeF32 ftz true lo hi fallback

/-- 1/(1 + e^−x) for a rational x other than 0. -/
def sigReal (ftz : Bool) (x : Frac) (fallback : Nat) : Nat × Cnd :=
  let n := x.num.natAbs
  if 0 < x.num then
    if 32 * x.den ≤ n then convFloat .f32 ⟨8, 23, 127, 0x7F7FFFFF⟩ .rne true ftz (numInt 1)
    else
      let e := expBounds ⟨n * fxScale / x.den, ceilDiv (n * fxScale) x.den⟩
      agreeF32 ftz true ⟨(e.lo : Int), e.lo + fxScale⟩ ⟨(e.hi : Int), e.hi + fxScale⟩ fallback
  else if 105 * x.den ≤ n then
    convFloat .f32 ⟨8, 23, 127, 0x7F7FFFFF⟩ .rne true ftz (.real (fracScale 1 (-200)))
  else
    let e := expBounds ⟨n * fxScale / x.den, ceilDiv (n * fxScale) x.den⟩
    agreeF32 ftz true ⟨(fxScale : Int), e.hi + fxScale⟩ ⟨(fxScale : Int), e.lo + fxScale⟩ fallback

/-- The square root of a positive rational, correctly rounded to a floating format. -/
def sqrtRound (t : Ty) (f : FloatFmt) (rm : Rm) (sat ftz : Bool) (x : Frac) : Nat × Cnd :=
  let n := x.num.natAbs
  let py := floorLog2 n x.den / 2
  let emin : Int := 1 - (f.bias : Int)
  let qe : Int := (if py < emin then emin else py) - (f.fbits : Int) - 2
  let y := fracShift x (-(2 * qe))
  let m := Nat.sqrt (y.num.natAbs / y.den)
  let exact := m * m * y.den = y.num.natAbs
  -- two guard bits and a sticky bit stand for the root in every rounding mode
  let v : Frac := fracShift ⟨((2 * m + (if exact then 0 else 1) : Nat) : Int), 2⟩ qe
  convFloat t f rm sat ftz (numOf false v)

/-- The functions of the SFU (R102, R177), by FOP. `t` is the format, `ovfSat` whether an overflow gives
the maximum. -/
def sfuFn (fn : Nat) (t : Ty) (f : FloatFmt) (rm : Rm) (sat ftz : Bool) (fallback : Nat) (v : Num) :
    Nat × Cnd :=
  let fin (w : Num) : Nat × Cnd := convFloat t f rm sat ftz w
  match v with
  | .nan => (canonNan t, .none)
  | .nar => (canonNan t, .none)
  | .zero neg =>
    match fn with
    | 1 => (infCode t f neg, .dz)
    | 2 => (signBit t neg, .none)
    | 3 => (infCode t f neg, .dz)
    | 4 => fin (numInt 1)
    | 5 => (infCode t f true, .dz)
    | 6 => (signBit t neg, .none)
    | _ => fin (.real ⟨1, 2⟩)
  | .inf neg =>
    match fn with
    | 1 => (signBit t neg, .none)
    | 2 => if neg then (canonNan t, .inv) else (infCode t f false, .none)
    | 3 => if neg then (canonNan t, .inv) else (0, .none)
    | 4 => if neg then (0, .none) else (infCode t f false, .none)
    | 5 => if neg then (canonNan t, .inv) else (infCode t f false, .none)
    | 6 => fin (numInt (if neg then -1 else 1))
    | _ => if neg then (0, .none) else fin (numInt 1)
  | .real x =>
    match fn with
    | 1 => fin (.real (fracDiv ⟨1, 1⟩ x))
    | 2 => if x.num < 0 then (canonNan t, .inv) else sqrtRound t f rm sat ftz x
    | 3 => if x.num < 0 then (canonNan t, .inv) else sqrtRound t f rm sat ftz (fracDiv ⟨1, 1⟩ x)
    | 4 => exp2Real ftz sat x fallback
    | 5 => if x.num < 0 then (canonNan t, .inv) else log2Real ftz x fallback
    | 6 => tanhReal ftz x fallback
    | _ => sigReal ftz x fallback

/-- The table function LUT of R103 on a table without NaN payloads: `entry i` is the F32 word y_i. -/
def lutAt (entry : Nat → Nat) (x : Nat) : Nat :=
  match dec .f32 false x with
  | .nan => canonNan .f32
  | .nar => canonNan .f32
  | .inf neg => if neg then entry 0 else entry 255
  | v =>
    let q := numFrac v
    let u : Frac := ⟨(q.num + 8 * (q.den : Int)) * 16, q.den⟩
    if u.num < 0 then entry 0
    else if 255 * (u.den : Int) ≤ u.num then entry 255
    else
      let i := u.num.natAbs / u.den
      let r := u.num.natAbs % u.den
      if r = 0 then entry i
      else
        let y0 := dec .f32 false (entry i)
        let y1 := dec .f32 false (entry (i + 1))
        if numIsNan y0 || numIsNan y1 then canonNan .f32
        else if !numIsFinite y0 || !numIsFinite y1 then
          (if y0 = y1 then entry i else canonNan .f32)
        else
          let a := numFrac y0
          let b := numFrac y1
          let s := fracAdd a (fracMul ⟨(r : Int), u.den⟩ (fracAdd b (fracNeg a)))
          f32Rne false (numOf false s)

/-- The table function LUT (R103). An entry that is a NaN comes out as the canonical NaN, since no unit propagates a NaN's
payload or sign (R41). -/
def lutFn (entry : Nat → Nat) (x : Nat) : Nat := lutAt (fun i => canonF32 (entry i)) x

end Sys2Proof.Machine
end

