-- ==== Sys2Proof/Machine/Units.lean ====
section
/-! DEFINITION. The function units of an element as functions of lanes (R99 to R109): what an operation gives and
what condition each lane signals. -/

namespace Sys2Proof.Machine

/-! ### Lanes of a data item -/

/-- Lane l of a data item (R70). -/
def laneOf512 (v : BitVec 512) (l : Nat) : Nat := v.toNat / 2 ^ (32 * l) % 2 ^ 32

/-- Element e of width w of a data item (R39). -/
def elemOf512 (v : BitVec 512) (w e : Nat) : Nat := v.toNat / 2 ^ (w * e) % 2 ^ w

/-- A data item of its sixteen lanes. -/
def packLanes (f : Nat → Nat) : BitVec 512 := BitVec.ofNat 512 (packElems 32 ((List.range 16).map f))

/-- The lanes of a mask taken from one item, the others from another. -/
def mergeLanes (mask : Nat) (new old : BitVec 512) : BitVec 512 :=
  packLanes fun l => if bit mask l then laneOf512 new l else laneOf512 old l

/-- One lane in all sixteen. -/
def spreadLane (v : Nat) : BitVec 512 := packLanes fun _ => v

/-- An element of width w of an item replaced. -/
def setElem512 (v : BitVec 512) (w e x : Nat) : BitVec 512 :=
  BitVec.ofNat 512 (v.toNat - elemOf512 v w e * 2 ^ (w * e) + x % 2 ^ w * 2 ^ (w * e))

/-- What a trigger gives: the result port's value, and the lanes that signal each condition. -/
structure TrigOut where
  res : BitVec 512
  nar : Nat
  inv : Nat
  dz  : Nat
  ovf : Nat
deriving DecidableEq, Repr

/-- A result with no condition. -/
def plainOut (v : BitVec 512) : TrigOut := ⟨v, 0, 0, 0, 0⟩

/-- The mask of the lanes of a list whose condition is a given one. -/
def cndMask (k : Cnd) : List (Nat × Nat × Cnd) → Nat
  | [] => 0
  | x :: t => (if x.2.2 = k then 2 ^ x.1 else 0) + cndMask k t

/-- A lane-wise operation on the lanes of a mask; the other lanes of the result port keep their values (R97). -/
def laneWise (mask : Nat) (old : BitVec 512) (f : Nat → Nat × Cnd) : TrigOut :=
  let l := ((List.range 16).filter fun i => bit mask i).map fun i => (i, f i)
  { res := mergeLanes mask (packLanes fun i => ((l.find? fun p => p.1 == i).map fun p => p.2.1).getD 0) old
    nar := cndMask .nar l, inv := cndMask .inv l, dz := cndMask .dz l, ovf := cndMask .ovf l }

/-- One result for all sixteen lanes, whose condition belongs to all of them (R113). -/
def spreadOut (r : Nat × Cnd) : TrigOut :=
  let m (k : Cnd) : Nat := if r.2 = k then 0xFFFF else 0
  { res := spreadLane r.1, nar := m .nar, inv := m .inv, dz := m .dz, ovf := m .ovf }

/-! ### The ALU (R100) and the multiplier (R101) -/

/-- The integer of a lane under S32 or Z32. -/
def laneInt (t : Ty) (x : Nat) : Int := if t = .s32 then sextN x 32 else (x % 2 ^ 32 : Nat)

/-- An exact integer bounded to its type, with OVF where it lies outside (R99). -/
def boundInt (t : Ty) (i : Int) : Nat × Cnd :=
  let (lo, hi) := intRange t.isSigned 32
  if i < lo then (wrapI lo 32, .ovf) else if hi < i then (wrapI hi 32, .ovf) else (wrapI i 32, .none)

/-- An arithmetic operation of R99: on exact values for F32, on exact integers otherwise. -/
def arith (t : Ty) (f : Num → Num → Num × Cnd) (g : Int → Int → Int) (a b : Nat) : Nat × Cnd :=
  if t = .f32 then f32Result (f (dec .f32 false a) (dec .f32 false b))
  else boundInt t (g (laneInt t a) (laneInt t b))

/-- A comparison of the ALU: all ones where it holds (R100). -/
def compareLane (t : Ty) (c : Cond) (a b : Nat) : Nat × Cnd :=
  let r := if t = .f32 then numCond c (dec .f32 false a) (dec .f32 false b) else intCond c (laneInt t a) (laneInt t b)
  (if r then 0xFFFFFFFF else 0, .none)

/-- The ALU on one lane, by FOP (R100): a from ALU.O, b the trigger value, k the constant's lane. -/
def aluLane (fop : Nat) (t : Ty) (a b k : Nat) : Nat × Cnd :=
  match fop with
  | 1 => arith t (numAdd .rne) (fun x y => x + y) a b
  | 2 => arith t (fun x y => numAdd .rne x (numNegate y)) (fun x y => x - y) a b
  | 3 => arith t (fun x y => (numMinMax false x y, .none)) (fun x y => if x ≤ y then x else y) a b
  | 4 => arith t (fun x y => (numMinMax true x y, .none)) (fun x y => if x ≤ y then y else x) a b
  | 5 => (Nat.land a b, .none)
  | 6 => (Nat.lor a b, .none)
  | 7 => (Nat.xor a b, .none)
  | 8 => (a * 2 ^ (b % 32) % 2 ^ 32, .none)
  | 9 => (a / 2 ^ (b % 32), .none)
  | 10 => (wrapI (sextN a 32 / ((2 ^ (b % 32) : Nat) : Int)) 32, .none)
  | 11 => arith t (fun _ y => (numAbs y, .none)) (fun _ y => if y < 0 then -y else y) a b
  | 12 => arith t (fun _ y => (numNegate y, .none)) (fun _ y => -y) a b
  | 13 => compareLane t .eq a b
  | 14 => compareLane t .lt a b
  | 15 => compareLane t .le a b
  | 16 => (if b != 0 then a else k, .none)
  | _ => (b, .none)

/-- The integer division of R101. -/
def divLane (t : Ty) (a b : Nat) : Nat × Cnd :=
  let x := laneInt t a
  let y := laneInt t b
  let (lo, hi) := intRange t.isSigned 32
  if y = 0 then (wrapI (if 0 ≤ x then hi else lo) 32, .dz) else boundInt t (Int.tdiv x y)

/-- The multiplier on one lane, by FOP (R101), but for MULS: a from MUL.O, b the trigger value, k the constant's
lane. -/
def mulLane (fop : Nat) (t : Ty) (a b k : Nat) : Nat × Cnd :=
  match fop with
  | 1 => arith t numMul (fun x y => x * y) a b
  | 3 =>
    if t = .f32 then f32Result (numFma .rne (dec .f32 false b) (dec .f32 false a) (dec .f32 false k))
    else boundInt t (laneInt t b * laneInt t a + laneInt t k)
  | _ => if t = .f32 then f32Result (numDiv (dec .f32 false a) (dec .f32 false b)) else divLane t a b

/-- MULS on one lane (R101): the value scaled by the code of its block, or the value itself without scales. -/
def mulsLane (code : Option Nat) (b : Nat) : Nat × Cnd :=
  match code with
  | some c => f32Result (sv .f32 b c, .none)
  | none => (canonF32 b, .none)

/-! ### The special-function unit (R102) and the conversion unit (R104, R105) -/

/-- The format of an F32 value. -/
def f32Fmt : FloatFmt := ⟨8, 23, 127, 0x7F7FFFFF⟩

/-- The SFU on one lane, by FOP 1 to 7 (R102). -/
def sfuLane (fop x : Nat) : Nat × Cnd :=
  sfuFn fop .f32 f32Fmt .rne true false (Config.sfuFallback fop x) (dec .f32 false x)

/-- The first element of part p of a type. A 32-bit type has no parts: its lanes are elements 0 to 15, of block 0 (R58),
whatever p is, though the formula of DEQ gives another block for p at or above 2. DESIGN CHOICE (notes/assumptions/99.md). -/
def partBase (t : Ty) (p : Nat) : Nat := if t.width = 32 then 0 else 16 * p

/-- Whether a part exists in a type (R104). -/
def partOk (t : Ty) (p : Nat) : Bool := t.width == 32 || p < 32 / t.width

/-- A NaR source signals NAR in place of any condition of the conversion (R104). -/
def convLane (src t : Ty) (v : Num) : Nat × Cnd :=
  let r := convert src t .rne true false v
  if v = .nar then (r.1, .nar) else r

/-- The conversions of a part, lane by lane (R104): lane l's value goes to lane l of the result for a 32-bit
destination, else to element 16p + l. -/
def convertPart (mask p : Nat) (t : Ty) (old : BitVec 512) (f : Nat → Nat × Cnd) : TrigOut :=
  if t.width = 32 then laneWise mask old f
  else
    let l := ((List.range 16).filter fun i => bit mask i).map fun i => (i, f i)
    { res := l.foldl (fun acc x => setElem512 acc t.width (16 * p + x.1) x.2.1) old
      nar := cndMask .nar l, inv := cndMask .inv l, dz := cndMask .dz l, ovf := cndMask .ovf l }

/-- CVT (R104). -/
def cvtPart (mask p : Nat) (s t : Ty) (v old : BitVec 512) : TrigOut :=
  convertPart mask p t old fun l =>
    convLane s t (dec s false (if s.width = 32 then laneOf512 v l else elemOf512 v s.width (16 * p + l)))

/-- SC8 code s_b of eight latched codes (R58). -/
def codeOf (codes : BitVec 64) (b : Nat) : Nat := bits codes.toNat (8 * b + 7) (8 * b)

/-- DEQ (R104): without scales the value itself. -/
def deqPart (mask p : Nat) (s : Ty) (codes : Option (BitVec 64)) (v old : BitVec 512) : TrigOut :=
  laneWise mask old fun l =>
    let e := partBase s p + l
    let x := elemOf512 v s.width e
    match codes with
    | none => convLane s .f32 (dec s false x)
    | some c =>
      let r := convert s .f32 .rne true false (sv s x (codeOf c (e / 32)))
      if dec s false x = .nar then (r.1, .nar) else r

/-- One quantised element (R105, R182): a zero code gives +0, a NaN code the canonical NaN. -/
def quantise (t : Ty) (x code : Nat) : Nat × Cnd :=
  if code = 0xFF then (canonNan t, .none)
  else if code = 0 then (0, .none)
  else convert .f32 t .rne true false (numDiv (dec .f32 false x) (.real (scaleValue code))).1

/-- QNT (R105). -/
def qntPart (mask p : Nat) (t : Ty) (codes : BitVec 64) (v old : BitVec 512) : TrigOut :=
  convertPart mask p t old fun l => quantise t (laneOf512 v l) (codeOf codes ((16 * p + l) / 32))

/-! ### The reduction unit (R106 to R108) -/

/-- The lanes of a mask, in order. -/
def selLanes (mask : Nat) (v : BitVec 512) : List Nat :=
  ((List.range 16).filter fun i => bit mask i).map fun i => laneOf512 v i

/-- SUM (R106). -/
def sumOut (t : Ty) (l : List Nat) : TrigOut :=
  if t = .f32 then spreadOut (f32Result (numSum .rne (l.map (dec .f32 false))))
  else spreadOut (boundInt t ((l.map (laneInt t)).foldl (fun a b => a + b) 0))

/-- The least or greatest of some values (R106): NaN where one is. -/
def extremeNum (wantMax : Bool) : List Num → Num
  | [] => .zero false
  | [x] => x
  | x :: t => numMinMax wantMax x (extremeNum wantMax t)

/-- MAX and MIN (R106). -/
def extremeOut (t : Ty) (wantMax : Bool) (l : List Nat) : TrigOut :=
  if t = .f32 then spreadOut (f32Result (extremeNum wantMax (l.map (dec .f32 false)), .none))
  else
    let pick (a b : Int) : Int := if wantMax then (if a ≤ b then b else a) else (if a ≤ b then a else b)
    match l.map (laneInt t) with
    | [] => spreadOut (0, .none)
    | x :: r => spreadOut (wrapI (r.foldl pick x) 32, .none)

/-- The greatest finite magnitude among some values; none where none is finite and other than zero (R106, R181). -/
def greatestMag (l : List Num) : Option Frac :=
  l.foldl (fun acc v => match v, acc with
    | .real x, none => some (fracAbs x)
    | .real x, some a => if fracLt a (fracAbs x) then some (fracAbs x) else some a
    | _, a => a) none

/-- The code of a block's scale for a narrow type (R106, R181). -/
def blockScale (t : Ty) (rm : Rm) (l : List Num) : Nat :=
  match greatestMag l with
  | none => 0x7C
  | some a => encScale (.real (fracDiv a (maxF t))) rm

/-- A scale maximum (R106): code j of RED.R replaced. -/
def scaleMaxOut (t : Ty) (j : Nat) (l : List Nat) (old : BitVec 512) : TrigOut :=
  plainOut (setElem512 old 8 j (blockScale t .rup (l.map (dec .f32 false))))

/-- CNT (R106). -/
def cntOut (l : List Nat) : TrigOut := spreadOut ((l.filter fun x => x != 0).length, .none)

end Sys2Proof.Machine
end

