-- ==== Sys2Proof/Machine/Elements.lean ====
section
/-! DEFINITION. Elements and channels (R66 to R88): check codes, the channels of a set, the status of an input, the
selection of a handler, the consumption and the emission of entries, and element faults (R113 to R117). -/

namespace Sys2Proof.Machine

/-! ### Entries and check codes -/

/-- One bit of the CRC-16 of R71, most significant first. -/
def crcBit (crc : Nat) (b : Bool) : Nat :=
  let top := bit crc 15 != b
  let sh := crc * 2 % 65536
  if top then Nat.xor sh 0x1021 else sh

/-- One byte of the CRC-16. -/
def crcByte (crc byte : Nat) : Nat := (List.range 8).foldl (fun c i => crcBit c (bit byte (7 - i))) crc

/-- The CRC-16 of some bytes (R71). -/
def crc16 (bs : List Byte) : Nat := bs.foldl (fun c b => crcByte c b.toNat) 0xFFFF

/-- The payload bytes of an entry by its kind (R70): 64 for a data item, 8 for a side entry, none for a mark or END. -/
def payloadBytes (kind : Nat) : Nat := if kind = 1 then 64 else if 4 ≤ kind then 8 else 0

/-- The check code of an entry (R71). -/
def entryCode (kind : Nat) (payload : BitVec 512) : BitVec 16 :=
  BitVec.ofNat 16 (crc16 (BitVec.ofNat 8 kind :: leBytes payload.toNat (payloadBytes kind)))

/-- An entry with the check code its producer makes (R71). -/
def mkEntry (kind : Nat) (payload : BitVec 512) : Entry := ⟨BitVec.ofNat 3 kind, payload, entryCode kind payload⟩

/-- A data item. -/
def dataEntry (v : BitVec 512) : Entry := mkEntry 1 v
/-- An absence mark. -/
def markEntry : Entry := mkEntry 0 0
/-- END. -/
def endEntry : Entry := mkEntry 2 0
/-- A side entry of a kind code. -/
def sideEntry (kind : Nat) (payload : BitVec 64) : Entry := mkEntry kind (payload.setWidth 512)

/-- Whether an entry is an instant entry (R70). -/
def isInstant (e : Entry) : Bool := e.kind.toNat < 4

/-- Whether an entry's check code verifies and its kind is one of R70. -/
def entryGood (e : Entry) : Bool := e.kind != 3 && e.crc == entryCode e.kind.toNat e.payload

/-! ### Channels -/

/-- The key of the channel into an input of an element of a set; the channels of the two sets are apart
(notes/assumptions/17.md). -/
def chanKey (set elem inp : Nat) : Nat := set * 1024 + elem * 8 + inp

/-- The key of the channel from an output to a region sink. -/
def sinkKey (set elem out : Nat) : Nat := set * 1024 + 256 + elem * 8 + out

/-- A channel of a tile. -/
def chanOf (t : Tile) (key : Nat) : Chan := Tab.get Chan.empty t.chans key

/-- The state with a channel of a tile changed. -/
def modChan (s : State) (tile key : Nat) (f : Chan → Chan) : State :=
  modTile s tile fun t => { t with chans := Tab.set t.chans key (f (chanOf t key)) }

/-- The entries a channel may hold: its depth and 64 for each segment (R69, R95). -/
def chanRoom (c : Chan) : Nat := c.depth + 64 * c.segs

/-- The free slots of a channel; held items keep theirs, and so does an item from its consumption until its MERGE (R109);
there are none once its consumer has recorded (R338). -/
def chanFree (c : Chan) : Nat := if c.shut then 0 else chanRoom c - c.q.length - c.held.length - c.kept

/-- The entries of a channel that stage 1 sees at a tick: those of earlier steps that are across (R66, R13). -/
def arrivedIn (dcc : Nat) (c : Chan) : List Entry := c.q.take (c.q.length - c.away - (if c.wrote = dcc then c.late else 0))

/-- Where an output's entries go: a tile and a channel of it; none for an unconnected output. A link with LOC = 0
reaches the set of the same context on the tile it names (R88, R333). -/
def outTarget (s : State) (tile set : Nat) (im : Image) (elem o : Nat) : Option (Nat × Nat) :=
  if outKind im o = 1 then
    let dest := outTo im o
    if outLoc im o then some (tile, chanKey set (bits dest 7 3) (bits dest 2 0))
    else
      let u := tile / 64 * 64 + bits dest 13 8
      match (getSet s tile set).ctx with
      | some x => (setOfCtx (getTile s u) x).map fun j => (u, chanKey j (bits dest 7 3) (bits dest 2 0))
      | none => none
  else if outKind im o = 2 then some (tile, sinkKey set elem o)
  else none

/-- Whether an output is connected. -/
def outUsed (im : Image) (o : Nat) : Bool := outKind im o == 1 || outKind im o == 2

/-- The depth of a link's channel before its consumer runs: the least DEPTH among the planes on the consuming tile that
name the link; none where no plane does (R333). -/
def remoteDepth (t : Tile) (set elem inp srcTile srcElem srcOut : Nat) : Option Nat :=
  let names (pl : Nat) : Option Nat :=
    let p := Tab.get Plane.empty t.planes (elem / 16 * 2 + pl)
    let im := Tab.get ⟨[], []⟩ p.imgs (elem % 16)
    if p.valid && bit t.plown.toNat (elem / 16 * 2 + pl) == (set == 1) && inKind im inp == 1 && !inLoc im inp
        && inFrom im inp == srcTile * 256 + srcElem * 8 + srcOut then some (inDepth im inp) else none
  match names 0, names 1 with
  | some a, some b => some (Nat.min a b)
  | some a, none => some a
  | none, b => b

/-- Whether an element stands in a running region of a set. -/
def elemRuns (c : CtxSet) (elem : Nat) : Bool :=
  match slotOfElem c elem with
  | some r => (regionOf c r).st == .running
  | none => false

/-- The free slots that an output finds: none limits an unconnected output. -/
def outFree (s : State) (tile set : Nat) (im : Image) (elem o : Nat) : Nat :=
  match outTarget s tile set im elem o with
  | some (u, key) =>
    let c := chanOf (getTile s u) key
    if outKind im o = 1 && !outLoc im o then
      let dest := outTo im o
      if elemRuns (getSet s u (key / 1024)) (bits dest 7 3) then chanFree c
      else
        match remoteDepth (getTile s u) (key / 1024) (bits dest 7 3) (bits dest 2 0) (tile % 64) elem o with
        | some d => if c.shut then 0 else d - c.q.length - c.held.length - c.kept
        | none => 0
    else chanFree c
  | none => if outUsed im o then 0 else 64

/-- The region of an element on a tile has moved an entry at this tick: its monitor's count starts again (R91). -/
def noteMove (s : State) (tile set elem : Nat) : State :=
  modSet s tile set fun c =>
    match slotOfElem c elem with
    | some r =>
      { c with regions := Tab.set c.regions r { regionOf c r with moved := if (getTile s tile).active = set then s.dcc else 0 } }
    | none => c

/-- An entry appended to a channel (R69). -/
def pushEntry (s : State) (tile key : Nat) (e : Entry) : State :=
  noteMove (modChan s tile key fun c =>
    { c with q := c.q ++ [e], next := if isInstant e then c.next + 1 else c.next, ended := c.ended || e.kind == 2
             wrote := s.dcc, late := if c.wrote = s.dcc then c.late + 1 else 1 })
    tile (key / 1024) (key % 1024 % 256 / 8)

/-- An entry appended to a channel of another tile: it has the border to cross (R13). -/
def pushAcross (s : State) (tile key : Nat) (e : Entry) : State :=
  noteMove (modChan s tile key fun c =>
    { c with q := c.q ++ [e], next := if isInstant e then c.next + 1 else c.next, ended := c.ended || e.kind == 2, away := c.away + 1 })
    tile (key / 1024) (key % 1024 % 256 / 8)

/-- The oldest entry on its way across has crossed: stage 1 sees it a step later. -/
def crossEntry (s : State) (tile key : Nat) : State :=
  if (chanOf (getTile s tile) key).away = 0 then s
  else modChan s tile key fun c => { c with away := c.away - 1, wrote := s.dcc, late := if c.wrote = s.dcc then c.late + 1 else 1 }

/-- The head of a channel removed. -/
def popEntry (s : State) (tile key : Nat) : State :=
  noteMove (modChan s tile key fun c => { c with q := c.q.tail }) tile (key / 1024) (key % 1024 % 256 / 8)

/-! ### The element that acts -/

/-- The element that acts. -/
def curElem (s : State) : Elem := elemOfSet (curSet s) s.focus.elem

/-- An element of a set replaced. -/
def setElem (s : State) (tile set elem : Nat) (e : Elem) : State :=
  modSet s tile set fun c => { c with elems := Tab.set c.elems elem e }

/-- An element of a set changed. -/
def modElem (s : State) (tile set elem : Nat) (f : Elem → Elem) : State :=
  setElem s tile set elem (f (elemOfSet (getSet s tile set) elem))

/-- The plane under which an element reacts to an instant: that of a SWITCH from the instant after its tag on, else the
plane in force (R223). -/
def planeAt (c : CtxSet) (elem inst : Nat) : Nat :=
  match (elemOfSet c elem).swTag with
  | some (f, pl) => if f ≤ inst then pl else planeOf c elem
  | none => planeOf c elem

/-- The image under which an element reacts to its current instant. -/
def imageNow (s : State) (tile set elem : Nat) : Image :=
  let c := getSet s tile set
  imageOf (getTile s tile) elem (planeAt c elem (elemOfSet c elem).inst)

/-- An input of an element. -/
def inState (e : Elem) (i : Nat) : InState := Tab.get InState.reset e.ins i

/-- An element with an input replaced. -/
def putIn (e : Elem) (i : Nat) (v : InState) : Elem := { e with ins := Tab.set e.ins i v }

/-- The inputs of an image that are connected. -/
def connected (im : Image) : List Nat := (List.range 8).filter fun i => inKind im i == 1 || inKind im i == 2

/-- The outputs of an image that are connected. -/
def outputs (im : Image) : List Nat := (List.range 8).filter (outUsed im)

/-- A delay line of an element. -/
def lineOf (e : Elem) (d : Nat) : List LineEntry := Tab.get [] e.lines d

/-- The input's entry of the channel removed as stage 1 or a firing takes it (R66, R76): the replay store keeps it for the
youngest reaction in the pipeline (R116), and the region of a producing element on another tile has moved an entry too
(R91). -/
def takeHead (s : State) (tile set elem : Nat) (im : Image) (i : Nat) : State :=
  let key := chanKey set elem i
  match (chanOf (getTile s tile) key).q with
  | [] => s
  | x :: _ =>
    let keep (l : List Reaction) : List Reaction :=
      match l.reverse with
      | r :: older => older.reverse ++ [{ r with took := Tab.set r.took i (Tab.get [] r.took i ++ [x]) }]
      | [] => []
    let s1 := modElem (popEntry s tile key) tile set elem fun e => { e with rxs := keep e.rxs }
    if inKind im i = 1 && !inLoc im i then
      let u := tile / 64 * 64 + bits (inFrom im i) 13 8
      match (getSet s tile set).ctx with
      | some c =>
        match setOfCtx (getTile s u) c with
        | some j => noteMove s1 u j (bits (inFrom im i) 7 3)
        | none => s1
      | none => s1
    else s1

/-- The instant entry at the head of an input, whose status is resolved: that of its delay line, or of its channel
(R83). -/
def headEntry (t : Tile) (set elem : Nat) (im : Image) (e : Elem) (i : Nat) : Option Entry :=
  if inDly im i then (lineOf e (inDln im i)).head?.map fun l => ⟨l.kind, l.item, 0⟩
  else (chanOf t (chanKey set elem i)).q.head?

/-- The status of an input (R72): 0 unresolved, 1 present, 2 absent. -/
def inStatus (t : Tile) (set elem : Nat) (im : Image) (e : Elem) (i : Nat) : Nat :=
  let v := inState e i
  if !(connected im).contains i || v.ended then 2
  else if 0 < v.drain || !v.seen then 0
  else match headEntry t set elem im e i with
    | some x => if x.kind = 1 then 1 else 2
    | none => 0

/-! ### Selection (R74, R75) -/

/-- Whether a handler is contradicted: disabled, a P input absent or an A input present. -/
def contradicted (im : Image) (st : Nat → Nat) (h : Nat) : Bool :=
  !hEn im h || (List.range 8).any fun i =>
    (hPat im h i == 1 && st i == 2) || (hPat im h i == 2 && st i == 1)

/-- Whether a handler is satisfied. -/
def satisfied (im : Image) (st : Nat → Nat) (h : Nat) : Bool :=
  (List.range 8).all fun i =>
    match hPat im h i with
    | 0 => true
    | 1 => st i == 1
    | 2 => st i == 2
    | _ => st i != 0

/-- The handlers by rank: higher PRIO first, then lower number (R74). -/
def byRank (im : Image) : List Nat :=
  ((List.range 8).reverse.flatMap fun p => (List.range 8).filter fun h => hPrio im h == p)

/-- The highest-ranked handler that is possible. -/
def topHandler (im : Image) (st : Nat → Nat) : Option Nat := (byRank im).find? fun h => !contradicted im st h

/-- The move words of a handler, from MSTART through the first with EOH (R33). -/
def handlerMoves (im : Image) (start : Nat) : Nat → List (Nat × Word32)
  | 0 => []
  | fuel + 1 =>
    let w := imgMove im start
    if w.getLsbD 10 || 63 ≤ start then [(start, w)] else (start, w) :: handlerMoves im (start + 1) fuel

/-- Whether a handler makes a scale move to an output (R98): it emits a side entry there. -/
def scalesTo (im : Image) (h o : Nat) : Bool :=
  (handlerMoves im (hStart im h) 64).any fun p =>
    let m := moveFields p.2
    m.dst == .out o && m.imm.getLsbD 5 && (p.2.extractLsb' 16 6 == 0)

/-- Whether a SWITCH entry is due right after the reaction for an instant (R223). -/
def switchAfter (e : Elem) (inst : Nat) : Bool :=
  match e.swTag with
  | some (f, _) => f == inst + 1
  | none => false

/-- The slots that a reaction's entries take of an output (R75 condition 3): its instant entry, a side entry of a scale move,
and a SWITCH entry. -/
def slotsFor (e : Elem) (im : Image) (h : Option Nat) (o : Nat) : Nat :=
  1 + (match h with | some n => if scalesTo im n o then 1 else 0 | none => 0)
    + (if switchAfter e e.inst then 1 else 0) + (e.swOwed.filter fun p => p.1 == o).length

/-- The slots of an output that the reactions in the pipeline are still to fill. -/
def promised (e : Elem) (o : Nat) : Nat := (e.rxs.map fun r => Tab.get 0 r.slots o).sum

/-- Whether every connected output has room for a reaction's entries (R75 condition 3), beside those of the reactions
already selected. DEDUCED (notes/assumptions/90.md). -/
def roomFor (s : State) (tile set elem : Nat) (im : Image) (h : Option Nat) : Bool :=
  let e := elemOfSet (getSet s tile set) elem
  (outputs im).all fun o => slotsFor e im h o + promised e o ≤ outFree s tile set im elem o

/-- The input after an instant entry of a kind has passed (R57): a data item counts toward LEN, after which the plane's
initial type and scale mode return. -/
def afterItem (im : Image) (i : Nat) (v : InState) (k : Nat) : InState :=
  if k = 1 && 0 < v.len then
    if v.len = 1 then
      { v with len := 0, ty := inType im i, sm := inSm im i, latched := v.latched && !(v.sm == 0 && inSm im i != 0) }
    else { v with len := v.len - 1 }
  else v

/-- The input after its instant entry is consumed (R57, R76): an entry that has not arrived on an input is drained. -/
def consumeIn (im : Image) (i : Nat) (v : InState) (kind : Option Nat) : InState :=
  match kind with
  | none => if v.ended then v else { v with drain := v.drain + 1 }
  | some k => afterItem im i { v with seen := false, taken := none } k

/-- Whether a reaction can be selected without a drain count passing its 5 bits (R86). The spec gives the count 5 bits and
does not say what happens at 31: the element waits. DESIGN CHOICE (notes/assumptions/91.md). -/
def mayDrain (im : Image) (e : Elem) : Bool :=
  (connected im).all fun i =>
    let v := inState e i
    v.drain < 31 || v.ended || ((v.seen || v.taken.isSome) && v.drain == 0)

/-- The snapshot in hand that covers a set of a tile. -/
def graphOf (s : State) (tile set : Nat) : Option (Nat × Graph) :=
  List.find? (fun (g : Nat × Graph) => g.2.tiles.contains (tile, set)) s.graphs

/-- Whether an instant number lies at or below K, mod 2^32 within a window of 2^31 (R85). -/
def instReached (k inst : Nat) : Bool := (k % 2 ^ 32 + 2 ^ 32 - inst % 2 ^ 32) % 2 ^ 32 < 2 ^ 31

/-- Whether the element may select a reaction (R66, R82, R85, R116, R127, R164, R326): its region runs, stage 2 is free, no
fault stands, no gear change waits, and under a snapshot the instant is not past K. -/
def maySelect (s : State) (tile set elem : Nat) : Bool :=
  let t := getTile s tile
  let c := getSet s tile set
  let e := elemOfSet c elem
  t.active == set && !t.removed && !c.stopReq && c.gearPend.isNone && (e.rxs.all fun r => r.stage != 2)
    && e.fault.isNone && !e.finished && !(e.rxs.any fun r => r.kind == .finishing) && edgeNow s tile
    && (match slotOfElem c elem with | some r => (regionOf c r).st == .running | none => false)
    && (match graphOf s tile set with | some (_, g) => instReached g.k e.inst | none => true)

/-- Every connected input resolved for the element's instant. -/
def allResolved (t : Tile) (set elem : Nat) (im : Image) (e : Elem) : Bool :=
  (connected im).all fun i => inStatus t set elem im e i != 0

/-- Every connected input has delivered END (R80). -/
def allEnded (im : Image) (e : Elem) : Bool := (connected im).all fun i => (inState e i).ended

/-- One input consumed for the element's instant (R76): an entry at stage 1 leaves its line or channel, another is to be
drained; END does not leave (R72). -/
def consumeInput (tile set elem : Nat) (im : Image) (s : State) (i : Nat) : State :=
  let e := elemOfSet (getSet s tile set) elem
  let v := inState e i
  if v.ended then s
  else if (v.seen || v.taken.isSome) && v.drain = 0 then
    let kind := ((headEntry (getTile s tile) set elem im e i).map fun x => x.kind.toNat).getD 0
    if kind = 2 then s
    else if inDly im i then
      modElem s tile set elem fun x =>
        { putIn x i (consumeIn im i v (some kind)) with lines := Tab.set x.lines (inDln im i) (lineOf x (inDln im i)).tail }
    else
      takeHead (modElem s tile set elem fun x => putIn x i { consumeIn im i v (some kind) with cnt := v.cnt + 1 })
        tile set elem im i
  else modElem s tile set elem fun x => putIn x i (consumeIn im i v none)

/-- The element's inputs consumed for its instant (R76). -/
def consumeInputs (s : State) (tile set elem : Nat) (im : Image) : State :=
  (connected im).foldl (consumeInput tile set elem im) s

/-- The input that a MERGE of a handler holds (R109), if the handler has one. -/
def mergeInput (im : Image) (h : Nat) : Option Nat :=
  ((handlerMoves im (hStart im h) 64).find? fun p => (moveFields p.2).dst == .redT && p.2.extractLsb' 16 6 == 6).map fun p =>
    bits (moveFields p.2).imm.toNat 2 0

/-- The item of an input kept in its slot until the reaction's MERGE (R109). -/
def keepSlot (s : State) (tile set elem : Nat) (m : Option Nat) : State :=
  match m with
  | some i => modChan s tile (chanKey set elem i) fun c => { c with kept := c.kept + 1 }
  | none => s

/-- The slot of an item that no MERGE will take any more given back (R109). -/
def freeKept (s : State) (tile set elem : Nat) (m : Option Nat) : State :=
  match m with
  | some i => modChan s tile (chanKey set elem i) fun c => { c with kept := c.kept - 1 }
  | none => s

/-- A reaction begun (R75, R76, R85): it stands in stage 2 with its statuses and data items as they stood, and the instant
is raised. -/
def beginReaction (s : State) (tile set elem : Nat) (im : Image) (kind : RxKind) (start : Nat) (done : Bool) : State :=
  let t := getTile s tile
  let c := getSet s tile set
  let e := elemOfSet c elem
  let here (i : Nat) : Bool := inStatus t set elem im e i == 1
  let items : Tab (BitVec 512) := ((List.range 8).filter here).map fun i =>
    (i, ((headEntry t set elem im e i).map fun x => x.payload).getD 0)
  let hnd := match kind with | .handler h => some h | _ => none
  let merge := (hnd.bind (mergeInput im)).filter here
  let rx : Reaction :=
    { inst := e.inst, kind := kind, plane := planeAt c elem e.inst, bundle := 0, mov := 0, idx := start, done := done,
      ins := e.ins, stat := (List.range 8).map here, items := items, before := e.ports, opnds := false, trigs := [], outs := [],
      scales := [], lines := [], half := halfWidth t (tscOf s tile), stage := 2, since := tscOf s tile, exd := 0, ends := [],
      took := [], fronts := ((connected im).filter (inDly im)).map fun i => (inDln im i, lineOf e (inDln im i)), merge := merge
      slots := (outputs im).map fun o => (o, slotsFor { e with swOwed := [] } im hnd o) }
  let s1 := modElem s tile set elem fun x =>
    { x with rxs := x.rxs ++ [rx], inst := e.inst + 1, paid := if e.paid == some e.inst then none else e.paid }
  keepSlot (consumeInputs s1 tile set elem im) tile set elem merge

/-! ### Element faults (R113 to R117) -/

/-- The unit of a trigger port (R115): 1 ALU, 2 MUL, 3 SFU, 4 CVT, 5 RED. -/
def unitOf : Port → Nat
  | .aluT => 1 | .mulT => 2 | .sfuT => 3 | .cvtT => 4 | .redT => 5 | _ => 0

/-- The fault record's first word (R115). -/
def faultWord (cause elem hnd bnd mov inp : Nat) (stg1 fin : Bool) (unit fop lmask : Nat) : BitVec 64 :=
  BitVec.ofNat 64 (cause % 16 * 2 ^ 60 + elem % 32 * 2 ^ 55 + hnd % 8 * 2 ^ 52 + bnd % 4 * 2 ^ 50 + mov % 4 * 2 ^ 48
    + inp % 8 * 2 ^ 45 + flagAt stg1 44 + flagAt fin 43 + unit % 8 * 2 ^ 40 + fop % 64 * 2 ^ 34 + lmask % 65536)

/-- An element faulted, and the fault reported to the context (R117, R246): the record replaces one held before
(R417). -/
def faultElem (s : State) (tile set elem : Nat) (f : ElemFault) : State :=
  let slot := (slotOfElem (getSet s tile set) elem).getD 0
  raiseTrap (modElem s tile set elem fun x => { x with fault := some f }) tile set
    (unitRec 0x14 2 0 slot 0 0 f.w0 f.w1)

/-- A stage-1 fault (R71, R59): nothing where a fault is held already (R417). -/
def stage1Fault (s : State) (tile set elem cause inp inst : Nat) : State :=
  if (elemOfSet (getSet s tile set) elem).fault.isSome then s
  else
    faultElem s tile set elem
      ⟨faultWord cause elem 0 0 0 inp true false 0 0 0, BitVec.ofNat 64 (inst % 2 ^ 32), 0, true, inp⟩

/-! ### Intake (R56 to R58, R66, R72) -/

/-- A type code is an integer format's (R34). -/
def intCode (t : Nat) : Bool := 7 ≤ t && t ≤ 13

/-- A HEADER's payload is well formed (R56, R59). -/
def headerOk (p : Nat) : Bool :=
  let ty := bits p 63 60
  let sm := bits p 59 58
  ty < 14 && sm != 3 && bits p 57 48 == 0 && bits p 31 0 == 0 && !(sm != 0 && intCode ty)

/-- An input after a side entry's effect; none where it is a header fault (R56 to R59). A SWITCH has no effect. -/
def sideEffect (v : InState) (e : Entry) : Option InState :=
  let p := e.payload.toNat % 2 ^ 64
  if e.kind = 4 then
    if headerOk p then
      let sm := bits p 59 58
      some { v with ty := bits p 63 60, sm := sm, len := bits p 47 32
                    latched := if sm = 0 then v.latched else false, codes := if sm = 0 then v.codes else 0 }
    else none
  else if e.kind = 5 then
    (if v.sm = 0 then none else some { v with codes := BitVec.ofNat 64 p, latched := true })
  else some v

/-- A cairn met at an input (R326, R338): it stays at the head until the element writes its record. -/
def cairnAt (e : Elem) (i : Nat) : Elem :=
  { e with cairnIn := if e.cairnIn.contains i then e.cairnIn else e.cairnIn ++ [i] }

/-- The step at which the status of an entry that reaches stage 1 now reaches stage 2 (R72, R82). -/
def statusStep (s : State) (tile : Nat) : Nat :=
  tscOf s tile + (if halfWidth (getTile s tile) (tscOf s tile) then 2 else 1)

/-- An input after some side entries that stage 1 has found well formed. -/
def afterSides (v : InState) (l : List Entry) : InState := l.foldl (fun a x => (sideEffect a x).getD a) v

/-- What an input will hold when what stands in its delay line has passed (R57, R83). -/
def lineAhead (im : Image) (i : Nat) (v : InState) (line : List LineEntry) : InState :=
  afterSides (line.foldl (fun a l => afterItem im i (afterSides a l.sides) l.kind.toNat) v) v.pend

/-- The next entry of a channel enters the delay line in front of its input (R83), its side entries with it. A malformed
one stays at the head of the channel (R116): R59 does not say whether its test comes there or where the line ends. DEDUCED
(notes/assumptions/125.md). -/
def lineIntake (s : State) (tile set elem : Nat) (im : Image) (i : Nat) : State :=
  let e := elemOfSet (getSet s tile set) elem
  let v := inState e i
  let d := inDln im i
  let line := lineOf e d
  match arrivedIn s.dcc (chanOf (getTile s tile) (chanKey set elem i)) with
  | [] => s
  | x :: _ =>
    if !entryGood x || (isInstant x && (line.any fun l => l.kind == 2)) then stage1Fault s tile set elem 5 i v.cnt
    else if x.kind = 6 then modElem s tile set elem fun y => cairnAt y i
    else if dlDepth im d ≤ line.length then s
    else if isInstant x then
      modElem (takeHead s tile set elem im i) tile set elem fun y =>
        putIn { y with lines := Tab.set y.lines d (line ++ [⟨x.kind, x.payload, v.pend⟩]) } i { v with pend := [], cnt := v.cnt + 1 }
    else if (sideEffect (lineAhead im i v line) x).isNone then stage1Fault s tile set elem 6 i v.cnt
    else modElem (takeHead s tile set elem im i) tile set elem fun y => putIn y i { v with pend := v.pend ++ [x] }

/-- The head of an input's delay line at stage 1 (R83): its side entries take effect; an entry to be drained leaves, and
the status of another reaches stage 2 a step later. -/
def lineResolve (s : State) (tile set elem : Nat) (im : Image) (i : Nat) (l : LineEntry) : State :=
  let e := elemOfSet (getSet s tile set) elem
  let d := inDln im i
  let v := afterSides (inState e i) l.sides
  let rest := (lineOf e d).tail
  modElem s tile set elem fun y =>
    if 0 < v.drain && l.kind != 2 then
      putIn { y with lines := Tab.set y.lines d rest } i { consumeIn im i v (some l.kind.toNat) with drain := v.drain - 1 }
    else putIn { y with lines := Tab.set y.lines d ({ l with sides := [] } :: rest) } i { v with taken := some (statusStep s tile) }

/-- The head of an input's channel taken at stage 1 (R66, R72): a check-code failure, a reserved kind or an entry after
END is an integrity fault; side entries take effect; an entry to be drained leaves; the status of another reaches stage 2
later. END stays at the head (R72), and what stands behind it is examined. -/
def chanResolve (s : State) (tile set elem : Nat) (im : Image) (i : Nat) : State :=
  let e := elemOfSet (getSet s tile set) elem
  let v := inState e i
  match arrivedIn s.dcc (chanOf (getTile s tile) (chanKey set elem i)) with
  | [] => s
  | x :: rest =>
    if v.ended then
      match rest with
      | y :: _ => if !entryGood y || isInstant y then stage1Fault s tile set elem 5 i (v.cnt + 1) else s
      | [] => s
    else if !entryGood x then stage1Fault s tile set elem 5 i v.cnt
    else if x.kind = 6 then modElem s tile set elem fun y => cairnAt y i
    else if isInstant x then
      if 0 < v.drain && x.kind != 2 then
        modElem (takeHead s tile set elem im i) tile set elem fun y =>
          putIn y i { consumeIn im i v (some x.kind.toNat) with drain := v.drain - 1, cnt := v.cnt + 1 }
      else modElem s tile set elem fun y => putIn y i { v with taken := some (statusStep s tile) }
    else
      match sideEffect v x with
      | some v1 => modElem (takeHead s tile set elem im i) tile set elem fun y => putIn y i v1
      | none => stage1Fault s tile set elem 6 i v.cnt

/-- The status of an input's entry reaches stage 2 (R72): it stands, or the input has ended. -/
def resolveIn (t : Tile) (set elem : Nat) (im : Image) (tsc : Nat) (e : Elem) (i : Nat) : Elem :=
  let v := inState e i
  match v.taken with
  | some r =>
    if tsc < r then e
    else if (headEntry t set elem im e i).any fun x => x.kind == 2 then
      putIn e i { v with taken := none, drain := 0, ended := true }
    else putIn e i { v with taken := none, seen := true }
  | none => e

/-- Whether stage 1 works on an input: the set is active, its region holds the element and is not stopped, no cairn
waits there, and no fault of stage 1 stands at its head. -/
def mayArrive (s : State) (tile set elem inp : Nat) : Bool :=
  let t := getTile s tile
  let c := getSet s tile set
  let e := elemOfSet c elem
  t.active == set && !t.removed && edgeNow s tile && !e.cairnIn.contains inp
    && (match slotOfElem c elem with | some r => (regionOf c r).st == .running | none => false)
    && (match e.fault with | some f => !(f.stg1 && f.inp == inp) | none => true)
    && (connected (imageNow s tile set elem)).contains inp

/-- ENTRY_ARRIVAL (R66, R72): stage 1 takes what stands at the head of an input. -/
def execEntryArrival (tile elem inp : Nat) (s : State) : Host.Outcome State Fault Refusal :=
  let set := (getTile s tile).active
  if mayArrive s tile set elem inp then
    let im := imageNow s tile set elem
    let e := elemOfSet (getSet s tile set) elem
    let v := inState e inp
    if inDly im inp then
      match (lineOf e (inDln im inp)).head? with
      | some l => if v.seen || v.ended || v.taken.isSome then .next (lineIntake s tile set elem im inp)
                  else .next (lineIntake (lineResolve s tile set elem im inp l) tile set elem im inp)
      | none => .next (lineIntake s tile set elem im inp)
    else if v.seen || v.taken.isSome then .next s
    else .next (chanResolve s tile set elem im inp)
  else .next s

/-! ### Reactions -/

/-- The cost of a handler in the tile's effective gear (R75). -/
def costNow (s : State) (tile : Nat) (im : Image) (h : Nat) : Nat := hCost im h (getTile s tile).effL

/-- A parity error on a plane in force stops the region (R225): cause 0x18, the plane empty. -/
def parityStop (s : State) (tile set elem : Nat) : State :=
  let c := getSet s tile set
  let slot := (slotOfElem c elem).getD 0
  let pl := elem / 16 * 2 + planeAt c elem (elemOfSet c elem).inst
  let s1 := modTile s tile fun t => { t with planes := Tab.set t.planes pl { Tab.get Plane.empty t.planes pl with valid := false } }
  let s2 := modSet s1 tile set fun x => { x with regions := Tab.set x.regions slot { regionOf x slot with st := .stopped } }
  raiseTrap s2 tile set (unitRec 0x18 3 0 slot 0 0 0 0)

/-- Whether the plane of an element's instant has a parity error (R225). -/
def planeBad (s : State) (tile set elem : Nat) : Bool :=
  (Tab.get Plane.empty (getTile s tile).planes
    (elem / 16 * 2 + planeAt (getSet s tile set) elem (elemOfSet (getSet s tile set) elem).inst)).bad

/-- HANDLER_FIRE (R75): the highest-ranked possible handler fires when it is satisfied, its outputs have room and the
pool holds its cost. -/
def execHandlerFire (tile elem : Nat) (s : State) : Host.Outcome State Fault Refusal :=
  let set := (getTile s tile).active
  let im := imageNow s tile set elem
  let e := elemOfSet (getSet s tile set) elem
  let st := inStatus (getTile s tile) set elem im e
  if !maySelect s tile set elem || !mayDrain im e || allEnded im e then .next s
  else
    match topHandler im st with
    | none => .next s
    | some h =>
      let cost := if e.paid == some e.inst then 0 else costNow s tile im h
      if !satisfied im st h || !roomFor s tile set elem im (some h) || !canCharge s tile cost then .next s
      else if planeBad s tile set elem then .next (parityStop s tile set elem)
      else .next (charge (beginReaction s tile set elem im (.handler h) (hStart im h) false) tile cost)

/-- DEFAULT_REACTION (R77): every connected input resolved and every handler contradicted. -/
def execDefaultReaction (tile elem : Nat) (s : State) : Host.Outcome State Fault Refusal :=
  let set := (getTile s tile).active
  let im := imageNow s tile set elem
  let e := elemOfSet (getSet s tile set) elem
  let st := inStatus (getTile s tile) set elem im e
  if maySelect s tile set elem && !allEnded im e && allResolved (getTile s tile) set elem im e
      && (topHandler im st).isNone && roomFor s tile set elem im none then
    if planeBad s tile set elem then .next (parityStop s tile set elem)
    else .next (beginReaction s tile set elem im .dflt 0 true)
  else .next s

/-- Whether any input of an element holds items of a MERGE (R109, R110). -/
def holdsItems (t : Tile) (set elem : Nat) : Bool :=
  (List.range 8).any fun i => !(chanOf t (chanKey set elem i)).held.isEmpty

/-- The input that INP of a MRG fault with FIN names: the lowest-numbered that holds items of a MERGE. R115 says the held
input and not which of several: DESIGN CHOICE (notes/assumptions/92.md). -/
def heldInput (t : Tile) (set elem : Nat) : Nat :=
  ((List.range 8).find? fun i => !(chanOf t (chanKey set elem i)).held.isEmpty).getD 0

/-- FINISHING_REACTION (R80, R110): every connected input has ended; a held item is a MRG fault with FIN. -/
def execFinishingReaction (tile elem : Nat) (s : State) : Host.Outcome State Fault Refusal :=
  let set := (getTile s tile).active
  let im := imageNow s tile set elem
  let e := elemOfSet (getSet s tile set) elem
  if maySelect s tile set elem && allEnded im e && roomFor s tile set elem im none then
    if planeBad s tile set elem then .next (parityStop s tile set elem)
    else if holdsItems (getTile s tile) set elem then
      .next (faultElem (beginReaction s tile set elem im .finishing 0 false) tile set elem
        ⟨faultWord 8 elem 0 0 0 (heldInput (getTile s tile) set elem) false true 0 0 0, BitVec.ofNat 64 (e.inst % 2 ^ 32), 0, false, 0⟩)
    else .next (beginReaction s tile set elem im .finishing 0 true)
  else .next s

/-- The least of some counts; 0 of none. -/
def leastOf : List Nat → Nat
  | [] => 0
  | x :: t => t.foldl Nat.min x

/-- The frontier of a region made up to date (R87): the least count over its sinks, or without a sink over its elements'
reactions; it never falls. -/
def refreshFront (c : CtxSet) (slot : Nat) : CtxSet :=
  let g := regionOf c slot
  let f := if g.sinks.isEmpty then leastOf ((regionElems g).map fun e => (elemOfSet c e).emitted)
    else leastOf (g.sinks.map Prod.snd)
  { c with regions := Tab.set c.regions slot { g with front := Nat.max g.front f } }

/-- A sink's count of completed instants raised (R87). -/
def noteInstant (s : State) (tile set elem key : Nat) : State :=
  modSet s tile set fun c =>
    match slotOfElem c elem with
    | some r =>
      let g := regionOf c r
      refreshFront { c with regions := Tab.set c.regions r { g with sinks := Tab.set g.sinks key (Tab.get 0 g.sinks key + 1) } } r
    | none => c

/-- The frontier of an element's region made up to date. -/
def noteEmitted (s : State) (tile set elem : Nat) : State :=
  modSet s tile set fun c => match slotOfElem c elem with | some r => refreshFront c r | none => c

/-- The entries that a reaction writes to an output (R78, R98): a SCALE, then a data item, an absence mark or END. -/
def emitted (rx : Reaction) (o : Nat) : List Entry :=
  let side := match Tab.find? rx.scales o with | some p => [sideEntry 5 p] | none => []
  let inst := match rx.kind with
    | .finishing => endEntry
    | _ => match Tab.find? rx.outs o with | some v => dataEntry v | none => markEntry
  side ++ [inst]

/-- An output's sink code; none for a link (R88). -/
def sinkCode (im : Image) (o : Nat) : Option Nat := if outKind im o = 2 then some (bits (outTo im o) 4 0) else none

/-- Entries written to an output, which restart the count of the regions at both ends (R91); an array feed completes the
instant as the entry enters its store (R197). -/
def writeOut (s : State) (tile set elem : Nat) (im : Image) (o : Nat) (es : List Entry) : State :=
  match outTarget s tile set im elem o with
  | some (u, key) =>
    let s1 := if u = tile then es.foldl (fun acc x => pushEntry acc u key x) s
      else noteMove (es.foldl (fun acc x => pushAcross acc u key x) s) tile set elem
    if sinkCode im o = some 5 && es.any isInstant then noteInstant s1 tile set elem key else s1
  | none => s

/-- A delay line shifted (R83): in port mode the written entry, or an absence mark, enters. -/
def shiftLine (im : Image) (rx : Reaction) (d : Nat) (line : List LineEntry) : List LineEntry :=
  match dlInput im d with
  | some _ => line
  | none =>
    line.tail ++ [match Tab.find? rx.lines d with | some v => ⟨1, v, []⟩ | none => ⟨0, 0, []⟩]

/-- The SWITCH payload of an element for the first instant under the new plane (R223). -/
def switchPayload (elem first pl : Nat) : BitVec 64 := BitVec.ofNat 64 ((first + 2 ^ 32 - 1) % 2 ^ 32 * 2 ^ 32 + elem / 16 % 2 * 2 ^ 31 + pl % 2 * 2 ^ 30)

/-- Whether a SWITCH entry of an instant below this one is still to be written (R223). -/
def owesBefore (e : Elem) (inst : Nat) : Bool :=
  !e.swOwed.isEmpty && (match e.swTag with | some (f, _) => f ≤ inst | none => false)

/-- Whether a reaction has come to the step in which it writes its entries (R66, R82): the last step of stage 6, its moves
run and its bundles examined. -/
def emitDue (r : Reaction) (tsc : Nat) : Bool := r.done && r.stage == 6 && 4 ≤ r.exd && r.since + (if r.half then 1 else 0) ≤ tsc

/-- REACTION_EMIT (R78): the oldest reaction writes one instant entry to every connected output, a SWITCH entry after its
tag's instant (R223), and the delay lines are shifted. -/
def execReactionEmit (tile elem : Nat) (s : State) : Host.Outcome State Fault Refusal :=
  let t := getTile s tile
  let set := t.active
  let c := getSet s tile set
  let e := elemOfSet c elem
  match e.rxs with
  | [] => .next s
  | rx :: younger =>
    let im := imageOf t elem rx.plane
    if !emitDue rx (tscOf s tile) || (reactionFault e && younger.isEmpty) || !edgeNow s tile || owesBefore e rx.inst || t.removed then
      .next s
    else if !((outputs im).all fun o => (emitted rx o).length ≤ outFree s tile set im elem o) then .next s
    else
      let sw := switchAfter e rx.inst && e.swOwed.isEmpty && !(rx.kind == .finishing)
      let s1 := (outputs im).foldl (fun acc o =>
        writeOut acc tile set elem im o (emitted rx o ++
          (match e.swTag with | some (f, pl) => if sw then [sideEntry 7 (switchPayload elem f pl)] else [] | none => []))) s
      .next (noteEmitted (modElem s1 tile set elem fun x =>
        { x with rxs := younger, emitted := rx.inst + 1, finished := rx.kind == .finishing
                 lines := (List.range 4).map fun d => (d, shiftLine im rx d (lineOf x d)) }) tile set elem)

/-- SWITCH_ENTRY_WRITE (R223): a SWITCH entry owed after a reaction that was selected before the tag came, in the first
step in which the output has a slot. -/
def execSwitchEntryWrite (tile elem out : Nat) (s : State) : Host.Outcome State Fault Refusal :=
  let t := getTile s tile
  let set := t.active
  let e := elemOfSet (getSet s tile set) elem
  match e.swOwed.find? fun p => p.1 == out, e.swTag with
  | some p, some (f, _) =>
    let im := imageOf t elem (planeOf (getSet s tile set) elem)
    if f ≤ e.emitted && edgeNow s tile && 1 ≤ outFree s tile set im elem out then
      .next (modElem (writeOut s tile set elem im out [sideEntry 7 p.2]) tile set elem fun x =>
        { x with swOwed := x.swOwed.erase p })
    else .next s
  | _, _ => .next s

end Sys2Proof.Machine
end

