-- ==== Sys2Proof/Machine/Moves.lean ====
section
/-! DEFINITION. The element moves (R30 to R33, R66 to R68, R96 to R118): the bundle in progress, the sources and
destinations of a move, the operations that a trigger starts, and the conditions examined at the end of a bundle. -/

namespace Sys2Proof.Machine

/-! ### Sources and destinations -/

/-- A port of an element (R31): keys as Elem.ports has them. -/
def portAt (e : Elem) (k : Nat) : BitVec 512 := Tab.get 0 e.ports k

/-- The key of a port that holds a value. -/
def portKey : Port → Option Nat
  | .aluO => some 0 | .aluR => some 1 | .mulO => some 2 | .mulR => some 3 | .sfuR => some 4 | .cvtR => some 5
  | .redO => some 6 | .redR => some 7 | _ => none

/-- The reactions of an element before that of an instant in the pipeline. -/
def olderThan (e : Elem) (inst : Nat) : List Reaction := e.rxs.takeWhile fun r => r.inst != inst

/-- The item of a delay line in port mode at a reaction's instant (R83): the entry that emerges once the reactions before it
have shifted the line. -/
def dlineValue (e : Elem) (rx : Reaction) (d : Nat) : BitVec 512 :=
  let before := olderThan e rx.inst
  let written := before.map fun r => match Tab.find? r.lines d with | some v => (⟨1, v, []⟩ : LineEntry) | none => ⟨0, 0, []⟩
  match (lineOf e d ++ written).drop before.length with
  | l :: _ => if l.kind = 1 then l.item else 0
  | [] => 0

/-- The value of a move's source: of a port as it stood when the bundle began, of an input the item consumed, zero
where it was absent (R68, R76, R83, R111). -/
def sourceValue (im : Image) (e : Elem) (rx : Reaction) (m : Mv) : BitVec 512 :=
  match m.src with
  | .inp n => if rx.stat.getD n false then Tab.get 0 rx.items n else 0
  | .konst => imgConst im (bits m.imm.toNat 2 0)
  | .dline => dlineValue e rx (bits m.imm.toNat 1 0)
  | p =>
    match portKey p with
    | some k => Tab.get 0 rx.before k
    | none => 0

/-- The lanes of a LANE field (R97). -/
def laneMask : LaneSel → Nat
  | .lo => 0x00FF
  | .hi => 0xFF00
  | _ => 0xFFFF

/-- The value that a move carries: its source, or one lane of it in all lanes (R97). -/
def movedValue (im : Image) (e : Elem) (rx : Reaction) (m : Mv) : BitVec 512 :=
  let v := sourceValue im e rx m
  if m.lane = .bcast then spreadLane (laneOf512 v (bits m.imm.toNat 3 0)) else v

/-- The key of an operand port (R31). -/
def operandKey : Port → Option Nat
  | .aluO => some 0 | .mulO => some 2 | .redO => some 6 | _ => none

/-- An element after a move to an operand port; the lanes not named keep their values (R97). -/
def writeOperand (im : Image) (rx : Reaction) (e : Elem) (m : Mv) : Elem :=
  match operandKey m.dst with
  | some k =>
    { e with ports := Tab.set e.ports k (mergeLanes (laneMask m.lane) (movedValue im e rx m) (portAt e k)) }
  | none => e

/-- The moves of a bundle from a move-store index: through the first with EOB, at most four (R30). -/
def bundleMoves (im : Image) (start : Nat) : Nat → List Mv
  | 0 => []
  | fuel + 1 =>
    let m := moveFields (imgMove im start)
    if m.eob then [m] else m :: bundleMoves im (start + 1) fuel

/-! ### The reaction in progress -/

/-- The image under which the acting element's reaction runs. -/
def rxImage (s : State) (rx : Reaction) : Image := imageOf (curTile s) s.focus.elem rx.plane

/-- The state with the acting element changed. -/
def modCurElem (s : State) (f : Elem → Elem) : State := modElem s s.focus.tile s.focus.set s.focus.elem f

/-- The reaction of an element whose moves run: the oldest that has moves left (R67, R68). -/
def runningRx (e : Elem) : Option Reaction := e.rxs.find? fun r => !r.done

/-- The reactions with the one whose moves run changed. -/
def modRunning (f : Reaction → Reaction) : List Reaction → List Reaction
  | [] => []
  | r :: rest => if r.done then r :: modRunning f rest else f r :: rest

/-- Whether the acting element may execute a move: a reaction has moves left, and no fault of its own has stopped it
(R116). -/
def moveReady (s : State) : Bool := (runningRx (curElem s)).isSome && !reactionFault (curElem s)

/-- A reaction that has no moves left; no reaction of an element is it. -/
def noReaction : Reaction :=
  { inst := 0, kind := .dflt, plane := 0, bundle := 0, mov := 0, idx := 0, done := true, ins := [], stat := [], items := [],
    before := [], opnds := false, trigs := [], outs := [], scales := [], lines := [], half := false, stage := 2, since := 0,
    exd := 0, ends := [], took := [], fronts := [], merge := none, slots := [] }

/-- The reaction of the acting element whose moves run. -/
def curRx (s : State) : Reaction := (runningRx (curElem s)).getD noReaction

/-- The state with the acting element's running reaction changed. -/
def modRx (s : State) (f : Reaction → Reaction) : State :=
  modCurElem s fun e => { e with rxs := modRunning f e.rxs }

/-- The bundle opened at its first move: the ports as they stand are what its sources read, and its operand ports are
written before any trigger (R68). -/
def openBundle (s : State) : State :=
  let rx := curRx s
  if rx.opnds then s
  else
    let s1 := modRx s fun r => { r with before := (curElem s).ports, opnds := true }
    let im := rxImage s1 (curRx s1)
    modCurElem s1 fun e => (bundleMoves im rx.idx 4).foldl (writeOperand im (curRx s1)) e

/-! ### Conditions and faults (R113 to R116) -/

/-- The enables of an element (R114): NAR, OVF, INV, DZ in bits 3 to 0. -/
def elxenOf (c : CtxSet) (elem : Nat) : Nat :=
  let w := if elem < 16 then c.elxen0.toNat else c.elxen1.toNat
  bits w (4 * (elem % 16) + 3) (4 * (elem % 16))

/-- The cause that a trigger faults with and the lanes that signal it, in the order of R113; none where no enabled
condition stands. -/
def trigCause (en : Nat) (t : TrigRec) : Option (Nat × Nat) :=
  if t.alw != 0 then some (t.alw, if t.alw = 8 then 0 else t.lanes.toNat)
  else if bit en 3 && t.nar != 0 then some (4, t.nar.toNat)
  else if bit en 1 && t.inv != 0 then some (2, t.inv.toNat)
  else if bit en 0 && t.dz != 0 then some (1, t.dz.toNat)
  else if bit en 2 && t.ovf != 0 then some (3, t.ovf.toNat)
  else none

/-- The triggers of a bundle from the first that faults on (R113). -/
def faultingFrom (en : Nat) : List TrigRec → List TrigRec
  | [] => []
  | t :: rest => if (trigCause en t).isSome then t :: rest else faultingFrom en rest

/-- The handler of a reaction. -/
def rxHandler (rx : Reaction) : Nat :=
  match rx.kind with
  | .handler h => h
  | _ => 0

/-- The fault of a trigger (R115). -/
def trigFault (elem : Nat) (rx : Reaction) (t : TrigRec) (cause mask inp : Nat) : ElemFault :=
  ⟨faultWord cause elem (rxHandler rx) rx.bundle t.mov (if cause = 8 then inp else 0) false false t.unit t.fop mask,
   BitVec.ofNat 64 (rx.inst % 2 ^ 32), t.value, false, 0⟩

/-- The move of a trigger of the bundle in progress, whose last move stands at the reaction's index. -/
def trigMove (im : Image) (rx : Reaction) (t : TrigRec) : Mv := moveFields (imgMove im (rx.idx - rx.mov + t.mov))

/-- A reaction that goes on after a bundle: its next move opens the next bundle, or it has no moves left. -/
def nextBundle (last : Bool) (k : BundleEnd) (rx : Reaction) : Reaction :=
  { rx with trigs := [], opnds := false, mov := 0, bundle := rx.bundle + 1, idx := rx.idx + 1, done := last, ends := rx.ends ++ [k] }

/-- The held items of an element's channels with the slots kept for a MERGE (R109). -/
def heldNow (t : Tile) (set elem : Nat) : Tab (List (BitVec 512) × Nat) :=
  (List.range 8).map fun i => (i, ((chanOf t (chanKey set elem i)).held, (chanOf t (chanKey set elem i)).kept))

/-- What stands at the end of a reaction's bundle. -/
def bundleEnd (t : Tile) (set elem : Nat) (e : Elem) (rx : Reaction) : BundleEnd :=
  { ports := e.ports, held := heldNow t set elem, trigs := rx.trigs, outs := rx.outs, scales := rx.scales, lines := rx.lines,
    merge := rx.merge, idx := rx.idx, mov := rx.mov }

/-- The end of a bundle's moves (R68): what its triggers signalled is kept until the step of the bundle (R66, R114). -/
def closeBundle (s : State) (last : Bool) : State :=
  let k := bundleEnd (curTile s) s.focus.set s.focus.elem (curElem s) (curRx s)
  modRx s (nextBundle last k)

/-- A move executed: the bundle is opened at its first move, the move has its effect, and the bundle's last move ends it
(R68). -/
def runMove (m : Mv) (s : State) (eff : State → State) : State :=
  let s1 := eff (openBundle s)
  if m.eob then closeBundle s1 m.eoh else modRx s1 fun r => { r with idx := r.idx + 1, mov := r.mov + 1 }

/-! ### The stages (R66, R82, R113 to R117, R417) -/

/-- The steps for which a reaction occupies a stage (R82): its width is that of its selection. -/
def rxWidth (r : Reaction) : Nat := if r.half then 2 else 1

/-- Whether reaction n of an element enters its next stage (R66, R82): its steps in the stage are over, the stage's bundle
has been examined, and the reaction ahead has left the next stage. A reaction that a fault stopped stands (R116). -/
def mayAdvance (e : Elem) (n tsc : Nat) : Bool :=
  match e.rxs[n]? with
  | none => false
  | some r =>
    r.stage < 6 && r.since + rxWidth r ≤ tsc && r.stage ≤ r.exd + 2 && !(reactionFault e && n + 1 == e.rxs.length)
      && (match n with
        | 0 => true
        | m + 1 => match e.rxs[m]? with | some a => r.stage + 1 < a.stage | none => true)

/-- Whether the bundle of reaction n's stage is to be examined: its step, the last of its stage, has come (R66, R114). -/
def examineDue (e : Elem) (n tsc : Nat) : Bool :=
  match e.rxs[n]? with
  | none => false
  | some r =>
    3 ≤ r.stage && r.exd + 3 == r.stage && r.since + rxWidth r ≤ tsc + 1 && !(reactionFault e && n + 1 == e.rxs.length)
      && (r.done || r.exd < r.ends.length)

/-- An element with reaction n changed. -/
def modNth (e : Elem) (n : Nat) (f : Reaction → Reaction) : Elem := { e with rxs := e.rxs.modify n f }

/-- The entries that the replay store holds of an input for some reactions, oldest first. -/
def replayed (rs : List Reaction) (i : Nat) : List Entry := rs.flatMap fun r => Tab.get [] r.took i

/-- The younger reactions squashed (R116): their entries return to the heads of their channels, the inputs and their delay
lines stand as at the selection of the first, and its instant is the element's again. A reaction that held a fault is
selected anew like the others and is not charged again (R417). DEDUCED (notes/assumptions/93.md). -/
def squash (s : State) (tile set elem : Nat) (rs : List Reaction) (heldInst : Option Nat) : State :=
  match rs with
  | [] => s
  | r :: _ =>
    let s1 := (List.range 8).foldl (fun acc i =>
      if (replayed rs i).isEmpty then acc
      else modChan acc tile (chanKey set elem i) fun c => { c with q := replayed rs i ++ c.q }) s
    modElem s1 tile set elem fun e =>
      { e with inst := r.inst, ins := r.ins, lines := r.fronts.foldl (fun acc p => Tab.set acc p.1 p.2) e.lines
               cairnIn := e.cairnIn.filter fun i => (replayed rs i).isEmpty
               paid := heldInst.or e.paid }

/-- A reaction stopped after a bundle (R116): every port and channel as at the bundle's end, the triggers from the faulting
one on still to be examined. -/
def stopRx (r : Reaction) (b : Nat) (k : BundleEnd) (trigs : List TrigRec) : Reaction :=
  { r with bundle := b, mov := k.mov, idx := k.idx, done := false, opnds := true, trigs := trigs, outs := k.outs
           scales := k.scales, lines := k.lines, merge := k.merge, ends := r.ends.take b }

/-- Reaction n faults at a trigger of its bundle (R113, R116): later bundles are undone, younger reactions squashed, and the
fault recorded in place of one that is held (R417). -/
def stopAt (s : State) (tile set elem n : Nat) (r : Reaction) (k : BundleEnd) (t : TrigRec) (rest : List TrigRec) : State :=
  let e := elemOfSet (getSet s tile set) elem
  let held := if reactionFault e then (e.rxs.getLast?.map Reaction.inst) else none
  let r1 := stopRx r r.exd k (t :: rest)
  let s1 := squash s tile set elem (e.rxs.drop (n + 1)) held
  let s2 := k.held.foldl (fun acc p =>
    if (chanOf (getTile acc tile) (chanKey set elem p.1)) == Chan.empty then acc
    else modChan acc tile (chanKey set elem p.1) fun c => { c with held := p.2.1, kept := p.2.2 }) s1
  let c := (trigCause (elxenOf (getSet s tile set) elem) t).getD (0, 0)
  let inp := bits (trigMove (imageOf (getTile s tile) elem r.plane) r1 t).imm.toNat 2 0
  faultElem (modElem s2 tile set elem fun x => { x with ports := k.ports, rxs := e.rxs.take n ++ [r1] }) tile set elem
    (trigFault elem r1 t c.1 c.2 inp)

/-- The bundle of reaction n's stage examined (R113) with the enables of its step (R114): a bundle that signals nothing
enabled is passed. -/
def examineStage (s : State) (tile set elem n : Nat) : State :=
  let c := getSet s tile set
  let e := elemOfSet c elem
  match e.rxs[n]? with
  | none => s
  | some r =>
    let pass := modElem s tile set elem fun x => modNth x n fun y => { y with exd := y.exd + 1 }
    match r.ends[r.exd]? with
    | none => pass
    | some k =>
      match faultingFrom (elxenOf c elem) k.trigs with
      | t :: rest => stopAt s tile set elem n r k t rest
      | [] => pass

/-- Reaction n of an element at a step: it enters its next stage, and the stage's bundle is examined. -/
def stageRx (tile set elem : Nat) (s : State) (n : Nat) : State :=
  let tsc := tscOf s tile
  let s1 := if mayAdvance (elemOfSet (getSet s tile set) elem) n tsc then
      modElem s tile set elem fun x => modNth x n fun r => { r with stage := r.stage + 1, since := tsc }
    else s
  if examineDue (elemOfSet (getSet s1 tile set) elem) n tsc then examineStage s1 tile set elem n else s1

/-- The step of an element's stages (R66, R72, R82): statuses reach stage 2, and the reactions move on, the oldest first. -/
def stageTurn (s : State) (tile elem : Nat) : State :=
  let t := getTile s tile
  let set := t.active
  if t.removed || !edgeNow s tile then s
  else
    let im := imageNow s tile set elem
    let s1 := modElem s tile set elem fun e => (connected im).foldl (resolveIn t set elem im (tscOf s tile)) e
    (List.range 5).foldl (stageRx tile set elem) s1

/-- The triggers of the stopped reaction's bundle examined again after a resumption (R113, R118): the first that signals an
enabled condition faults; where none does, the reaction goes on with its next bundle in the step after. -/
def examineBundle (s : State) (tile set elem : Nat) (last : Bool) : State :=
  let c := getSet s tile set
  let e := elemOfSet c elem
  match runningRx e with
  | none => s
  | some rx =>
    match faultingFrom (elxenOf c elem) rx.trigs with
    | t :: rest =>
      let cm := (trigCause (elxenOf c elem) t).getD (0, 0)
      let inp := bits (trigMove (imageOf (getTile s tile) elem rx.plane) rx t).imm.toNat 2 0
      faultElem (modElem s tile set elem fun x => { x with rxs := modRunning (fun r => { r with trigs := t :: rest }) x.rxs })
        tile set elem (trigFault elem rx t cm.1 cm.2 inp)
    | [] =>
      let k := { bundleEnd (getTile s tile) set elem e rx with trigs := [] }
      modElem s tile set elem fun x =>
        { x with rxs := modRunning (fun r =>
            { nextBundle last k r with exd := r.bundle + 1, stage := r.bundle + 3, since := tscOf s tile + 1 - rxWidth r }) x.rxs }

/-! ### Moves without operation (R97, R98) -/

/-- A move to an output, a delay line or an operand port; lanes not named are zero in an entry. -/
def moveData (m : Mv) (s : State) : State :=
  let rx := curRx s
  let im := rxImage s rx
  let v := movedValue im (curElem s) rx m
  match m.dst with
  | .out o => modRx s fun r => { r with outs := Tab.set r.outs o (mergeLanes (laneMask m.lane) v 0) }
  | .dline => modRx s fun r => { r with lines := Tab.set r.lines (bits m.imm.toNat 1 0) (mergeLanes (laneMask m.lane) v 0) }
  | _ => modCurElem s fun e => writeOperand im rx e m

/-- Whether a guarded move writes (R98): lane 0 of RED.R, read as its source is, is nonzero exactly as GSN says. -/
def guardPasses (m : Mv) (s : State) : Bool :=
  !m.imm.getLsbD 7 || ((laneOf512 (Tab.get 0 (curRx s).before 7) 0 != 0) == m.imm.getLsbD 6)

/-- A scale move: the payload of the SCALE entry that the output will carry (R98). -/
def moveScale (m : Mv) (s : State) : State :=
  let rx := curRx s
  let v := sourceValue (rxImage s rx) (curElem s) rx m
  match m.dst with
  | .out o => modRx s fun r => { r with scales := Tab.set r.scales o (v.setWidth 64) }
  | _ => s

/-- MOVE (R30, R97). -/
def execMove (m : Mv) (s : State) : Host.Outcome State Fault Refusal :=
  if moveReady s then .next (runMove m s (moveData m)) else .next s

/-- GUARDED_MOVE (R98). -/
def execGuardedMove (m : Mv) (s : State) : Host.Outcome State Fault Refusal :=
  if moveReady s then .next (runMove m s fun s1 => if guardPasses m s1 then moveData m s1 else s1) else .next s

/-- SCALE_MOVE (R98); a guard applies to it too. -/
def execScaleMove (m : Mv) (s : State) : Host.Outcome State Fault Refusal :=
  if moveReady s then .next (runMove m s fun s1 => if guardPasses m s1 then moveScale m s1 else s1) else .next s

/-! ### Triggers -/

/-- What an operation reads (R96, R97): the image, the element with its operand ports written, the reaction, the move,
the lanes computed, IMM (0 where it names a broadcast lane), the trigger value, the operation type's code, the tables
of the tile, and the items held on each input's channel. -/
structure TrigCtx where
  im    : Image
  e     : Elem
  rx    : Reaction
  m     : Mv
  lanes : Nat
  imm   : Nat
  val   : BitVec 512
  ty    : Nat
  luts  : Tab Lut
  held  : Nat → List (BitVec 512)

/-- The code of a trigger's operation type (R96): TOV, else the source input's type in force, else F32. -/
def operationType (rx : Reaction) (m : Mv) : Nat :=
  match m.tov, m.src with
  | .f32, _ => 0
  | .s32, _ => 7
  | .z32, _ => 11
  | .inForce, .inp n => (Tab.get InState.reset rx.ins n).ty
  | .inForce, _ => 0

/-- What the operation of a trigger on an element reads. -/
def trigCtx (s : State) (tile set elem : Nat) (m : Mv) (lanes : Nat) (val : Option (BitVec 512)) : TrigCtx :=
  let t := getTile s tile
  let e := elemOfSet (getSet s tile set) elem
  let rx := (runningRx e).getD noReaction
  let im := imageOf t elem rx.plane
  { im := im, e := e, rx := rx, m := m, lanes := lanes, imm := if m.lane = .bcast then 0 else m.imm.toNat
    val := val.getD (movedValue im e rx m), ty := operationType rx m, luts := t.luts
    held := fun i => (chanOf t (chanKey set elem i)).held }

/-- What an operation gives: the cause of a fault that has no enable (0 none), and its result and conditions. -/
abbrev TrigOp := TrigCtx → Nat × TrigOut

/-- The result port of a unit as it stands. -/
def resultKey (unit : Nat) : Nat :=
  match unit with | 1 => 1 | 2 => 3 | 3 => 4 | 4 => 5 | _ => 7

/-- An operation of a type that R96 restricts: any other type is a TYP fault. -/
def onType (c : TrigCtx) (unit : Nat) (ok : List Nat) (f : Ty → TrigOut) : Nat × TrigOut :=
  if ok.contains c.ty then (0, f ((Ty.ofCode c.ty).getD .f32)) else (7, plainOut (portAt c.e (resultKey unit)))

/-- An ALU operation on raw lanes (R100). -/
def aluRaw (fop : Nat) : TrigOp := fun c =>
  let k := imgConst c.im (bits c.imm 2 0)
  (0, laneWise c.lanes (portAt c.e 1) fun l =>
    aluLane fop .f32 (laneOf512 (portAt c.e 0) l) (laneOf512 c.val l) (laneOf512 k l))

/-- An ALU operation on F32, S32 or Z32 (R100). -/
def aluTyped (fop : Nat) : TrigOp := fun c =>
  onType c 1 [0, 7, 11] fun t =>
    laneWise c.lanes (portAt c.e 1) fun l => aluLane fop t (laneOf512 (portAt c.e 0) l) (laneOf512 c.val l) 0

/-- MUL, FMA and DIV (R101). -/
def mulTyped (fop : Nat) : TrigOp := fun c =>
  let k := imgConst c.im (bits c.imm 2 0)
  onType c 2 [0, 7, 11] fun t =>
    laneWise c.lanes (portAt c.e 3) fun l =>
      mulLane fop t (laneOf512 (portAt c.e 2) l) (laneOf512 c.val l) (laneOf512 k l)

/-- The latched codes by which a trigger's source input is scaled: none where its scale mode is NONE; the flag says that
codes are wanted and none have been latched (R58, R59). -/
def inputCodes (c : TrigCtx) : Option (BitVec 64) × Bool :=
  match c.m.src with
  | .inp n =>
    let v := Tab.get InState.reset c.rx.ins n
    if v.sm = 0 then (none, false) else if v.latched then (some v.codes, false) else (none, true)
  | _ => (none, false)

/-- MULS (R101). R101 gives no order of the faults HDR and TYP: the missing codes are found first. DESIGN CHOICE
(notes/assumptions/94.md). -/
def mulScaled : TrigOp := fun c =>
  if (inputCodes c).2 then (6, plainOut (portAt c.e 3))
  else
    onType c 2 [0] fun _ =>
      laneWise c.lanes (portAt c.e 3) fun l => mulsLane ((inputCodes c).1.map fun w => codeOf w 0) (laneOf512 c.val l)

/-- A function of the SFU (R102). -/
def sfuTyped (fop : Nat) : TrigOp := fun c =>
  onType c 3 [0] fun _ => laneWise c.lanes (portAt c.e 4) fun l => sfuLane fop (laneOf512 c.val l)

/-- LUT (R103). -/
def sfuTable : TrigOp := fun c =>
  let tab := (Tab.get ⟨[], none⟩ c.luts (lutMap c.im (bits c.imm 1 0))).entries
  onType c 3 [0] fun _ =>
    laneWise c.lanes (portAt c.e 4) fun l =>
      (lutFn (fun i => (Tab.get (0 : BitVec 32) tab i).toNat) (laneOf512 c.val l), .none)

/-- CVT (R104). -/
def cvtTyped : TrigOp := fun c =>
  let p := bits c.imm 6 4
  match Ty.ofCode c.ty, Ty.ofCode (bits c.imm 3 0) with
  | some f, some t =>
    if partOk f p && partOk t p then (0, cvtPart c.lanes p f t c.val (portAt c.e 5)) else (7, plainOut (portAt c.e 5))
  | _, _ => (7, plainOut (portAt c.e 5))

/-- The type in force of a trigger's source input, whatever TOV says (R104 DEQ). -/
def sourceType (c : TrigCtx) : Nat :=
  match c.m.src with
  | .inp n => (Tab.get InState.reset c.rx.ins n).ty
  | _ => 0

/-- DEQ (R104). The missing codes are found before the type, as in MULS. DESIGN CHOICE (notes/assumptions/94.md). -/
def cvtDequant : TrigOp := fun c =>
  let p := bits c.imm 6 4
  if (inputCodes c).2 then (6, plainOut (portAt c.e 5))
  else
    match Ty.ofCode (sourceType c) with
    | some f =>
      if partOk f p then (0, deqPart c.lanes p f (inputCodes c).1 c.val (portAt c.e 5)) else (7, plainOut (portAt c.e 5))
    | none => (7, plainOut (portAt c.e 5))

/-- QNT (R105); RED.R is read as the bundle's sources are (R68). -/
def cvtQuant : TrigOp := fun c =>
  onType c 4 [0] fun _ =>
    qntPart c.lanes (bits c.imm 6 4) ((Ty.ofCode (bits c.imm 3 0)).getD .f16) ((Tab.get 0 c.rx.before 7).setWidth 64) c.val
      (portAt c.e 5)

/-- SUM (R106). -/
def redSumOp : TrigOp := fun c => onType c 5 [0, 7, 11] fun t => sumOut t (selLanes c.lanes c.val)
/-- MAX and MIN (R106). -/
def redExtreme (wantMax : Bool) : TrigOp := fun c =>
  onType c 5 [0, 7, 11] fun t => extremeOut t wantMax (selLanes c.lanes c.val)
/-- The scale maximum (R106). -/
def redScale : TrigOp := fun c =>
  onType c 5 [0] fun _ =>
    scaleMaxOut ((Ty.ofCode (bits c.imm 3 0)).getD .f16) (bits c.imm 6 4) (selLanes c.lanes c.val) (portAt c.e 7)
/-- CNT (R106). -/
def redCount : TrigOp := fun c => (0, cntOut (selLanes c.lanes c.val))
/-- STEER (R108). -/
def redSteerOp : TrigOp := fun c =>
  (0, laneWise c.lanes (portAt c.e 7) fun l => (if laneOf512 c.val l != 0 then 0xFFFFFFFF else 0, .none))
/-- ACC (R107). -/
def redAccOp : TrigOp := fun c =>
  onType c 5 [0, 7, 11] fun t =>
    laneWise c.lanes (portAt c.e 7) fun l => aluLane 1 t (laneOf512 (portAt c.e 7) l) (laneOf512 c.val l) 0
/-- FLUSH (R107). -/
def redFlushOp : TrigOp := fun c => (0, laneWise c.lanes (portAt c.e 7) fun l => (laneOf512 c.val l, .none))

/-- The items that a MERGE's input holds once the item present at it is appended (R109). -/
def mergeQueue (c : TrigCtx) : List (BitVec 512) :=
  let h := bits c.imm 2 0
  c.held h ++ (if c.rx.stat.getD h false then [Tab.get 0 c.rx.items h] else [])

/-- MERGE (R109): a fault before any effect, else the next value of RED.R. -/
def redMergeOp : TrigOp := fun c =>
  let ctl := laneOf512 c.val 0
  let old := portAt c.e 7
  if 2 < ctl || (ctl = 2 && (mergeQueue c).isEmpty) then (8, plainOut old)
  else if ctl = 1 then (0, plainOut (mergeLanes c.lanes (portAt c.e 6) old))
  else if ctl = 2 then (0, plainOut (mergeLanes c.lanes ((mergeQueue c).headD 0) old))
  else (0, plainOut old)

/-- The channel that a MERGE leaves (R109): the item that the reaction consumed is held, and no more kept for it. -/
def mergeHeld (s : State) (tile set elem : Nat) (c : TrigCtx) : State :=
  let l := mergeQueue c
  let s1 := freeKept s tile set elem c.rx.merge
  modElem (modChan s1 tile (chanKey set elem (bits c.imm 2 0)) fun x =>
    { x with held := if laneOf512 c.val 0 = 2 then l.tail else l }) tile set elem fun e =>
      { e with rxs := modRunning (fun r => { r with merge := none }) e.rxs }

/-- The lanes that a fault of a trigger without enable names: all for SUM, MAX, MIN and CNT (R113). -/
def computedLanes (unit fop lanes : Nat) : Nat := if unit = 5 && fop ≤ 4 then 0xFFFF else lanes

/-- What a trigger signalled. -/
def trigRec (mov unit fop : Nat) (c : TrigCtx) (r : Nat × TrigOut) : TrigRec :=
  { mov := mov, unit := unit, fop := fop, alw := r.1, nar := BitVec.ofNat 16 r.2.nar, inv := BitVec.ofNat 16 r.2.inv
    dz := BitVec.ofNat 16 r.2.dz, ovf := BitVec.ofNat 16 r.2.ovf
    lanes := BitVec.ofNat 16 (computedLanes unit fop c.lanes), ty := c.ty, value := c.val }

/-- A trigger's operation: its result port written, its conditions kept for the end of the bundle. -/
def trigger (m : Mv) (unit fop : Nat) (op : TrigOp) (s : State) : State :=
  let c := trigCtx s s.focus.tile s.focus.set s.focus.elem m (laneMask m.lane) none
  let r := op c
  let s1 := modCurElem s fun e => { e with ports := Tab.set e.ports (resultKey unit) r.2.res }
  modRx s1 fun x => { x with trigs := x.trigs ++ [trigRec x.mov unit fop c r] }

/-- A MERGE trigger: the operation, and where it does not fault the items held (R109). -/
def triggerMerge (m : Mv) (s : State) : State :=
  let c := trigCtx s s.focus.tile s.focus.set s.focus.elem m (laneMask m.lane) none
  let s1 := trigger m 5 6 redMergeOp s
  if (redMergeOp c).1 = 0 then mergeHeld s1 s.focus.tile s.focus.set s.focus.elem c else s1

/-- The operation of a unit by its number and FOP (R32), for a trigger that executes again (R118). -/
def opOf (unit fop imm : Nat) : TrigOp :=
  match unit with
  | 1 => if (5 ≤ fop && fop ≤ 10) || fop = 16 || fop = 17 then aluRaw fop else aluTyped fop
  | 2 => if fop = 2 then mulScaled else mulTyped fop
  | 3 => if fop = 8 then sfuTable else sfuTyped fop
  | 4 => if fop = 1 then cvtTyped else if fop = 2 then cvtDequant else cvtQuant
  | _ =>
    match fop with
    | 1 => redSumOp
    | 2 => if bits imm 3 0 = 0 then redExtreme true else redScale
    | 3 => redExtreme false
    | 4 => redCount
    | 5 => redSteerOp
    | 6 => redMergeOp
    | 7 => redAccOp
    | _ => redFlushOp

/-! ### The trigger moves -/

/-- ADD on the ALU (R100). -/
def execAluAdd (m : Mv) (s : State) : Host.Outcome State Fault Refusal :=
  if moveReady s then .next (runMove m s (trigger m 1 1 (aluTyped 1))) else .next s

/-- SUB on the ALU (R100). -/
def execAluSub (m : Mv) (s : State) : Host.Outcome State Fault Refusal :=
  if moveReady s then .next (runMove m s (trigger m 1 2 (aluTyped 2))) else .next s

/-- MIN on the ALU (R100). -/
def execAluMin (m : Mv) (s : State) : Host.Outcome State Fault Refusal :=
  if moveReady s then .next (runMove m s (trigger m 1 3 (aluTyped 3))) else .next s

/-- MAX on the ALU (R100). -/
def execAluMax (m : Mv) (s : State) : Host.Outcome State Fault Refusal :=
  if moveReady s then .next (runMove m s (trigger m 1 4 (aluTyped 4))) else .next s

/-- AND on the ALU (R100). -/
def execAluAnd (m : Mv) (s : State) : Host.Outcome State Fault Refusal :=
  if moveReady s then .next (runMove m s (trigger m 1 5 (aluRaw 5))) else .next s

/-- OR on the ALU (R100). -/
def execAluOr (m : Mv) (s : State) : Host.Outcome State Fault Refusal :=
  if moveReady s then .next (runMove m s (trigger m 1 6 (aluRaw 6))) else .next s

/-- XOR on the ALU (R100). -/
def execAluXor (m : Mv) (s : State) : Host.Outcome State Fault Refusal :=
  if moveReady s then .next (runMove m s (trigger m 1 7 (aluRaw 7))) else .next s

/-- SHL on the ALU (R100). -/
def execAluShl (m : Mv) (s : State) : Host.Outcome State Fault Refusal :=
  if moveReady s then .next (runMove m s (trigger m 1 8 (aluRaw 8))) else .next s

/-- SHR on the ALU (R100). -/
def execAluShr (m : Mv) (s : State) : Host.Outcome State Fault Refusal :=
  if moveReady s then .next (runMove m s (trigger m 1 9 (aluRaw 9))) else .next s

/-- SAR on the ALU (R100). -/
def execAluSar (m : Mv) (s : State) : Host.Outcome State Fault Refusal :=
  if moveReady s then .next (runMove m s (trigger m 1 10 (aluRaw 10))) else .next s

/-- ABS on the ALU (R100). -/
def execAluAbs (m : Mv) (s : State) : Host.Outcome State Fault Refusal :=
  if moveReady s then .next (runMove m s (trigger m 1 11 (aluTyped 11))) else .next s

/-- NEG on the ALU (R100). -/
def execAluNeg (m : Mv) (s : State) : Host.Outcome State Fault Refusal :=
  if moveReady s then .next (runMove m s (trigger m 1 12 (aluTyped 12))) else .next s

/-- CMPEQ on the ALU (R100). -/
def execAluCmpeq (m : Mv) (s : State) : Host.Outcome State Fault Refusal :=
  if moveReady s then .next (runMove m s (trigger m 1 13 (aluTyped 13))) else .next s

/-- CMPLT on the ALU (R100). -/
def execAluCmplt (m : Mv) (s : State) : Host.Outcome State Fault Refusal :=
  if moveReady s then .next (runMove m s (trigger m 1 14 (aluTyped 14))) else .next s

/-- CMPLE on the ALU (R100). -/
def execAluCmple (m : Mv) (s : State) : Host.Outcome State Fault Refusal :=
  if moveReady s then .next (runMove m s (trigger m 1 15 (aluTyped 15))) else .next s

/-- SEL on the ALU (R100). -/
def execAluSel (m : Mv) (s : State) : Host.Outcome State Fault Refusal :=
  if moveReady s then .next (runMove m s (trigger m 1 16 (aluRaw 16))) else .next s

/-- PASS on the ALU (R100). -/
def execAluPass (m : Mv) (s : State) : Host.Outcome State Fault Refusal :=
  if moveReady s then .next (runMove m s (trigger m 1 17 (aluRaw 17))) else .next s

/-- MUL on the MUL (R101). -/
def execMulMul (m : Mv) (s : State) : Host.Outcome State Fault Refusal :=
  if moveReady s then .next (runMove m s (trigger m 2 1 (mulTyped 1))) else .next s

/-- MULS on the MUL (R101). -/
def execMulMuls (m : Mv) (s : State) : Host.Outcome State Fault Refusal :=
  if moveReady s then .next (runMove m s (trigger m 2 2 mulScaled)) else .next s

/-- FMA on the MUL (R101). -/
def execMulFma (m : Mv) (s : State) : Host.Outcome State Fault Refusal :=
  if moveReady s then .next (runMove m s (trigger m 2 3 (mulTyped 3))) else .next s

/-- DIV on the MUL (R101). -/
def execMulDiv (m : Mv) (s : State) : Host.Outcome State Fault Refusal :=
  if moveReady s then .next (runMove m s (trigger m 2 4 (mulTyped 4))) else .next s

/-- RCP on the SFU (R102). -/
def execSfuRcp (m : Mv) (s : State) : Host.Outcome State Fault Refusal :=
  if moveReady s then .next (runMove m s (trigger m 3 1 (sfuTyped 1))) else .next s

/-- SQRT on the SFU (R102). -/
def execSfuSqrt (m : Mv) (s : State) : Host.Outcome State Fault Refusal :=
  if moveReady s then .next (runMove m s (trigger m 3 2 (sfuTyped 2))) else .next s

/-- RSQ on the SFU (R102). -/
def execSfuRsq (m : Mv) (s : State) : Host.Outcome State Fault Refusal :=
  if moveReady s then .next (runMove m s (trigger m 3 3 (sfuTyped 3))) else .next s

/-- EXP2 on the SFU (R102). -/
def execSfuExp2 (m : Mv) (s : State) : Host.Outcome State Fault Refusal :=
  if moveReady s then .next (runMove m s (trigger m 3 4 (sfuTyped 4))) else .next s

/-- LOG2 on the SFU (R102). -/
def execSfuLog2 (m : Mv) (s : State) : Host.Outcome State Fault Refusal :=
  if moveReady s then .next (runMove m s (trigger m 3 5 (sfuTyped 5))) else .next s

/-- TANH on the SFU (R102). -/
def execSfuTanh (m : Mv) (s : State) : Host.Outcome State Fault Refusal :=
  if moveReady s then .next (runMove m s (trigger m 3 6 (sfuTyped 6))) else .next s

/-- SIG on the SFU (R102). -/
def execSfuSig (m : Mv) (s : State) : Host.Outcome State Fault Refusal :=
  if moveReady s then .next (runMove m s (trigger m 3 7 (sfuTyped 7))) else .next s

/-- LUT on the SFU (R103). -/
def execSfuLut (m : Mv) (s : State) : Host.Outcome State Fault Refusal :=
  if moveReady s then .next (runMove m s (trigger m 3 8 sfuTable)) else .next s

/-- CVT on the CVT (R104). -/
def execCvtCvt (m : Mv) (s : State) : Host.Outcome State Fault Refusal :=
  if moveReady s then .next (runMove m s (trigger m 4 1 cvtTyped)) else .next s

/-- DEQ on the CVT (R104). -/
def execCvtDeq (m : Mv) (s : State) : Host.Outcome State Fault Refusal :=
  if moveReady s then .next (runMove m s (trigger m 4 2 cvtDequant)) else .next s

/-- QNT on the CVT (R105). -/
def execCvtQnt (m : Mv) (s : State) : Host.Outcome State Fault Refusal :=
  if moveReady s then .next (runMove m s (trigger m 4 3 cvtQuant)) else .next s

/-- SUM on the RED (R106). -/
def execRedSum (m : Mv) (s : State) : Host.Outcome State Fault Refusal :=
  if moveReady s then .next (runMove m s (trigger m 5 1 redSumOp)) else .next s

/-- MAX on the RED (R106). -/
def execRedMax (m : Mv) (s : State) : Host.Outcome State Fault Refusal :=
  if moveReady s then .next (runMove m s (trigger m 5 2 (redExtreme true))) else .next s

/-- scale maximum on the RED (R106). -/
def execRedScaleMax (m : Mv) (s : State) : Host.Outcome State Fault Refusal :=
  if moveReady s then .next (runMove m s (trigger m 5 2 redScale)) else .next s

/-- MIN on the RED (R106). -/
def execRedMin (m : Mv) (s : State) : Host.Outcome State Fault Refusal :=
  if moveReady s then .next (runMove m s (trigger m 5 3 (redExtreme false))) else .next s

/-- CNT on the RED (R106). -/
def execRedCnt (m : Mv) (s : State) : Host.Outcome State Fault Refusal :=
  if moveReady s then .next (runMove m s (trigger m 5 4 redCount)) else .next s

/-- STEER on the RED (R108). -/
def execRedSteer (m : Mv) (s : State) : Host.Outcome State Fault Refusal :=
  if moveReady s then .next (runMove m s (trigger m 5 5 redSteerOp)) else .next s

/-- MERGE on the RED (R109). -/
def execRedMerge (m : Mv) (s : State) : Host.Outcome State Fault Refusal :=
  if moveReady s then .next (runMove m s (triggerMerge m)) else .next s

/-- ACC on the RED (R107). -/
def execRedAcc (m : Mv) (s : State) : Host.Outcome State Fault Refusal :=
  if moveReady s then .next (runMove m s (trigger m 5 7 redAccOp)) else .next s

/-- FLUSH on the RED (R107). -/
def execRedFlush (m : Mv) (s : State) : Host.Outcome State Fault Refusal :=
  if moveReady s then .next (runMove m s (trigger m 5 8 redFlushOp)) else .next s

end Sys2Proof.Machine
end

