-- ==== Sys2Proof/Machine/Loader.lean ====
section
/-! DEFINITION. The configuration loader (R33, R90, R112, R219, R220): its checks, LOAD, LOADSH and the end of a load. -/

namespace Sys2Proof.Machine

/-! ### What a check finds -/

/-- A failing condition (R220): the rule and its place in the list, the element, and the move, handler and port that
it concerns. -/
structure CfgFault where
  rule : Nat
  item : Nat
  elem : Nat
  midx : Option Nat
  hnd  : Option Nat
  port : Option Nat
  pio  : Bool
deriving DecidableEq, Repr

/-- A failing condition of an element as a whole. -/
def cfgElem (rule item elem : Nat) : CfgFault := ⟨rule, item, elem, none, none, none, false⟩

/-- TRDET0 of a configuration fault (R220). -/
def cfgDetail (f : CfgFault) : BitVec 64 :=
  BitVec.ofNat 64 (f.rule * 2 ^ 56 + f.item * 2 ^ 48 + f.elem % 32 * 2 ^ 43 + f.midx.getD 0 % 64 * 2 ^ 37
    + f.hnd.getD 0 % 8 * 2 ^ 34 + f.port.getD 0 % 8 * 2 ^ 31 + flagAt f.pio 30 + flagAt f.midx.isSome 29
    + flagAt f.hnd.isSome 28 + flagAt f.port.isSome 27)

/-- The first of some findings. -/
def firstSome {α β : Type} (f : α → Option β) : List α → Option β
  | [] => none
  | x :: t => match f x with | some y => some y | none => firstSome f t

/-- What a load works on: the tile within its die, the side, the plane, the images by element of the side, those that have arrived,
and the tables present for them. -/
structure CfgCtx where
  tile   : Nat
  side   : Nat
  pl     : Nat
  imgs   : Nat → Image
  came   : Nat → Bool
  tables : Nat → Bool
  types  : Nat → Bool

/-! ### The moves of a handler -/

/-- FOP of a move word. -/
def fopOf (w : Word32) : Nat := (w.extractLsb' 16 6).toNat
/-- SRCP of a move word. -/
def srcOf (w : Word32) : Nat := (w.extractLsb' 27 5).toNat
/-- DSTP of a move word. -/
def dstOf (w : Word32) : Nat := (w.extractLsb' 22 5).toNat
/-- LANE of a move word. -/
def laneCode (w : Word32) : Nat := (w.extractLsb' 14 2).toNat
/-- TOV of a move word. -/
def tovCode (w : Word32) : Nat := (w.extractLsb' 12 2).toNat
/-- IMM of a move word. -/
def immOf (w : Word32) : Nat := (w.extractLsb' 0 8).toNat

/-- A trigger port (R31). -/
def isTrigger (d : Nat) : Bool := [17, 20, 22, 24, 27].contains d
/-- An output port (R31). -/
def isOutPort (d : Nat) : Bool := 8 ≤ d && d < 16

/-- The greatest FOP of a trigger port's unit (R32). -/
def fopMax (d : Nat) : Nat :=
  match d with | 17 => 17 | 20 => 4 | 22 => 8 | 24 => 3 | 27 => 8 | _ => 0

/-- The bits of IMM that an operation of a unit uses (R100 to R109). -/
def fopImm (d fop : Nat) : Nat :=
  match d, fop with
  | 17, 16 => 0x07 | 20, 3 => 0x07 | 22, 8 => 0x03 | 24, 1 => 0x7F | 24, 2 => 0x7F | 24, 3 => 0xFF | 27, 2 => 0x7F
  | 27, 6 => 0x07 | _, _ => 0

/-- Whether the operation of a move uses IMM, so that LANE = 11 is not allowed (R112): MAX does as a scale maximum, which
IMM[3:0] makes it (R106). -/
def usesImm (w : Word32) : Bool :=
  fopImm (dstOf w) (fopOf w) != 0 && !(dstOf w == 27 && fopOf w == 2 && immOf w % 16 == 0)

/-- The bits of IMM that a move uses. -/
def immUsed (w : Word32) : Nat :=
  Nat.lor (Nat.lor (fopImm (dstOf w) (fopOf w)) (if laneCode w = 3 then 0x0F else 0))
    (Nat.lor (if srcOf w = 29 then 0x07 else 0)
      (Nat.lor (if srcOf w = 31 || dstOf w = 31 then 0x03 else 0) (if isOutPort (dstOf w) then 0xE0 else 0)))

/-- The bits [4:0] of a move to an output are reserved (R98), but for those that name the index of its source or the lane
it broadcasts (R30, R97); a guarded move and a scale move have no such index, as the opcode table fixes those bits. DEDUCED
(notes/assumptions/98.md). -/
def outRes (w : Word32) : Bool :=
  isOutPort (dstOf w) && Nat.land (immOf w) (0x1F - (if bit (immOf w) 7 || bit (immOf w) 5 then 0 else immUsed w % 32)) != 0

/-- The items 1 to 7 of R33 that a move breaks, first one first. -/
def moveForm (w : Word32) : Option Nat :=
  let s := srcOf w
  let d := dstOf w
  if !(s < 8 || [18, 21, 23, 25, 28, 29, 30, 31].contains s)
      || !(isOutPort d || [16, 17, 19, 20, 22, 24, 26, 27, 31].contains d) then some 1
  else if isTrigger d != (fopOf w != 0) then some 2
  else if isTrigger d && fopMax d < fopOf w then some 3
  else if w.extractLsb' 8 2 != 0 || outRes w then some 4
  else if laneCode w = 3 && immOf w / 16 != 0 then some 5
  else if Nat.land (immOf w) (255 - immUsed w) != 0 then some 6
  else if tovCode w != 0 && !isTrigger d && !isOutPort d then some 7
  else none

/-- The bundles of a list of moves, by EOB. -/
def splitBundles : List (Nat × Word32) → List (List (Nat × Word32))
  | [] => []
  | p :: t =>
    if p.2.getLsbD 11 then [p] :: splitBundles t
    else match splitBundles t with
      | [] => [[p]]
      | b :: r => (p :: b) :: r

/-- The enabled handlers of an image. -/
def enabledHandlers (im : Image) : List Nat := (List.range 8).filter fun h => hEn im h

/-- The moves of an enabled handler with the handler's number. -/
def handlerWords (im : Image) (h : Nat) : List (Nat × Word32) := handlerMoves im (hStart im h) 64

/-- The rule R33 on an image. -/
def check33 (e : Nat) (im : Image) : Option CfgFault :=
  firstSome (fun h =>
    let l := handlerWords im h
    let last := l.getLast?.getD (0, 0)
    match firstSome (fun p => (moveForm p.2).map fun i => (i, p.1)) l with
    | some (i, m) => some ⟨33, i, e, some m, some h, none, false⟩
    | none =>
      if !last.2.getLsbD 10 then some ⟨33, 8, e, some last.1, some h, none, false⟩
      else if !last.2.getLsbD 11 then some ⟨33, 9, e, some last.1, some h, none, false⟩
      else if (splitBundles l).length != hBundles im h then some ⟨33, 10, e, none, some h, none, false⟩
      else none) (enabledHandlers im)

/-! ### R90 -/

/-- The data items that the delay lines of an image name, in 64-byte units (R88). -/
def dlItems (im : Image) : Nat :=
  (List.range 4).foldl (fun acc d =>
    let n := ((List.range 16).filter fun i => dlPre im d i).length
    if n = 0 then acc else Nat.max acc (dlOff im d + n)) 0

/-- DLB of an image. -/
def imgDlb (im : Image) : Nat := bits (imgWord im 0) 12 0

/-- Whether an input descriptor's fields are in range (R88, R197). -/
def inputForm (e i : Nat) (im : Image) : Bool :=
  let k := inKind im i
  k != 3 && bits (inDesc im i) 31 0 == 0 && !(inLoc im i && k != 1) && (k == 0 || inType im i < 14)
    && (k != 2 || (inFrom im i ≤ 20
      && (inFrom im i != 20 || (16 ≤ e && e < 24 && i == 0 && (inType im i == 0 || inType im i == 7)))))

/-- Whether an output descriptor's fields are in range (R88, R197). -/
def outputForm (e o : Nat) (im : Image) : Bool :=
  let k := outKind im o
  k != 3 && bits (outDesc im o) 42 0 == 0 && !(outLoc im o && k != 1) && (k == 0 || outType im o < 14)
    && (k != 2 || (outTo im o ≤ 5 && (outTo im o != 5 || (e < 16 && o == 0))))

/-- Whether the header, the reserved words, the handler and delay-line descriptors and DLB are in range. -/
def headerForm (im : Image) : Bool :=
  let h := imgWord im 0
  bits h 63 48 == 1 && bits h 47 40 == 0 && bits h 33 13 == 0
    && ((List.range 7).all fun i => imgWord im (1 + i) == 0) && bits (imgWord im 132) 63 32 == 0
    && ((List.range 123).all fun i => imgWord im (133 + i) == 0)
    && ((List.range 8).all fun n => bits (hDesc im n) 19 0 == 0)
    && ((List.range 4).all fun d => bits (dlDesc im d) 37 0 == 0
        && (List.range 16).all fun i => i < dlDepth im d || !dlPre im d i)
    && imgDlb im ≤ 4096 && imgDlb im == 64 * dlItems im

/-- An end of a link: tile, element and port as FROM and TO give them (R88). -/
def linkEnd (v : Nat) : Nat × Nat × Nat := (bits v 13 8, bits v 7 3, bits v 2 0)

/-- Whether an input's link has its producing end among the images of the load's side that have arrived. -/
def localIn (x : CfgCtx) (im : Image) (i : Nat) : Bool :=
  inKind im i == 1 && inLoc im i && (linkEnd (inFrom im i)).2.1 / 16 == x.side && x.came ((linkEnd (inFrom im i)).2.1 % 16)

/-- Whether an output's link has its consuming end among the images of the load's side that have arrived. -/
def localOut (x : CfgCtx) (im : Image) (o : Nat) : Bool :=
  outKind im o == 1 && outLoc im o && (linkEnd (outTo im o)).2.1 / 16 == x.side && x.came ((linkEnd (outTo im o)).2.1 % 16)

/-- Item 2 of R90 at an input: the producing end names it. -/
def inputAgrees (x : CfgCtx) (e i : Nat) (im : Image) : Bool :=
  let p := linkEnd (inFrom im i)
  let q := x.imgs (p.2.1 % 16)
  !localIn x im i || (outKind q p.2.2 == 1 && outLoc q p.2.2 && (linkEnd (outTo q p.2.2)).2 == (e, i))

/-- Item 2 of R90 at an output: the consuming end names it. -/
def outputAgrees (x : CfgCtx) (e o : Nat) (im : Image) : Bool :=
  let p := linkEnd (outTo im o)
  let q := x.imgs (p.2.1 % 16)
  !localOut x im o || (inKind q p.2.2 == 1 && inLoc q p.2.2 && (linkEnd (inFrom q p.2.2)).2 == (e, o))

/-- Item 4 of R90: the types at the two ends of a link of the side. -/
def typesAgree (x : CfgCtx) (i : Nat) (im : Image) : Bool :=
  let p := linkEnd (inFrom im i)
  !localIn x im i || outType (x.imgs (p.2.1 % 16)) p.2.2 == inType im i

/-- Item 3 of R90: a local link's tile field is 0, another's is not the loading tile. -/
def tileField (x : CfgCtx) (loc : Bool) (v : Nat) : Bool :=
  if loc then (linkEnd v).1 == 0 else (linkEnd v).1 != x.tile

/-- The finding of an input. -/
def atInput (item e i : Nat) : CfgFault := ⟨90, item, e, none, none, some i, false⟩
/-- The finding of an output. -/
def atOutput (item e o : Nat) : CfgFault := ⟨90, item, e, none, none, some o, true⟩

/-- The first input or output for which a condition fails. -/
def portsFail (item e : Nat) (okIn okOut : Nat → Bool) : Option CfgFault :=
  match (List.range 8).find? fun i => !okIn i with
  | some i => some (atInput item e i)
  | none => ((List.range 8).find? fun o => !okOut o).map (atOutput item e)

/-- Items 1 to 7 of R90. -/
def check90a (x : CfgCtx) (e : Nat) (im : Image) : Option CfgFault :=
  if !headerForm im then some (cfgElem 90 1 e)
  else
    match portsFail 1 e (fun i => inputForm e i im && (inKind im i == 0 || x.types (inType im i)))
      (fun o => outputForm e o im && (outKind im o == 0 || x.types (outType im o))) with
    | some f => some f
    | none =>
      match portsFail 2 e (fun i => inputAgrees x e i im) (fun o => outputAgrees x e o im) with
      | some f => some f
      | none =>
        match portsFail 3 e (fun i => inKind im i != 1 || tileField x (inLoc im i) (inFrom im i))
            (fun o => outKind im o != 1 || tileField x (outLoc im o) (outTo im o)) with
        | some f => some f
        | none =>
          match portsFail 4 e (fun i => typesAgree x i im) (fun _ => true) with
          | some f => some f
          | none =>
            match portsFail 5 e (fun i => inSm im i != 3 && !(inSm im i != 0 && intCode (inType im i))) (fun _ => true) with
            | some f => some f
            | none =>
              if bits (imgWord im 0) 39 35 != e || bits (imgWord im 0) 34 34 != x.pl then some (cfgElem 90 6 e)
              else if (connected im).isEmpty then some (cfgElem 90 7 e)
              else none

/-- A finding at a move. -/
def atMove (rule item e h m : Nat) : CfgFault := ⟨rule, item, e, some m, some h, none, false⟩

/-- Items 8 to 11 of R90 for a handler: requirements on unconnected inputs, and what its moves read and write. -/
def check90moves (e : Nat) (im : Image) (h : Nat) : Option CfgFault :=
  match (List.range 8).find? fun i => hPat im h i % 2 == 1 && inKind im i == 0 with
  | some i => some ⟨90, 8, e, none, some h, some i, false⟩
  | none =>
    firstSome (fun (p : Nat × Word32) =>
      let s := srcOf p.2
      let d := dstOf p.2
      if s < 8 && hPat im h s % 2 == 0 then some (atMove 90 9 e h p.1)
      else if isOutPort d && (outKind im (d - 8) == 0 || !hOmask im h (d - 8)) then some (atMove 90 10 e h p.1)
      else if (s = 31 || d = 31) && (dlInput im (immOf p.2 % 4)).isSome then some (atMove 90 11 e h p.1)
      else if d = 22 && fopOf p.2 = 8 && lutMap im (immOf p.2 % 4) == 0xFF then some (atMove 90 12 e h p.1)
      else none) (handlerWords im h)

/-- What a move writes, for the limits of R68: a scale move and a data move to one output are two destinations. -/
def writesTo (w : Word32) : Nat × Bool := (dstOf w, isOutPort (dstOf w) && bit (immOf w) 5)

/-- The first move whose destination an earlier one of the list writes too. -/
def repeated : List (Nat × Bool) → List (Nat × Word32) → Option Nat
  | _, [] => none
  | seen, p :: t => if seen.contains (writesTo p.2) then some p.1 else repeated (writesTo p.2 :: seen) t

/-- Whether a handler's moves write a data item or a delay line, or trigger a unit (R78). -/
def handlerWorks (im : Image) (h : Nat) : Bool :=
  (handlerWords im h).any fun p =>
    isTrigger (dstOf p.2) || dstOf p.2 == 31 || (isOutPort (dstOf p.2) && !bit (immOf p.2) 5)

/-- Item 13 of R90 for a handler: R68, the one data move to an output (R78), and the cost rule. -/
def check90limits (e : Nat) (im : Image) (h : Nat) : Option CfgFault :=
  match firstSome (fun b => repeated [] b) (splitBundles (handlerWords im h)) with
  | some m => some (atMove 90 13 e h m)
  | none =>
    match repeated [] ((handlerWords im h).filter fun p => isOutPort (dstOf p.2) && !bit (immOf p.2) 5) with
    | some m => some (atMove 90 13 e h m)
    | none =>
      if !handlerWorks im h && bits (hDesc im h) 35 28 != 0 then some ⟨90, 13, e, none, some h, none, false⟩ else none

/-- Items 8 to 13 of R90. -/
def check90b (x : CfgCtx) (e : Nat) (im : Image) : Option CfgFault :=
  match firstSome (check90moves e im) (enabledHandlers im) with
  | some f => some f
  | none =>
    match (List.range 8).find? fun i => inDly im i && (List.range i).any fun j => inDly im j && inDln im j == inDln im i with
    | some i => some (atInput 11 e i)
    | none =>
      match (List.range 4).find? fun i => lutMap im i != 0xFF && !(lutMap im i < 16 && x.tables (lutMap im i)) with
      | some _ => some (cfgElem 90 12 e)
      | none => firstSome (check90limits e im) (enabledHandlers im)

/-- The consumers that an element reaches on its side without delay: by links whose input has neither a delay line nor the
constructive mark (R84). -/
def zeroDelayTo (x : CfgCtx) (j : Nat) : List Nat :=
  let im := x.imgs j
  ((List.range 8).filter fun o => localOut x im o).filterMap fun o =>
    let p := linkEnd (outTo im o)
    if inDly (x.imgs (p.2.1 % 16)) p.2.2 || inCons (x.imgs (p.2.1 % 16)) p.2.2 then none else some (p.2.1 % 16)

/-- The elements left after those without a successor among them are removed, again and again. -/
def pruneEnds (next : Nat → List Nat) : Nat → List Nat → List Nat
  | 0, l => l
  | fuel + 1, l => pruneEnds next fuel (l.filter fun j => (next j).any fun k => l.contains k)

/-- Item 14 of R90 at an element: the fault names the element, and the rule does not say which one of a cycle. The model names
the lowest from which a zero-delay cycle of the side is reached. DESIGN CHOICE (notes/assumptions/101.md). -/
def check90cycle (x : CfgCtx) (e : Nat) : Option CfgFault :=
  match (pruneEnds (zeroDelayTo x) 16 (List.range 16)).head? with
  | some j => if j = e % 16 then some (cfgElem 90 14 e) else none
  | none => none

/-! ### R112 -/

/-- The item of R112 that a move of a handler breaks. -/
def moveRule112 (types : Nat → Bool) (im : Image) (h : Nat) (w : Word32) : Option Nat :=
  let s := srcOf w
  let d := dstOf w
  let f := fopOf w
  let t := immOf w % 16
  let part := immOf w / 16 % 8
  if laneCode w = 3 && usesImm w then some 1
  else if ((d = 20 && f = 2) || (d = 24 && f = 2)) && 8 ≤ s then some 2
  else if (d = 24 && (f = 1 || f = 3) && !types t) || (d = 24 && f = 2 && t != 0) || (d = 24 && f = 3 && !(1 ≤ t && t ≤ 6 && immOf w < 128))
      || (d = 27 && f = 2 && 7 ≤ t) then some 3
  else if d = 24 && (f = 1 || f = 3) && !partOk ((Ty.ofCode t).getD .f32) part then some 4
  else if d = 27 && f = 6 && (hPat im h (immOf w % 8) % 2 == 0 || inDly im (immOf w % 8)) then some 5
  else if isOutPort d && ((bit (immOf w) 5 && (laneCode w != 0 || tovCode w != 0))
      || (tovCode w != 0 && (match tovCode w with | 1 => 0 | 2 => 7 | _ => 11) != outType im (d - 8))) then some 6
  else if laneCode w = 3 && (s = 29 || s = 31 || d = 31) then some 8
  else none

/-- The rule R112 on an image; items 5 and 6 also limit a handler to one MERGE, and to one scale move to each output. -/
def check112 (types : Nat → Bool) (e : Nat) (im : Image) : Option CfgFault :=
  firstSome (fun h =>
    match firstSome (fun (p : Nat × Word32) => (moveRule112 types im h p.2).map fun i => atMove 112 i e h p.1) (handlerWords im h) with
    | some f => some f
    | none =>
      let merges := (handlerWords im h).filter fun p => dstOf p.2 == 27 && fopOf p.2 == 6
      if 1 < merges.length then some ⟨112, 5, e, none, some h, none, false⟩
      else (repeated [] ((handlerWords im h).filter fun p => isOutPort (dstOf p.2) && bit (immOf p.2) 5)).map fun m => atMove 112 6 e h m)
    (enabledHandlers im)

/-- Every check of one image, in the order of the rules. -/
def checkImage (x : CfgCtx) (j : Nat) : Option CfgFault :=
  let e := 16 * x.side + j
  let im := x.imgs j
  match check33 e im with
  | some f => some f
  | none =>
    match check90a x e im with
    | some f => some f
    | none =>
      match check90b x e im with
      | some f => some f
      | none =>
        match check90cycle x e with
        | some f => some f
        | none => check112 x.types e im

/-! ### The loader's commands (R219, R220) -/

/-- Entry i of a plane directory at a share offset. -/
def dirEntry (t : Tile) (c : CtxSet) (dir i : Nat) : Nat := (shareWord t c (dir * 16 + 8 * i)).toNat
/-- The share offset of image j. -/
def imgOffset (t : Tile) (c : CtxSet) (dir j : Nat) : Nat := dirEntry t c dir j % 2 ^ 15 * 64
/-- LMASK of a directory. -/
def dirLmask (t : Tile) (c : CtxSet) (dir : Nat) : Nat := dirEntry t c dir 16 % 2 ^ 16
/-- The share offset of table k. -/
def tableOffset (t : Tile) (c : CtxSet) (dir k : Nat) : Nat := dirEntry t c dir 16 / 2 ^ 16 % 2 ^ 17 * 16 + 1024 * k

/-- The set that owns a plane: PLOWN bit side × 2 + plane (R125). -/
def planeOwner (t : Tile) (k : Nat) : Nat := if bit t.plown.toNat k then 1 else 0

/-- Whether a plane is in force for a region of the set, or named by a SWITCH that is pending (R220). -/
def planeInUse (c : CtxSet) (side pl : Nat) : Bool :=
  (List.range 4).any fun r =>
    let g := regionOf c r
    regionHeld g &&
      (if side = 0 then g.ens && (g.pe == pl || (match g.swe with | some p => p.plane == pl | none => false))
       else g.exs && (g.px == pl || (match g.swx with | some p => p.plane == pl | none => false)))

/-- Whether a plane of the other set maps a table that a mask names (R220). -/
def lutBusy (t : Tile) (set mask : Nat) : Bool :=
  (List.range 4).any fun k =>
    let p := Tab.get Plane.empty t.planes k
    p.valid && planeOwner t k != set &&
      p.imgs.any fun im => (List.range 4).any fun i => lutMap im.2 i < 16 && bit mask (lutMap im.2 i)

/-- The fault of a load at issue (R220, R242): FORMAT for a directory outside the share or with a reserved bit set, PLANE,
LUTBUSY. -/
def loadCheck (side pl dir : Nat) (s : State) : Option Nat :=
  let t := curTile s
  let c := curSet s
  if shareBytes c < dir * 16 + 160 then some 1
  else if ((List.range 16).any fun i => dirEntry t c dir i / 2 ^ 15 != 0) || dirEntry t c dir 16 / 2 ^ 33 != 0
      || (List.range 3).any (fun i => dirEntry t c dir (17 + i) != 0) then some 1
  else if planeOwner t (side * 2 + pl) != s.focus.set || planeInUse c side pl then some 2
  else if lutBusy t s.focus.set (dirLmask t c dir) then some 7
  else none

/-- A load begun: the plane is empty from now on. -/
def beginLoad (c : Cmd) (side pl dir : Nat) (s : State) : State :=
  let k := side * 2 + pl
  let l : LoadRun := ⟨side, pl, dir, tscOf s s.focus.tile, ringHead (curSet s) 3, c.sig, 0, 0, 0, [], [], [], none⟩
  let s1 := modCurTile s fun t => { t with planes := Tab.set t.planes k { Tab.get Plane.empty t.planes k with valid := false } }
  nextCommand (modCurSet s1 fun x => { x with load := some l }) 3

/-- LOAD (R219). -/
def execLoadPlane (c : Cmd) (s : State) : Host.Outcome State Fault Refusal :=
  let side := argBits c 41 41
  let pl := argBits c 40 40
  let dir := argBits c 16 0
  runCommand s 3 c 0 (fun s1 => (curSet s1).load.isNone) (loadCheck side pl dir) (beginLoad c side pl dir)

/-- The plane that a LOADSH loads: the one not in force for the set's region on the side, or plane 0 without one. -/
def shadowPlane (c : CtxSet) (side : Nat) : Nat :=
  match slotOfElem c (16 * side) with
  | some _ => 1 - planeOf c (16 * side)
  | none => 0

/-- LOADSH (R219). -/
def execLoadsh (c : Cmd) (s : State) : Host.Outcome State Fault Refusal :=
  let side := argBits c 41 41
  let dir := argBits c 16 0
  runCommand s 3 c 0 (fun s1 => (curSet s1).load.isNone) (fun s1 => loadCheck side (shadowPlane (curSet s1) side) dir s1)
    (fun s1 => beginLoad c side (shadowPlane (curSet s1) side) dir s1)

/-- The directory entry that a load has read. -/
def loadEntry (l : LoadRun) (i : Nat) : Nat := (Tab.get 0 l.dirw i).toNat
/-- The tables that a load's LMASK names, in ascending order. -/
def loadTables (l : LoadRun) : List Nat := (List.range 16).filter fun k => bit (loadEntry l 16) k
/-- The image that a load has read for an element of its side. -/
def loadImage (l : LoadRun) (j : Nat) : Image := Tab.get ⟨[], []⟩ l.imgs j
/-- The bytes of delay-line data that an image's first word gives, in whole items. -/
def dlWords (im : Image) : Nat := 8 * ceilDiv (imgDlb im) 64

/-- The words of the part that a load reads. -/
def partWords (l : LoadRun) : Nat :=
  if l.part = 0 then 20 else if l.part ≤ 16 then 256 + (if l.off = 0 then 0 else dlWords (loadImage l (l.part - 1))) else 128

/-- The share offset of the part that a load reads. -/
def partOffset (l : LoadRun) : Nat :=
  if l.part = 0 then l.dir * 16
  else if l.part ≤ 16 then loadEntry l (l.part - 1) % 2 ^ 15 * 64
  else loadEntry l 16 / 2 ^ 16 % 2 ^ 17 * 16 + 1024 * (loadTables l).getD (l.part - 17) 0

/-- Whether a load has read everything. -/
def loadRead (l : LoadRun) : Bool := 17 + (loadTables l).length ≤ l.part && 0 < l.part

/-- What a load checks. -/
def loadCtx (t : Tile) (tile set : Nat) (l : LoadRun) : CfgCtx :=
  { tile := tile % 64, side := l.side, pl := l.pl, imgs := loadImage l, came := fun j => j + 1 < l.part, types := fun _ => true
    tables := fun k => (loadTables l).contains k || (Tab.get ⟨[], none⟩ t.luts k).owner == some set }

/-- The fault of the image that a load has just read (R33, R90, R112): its own first, then those that its coming shows in the images
before it. DEDUCED (notes/assumptions/110.md). -/
def arrivedFault (x : CfgCtx) (j : Nat) : Option CfgFault := firstSome (checkImage x) (j :: List.range j)

/-- Whether the part that a load is at leaves the share: an image with its delay-line data, or a table. -/
def partOutside (c : CtxSet) (l : LoadRun) : Bool :=
  1 ≤ l.part && (if l.part ≤ 16 then l.off ≤ 1 && shareBytes c < partOffset l + 8 * partWords l
    else l.off == 0 && shareBytes c < partOffset l + 1024)

/-- A word that a load has read put in its place: an image keeps the words that are not 0. -/
def placeWord (l : LoadRun) (v : BitVec 64) : LoadRun :=
  if l.part = 0 then { l with dirw := Tab.set l.dirw l.off v }
  else if l.part ≤ 16 then
    let j := l.part - 1
    let im := loadImage l j
    let i := (l.off - 256) / 8
    let im1 : Image := if l.off < 256 then (if v = 0 then im else { im with words := Tab.set im.words l.off v })
      else { im with dl := Tab.set im.dl i (Tab.get 0 im.dl i + BitVec.ofNat 512 (v.toNat * 2 ^ (64 * (l.off % 8)))) }
    { l with imgs := Tab.set l.imgs j im1 }
  else
    let k := (loadTables l).getD (l.part - 17) 0
    let tab := Tab.get [] l.luts k
    { l with luts := Tab.set l.luts k (Tab.set (Tab.set tab (2 * l.off) (v.extractLsb' 0 32)) (2 * l.off + 1) (v.extractLsb' 32 32)) }

/-- The next words of a load, up to a number of them: a part that leaves the share, or an image that fails a check, ends it. -/
def readLoad (s : State) (tile set : Nat) : Nat → LoadRun → LoadRun
  | 0, l => l
  | fuel + 1, l =>
    let t := getTile s tile
    let c := getSet s tile set
    let fault (f : CfgFault) (off : Nat) : LoadRun := { l with bad := some (cfgDetail f, off) }
    if l.bad.isSome || loadRead l then l
    else if partOutside c l then
      (if l.part ≤ 16 then fault (cfgElem 90 1 (16 * l.side + l.part - 1)) (partOffset l) else fault (cfgElem 90 12 (16 * l.side)) (l.dir * 16))
    else
      let l1 := placeWord l (shareWord t c (partOffset l + 8 * l.off))
      let l2 := { l1 with words := l.words + 1, off := l.off + 1 }
      if l2.off < partWords l2 then readLoad s tile set fuel l2
      else
        let l3 := { l2 with part := l.part + 1, off := 0 }
        let x := { loadCtx t tile set l3 with types := typeThere s }
        match (if 1 ≤ l.part && l.part ≤ 16 then arrivedFault x (l.part - 1) else none) with
        | some f => { l3 with bad := some (cfgDetail f, loadEntry l (f.elem % 16) % 2 ^ 15 * 64) }
        | none => readLoad s tile set fuel l3

/-- A step of the loader (R220): 512 bytes of the share are read, from the step after issue on. -/
def loadStep (s : State) (tile : Nat) : State :=
  let t := getTile s tile
  let set := t.active
  match (getSet s tile set).load with
  | none => s
  | some l =>
    if !edgeNow s tile || t.removed || tscOf s tile < l.issue + 1 + l.words / 64 then s
    else modSet s tile set fun c => { c with load := some (readLoad s tile set 64 l) }

/-- The step at which a load that has read everything succeeds (R220). -/
def loadStop (l : LoadRun) : Nat := l.issue + ceilDiv (8 * l.words) 512 + 16

/-- The tables of a load filled (R88). -/
def fillTables (t : Tile) (set : Nat) (l : LoadRun) : Tab Lut :=
  (loadTables l).foldl (fun acc k => Tab.set acc k ⟨Tab.get [] l.luts k, some set⟩) t.luts

/-- The load has ended: its signal is raised. -/
def closeLoad (s : State) (tile set : Nat) (l : LoadRun) : State :=
  modSet s tile set fun c => raiseSignal { c with load := none } l.sig

/-- LOAD_END (R220): a rejected load leaves the plane empty and raises a configuration fault; another makes the plane valid
once its steps have passed. -/
def execLoadEnd (tile : Nat) (s : State) : Host.Outcome State Fault Refusal :=
  let t := getTile s tile
  let set := t.active
  match (getSet s tile set).load with
  | none => .next s
  | some l =>
    if !edgeNow s tile || t.removed then .next s
    else
      match l.bad with
      | some (f, off) => .next (raiseTrap (closeLoad s tile set l) tile set (unitRec 0x17 1 3 0 l.pos off f 0))
      | none =>
        if !loadRead l || tscOf s tile < loadStop l then .next s
        else
          let imgs : Tab Image := (List.range 16).map fun j => (j, loadImage l j)
          .next (closeLoad (modTile s tile fun x =>
            { x with planes := Tab.set x.planes (l.side * 2 + l.pl) ⟨true, false, imgs⟩, luts := fillTables x set l }) tile set l)

end Sys2Proof.Machine
end

