-- ==== Sys2Proof/Machine/Templates.lean ====
section
/-! DEFINITION. Copy templates (R348) and what a running transfer holds of a tile (R352, R353). -/

namespace Sys2Proof.Machine

/-- Word i of a template. -/
def tplWord (b : List (BitVec 64)) (i : Nat) : Nat := (b.getD i 0).toNat
/-- SSP: 0 scratchpad, 1 device virtual address, 2 fabric channel. -/
def tplSsp (b : List (BitVec 64)) : Nat := bits (tplWord b 0) 63 61
/-- SADDR. -/
def tplSaddr (b : List (BitVec 64)) : Nat := bits (tplWord b 0) 55 0
/-- DSP. -/
def tplDsp (b : List (BitVec 64)) : Nat := bits (tplWord b 1) 63 61
/-- DADDR. -/
def tplDaddr (b : List (BitVec 64)) : Nat := bits (tplWord b 1) 55 0
/-- NROW. -/
def tplNrow (b : List (BitVec 64)) : Nat := bits (tplWord b 2) 63 32
/-- ROWB. -/
def tplRowb (b : List (BitVec 64)) : Nat := bits (tplWord b 2) 31 0
/-- SSTR, signed. -/
def tplSstr (b : List (BitVec 64)) : Int := sextN (bits (tplWord b 3) 63 32) 32
/-- DSTR, signed. -/
def tplDstr (b : List (BitVec 64)) : Int := sextN (bits (tplWord b 3) 31 0) 32
/-- CHAN. -/
def tplChan (b : List (BitVec 64)) : Nat := bits (tplWord b 4) 57 48
/-- MODE: 0 plain, 1 gather, 2 transform, 3 gather through a transform. -/
def tplMode (b : List (BitVec 64)) : Nat := bits (tplWord b 4) 47 46
/-- CRV. -/
def tplCrv (b : List (BitVec 64)) : Bool := bit (tplWord b 4) 45
/-- AS. -/
def tplAs (b : List (BitVec 64)) : Bool := bit (tplWord b 4) 44
/-- AD. -/
def tplAd (b : List (BitVec 64)) : Bool := bit (tplWord b 4) 43
/-- ASTR. -/
def tplAstr (b : List (BitVec 64)) : Nat := bits (tplWord b 4) 31 0
/-- ISP. -/
def tplIsp (b : List (BitVec 64)) : Nat := bits (tplWord b 5) 63 61
/-- IADDR. -/
def tplIaddr (b : List (BitVec 64)) : Nat := bits (tplWord b 5) 55 0
/-- TTILE. -/
def tplTtile (b : List (BitVec 64)) : Nat := bits (tplWord b 6) 63 56
/-- TQ. -/
def tplTq (b : List (BitVec 64)) : Nat := bits (tplWord b 6) 55 52
/-- TWP. -/
def tplTwp (b : List (BitVec 64)) : Nat := bits (tplWord b 6) 51 50
/-- RIN. -/
def tplRin (b : List (BitVec 64)) : Nat := bits (tplWord b 6) 47 40
/-- ROUT. -/
def tplRout (b : List (BitVec 64)) : Nat := bits (tplWord b 6) 39 32
/-- CREC. -/
def tplCrec (b : List (BitVec 64)) : Nat := bits (tplWord b 7) 55 0

/-- Whether a template passes rows through a transform region. -/
def isTransform (b : List (BitVec 64)) : Bool := 2 ≤ tplMode b
/-- Whether a template reads its rows by index. -/
def isGather (b : List (BitVec 64)) : Bool := tplMode b % 2 == 1

/-- The items that a transform sends (R352). -/
def itemsIn (b : List (BitVec 64)) : Nat := tplNrow b * tplRowb b / 64
/-- P, the items that a transform expects (R352). -/
def itemsOut (b : List (BitVec 64)) : Nat := tplNrow b * tplRowb b * tplRout b / (64 * tplRin b)
/-- u, the items of a destination row of a transform (R353). -/
def itemsPerRow (b : List (BitVec 64)) : Nat :=
  if tplRowb b * tplRout b % (64 * tplRin b) = 0 then tplRowb b * tplRout b / (64 * tplRin b) else 1

/-- The transfers of all channels, each with its channel. -/
def allTransfers (s : State) : List (Nat × Transfer) := s.copies.flatMap fun c => c.2.runs.map fun r => (c.1, r)

/-- Whether a transfer runs through a region of a tile's set. -/
def transformOn (s : State) (tile set : Nat) (r : Transfer) : Bool :=
  isTransform r.words && r.bound && tplTtile r.words == tile && setOfCtx (getTile s tile) r.ctx == some set

/-- Whether a transfer holds a write port of a tile's set (R353): it has bound it, and its P-th item has not arrived. -/
def copyHolds (s : State) (tile set p : Nat) : Bool :=
  (allTransfers s).any fun r => transformOn s tile set r.2 && p == 4 + tplTwp r.2.words && !r.2.ended && r.2.got < itemsOut r.2.words

/-- Whether a transfer feeds a stream register of a tile's set (R353). -/
def transferFeeds (s : State) (tile set q : Nat) : Bool :=
  (allTransfers s).any fun r => transformOn s tile set r.2 && q == tplTq r.2.words && !r.2.ended

/-- A transfer of a channel changed. -/
def modTransfer (s : State) (chan : Nat) (id : BitVec 32) (f : Transfer → Transfer) : State :=
  { s with copies := Tab.mapAll (fun c x =>
      if c == chan then { x with runs := x.runs.map fun r => if r.id == id then f r else r } else x) s.copies }

/-- The address to which item t of a transform goes (R353). -/
def itemAddr (r : Transfer) (t : Nat) : Nat :=
  let b := r.words
  let u := itemsPerRow b
  wrapI ((tplDaddr b + (if tplAd b then r.arg.toNat * tplAstr b else 0) : Nat) + (t / u : Nat) * tplDstr b + (64 * (t % u) : Nat)) 56

/-- A region that ends, stops or leaves before a transfer through it has its items stops the transfer (R353, R362): reason
TXSHORT, at the address of the item that is missing. -/
def shortTransfers (s : State) (tile set slot : Nat) : State :=
  { s with copies := Tab.mapAll (fun _ x =>
      { x with runs := x.runs.map fun r =>
          if transformOn s tile set r && r.tslot == slot && !r.ended && r.stop.isNone && r.got < itemsOut r.words
          then { r with stop := some (5, itemAddr r r.got) } else r }) s.copies }

end Sys2Proof.Machine
end

