-- ==== Sys2Proof/Machine/Ports.lean ====
section
/-! DEFINITION. Stream parameter blocks and the ports of a set (R227, R228), and the entries on their way to fire lines
(R346). -/

namespace Sys2Proof.Machine

/-! ### The fields of an SPB -/

/-- Word i of an SPB. -/
def spbWord (b : List (BitVec 64)) (i : Nat) : Nat := (b.getD i 0).toNat
/-- TYPE. -/
def spbType (b : List (BitVec 64)) : Nat := bits (spbWord b 0) 62 59
/-- SPACE: 0 share offset, 1 device virtual address, 2 fabric channel. -/
def spbSpace (b : List (BitVec 64)) : Nat := bits (spbWord b 0) 58 56
/-- BASE. -/
def spbBase (b : List (BitVec 64)) : Nat := bits (spbWord b 0) 55 0
/-- ROT. -/
def spbRot (b : List (BitVec 64)) : Nat := bits (spbWord b 1) 61 58
/-- SMODE. -/
def spbSmode (b : List (BitVec 64)) : Nat := bits (spbWord b 1) 57 56
/-- SCBASE. -/
def spbScbase (b : List (BitVec 64)) : Nat := bits (spbWord b 1) 55 0
/-- COUNT of a dimension. -/
def spbCount (b : List (BitVec 64)) (d : Nat) : Nat := bits (spbWord b (2 + d / 2)) (32 * (d % 2) + 31) (32 * (d % 2))
/-- STR of a dimension, signed, in elements. -/
def spbStride (b : List (BitVec 64)) (d : Nat) : Int := sextN (bits (spbWord b (4 + d / 2)) (32 * (d % 2) + 31) (32 * (d % 2))) 32
/-- ASKIP. -/
def spbAskip (b : List (BitVec 64)) : Bool := bit (spbWord b 6) 22
/-- SAT. -/
def spbSat (b : List (BitVec 64)) : Bool := bit (spbWord b 6) 21
/-- SCOPE. -/
def spbScope (b : List (BitVec 64)) : Nat := bits (spbWord b 6) 20 18
/-- ORD: 0 relaxed, 1 acquire, 2 release. -/
def spbOrd (b : List (BitVec 64)) : Nat := bits (spbWord b 6) 17 16
/-- OTAG. -/
def spbOtag (b : List (BitVec 64)) : Nat := bits (spbWord b 6) 15 8
/-- IXS. -/
def spbIxs (b : List (BitVec 64)) : Nat := bits (spbWord b 6) 2 0
/-- The format of TYPE. -/
def spbTy (b : List (BitVec 64)) : Ty := (Ty.ofCode (spbType b)).getD .f32
/-- The element width of TYPE. -/
def spbWidth (b : List (BitVec 64)) : Nat := (spbTy b).width
/-- The elements of a stream (R228). -/
def spbTotal (b : List (BitVec 64)) : Nat := spbCount b 0 * spbCount b 1 * spbCount b 2 * spbCount b 3

/-! ### Ports -/

/-- A port of a set, if it is open. -/
def portIn (c : CtxSet) (p : Nat) : Option StreamPort := Tab.find? c.ports p

/-- The state with a port of a set changed; nothing where it is closed. -/
def modPort (s : State) (tile set p : Nat) (f : StreamPort → StreamPort) : State :=
  modSet s tile set fun c =>
    match portIn c p with
    | some x => { c with ports := Tab.set c.ports p (f x) }
    | none => c

/-- The state with a port unbound, and detached from its fabric channel (R409). -/
def unbindPort (s : State) (tile set p : Nat) : State :=
  { modSet s tile set (fun c => { c with ports := Tab.erase c.ports p }) with
    fabChans := Tab.mapAll (fun _ f => if f.port == some (tile, set, p) then { f with port := none } else f) s.fabChans }

/-- Whether every write that a port has accepted is performed at its SPB's SCOPE (R296). -/
def portWritesDone (s : State) (tile set p : Nat) (x : StreamPort) : Bool :=
  x.writes.all fun id => performedId s (.port tile set p) (spbScope x.spb) id

/-- The first answer of a function over a list. -/
def firstAnswer (l : List Nat) (f : Nat → Option (Nat × Nat)) : Option (Nat × Nat) :=
  match l with
  | [] => none
  | x :: t => match f x with | some y => some y | none => firstAnswer t f

/-- The element and output that feed a write port's sink in a set, with the image: the element of a held region with such a
sink. -/
def sinkFeeder (t : Tile) (c : CtxSet) (code : Nat) : Option (Nat × Nat) :=
  firstAnswer ((List.range 32).filter fun e => (slotOfElem c e).isSome) fun e =>
    let im := imageOf t e (planeOf c e)
    ((List.range 8).find? fun o => outKind im o == 2 && bits (outTo im o) 4 0 == code).map fun o => (e, o)

/-- The element and input that a region source of a set feeds. -/
def sourceReader (t : Tile) (c : CtxSet) (code : Nat) : Option (Nat × Nat) :=
  firstAnswer ((List.range 32).filter fun e => (slotOfElem c e).isSome) fun e =>
    let im := imageOf t e (planeOf c e)
    ((List.range 8).find? fun i => inKind im i == 2 && bits (inFrom im i) 4 0 == code).map fun i => (e, i)

/-- A port unbound, with the signals of its CLOSEs raised, which promise its writes (R231, R296). The writes that a write port has accepted stay the region's, which
awaits and publishes them at CSCOPE (R226). -/
def finishClose (s : State) (tile set p : Nat) : State :=
  match portIn (getSet s tile set) p with
  | none => s
  | some x =>
    let slot := if p < 4 then none else (sinkFeeder (getTile s tile) (getSet s tile set) (p - 4)).bind fun f => slotOfElem (getSet s tile set) f.1
    modSet (unbindPort s tile set p) tile set fun c =>
      let c1 := match slot with
        | some r => { c with regions := Tab.set c.regions r { regionOf c r with gone := (regionOf c r).gone ++ x.writes } }
        | none => c
      x.sigs.foldl (fun y g => promiseSignal y (some g) (x.writes.filter fun id => (findReq s id).isSome)) c1

/-- Whether a read port is the index port of another open port (R228): it feeds no region. -/
def indexesOther (c : CtxSet) (p : Nat) : Bool := p < 4 && c.ports.any fun x => x.1 < 4 && spbIxs x.2.spb == p + 1

/-- The stream ports that sources and sinks of a region name. -/
def portsOfRegion (t : Tile) (c : CtxSet) (slot : Nat) : List Nat :=
  (List.range 8).filter fun p =>
    match (if p < 4 then sourceReader t c (16 + p) else sinkFeeder t c (p - 4)) with
    | some (e, _) => (regionElems (regionOf c slot)).contains e
    | none => false

/-! ### Fire lines (R346) -/

/-- The armed slots of a line, by number engine × 64 + slot. -/
def armedOn (s : State) (line : Nat) : List Nat := Tab.keysWhere s.slots fun _ x => x.line == line

/-- An entry sent to a line: it is under way until every slot of the line has taken it. -/
def sendFire (s : State) (line : Nat) (arg : BitVec 32) : State :=
  { s with serial := s.serial + 1, fires := s.fires ++ [⟨s.serial, line, arg⟩] }

/-- Whether an entry is still under way. -/
def fireUnderWay (s : State) (id : Nat) : Bool := s.fires.any fun x => x.id == id

end Sys2Proof.Machine
end

