-- ==== Sys2Proof/Machine/Regions.lean ====
section
/-! DEFINITION. Regions (R216 to R226): FIRE, SWITCH and ABORT, the tag of a SWITCH, retirement and its completion store. -/

namespace Sys2Proof.Machine

/-! ### FIRE (R221, R222) -/

/-- What a FIRE names: the slot, the sides and planes, and the share offset of the record. -/
structure FireArg where
  slot : Nat
  ens  : Bool
  exs  : Bool
  pe   : Nat
  px   : Nat
  rrec : Nat
deriving DecidableEq, Repr

/-- The arguments of a FIRE on an engine (R221). -/
def fireArg (e : Engine) (c : Cmd) : FireArg :=
  let both := e == .ce && argBits c 39 39 == 1
  { slot := argBits c 41 40, ens := e == .ce, exs := e == .cx || both, pe := argBits c 38 38, px := argBits c 37 37
    rrec := argBits c 36 22 * 64 }

/-- The elements that a FIRE takes. -/
def fireElems (a : FireArg) : List Nat :=
  (if a.ens then List.range 16 else []) ++ (if a.exs then (List.range 16).map (· + 16) else [])

/-- The image of an element under the planes of a FIRE. -/
def fireImage (t : Tile) (a : FireArg) (e : Nat) : Image := imageOf t e (if e < 16 then a.pe else a.px)

/-- Word i of a region record (R218). -/
def recWord (t : Tile) (c : CtxSet) (a : FireArg) (i : Nat) : Nat := (shareWord t c (a.rrec + 8 * i)).toNat

/-- Whether a region record is in the share with its reserved fields 0 and a defined CSCOPE. -/
def recordOk (t : Tile) (c : CtxSet) (a : FireArg) : Bool :=
  a.rrec + 64 ≤ shareBytes c && recWord t c a 0 / 2 ^ 56 == 0 && recWord t c a 2 / 2 ^ 26 == 0
    && bits (recWord t c a 2) 15 3 == 0 && recWord t c a 2 % 8 ≤ 4
    && (List.range 5).all fun i => recWord t c a (3 + i) == 0

/-- Whether a side of the set holds a region. -/
def sideHeld (c : CtxSet) (exit : Bool) : Bool :=
  (List.range 4).any fun r => regionHeld (regionOf c r) && (if exit then (regionOf c r).exs else (regionOf c r).ens)

/-- Whether a plane of a side is valid and the set's own. -/
def planeReady (t : Tile) (set side pl : Nat) : Bool :=
  (Tab.get Plane.empty t.planes (side * 2 + pl)).valid && planeOwner t (side * 2 + pl) == set

/-- Whether an open read port that feeds an element of the FIRE carries another TYPE than the input's ITYPE (R229). -/
def typeMismatch (t : Tile) (c : CtxSet) (a : FireArg) : Bool :=
  (fireElems a).any fun e =>
    let im := fireImage t a e
    (List.range 8).any fun i =>
      inKind im i == 2 && 16 ≤ inFrom im i && inFrom im i < 20 &&
        (match portIn c (inFrom im i - 16) with | some x => spbType x.spb != inType im i | none => false)

/-- Whether a link end on the issuing tile lies in the FIRE's sides. -/
def localEnds (t : Tile) (a : FireArg) : Bool :=
  (fireElems a).all fun e =>
    let im := fireImage t a e
    (List.range 8).all fun n =>
      !(inKind im n == 1 && inLoc im n && !(fireElems a).contains (linkEnd (inFrom im n)).2.1)
        && !(outKind im n == 1 && outLoc im n && !(fireElems a).contains (linkEnd (outTo im n)).2.1)

/-- Whether the two ends of every local link of the FIRE's sides name each other and carry one type (items 2 and 4 of R90). -/
def innerEnds (t : Tile) (a : FireArg) : Bool :=
  (fireElems a).all fun e =>
    let im := fireImage t a e
    (List.range 8).all fun n =>
      let p := linkEnd (inFrom im n)
      let q := linkEnd (outTo im n)
      let src := fireImage t a p.2.1
      let snk := fireImage t a q.2.1
      (!(inKind im n == 1 && inLoc im n) || (outKind src p.2.2 == 1 && outLoc src p.2.2 && (linkEnd (outTo src p.2.2)).2 == (e, n)
          && outType src p.2.2 == inType im n))
        && (!(outKind im n == 1 && outLoc im n) || (inKind snk q.2.2 == 1 && inLoc snk q.2.2 && (linkEnd (inFrom snk q.2.2)).2 == (e, n)))

/-- The elements that an element of the FIRE's sides reaches without delay: by local links whose input has neither a delay line
nor the constructive mark (R84). -/
def fireNext (t : Tile) (a : FireArg) (e : Nat) : List Nat :=
  let im := fireImage t a e
  ((List.range 8).filter fun o => outKind im o == 1 && outLoc im o).filterMap fun o =>
    let p := (linkEnd (outTo im o)).2
    if inDly (fireImage t a p.1) p.2 || inCons (fireImage t a p.1) p.2 then none else some p.1

/-- Whether the region of a FIRE keeps items 2, 4 and 14 of R90 over all its sides. A load sees the images of one side only, and
which plane of the other side joins it is known when the region is fired: there the links between the sides are checked.
DESIGN CHOICE (notes/assumptions/100.md). -/
def regionJoins (t : Tile) (a : FireArg) : Bool :=
  innerEnds t a && (pruneEnds (fireNext t a) 32 (fireElems a)).isEmpty

/-- Whether a tile is the context's: it holds a share of it or a set of it (R333, R372). -/
def tileIsOf (s : State) (ctx u : Nat) : Bool :=
  (Tab.find? (getCtx s ctx).shares u).isSome || (setOfCtx (getTile s u) ctx).isSome

/-- The image in force of an element of the context on another tile, where its region runs there. -/
def runningImage (s : State) (ctx u e : Nat) : Option Image :=
  match setOfCtx (getTile s u) ctx with
  | some j =>
    let c := getSet s u j
    if elemRuns c e then some (imageOf (getTile s u) e (planeOf c e)) else none
  | none => none

/-- Whether the remote end of a link agrees (R333): the tile is the context's, and where its region runs its descriptor
names this end and the types are equal. -/
def remoteAgrees (s : State) (ctx tile : Nat) (isIn : Bool) (e n ty end_ : Nat) : Bool :=
  let p := linkEnd end_
  let u := tile / 64 * 64 + p.1
  tileIsOf s ctx u &&
    (match runningImage s ctx u p.2.1 with
    | none => true
    | some q =>
      if isIn then
        outKind q p.2.2 == 1 && !outLoc q p.2.2 && linkEnd (outTo q p.2.2) == (tile % 64, e, n) && outType q p.2.2 == ty
      else inKind q p.2.2 == 1 && !inLoc q p.2.2 && linkEnd (inFrom q p.2.2) == (tile % 64, e, n) && inType q p.2.2 == ty)

/-- Whether every remote end of the FIRE's links agrees. -/
def remoteEnds (s : State) (ctx tile : Nat) (a : FireArg) : Bool :=
  let t := getTile s tile
  (fireElems a).all fun e =>
    let im := fireImage t a e
    (List.range 8).all fun n =>
      (!(inKind im n == 1 && !inLoc im n) || remoteAgrees s ctx tile true e n (inType im n) (inFrom im n))
        && (!(outKind im n == 1 && !outLoc im n) || remoteAgrees s ctx tile false e n (outType im n) (outTo im n))

/-- The command fault of a FIRE (R222, R242). -/
def fireCheck (a : FireArg) (s : State) : Option Nat :=
  let t := curTile s
  let c := curSet s
  if regionHeld (regionOf c a.slot) then some 4
  else if (a.ens && sideHeld c false) || (a.exs && sideHeld c true) then some 3
  else if (a.ens && !planeReady t s.focus.set 0 a.pe) || (a.exs && !planeReady t s.focus.set 1 a.px) then some 2
  else if !recordOk t c a then some 1
  else if !localEnds t a || !regionJoins t a || !remoteEnds s (curCtx s) s.focus.tile a then some 6
  else if typeMismatch t c a then some 11
  else none

/-- A delay line as FIRE pre-loads it (R83, R88). -/
def firedLine (im : Image) (d : Nat) : List LineEntry :=
  (List.range (dlDepth im d)).map fun i =>
    if dlPre im d i then ⟨1, Tab.get 0 im.dl (dlOff im d + ((List.range i).filter fun j => dlPre im d j).length), []⟩
    else ⟨0, 0, []⟩

/-- An element in its FIRE state (R222). -/
def firedElem (im : Image) : Elem :=
  { Elem.reset with
    ins := (connected im).map fun i => (i, { InState.reset with ty := inType im i, sm := inSm im i })
    lines := (List.range 4).map fun d => (d, firedLine im d) }

/-- Segments returned to the scree pool of a context on a tile's die (R323). -/
def returnSegs (s : State) (tile : Nat) (ctx : Option Nat) (n : Nat) : State :=
  match ctx with
  | some x =>
    if n = 0 then s
    else modCtx s x fun c => { c with scrnUsed := Tab.modify 0 c.scrnUsed (tileDie tile) fun u => u - n }
  | none => s

/-- A channel of a set emptied, its segments returned (R222, R224). -/
def emptyChan (s : State) (tile key depth : Nat) : State :=
  let ch := chanOf (getTile s tile) key
  returnSegs (modTile s tile fun t => { t with chans := Tab.set t.chans key { Chan.empty with depth := depth } }) tile
    (getSet s tile (key / 1024)).ctx ch.segs

/-- Whether the producing end of a link from another tile stands in a running region there (R222). -/
def producerRuns (s : State) (ctx tile : Nat) (im : Image) (i : Nat) : Bool :=
  inKind im i == 1 && !inLoc im i &&
    (runningImage s ctx (tile / 64 * 64 + (linkEnd (inFrom im i)).1) (linkEnd (inFrom im i)).2.1).isSome

/-- The channels of an element at FIRE: emptied, but for one from another tile whose producing region runs. -/
def fireChans (s : State) (tile set e : Nat) (im : Image) : State :=
  let ctx := (getSet s tile set).ctx.getD 0
  let s1 := (List.range 8).foldl (fun acc i =>
    let key := chanKey set e i
    if producerRuns s ctx tile im i then modChan acc tile key fun c => { c with held := [], depth := inDepth im i }
    else emptyChan acc tile key (inDepth im i)) s
  ((List.range 8).filter fun o => outKind im o == 2).foldl (fun acc o =>
    emptyChan acc tile (sinkKey set e o) (if outTo im o = 5 then 4 else 2)) s1

/-- The sinks of a FIRE's elements, each with a value. -/
def fireSinks (t : Tile) (set : Nat) (a : FireArg) (f : Image → Nat → Nat) : Tab Nat :=
  (fireElems a).flatMap fun e =>
    let im := fireImage t a e
    ((List.range 8).filter fun o => outKind im o == 2).map fun o => (sinkKey set e o, f im o)

/-- The region that a FIRE starts (R218, R222). -/
def firedRegion (s : State) (a : FireArg) (eng : Nat) (sig : Option TokenRef) : Region :=
  let t := curTile s
  let c := curSet s
  { Region.free with
    st := .running, ens := a.ens, exs := a.exs, pe := a.pe, px := a.px
    caddr := BitVec.ofNat 56 (recWord t c a 0), cval := BitVec.ofNat 64 (recWord t c a 1)
    flv := bit (recWord t c a 2) 25, fl := BitVec.ofNat 9 (recWord t c a 2 / 2 ^ 16), cscope := recWord t c a 2 % 8
    sig := sig, eng := eng, sinks := fireSinks t s.focus.set a fun _ _ => 0, moved := s.dcc, snapAfter := true
    otys := fireSinks t s.focus.set a fun im o => outType im o }

/-- Whether a source or sink of a FIRE names a stream port. -/
def firePorts (t : Tile) (a : FireArg) (p : Nat) : Bool :=
  (fireElems a).any fun e =>
    let im := fireImage t a e
    (List.range 8).any fun n =>
      (inKind im n == 2 && inFrom im n == 16 + p && p < 4) || (outKind im n == 2 && outTo im n + 4 == p && 4 ≤ p)

/-- The groups of array feeds that some elements deliver to (R197): 0 for W0 to W7, 1 for N0 to N7. -/
def feedGroups (image : Nat → Image) (elems : List Nat) : List Nat :=
  ([0, 1] : List Nat).filter fun g => elems.any fun e => e / 8 == g && outKind (image e) 0 == 2 && outTo (image e) 0 == 5

/-- A FIRE's effect (R222). A port that delivered or counted the END of an earlier firing takes part in this one
(notes/assumptions/25.md). -/
def fireEffect (e : Engine) (c : Cmd) (s : State) : State :=
  let a := fireArg e c
  let set := s.focus.set
  let t := curTile s
  let s1 := (fireElems a).foldl (fun acc n =>
    fireChans (setElem acc s.focus.tile set n (firedElem (fireImage t a n))) s.focus.tile set n (fireImage t a n)) s
  let before := headStores s (engineNum e)
  nextCommand (modCurSet s1 fun x =>
    { x with
      ports := Tab.mapAll (fun p y => if firePorts t a p && !y.closing then { y with ended := false } else y) x.ports
      regions := Tab.set x.regions a.slot { firedRegion s a (engineNum e) c.sig with before := before }
      scrn := Tab.set x.scrn a.slot 0
      me := { x.me with over_ := x.me.over_.filter fun g => !(feedGroups (fireImage t a) (fireElems a)).contains g }
      qregs := Tab.mapAll (fun _ q => if q.slot == some a.slot then { q with ended := false, next := 0 } else q) x.qregs })
    (engineNum e)

/-- FIRE (R221, R222). -/
def execFireRegion (e : Engine) (c : Cmd) (s : State) : Host.Outcome State Fault Refusal :=
  runCommand s (engineNum e) c 0 (fun _ => true) (fireCheck (fireArg e c)) (fireEffect e c)

/-! ### SWITCH (R223) -/

/-- The SWITCH in hand on a side of a region. -/
def pendOf (g : Region) (side : Nat) : Option PendSwitch := if side = 0 then g.swe else g.swx

/-- A region with the SWITCH in hand on a side replaced. -/
def setPend (g : Region) (side : Nat) (p : Option PendSwitch) : Region :=
  if side = 0 then { g with swe := p } else { g with swx := p }

/-- The region of a set that occupies a side. -/
def sideRegion (c : CtxSet) (side : Nat) : Option Nat :=
  (List.range 4).find? fun r =>
    regionHeld (regionOf c r) && (if side = 0 then (regionOf c r).ens else (regionOf c r).exs)

/-- The state with a region of a set changed. -/
def modRegion (s : State) (tile set slot : Nat) (f : Region → Region) : State :=
  modSet s tile set fun c => { c with regions := Tab.set c.regions slot (f (regionOf c slot)) }

/-- Whether two images of an element are structurally equal (R223). -/
def sameStructure (p q : Image) : Bool :=
  let drop (d : Nat) : Nat := d - bits d 47 44 * 2 ^ 44
  (List.range 8).all (fun i => drop (inDesc p i) == drop (inDesc q i) && drop (outDesc p i) == drop (outDesc q i))
    && (List.range 4).all fun d => dlDepth p d == dlDepth q d

/-- The command fault of a SWITCH at issue (R223, R242). -/
def switchCheck (side slot pl : Nat) (s : State) : Option Nat :=
  let t := curTile s
  let c := curSet s
  let g := regionOf c slot
  if g.st != .running || !(if side = 0 then g.ens else g.exs) then some 4
  else if !planeReady t s.focus.set side pl then some 2
  else if !((List.range 16).all fun j =>
      sameStructure (imageOf t (16 * side + j) (planeOf c (16 * side))) (imageOf t (16 * side + j) pl)) then some 6
  else none

/-- SWITCH (R223): it issues when no earlier SWITCH of the side is in hand, and stays at the ring's head until its tag
reaches the side. -/
def execSwitchPlane (e : Engine) (c : Cmd) (s : State) : Host.Outcome State Fault Refusal :=
  let side := engineNum e - 1
  let slot := argBits c 41 40
  runCommand s (engineNum e) c 0 (fun s1 => (pendOf (regionOf (curSet s1) slot) side).isNone)
    (switchCheck side slot (argBits c 7 7)) fun s1 =>
      modRegion s1 s1.focus.tile s1.focus.set slot fun g =>
        setPend g side (some ⟨argBits c 39 8, argBits c 7 7, c.sig, tscOf s1 s1.focus.tile, false, ringHead (curSet s1) (engineNum e)⟩)

/-- Whether an element's current instant is more than one above a tag (R223, R85). -/
def pastTag (e : Elem) (tag : Nat) : Bool :=
  let d := (e.inst + 2 ^ 33 - tag - 1) % 2 ^ 32
  !e.finished && d != 0 && d < 2 ^ 31

/-- The first instant under the new plane of a tag that is not late: the tag's successor, in the window of R85. -/
def firstAfter (inst tag : Nat) : Nat := inst + (tag + 1 + 2 ^ 32 - inst % 2 ^ 32) % 2 ^ 32

/-- An element that a tag reaches: it changes plane after the tag's instant, and where that reaction is selected already it
owes a SWITCH entry to every connected output. -/
def tagElem (im : Image) (elem tag pl : Nat) (x : Elem) : Elem :=
  if x.finished then x
  else
    let f := firstAfter x.inst tag
    { x with
      swTag := some (f, pl)
      swOwed := if f = x.inst then (outputs im).map fun o => (o, switchPayload elem f pl) else [] }

/-- SWITCH_TAG_ARRIVAL (R223): at issue + 2 the tag reaches the side, or is found late. The region may have begun to retire. -/
def execSwitchTagArrival (tile side : Nat) (s : State) : Host.Outcome State Fault Refusal :=
  let t := getTile s tile
  let set := t.active
  let c := getSet s tile set
  match sideRegion c side with
  | none => .next s
  | some slot =>
    match pendOf (regionOf c slot) side with
    | none => .next s
    | some p =>
      if p.reached || tscOf s tile < p.issue + 2 || !edgeNow s tile || t.removed then .next s
      else
        let s0 := { s with focus := ⟨tile, set, 0, side + 1, 0⟩ }
        let elems := (List.range 16).map (· + 16 * side)
        if elems.any fun e => pastTag (elemOfSet c e) p.tag then
          .next (commandFault (modRegion s0 tile set slot fun g => setPend g side none) (side + 1) 5)
        else
          let s1 := elems.foldl (fun acc e =>
            modElem acc tile set e (tagElem (imageOf t e (planeOf c e)) e p.tag p.plane)) s0
          .next (nextCommand (modRegion s1 tile set slot fun g => setPend g side (some { p with reached := true })) (side + 1))

/-- Whether an element has passed the tag of the switch in hand (R223): its reactions up to the tag's instant have left
stage 6 with their SWITCH entries, or it has finished. -/
def passedTag (e : Elem) : Bool :=
  e.finished || (match e.swTag with | some (f, _) => f ≤ e.emitted && e.swOwed.isEmpty | none => true)

/-- A switch whose elements have all passed its tag ends (R223): the plane is in force, and the signal is raised. -/
def endSwitch (s : State) (tile side : Nat) : State :=
  let set := (getTile s tile).active
  let c := getSet s tile set
  match sideRegion c side with
  | none => s
  | some slot =>
    match pendOf (regionOf c slot) side with
    | none => s
    | some p =>
      let elems := (List.range 16).map (· + 16 * side)
      if p.reached && elems.all fun e => passedTag (elemOfSet c e) then
        let s1 := elems.foldl (fun acc e => modElem acc tile set e fun x => { x with swTag := none, swOwed := [] }) s
        modSet (modRegion s1 tile set slot fun g =>
          let g1 := setPend g side none
          if side = 0 then { g1 with pe := p.plane } else { g1 with px := p.plane }) tile set fun x => raiseSignal x p.sig
      else s

/-! ### ABORT (R224) -/

/-- A slot made free: what it last reported of its planes and its frontier stays readable. -/
def freeRegion (g : Region) : Region := { Region.free with pe := g.pe, px := g.px, front := g.front }

/-- An agent's parked access discarded (R298): for a fence that waits on it, it counts as performed. -/
def unpark (s : State) (a : Agent) : State :=
  let s1 := { s with walks := s.walks.map fun w => { w with who := w.who.erase a } }
  match a with
  | .port t i p =>
    (match portIn (getSet s1 t i) p with
    | some x => portDone (modPort s1 t i p fun y => { y with miss := none }) t i p x.thr [] fun _ => true
    | none => s1)
  | _ => s1

/-- A port closed by an ABORT: it fetches and delivers no more, and is unbound once its accepted writes are performed; the signal of
a CLOSE in hand is raised then (R231). -/
def abortPort (s : State) (tile set p : Nat) : State :=
  match portIn (getSet s tile set) p with
  | some x =>
    if p < 4 || portWritesDone s tile set p x then finishClose (unpark s (.port tile set p)) tile set p
    else modPort (unpark s (.port tile set p)) tile set p fun y => { y with closing := true, ended := true, stopped := false, ahead := [], owed := [] }
  | none => s

/-- The channels of an element emptied (R224). -/
def abortChans (s : State) (tile set e : Nat) : State :=
  (List.range 8).foldl (fun acc o => emptyChan acc tile (sinkKey set e o) (chanOf (getTile s tile) (sinkKey set e o)).depth)
    ((List.range 8).foldl (fun acc i => emptyChan acc tile (chanKey set e i) (chanOf (getTile s tile) (chanKey set e i)).depth) s)

/-- A region stopped by an ABORT (R224): its reactions, faults, entries and switches are gone, its ports closed. -/
def abortRegionNow (s : State) (tile set slot : Nat) (sig : Option TokenRef) : State :=
  let c := getSet s tile set
  let g := regionOf c slot
  let ports := portsOfRegion (getTile s tile) c slot
  let s1 := (regionElems g).foldl (fun acc e =>
    modElem (abortChans acc tile set e) tile set e fun x =>
      { x with rxs := [], fault := none, paid := none, swTag := none, swOwed := [], cairnIn := [] }) s
  let s2 := ports.foldl (fun acc p => abortPort acc tile set p) s1
  let waits (side : Nat) : Bool := match pendOf g side with | some p => !p.reached | none => false
  let s3 := if waits 0 then nextCommand s2 1 else s2
  let s4 := if waits 1 then nextCommand s3 2 else s3
  let s5 := match g.stored with | some id => dropReq s4 id | none => s4
  modRegion (unpark (shortTransfers s5 tile set slot) (.region tile set slot)) tile set slot fun x => { x with st := .stopped, swe := none, swx := none, abort := some sig, sig := none }

/-- The write ports of a region whose accepted writes an ABORT awaits. -/
def portsDraining (s : State) (tile set slot : Nat) : Bool :=
  let c := getSet s tile set
  ((regionOf c slot).gone.any fun id => !performedId s (.region tile set slot) 0 id)
    || (portsOfRegion (getTile s tile) c slot).any fun p =>
      match portIn c p with
      | some x => !portWritesDone s tile set p x
      | none => false

/-- An aborted region whose accepted writes are performed: its ports are unbound, its slot is free and its signal is
raised (R224). -/
def endAbort (s : State) (tile set slot : Nat) : State :=
  let c := getSet s tile set
  match (regionOf c slot).abort with
  | some sig =>
    if portsDraining s tile set slot then s
    else
      let s1 := (portsOfRegion (getTile s tile) c slot).foldl (fun acc p => finishClose acc tile set p) s
      modSet (modRegion s1 tile set slot freeRegion) tile set fun x => raiseSignal x sig
  | none => s

/-- ABORT (R224). -/
def execAbortRegion (e : Engine) (c : Cmd) (s : State) : Host.Outcome State Fault Refusal :=
  let slot := argBits c 41 40
  runCommand s (engineNum e) c 0 (fun s1 => (regionOf (curSet s1) slot).abort.isNone) (fun _ => none) fun s1 =>
    if regionHeld (regionOf (curSet s1) slot) then
      let pos := (engineNum e, ringHead (curSet s1) (engineNum e))
      let s2 := abortRegionNow (nextCommand s1 (engineNum e)) s1.focus.tile s1.focus.set slot c.sig
      endAbort (modRegion s2 s1.focus.tile s1.focus.set slot fun x => { x with abortAt := some pos }) s1.focus.tile s1.focus.set slot
    else modCurSet (nextCommand s1 (engineNum e)) fun x => raiseSignal x c.sig

/-! ### Retirement (R226) -/

/-- REGION_RETIRE (R226, R224): every configured sink has counted its END; an aborted region's slot becomes free. -/
def execRegionRetire (tile slot : Nat) (s : State) : Host.Outcome State Fault Refusal :=
  let t := getTile s tile
  let set := t.active
  let c := getSet s tile set
  let g := regionOf c slot
  if !edgeNow s tile || t.removed || slot ≥ 4 then .next s
  else if g.abort.isSome then .next (endAbort s tile set slot)
  else if g.st == .running && !g.sinks.isEmpty && g.sinks.all (fun k => g.ends.contains k.1) then
    let fed := feedGroups (fun e => imageOf t e (planeOf c e)) (regionElems g)
    .next (modSet (modRegion s tile set slot fun x => { x with st := .retiring }) tile set fun x =>
      { x with me := { x.me with over_ := x.me.over_ ++ fed } })
  else .next s

/-- Whether a record of a source kind stands in a set: presented or held. -/
def recordStands (c : CtxSet) (p : TrapRec → Bool) : Bool := (c.trap.valid && p c.trap.cur) || c.trap.held.any p

/-- The write ports of a region. -/
def writePorts (s : State) (tile set slot : Nat) : List Nat :=
  (portsOfRegion (getTile s tile) (getSet s tile set) slot).filter fun p => 4 ≤ p

/-- The writes that a region's write ports have accepted, those of ports unbound since among them, and that are under way. -/
def regionWrites (s : State) (tile set slot : Nat) : List Nat :=
  let c := getSet s tile set
  ((regionOf c slot).gone ++ (writePorts s tile set slot).flatMap fun p => ((portIn c p).map fun x => x.writes).getD []).filter fun id =>
    (findReq s id).isSome

/-- What a region's release waits for and publishes (R226, R291): its write ports' writes, and the stores in flight that happen before
its FIRE or before an EMIT to it. -/
def regionStores (s : State) (tile set slot : Nat) : List Nat :=
  (regionWrites s tile set slot ++ (regionOf (getSet s tile set) slot).before).filter fun id => (findReq s id).isSome

/-- Whether every write that a region's write ports accepted is performed at a scope (R226 step 1). -/
def regionWritesDone (s : State) (tile set slot scope : Nat) : Bool :=
  (regionWrites s tile set slot).all fun id => performedId s (.region tile set slot) scope id

/-- The completion store sent (R226 step 2): a release store at CSCOPE. -/
def sendCompletion (s : State) (tile set slot : Nat) (loc : Loc) : State :=
  let g := regionOf (getSet s tile set) slot
  let who : Agent := .region tile set slot
  let ids := regionStores s tile set slot
  let r : Req :=
    { id := s.serial, agent := who, op := .store, va := g.caddr.toNat, loc := loc, size := 8, val := g.cval, cmp := 0,
      sx := false, scope := g.cscope, acq := false, rel := true, sc := false, after := ids.map fun id => (id, g.cscope),
      stage := .held, res := 0, bad := false, trap := none, dst := .none, pc := 0, grp := s.serial, mask := 0, zl := false,
      since := s.dcc, waiting := false, pub := some ⟨ids, g.cscope, who⟩, got := [], dead := false, due := none, ahead := [], place := 0 }
  modRegion (pushReq s r) tile set slot fun x => { x with stored := some r.id }

/-- A fault of a completion store (R226): source kind region; the slot stays retiring. -/
def storeFault (s : State) (tile set slot cause : Nat) : State :=
  raiseTrap s tile set (unitRec cause 3 0 slot 0 (regionOf (getSet s tile set) slot).caddr.toNat 0 0)

/-- The completion store's address checked and the store sent (R226 step 2, R152). -/
def tryCompletion (s : State) (tile set slot : Nat) : State :=
  let c := getSet s tile set
  let va := (regionOf c slot).caddr.toNat
  let ctx := c.ctx.getD 0
  if va % 8 != 0 then storeFault s tile set slot 0x04
  else if apertureBase ≤ va then
    if shareBytes c < va - apertureBase + 8 then storeFault s tile set slot 0x08
    else sendCompletion s tile set slot (.sp tile (spPhys c (va - apertureBase)))
  else
    match translate s tile ctx [] va with
    | .miss => park s (tileDie tile) ctx va (.region tile set slot)
    | .none => storeFault s tile set slot 0x05
    | .hit pa m =>
      if !m.w then storeFault s tile set slot 0x06
      else if !kindOk .plain 8 (placeOf pa) m then storeFault s tile set slot 0x07
      else sendCompletion s tile set slot (.mem pa)

/-- Whether a SWITCH of a region waits at its ring's head for its tag (R223). -/
def tagComing (g : Region) : Bool := [0, 1].any fun side => match pendOf g side with | some p => !p.reached | none => false

/-- A retired region's slot made free, FIRE's signal raised (R226). A SWITCH that has not ended ends with the region, and raises its
signal. DEDUCED (notes/assumptions/111.md). -/
def retireRegion (s : State) (tile set slot : Nat) : State :=
  let g := regionOf (getSet s tile set) slot
  let s1 := (regionElems g).foldl (fun acc e => modElem acc tile set e fun x => { x with swTag := none, swOwed := [] }) s
  let ids := regionStores s tile set slot
  modSet (modRegion s1 tile set slot freeRegion) tile set fun x =>
    ([pendOf g 0, pendOf g 1].filterMap id).foldl (fun y p => raiseSignal y p.sig) (promiseSignal x g.sig ids)

/-- REGION_COMPLETION_STORE (R226): the next part of a retirement: the store, once the writes are performed; the fire
entry, once the store is; and the signal, once the entry is delivered. -/
def execRegionCompletionStore (tile slot : Nat) (s : State) : Host.Outcome State Fault Refusal :=
  let t := getTile s tile
  let set := t.active
  let c := getSet s tile set
  let g := regionOf c slot
  let who : Agent := .region tile set slot
  if g.st != .retiring || g.noStore || !edgeNow s tile || t.removed || parkedOn s who
      || recordStands c (fun r => r.src == 3 && r.slot == slot) then .next s
  else
    match g.stored with
    | none => if regionWritesDone s tile set slot g.cscope then .next (tryCompletion s tile set slot) else .next s
    | some id =>
      if !performedId s who g.cscope id then .next s
      else if g.flv && g.sent.isNone then
        if performedId s who 3 id && (regionStores s tile set slot).all fun i => performedId s who 3 i then
          .next (modRegion (sendFire s g.fl.toNat (g.cval.setWidth 32)) tile set slot fun x => { x with sent := some s.serial })
        else .next s
      else if (match g.sent with | some n => fireUnderWay s n | none => false) then .next s
      else if tagComing g then .next s
      else .next (retireRegion s tile set slot)

end Sys2Proof.Machine
end

