-- ==== Sys2Proof/Machine/Reads.lean ====
section
/-! DEFINITION. How a unit other than a thread reaches memory (R228, R284, R285, R299, R320): the byte that it reads at a
location, the location of one of its addresses, and the store requests that it makes. -/

namespace Sys2Proof.Machine

/-! ### Bytes as an agent sees them -/

/-- Whether a request is still to change a byte that an agent reads, and the reading would follow it (R285, R287, R299): its own or its
copy channel's, one that its tile has sent, or one that its cluster's column has taken into its local queue. -/
def readWaits (s : State) (g : Agent) (l : Loc) : Bool :=
  s.reqs.any fun e =>
    !isApplied e && reqStores e.op && overlaps e.loc e.size l 1
      && (e.agent == g || sameChannel e.agent g || (sameTile e.agent g && e.stage != .held)
        || (e.stage == .accepted && (agentTile g).map tileSlot == (agentTile e.agent).map tileSlot))

/-! ### Addresses -/

/-- What becomes of an address of a unit: a location, a miss that parks, or a trap. -/
inductive UnitLoc where
  | loc (l : Loc)
  | miss
  | trap (cause : Nat)
deriving DecidableEq, Repr

/-- The location of a byte of a set's share. -/
def shareByte (s : State) (tile set : Nat) (a : Int) : UnitLoc :=
  let c := getSet s tile set
  if 0 ≤ a && a < (shareBytes c : Int) then .loc (.sp tile (spPhys c a.toNat)) else .trap 0x08

/-- The location of a byte at a device virtual address, for a unit of a tile's set (R152, R284). -/
def virtualByte (s : State) (tile set : Nat) (va : Nat) (needW : Bool) : UnitLoc :=
  if apertureBase ≤ va then shareByte s tile set ((va - apertureBase : Nat) : Int)
  else
    match translate s tile ((getSet s tile set).ctx.getD 0) [] va with
    | .miss => .miss
    | .none => .trap 0x05
    | .hit pa m =>
      if (if needW then !m.w else !m.r) then .trap 0x06
      else if !kindOk .plain 1 (placeOf pa) m then .trap 0x07
      else .loc (.mem pa)

/-- The location of a byte in a space of R227: 0 share offset, 1 device virtual address. -/
def spaceByte (s : State) (tile set space : Nat) (a : Int) (needW : Bool) : UnitLoc :=
  if space = 0 then shareByte s tile set a else virtualByte s tile set (wrapI a 56) needW

/-- What reading gives: a number, a miss at an address, a trap at an address, or nothing yet. -/
inductive Got where
  | val (v : Nat)
  | miss (va : Nat)
  | trap (cause va : Nat)
  | wait
deriving DecidableEq, Repr

/-- The byte that an agent reads at an address of a space. -/
def readByte (s : State) (g : Agent) (tile set space : Nat) (a : Int) : Got :=
  match spaceByte s tile set space a false with
  | .miss => .miss (wrapI a 56)
  | .trap cause => .trap cause (wrapI a 56)
  | .loc l =>
    if lineBad s l then .trap 0x09 (wrapI a 56)
    else if readWaits s g l then .wait
    else .val (locRead s l 1)

/-- The numbers that a function gives over a list, or the first failure. -/
def gotAll {α : Type} (f : α → Got) : List α → Except Got (List Nat)
  | [] => .ok []
  | x :: t =>
    match f x with
    | .val v => (match gotAll f t with | .ok l => .ok (v :: l) | .error e => .error e)
    | e => .error e

/-- The number that `n` bytes from an address on spell. -/
def readBytes (s : State) (g : Agent) (tile set space : Nat) (a : Int) (n : Nat) : Got :=
  match gotAll (fun (i : Nat) => readByte s g tile set space (a + (i : Int))) (List.range n) with
  | .ok l => .val (packElems 8 l)
  | .error e => e

/-- The element of width w at a bit address (R39, R228). -/
def readElem (s : State) (g : Agent) (tile set space w : Nat) (ba : Int) : Got :=
  if w = 4 then
    match readByte s g tile set space (ba / 8) with
    | .val v => .val (if ba % 8 = 0 then v % 16 else v / 16)
    | e => e
  else readBytes s g tile set space (ba / 8) (w / 8)

/-! ### Stores -/

/-- A byte to be written: its location, its value and the half bytes of it that are written (bit 0 the lower). -/
abbrev ByteTo := Loc × Nat × Nat

/-- The aligned 8 bytes in which a location lies. -/
def granule : Loc → Nat × Nat
  | .mem a => (0, a / 8)
  | .sp t a => (t + 1, a / 8)

/-- The 64-byte line in which a location lies. -/
def lineOfLoc : Loc → Nat × Nat
  | .mem a => (0, a / 64)
  | .sp t a => (t + 1, a / 64)

/-- The place of a location in its aligned 8 bytes. -/
def granuleByte : Loc → Nat
  | .mem a => a % 8
  | .sp _ a => a % 8

/-- A location of the same space. -/
def locAt (l : Loc) (off : Nat) : Loc :=
  match l with
  | .mem a => .mem (a / 8 * 8 + off)
  | .sp t a => .sp t (a / 8 * 8 + off)

/-- Whether a list of bytes covers the whole 64-byte line of a location (R230). -/
def coversLine (bs : List ByteTo) (l : Loc) : Bool :=
  64 ≤ ((bs.filter fun b => lineOfLoc b.1 == lineOfLoc l && b.2.2 == 3).map fun b => b.1).eraseDups.length

/-- Half a byte of a value. -/
def nibbleOf (v i : Nat) : Nat := v / 16 ^ i % 16

/-- The value and mask that the bytes of a list in one aligned 8 bytes give from byte `lo` of it on, over `n` bytes: a later byte of
the list stands over an earlier one. -/
def packMasked (bs : List ByteTo) (lo n : Nat) : Nat × Nat :=
  let half (i : Nat) : Option Nat :=
    (bs.reverse.find? fun b => granuleByte b.1 == lo + i / 2 && bit b.2.2 (i % 2)).map fun b => nibbleOf b.2.1 (i % 2)
  (packElems 4 ((List.range (2 * n)).map fun i => (half i).getD 0), ((List.range (2 * n)).map fun i => if (half i).isSome then 2 ^ i else 0).sum)

/-- A store request of an agent other than a thread, of up to 8 bytes, with the mask of the half bytes that it writes. -/
def unitStore (s : State) (g : Agent) (scope : Nat) (l : Loc) (n v mask : Nat) (whole : Bool) (after : List (Nat × Nat)) :
    Req :=
  { id := s.serial, agent := g, op := .store, va := 0, loc := l, size := n, val := BitVec.ofNat 64 v,
    cmp := 0, sx := whole, scope := scope, acq := false, rel := false, sc := false, after := after, stage := .held, res := 0,
    bad := false, trap := none, dst := .none, pc := 0, grp := s.serial, mask := BitVec.ofNat 32 mask, zl := false, since := s.dcc,
    waiting := false, pub := none, got := [], dead := false, due := none, ahead := [], place := 0 }

/-- Bytes stored by an agent, each aligned 8 bytes as one access (R285): the requests, in the order of their first bytes, and their
numbers. A stream port holds them until they are sent (R297); `send` says which. -/
def storeBytes (s : State) (g : Agent) (scope : Nat) (bs : List ByteTo) (send : Bool) : State × List Nat :=
  ((bs.map fun b => granule b.1).eraseDups).foldl (fun acc k =>
    let l := bs.filter fun b => granule b.1 == k
    let places := l.map fun b => granuleByte b.1
    let lo := places.foldl Nat.min 7
    let n := places.foldl Nat.max 0 + 1 - lo
    match l.head? with
    | none => acc
    | some b =>
      let v := packMasked l lo n
      let r := unitStore acc.1 g scope (locAt b.1 lo) n v.1 v.2 (coversLine bs b.1) []
      (if send then pushReq acc.1 r else holdReq acc.1 r, acc.2 ++ [acc.1.serial])) (s, [])

/-- What reaching the addresses of a list for writing gives: the locations, or the first failure with its address. -/
def writeLocs (s : State) (tile set space : Nat) : List Int → Except Got (List Loc)
  | [] => .ok []
  | a :: t =>
    match spaceByte s tile set space a true with
    | .loc l => (match writeLocs s tile set space t with | .ok r => .ok (l :: r) | .error e => .error e)
    | .miss => .error (.miss (wrapI a 56))
    | .trap cause => .error (.trap cause (wrapI a 56))

end Sys2Proof.Machine
end

