-- ==== Sys2Proof/Machine/Streams.lean ====
section
/-! DEFINITION. Stream ports (R227 to R231, R297, R409 to R415): OPEN, CLOSE and ADVANCE, the items that read ports fetch
and deliver, and the entries that write ports consume. -/

namespace Sys2Proof.Machine

/-! ### Addresses of a stream (R228, R195) -/

/-- The position of element n of a stream: i0, i1, i2, i3. -/
def streamIndex (b : List (BitVec 64)) (n : Nat) : Nat × Nat × Nat × Nat :=
  let c0 := spbCount b 0
  let c1 := spbCount b 1
  let c2 := spbCount b 2
  (n % c0, n / c0 % c1, n / (c0 * c1) % c2, n / (c0 * c1 * c2))

/-- The bank rotation of R195 on a byte address: row v in stream order. -/
def rotated (rot v : Nat) (a : Int) : Int :=
  if rot = 0 then a
  else
    let line := (a / 64 % 32).toNat
    a + 64 * (((line + rot * (v % 32)) % 32 : Nat) : Int) - 64 * (line : Int)

/-- The bit address of element n before rotation, whose place along dimension 0 is x (R228). -/
def streamPlain (b : List (BitVec 64)) (x : Int) (n : Nat) : Int :=
  let (_, i1, i2, i3) := streamIndex b n
  (spbBase b : Int) * 8
    + (spbWidth b : Int) * (x * spbStride b 0 + i1 * spbStride b 1 + i2 * spbStride b 2 + i3 * spbStride b 3)

/-- The bit address of element n, whose place along dimension 0 is x (R228, R227). -/
def streamBit (b : List (BitVec 64)) (x : Int) (n : Nat) : Int :=
  let (_, i1, i2, i3) := streamIndex b n
  let ba := streamPlain b x n
  rotated (spbRot b) (i1 + spbCount b 1 * (i2 + spbCount b 2 * i3)) (ba / 8) * 8 + ba % 8

/-- The index element that gives element n of a gathering port its place (R228): the next S32 element of the index port's stream. -/
def indexAt (x q : StreamPort) (n : Nat) : Nat := (x.ixFrom + ((n + 16 * q.pos : Nat) : Int)).toNat

/-- Whether an index port gives element m: it lies in the stream, and no TRET.NEXT has passed over its item (R228, R231). -/
def indexThere (q : StreamPort) (m : Nat) : Bool :=
  let k := m * spbWidth q.spb / 512
  m < spbTotal q.spb && !((Tab.find? q.ahead (2 * k + 1)).isSome && (Tab.find? q.ahead (2 * k)).isNone)

/-- The bit address of element n of a stream as an agent finds it; with IXS its place along dimension 0 is the next S32 element of
the index port's stream, which must not be stopped (R228, R231). What lies past the end of an index stream, or in an item that was
passed over, is open: a free value (notes/assumptions/3.md). -/
def streamAt (s : State) (tile set : Nat) : Nat → StreamPort → Nat → Except Got Int
  | 0, _, _ => .error .wait
  | fuel + 1, x, n =>
    if spbIxs x.spb = 0 then .ok (streamBit x.spb ((streamIndex x.spb n).1 : Int) n)
    else
      let p := spbIxs x.spb - 1
      match portIn (getSet s tile set) p with
      | none => .error .wait
      | some q =>
        let m := indexAt x q n
        if spbSpace q.spb = 2 || q.stopped || parkedOn s (.port tile set p) then .error .wait
        else if !indexThere q m then .ok (streamBit x.spb (sextN (Config.freeWord (s.fresh + n)).toNat 32) n)
        else
          match streamAt s tile set fuel q m with
          | .error e => .error e
          | .ok a =>
            match readElem s (.port tile set p) tile set (spbSpace q.spb) (spbWidth q.spb) a with
            | .val v => .ok (streamBit x.spb (sextN v 32) n)
            | e => .error e

/-- Element n of a port's stream. -/
def streamElem (s : State) (g : Agent) (tile set : Nat) (x : StreamPort) (n : Nat) : Got :=
  match streamAt s tile set 5 x n with
  | .ok a => readElem s g tile set (spbSpace x.spb) (spbWidth x.spb) a
  | .error e => e

/-- Whether a reading has met a miss or a fault. -/
def gotFault : Got → Bool
  | .miss _ => true
  | .trap _ _ => true
  | _ => false

/-- The index port whose own reading fails for one of some elements of a stream, with the item of that port that holds the failing
element and what it met (R231): the miss or the fault is the index port's. -/
def indexFault (s : State) (tile set : Nat) : Nat → StreamPort → List Nat → Option (Nat × Nat × Got)
  | 0, _, _ => none
  | fuel + 1, x, ns =>
    if spbIxs x.spb = 0 then none
    else
      let p := spbIxs x.spb - 1
      match portIn (getSet s tile set) p with
      | none => none
      | some q =>
        let ms := (ns.map (indexAt x q)).filter (indexThere q)
        match indexFault s tile set fuel q ms with
        | some f => some f
        | none =>
          if spbSpace q.spb = 2 || q.stopped || parkedOn s (.port tile set p) then none
          else
            (ms.map fun m => (p, m * spbWidth q.spb / 512, streamElem s (.port tile set p) tile set q m)).find? fun f => gotFault f.2.2

/-! ### Items (R228, R229) -/

/-- The elements of a data item of a width. -/
def perItem (w : Nat) : Nat := 512 / w

/-- The data items of a read port's stream. -/
def portItems (b : List (BitVec 64)) : Nat := (spbTotal b * spbWidth b + 511) / 512

/-- Item k of a read port: its elements, with zeros past the stream's end. -/
def itemPayload (s : State) (g : Agent) (tile set : Nat) (x : StreamPort) (k : Nat) : Got :=
  let w := spbWidth x.spb
  let e := perItem w
  match gotAll (fun (j : Nat) =>
      if spbTotal x.spb ≤ k * e + j then .val 0 else streamElem s g tile set x (k * e + j)) (List.range e) with
  | .ok l => .val (packElems w l)
  | .error f => f

/-- The byte of the scale array that holds the code of element n (R52, R229). -/
def scaleIndex (b : List (BitVec 64)) (n : Nat) : Nat :=
  let (i0, i1, _, _) := streamIndex b n
  if spbSmode b = 1 then i1 * ((spbCount b 0 + 31) / 32) + i0 / 32 else i1 / 32 * spbCount b 0 + i0

/-- The bytes of a stream's scale array (R51). -/
def scaleBytes (b : List (BitVec 64)) : Nat :=
  if spbSmode b = 1 then spbCount b 1 * ((spbCount b 0 + 31) / 32) else (spbCount b 1 + 31) / 32 * spbCount b 0

/-- The codes of item k's blocks, each that of the block's first element (R58, R229). -/
def itemCodes (s : State) (g : Agent) (tile set : Nat) (x : StreamPort) (k : Nat) : Got :=
  if spbSmode x.spb = 0 then .val 0
  else
    let w := spbWidth x.spb
    let n := k * perItem w
    match gotAll (fun (j : Nat) =>
        if spbTotal x.spb ≤ n + 32 * j then .val 0
        else readByte s g tile set (spbSpace x.spb) ((spbScbase x.spb + scaleIndex x.spb (n + 32 * j) : Nat) : Int))
        (List.range (Nat.max 1 (16 / w))) with
    | .ok l => .val (packElems 8 l)
    | .error f => f

/-- Whether a read port with an ordering tag must leave item k for now (R230): an open write port of the same context and
tag has accepted a byte of it and not performed it. -/
def tagBlocks (s : State) (ctx : Option Nat) (tag : Nat) (l : Loc) : Bool :=
  let held (t i : Nat) (c : CtxSet) : Bool :=
    c.ctx == ctx && c.ports.any fun p => 4 ≤ p.1 && spbOtag p.2.spb == tag && p.2.writes.any fun id =>
      match findReq s id with
      | some r => r.agent == .port t i p.1 && overlaps r.loc r.size l 1 && !performed r.agent (spbScope p.2.spb) r
      | none => false
  s.tiles.any fun t => held t.1 0 t.2.set0 || held t.1 1 t.2.set1

/-- The bytes of item k of a read port, by address: those of its elements, gathered ones where their indices put them, and those of
its scale codes. -/
def itemBytes (s : State) (tile set : Nat) (x : StreamPort) (k : Nat) : List Int :=
  let b := x.spb
  let ns := ((List.range (perItem (spbWidth b))).map fun j => k * perItem (spbWidth b) + j).filter fun n => n < spbTotal b
  (ns.flatMap fun n =>
    match streamAt s tile set 5 x n with
    | .ok a => (List.range ((spbWidth b + 7) / 8)).map fun i => a / 8 + (i : Int)
    | .error _ => [])
    ++ (if spbSmode b = 0 then []
      else (ns.filter fun n => (n - k * perItem (spbWidth b)) % 32 == 0).map fun n => ((spbScbase b + scaleIndex b n : Nat) : Int))

/-- Whether an ordering tag holds back some byte of item k. -/
def itemTagged (s : State) (tile set : Nat) (x : StreamPort) (k : Nat) : Bool :=
  spbOtag x.spb != 0 && (itemBytes s tile set x k).any fun a =>
    match spaceByte s tile set (spbSpace x.spb) a false with
    | .loc l => tagBlocks s (getSet s tile set).ctx (spbOtag x.spb) l
    | _ => false

/-- A fault of a port (R231): its address generator stops, and the record names the port and the item. What a read port has fetched
before is delivered all the same. -/
def portFault (s : State) (tile set p cause addr item : Nat) : State :=
  raiseTrap (modPort s tile set p fun x => { x with stopped := true, miss := some item }) tile set
    (unitRec cause 4 p 0 0 addr (BitVec.ofNat 64 item) 0)

/-- Whether a port of a set may act now (R216, R248): the set is active on a step edge, and the port is not stopped. -/
def portActs (s : State) (tile set p : Nat) (x : StreamPort) : Bool :=
  let t := getTile s tile
  t.active == set && !t.removed && edgeNow s tile && !x.stopped && !parkedOn s (.port tile set p)

/-- The index items that a gathering port has read: a fence that waits on one of them waits no more (R298). -/
def indexRead (s : State) (tile set : Nat) (x : StreamPort) (ns : List Nat) : State :=
  if spbIxs x.spb = 0 then s
  else
    let p := spbIxs x.spb - 1
    match portIn (getSet s tile set) p with
    | none => s
    | some q =>
      let items := ns.map fun n => indexAt x q n * spbWidth q.spb / 512
      modPort (portDone s tile set p q.thr [] fun i => items.contains i) tile set p fun y =>
        { y with miss := if items.any (fun i => y.miss == some i) then none else y.miss }

/-- A read port fetches item k (R229, R231, R297): its elements and codes are read, a miss parks, a failure stops the port; what an
index port meets is that port's. -/
def fetchItem (s : State) (tile p k : Nat) : State :=
  let set := (getTile s tile).active
  let g : Agent := .port tile set p
  match portIn (getSet s tile set) p with
  | none => s
  | some x =>
    if 4 ≤ p || spbSpace x.spb = 2 || x.closing || x.ended || !portActs s tile set p x || k < x.pos || portItems x.spb ≤ k
        || (Tab.find? x.ahead (2 * k + 1)).isSome || itemTagged s tile set x k || indexesOther (getSet s tile set) p
        || (spbOrd x.spb = 1 && (List.range (k - x.pos)).any fun i => (Tab.find? x.ahead (2 * (x.pos + i) + 1)).isNone) then s
    else
      let fails (q item : Nat) (e : Got) : State :=
        match e with
        | .miss va =>
          modPort (park s (tileDie tile) ((getSet s tile set).ctx.getD 0) va (.port tile set q)) tile set q fun y => { y with miss := some item }
        | .trap cause va => portFault s tile set q cause va item
        | _ => s
      let ns := ((List.range (perItem (spbWidth x.spb))).map fun j => k * perItem (spbWidth x.spb) + j).filter fun n => n < spbTotal x.spb
      let fail (e : Got) : State :=
        match indexFault s tile set 5 x ns with
        | some (q, item, f) => fails q item f
        | none => fails p k e
      match itemPayload s g tile set x k, itemCodes s g tile set x k with
      | .val v, .val codes =>
        let s1 := { s with fresh := s.fresh + (if spbIxs x.spb = 0 then 0 else spbTotal x.spb) }
        modPort (portDone (indexRead s1 tile set x ns) tile set p x.thr [] fun i => i == k) tile set p fun y =>
          { y with miss := if y.miss == some k then none else y.miss, ahead := Tab.set (Tab.set y.ahead (2 * k) (BitVec.ofNat 512 v)) (2 * k + 1) (BitVec.ofNat 512 codes) }
      | .val _, e => fail e
      | e, _ => fail e

/-! ### Sources under a snapshot (R326) -/

/-- The CAIRN that a source owes before its next instant entry: its payload and the graph's number (R326). -/
def cairnDue (s : State) (tile set key : Nat) : Option (Nat × BitVec 64) :=
  match graphOf s tile set with
  | some (n, g) =>
    let ch := chanOf (getTile s tile) key
    if ch.next % 2 ^ 32 == (g.k + 1) % 2 ^ 32 && !ch.ended && !g.srcs.contains (tile, key) then
      some (n, BitVec.ofNat 64 (g.k % 2 ^ 32 * 2 ^ 32 + g.ident % 65536 * 65536))
    else none
  | none => none

/-- Whether a source has emitted its CAIRN: what it would deliver next waits for the restoration. -/
def pastCairn (s : State) (tile set key : Nat) : Bool :=
  match graphOf s tile set with
  | some (_, g) => g.srcs.contains (tile, key)
  | none => false

/-- The CAIRN of a source emitted (R326). -/
def emitCairn (s : State) (tile key n : Nat) (payload : BitVec 64) : State :=
  let s1 := pushEntry s tile key (sideEntry 6 payload)
  { s1 with graphs := Tab.mapAll (fun m g => if m == n then { g with srcs := g.srcs ++ [(tile, key)] } else g) s1.graphs }

/-! ### Fabric channels behind ports (R408 to R415) -/

/-- Whether a port is the attachment of an open fabric channel. -/
def fabAttached (s : State) (n tile set p : Nat) : Bool :=
  let f := fabOf s n
  f.st == 2 && f.port == some (tile, set, p)

/-- Whether an entry can be sent on a fabric channel: it has a credit, and its port takes a flit (R408). -/
def canSend (s : State) (n : Nat) : Bool := 0 < (fabOf s n).credit && flitRoom s (fabPortOf n)

/-- An entry sent on a fabric channel (R405, R407, R408). -/
def sendEntry (s : State) (n : Nat) (e : Entry) : State :=
  let f := fabOf s n
  sendFlit (putFab s n { f with sent := f.sent + 1, credit := f.credit - 1 }) (fabPortOf n) (some n) f.rch.toNat e.kind.toNat e.payload.toNat
    e.crc.toNat

/-- Whether what a fabric channel had sent when its counter stood at c is acknowledged (R412). -/
def acknowledged (s : State) (n : Nat) (c : Nat) : Bool := ((fabOf s n).ackd.toNat + 2 ^ 32 - c % 2 ^ 32) % 2 ^ 32 < 2 ^ 31

/-! ### Read ports -/

/-- A port that gathers has passed some items: the index elements of theirs are consumed (R228). -/
def consumeIndex (s : State) (tile set : Nat) (x : StreamPort) (n : Nat) : State :=
  if spbIxs x.spb = 0 then s
  else
    let e := perItem (spbWidth x.spb)
    let upTo (k : Nat) : Nat := Nat.min (spbTotal x.spb) (k * e)
    modPort s tile set (spbIxs x.spb - 1) fun q => { q with ixUsed := q.ixUsed + (upTo (x.pos + n) - upTo x.pos) }

/-- A source's END delivered by a read port. -/
def deliverEnd (s : State) (tile set p key : Nat) : State :=
  modPort (pushEntry s tile key endEntry) tile set p fun y => { y with ended := true }

/-- The next thing that a read port of memory delivers: a SCALE whose codes differ from those last emitted, the item, an
absence mark for one that TRET.NEXT skipped, or END (R229, R231). -/
def deliverItem (s : State) (tile set p key : Nat) (x : StreamPort) : State :=
  if x.closing || portItems x.spb ≤ x.pos then deliverEnd s tile set p key
  else
    match Tab.find? x.ahead (2 * x.pos + 1), Tab.find? x.ahead (2 * x.pos) with
    | some codes, some v =>
      let c : BitVec 64 := codes.setWidth 64
      if spbSmode x.spb != 0 && x.codes != some c then
        modPort (pushEntry s tile key (sideEntry 5 c)) tile set p fun y => { y with codes := some c }
      else
        modPort (consumeIndex (pushEntry s tile key (dataEntry v)) tile set x 1) tile set p fun y =>
          { y with pos := y.pos + 1, ahead := Tab.erase (Tab.erase y.ahead (2 * x.pos)) (2 * x.pos + 1) }
    | some _, none =>
      modPort (consumeIndex (pushEntry s tile key markEntry) tile set x 1) tile set p fun y => { y with pos := y.pos + 1, ahead := Tab.erase y.ahead (2 * x.pos + 1) }
    | none, _ => s

/-- The next thing that a read port of a fabric channel delivers (R410): the oldest entry received, whose credit returns,
or the END of a CLOSE. -/
def deliverReceived (s : State) (tile set p key : Nat) (x : StreamPort) : State :=
  let n := spbBase x.spb % 65536
  if x.closing then deliverEnd s tile set p key
  else if !fabAttached s n tile set p || !flitRoom s (fabPortOf n) then s
  else
    match (fabOf s n).buf with
    | [] => s
    | e :: rest =>
      let s1 := sendControl (putFab s n { fabOf s n with buf := rest }) n 1 0 (fabOf s n).rch.toNat
      modPort (pushEntry s1 tile key (mkEntry e.kind.toNat e.payload)) tile set p fun y =>
        { y with pos := if isInstant e && e.kind != 2 then y.pos + 1 else y.pos, ended := y.ended || e.kind == 2 }

/-- READ_PORT_DELIVER (R229, R231, R326): what the port's source channel has room for next; a closed port that has
delivered END, or feeds no running region, is unbound. An index port delivers nothing (R228). -/
def execReadPortDeliver (tile port : Nat) (s : State) : Host.Outcome State Fault Refusal :=
  let t := getTile s tile
  let set := t.active
  let c := getSet s tile set
  match portIn c port with
  | none => .next s
  | some x =>
    if 4 ≤ port || t.removed || !edgeNow s tile then .next s
    else
      match sourceReader t c (16 + port) with
      | none => if x.closing then .next (finishClose s tile set port) else .next s
      | some (e, i) =>
        let key := chanKey set e i
        if x.closing && (x.ended || !elemRuns c e || indexesOther c port) then .next (finishClose s tile set port)
        else if !elemRuns c e || x.ended || indexesOther c port || (x.stopped && spbSpace x.spb == 2) || chanFree (chanOf t key) = 0
            || pastCairn s tile set key then .next s
        else
          match cairnDue s tile set key with
          | some (n, pl) => .next (emitCairn s tile key n pl)
          | none =>
            if spbSpace x.spb = 2 then .next (deliverReceived s tile set port key x)
            else .next (deliverItem s tile set port key x)

/-! ### Write ports -/

/-- A sink's END counted (R226, R230). -/
def countEnd (s : State) (tile set elem key : Nat) : State :=
  modSet s tile set fun c =>
    match slotOfElem c elem with
    | some r => { c with regions := Tab.set c.regions r { regionOf c r with ends := (regionOf c r).ends ++ [key] } }
    | none => c

/-- A sink's CAIRN counted (R326). -/
def countCairn (s : State) (tile set key : Nat) : State :=
  { s with graphs := Tab.mapAll (fun _ g =>
      if g.tiles.contains (tile, set) && !g.sinks.contains (tile, key) then { g with sinks := g.sinks ++ [(tile, key)] }
      else g) s.graphs }

/-- The type of a sink's items from its SWITCH entry on: the OTYPE under the plane that the entry names (R223, R230). -/
def switchType (s : State) (tile set elem out : Nat) (key : Nat) (payload : Nat) : State :=
  let ty := outType (imageOf (getTile s tile) elem (bits payload 30 30)) out
  modSet s tile set fun c =>
    match slotOfElem c elem with
    | some r => { c with regions := Tab.set c.regions r { regionOf c r with otys := Tab.set (regionOf c r).otys key ty } }
    | none => c

/-- The OTYPE in which a sink's next item was produced. -/
def sinkType (c : CtxSet) (elem key : Nat) : Ty :=
  match slotOfElem c elem with
  | some r => (Ty.ofCode (Tab.get 0 (regionOf c r).otys key)).getD .f32
  | none => .f32

/-- An instant that a write port has accepted (R87, R297, R412): complete at once, or under ORD release once what it wrote
or sent, and all before, is performed or acknowledged. -/
def acceptInstant (s : State) (tile set elem p key : Nat) (x : StreamPort) (ids : List Nat) : State :=
  if spbOrd x.spb = 2 then modPort s tile set p fun y => { y with owed := y.owed ++ [ids] }
  else noteInstant s tile set elem key

/-- Whether an accepted instant of a port is complete. -/
def instantDone (s : State) (tile set p : Nat) (x : StreamPort) (ids : List Nat) : Bool :=
  if spbSpace x.spb = 2 then ids.all fun n => acknowledged s (spbBase x.spb % 65536) n
  else ids.all fun id => performedId s (.port tile set p) (spbScope x.spb) id

/-- The accepted instants that have become complete are counted, oldest first. -/
def settleOwed (s : State) (tile set elem p key : Nat) (x : StreamPort) : Nat → State
  | 0 => s
  | fuel + 1 =>
    match portIn (getSet s tile set) p with
    | some y =>
      match y.owed with
      | ids :: rest =>
        if instantDone s tile set p x ids then
          settleOwed (noteInstant (modPort s tile set p fun z => { z with owed := rest }) tile set elem key) tile set elem p key x fuel
        else s
      | [] => s
    | none => s

/-- The stream position of a write port's next item, whose elements have a width (R228): the items counted at each width since the
last change of it. -/
def streamPos (x : StreamPort) (w : Nat) : Nat :=
  let e := perItem w
  if x.per = 0 then x.pos * e
  else if x.per = e then x.base.2 + (x.pos - x.base.1) * e
  else x.base.2 + (x.pos - x.base.1) * x.per

/-- A write port that counts its items at a width from now on (R223, R228). -/
def countAt (x : StreamPort) (w : Nat) : StreamPort :=
  let e := perItem w
  if x.per = e then x else if x.per = 0 then { x with per := e } else { x with per := e, base := (x.pos, streamPos x w) }

/-- The elements of an item that lie in the stream, each with its bit address and its value in TYPE (R228, R230). -/
def portElems (x : StreamPort) (src : Ty) (v : BitVec 512) : List (Int × Nat) :=
  let b := x.spb
  let p := streamPos x src.width
  ((List.range (perItem src.width)).filter fun j => p + j < spbTotal b).map fun j =>
    let n := p + j
    (streamBit b ((streamIndex b n).1 : Int) n,
      (convert src (spbTy b) .rne (spbSat b) false (dec src false (elemOf512 v src.width j))).1)

/-- The byte addresses that an element of width w at a bit address takes. -/
def elemBytes (w : Nat) (ba : Int) : List Int := (List.range ((w + 7) / 8)).map fun i => ba / 8 + (i : Int)

/-- The bytes that a list of located elements stores, in order, each with its value and the half bytes of it that are written. -/
def locBytes (w : Nat) (es : List ((Int × Nat) × List Loc)) : List ByteTo :=
  es.flatMap fun e =>
    if w = 4 then e.2.map fun l => if e.1.1 % 8 = 0 then (l, e.1.2 % 16, 1) else (l, e.1.2 % 16 * 16, 2)
    else (e.2.zip (List.range e.2.length)).map fun p => (p.1, e.1.2 / 2 ^ (8 * p.2) % 256, 3)

/-- The locations of each of some elements, or the first failure. -/
def elemLocs (s : State) (tile set space w : Nat) : List (Int × Nat) → Except Got (List ((Int × Nat) × List Loc))
  | [] => .ok []
  | e :: t =>
    match writeLocs s tile set space (elemBytes w e.1) with
    | .error f => .error f
    | .ok ls => (match elemLocs s tile set space w t with | .ok r => .ok ((e, ls) :: r) | .error f => .error f)

/-- A data item taken by a write port of memory (R230). -/
def writeItem (s : State) (tile set elem p key : Nat) (x : StreamPort) (v : BitVec 512) : State :=
  let g : Agent := .port tile set p
  let src := sinkType (getSet s tile set) elem key
  match elemLocs s tile set (spbSpace x.spb) (spbWidth x.spb) (portElems x src v) with
  | .error (.miss va) =>
    modPort (park s (tileDie tile) ((getSet s tile set).ctx.getD 0) va g) tile set p fun y => { y with miss := some x.pos }
  | .error (.trap cause va) => portFault s tile set p cause va x.pos
  | .error _ => s
  | .ok es =>
    let (s1, ids) := storeBytes (popEntry s tile key) g (spbScope x.spb) (locBytes (spbWidth x.spb) es) false
    let s2 := modPort (portDone s1 tile set p x.thr ids fun k => k == x.pos) tile set p fun y =>
      { countAt y src.width with pos := y.pos + 1, miss := none, writes := (y.writes.filter fun id => (findReq s1 id).isSome) ++ ids }
    acceptInstant s2 tile set elem p key x ids

/-- A data item converted to TYPE for a send channel (R410): the elements of TYPE, in order, one data item's worth. -/
def sentItem (x : StreamPort) (src : Ty) (v : BitVec 512) : BitVec 512 :=
  let w := spbWidth x.spb
  BitVec.ofNat 512 (packElems w (((List.range (perItem src.width)).map fun j =>
    (convert src (spbTy x.spb) .rne (spbSat x.spb) false (dec src false (elemOf512 v src.width j))).1).take (perItem w)))

/-- The item that the fault of a port on a failed fabric channel names (R415): the first whose instant is not complete. -/
def nextFabItem (x : StreamPort) : Nat := x.pos - x.owed.length

/-- An entry taken by a write port of a fabric channel and sent (R410, R415). -/
def sendTaken (s : State) (tile set elem p key : Nat) (x : StreamPort) (e : Entry) : State :=
  let n := spbBase x.spb % 65536
  if !fabAttached s n tile set p then portFault s tile set p 0x09 0 (nextFabItem x)
  else if !canSend s n then s
  else
    let src := sinkType (getSet s tile set) elem key
    let out := if e.kind = 1 then dataEntry (sentItem x src e.payload) else e
    let s1 := sendEntry (popEntry s tile key) n out
    let s2 := modPort s1 tile set p fun y => { y with pos := if isInstant e && e.kind != 2 then y.pos + 1 else y.pos, ended := y.ended || e.kind == 2 }
    let s3 := if e.kind = 2 then countEnd s2 tile set elem key else s2
    if isInstant e then acceptInstant s3 tile set elem p key x [(fabOf s1 n).sent.toNat] else s3

/-- A check-code failure at a sink (R365); one met before a send stops the channel (R415). -/
def sinkBad (s : State) (tile set p : Nat) (x : StreamPort) : State :=
  let n := spbBase x.spb % 65536
  let s1 := if spbSpace x.spb = 2 then putFab s n { fabOf s n with st := 3, reason := 1 } else s
  portFault s1 tile set p 0x09 0 x.pos

/-- The head entry of a write port's sink channel taken (R230, R410). -/
def takeEntry (s : State) (tile set elem out p key : Nat) (x : StreamPort) (e : Entry) : State :=
  let fab := spbSpace x.spb == 2
  if !entryGood e then sinkBad s tile set p x
  else if e.kind = 7 then
    let s1 := switchType s tile set elem out key e.payload.toNat
    popEntry (modPort s1 tile set p fun y => countAt y (sinkType (getSet s1 tile set) elem key).width) tile key
  else if e.kind = 6 then popEntry (countCairn s tile set key) tile key
  else if fab && !(e.kind == 0 && spbAskip x.spb) then sendTaken s tile set elem p key x e
  else if e.kind = 1 then writeItem s tile set elem p key x e.payload
  else if e.kind = 0 then
    acceptInstant (modPort (popEntry s tile key) tile set p fun y =>
        { countAt y (sinkType (getSet s tile set) elem key).width with pos := if spbAskip x.spb then y.pos else y.pos + 1 })
      tile set elem p key x []
  else if e.kind = 2 then
    acceptInstant (modPort (countEnd (popEntry s tile key) tile set elem key) tile set p fun y => { y with ended := true })
      tile set elem p key x []
  else popEntry s tile key

/-- Whether a closing write port has nothing left to do (R231, R412). -/
def closeReady (s : State) (tile set p : Nat) (x : StreamPort) : Bool :=
  x.closing && x.ended && x.owed.isEmpty &&
    (if spbSpace x.spb = 2 then acknowledged s (spbBase x.spb % 65536) (fabOf s (spbBase x.spb % 65536)).sent.toNat
     else portWritesDone s tile set p x)

/-- WRITE_PORT_CONSUME (R230, R297, R231): instants whose writes are performed complete; a closed port is unbound; else the
port takes the next entry of its sink channel. -/
def execWritePortConsume (tile port : Nat) (s : State) : Host.Outcome State Fault Refusal :=
  let t := getTile s tile
  let set := t.active
  let c := getSet s tile set
  match portIn c port with
  | none => .next s
  | some x =>
    if port < 4 || t.removed || !edgeNow s tile then .next s
    else
      match sinkFeeder t c (port - 4) with
      | none => if closeReady s tile set port { x with owed := [] } then .next (finishClose s tile set port) else .next s
      | some (e, o) =>
        let key := sinkKey set e o
        let s1 := settleOwed s tile set e port key x (x.owed.length + 1)
        match portIn (getSet s1 tile set) port with
        | none => .next s1
        | some y =>
          if closeReady s1 tile set port y then .next (finishClose s1 tile set port)
          else if spbSpace y.spb == 2 && !y.owed.isEmpty && portActs s1 tile set port y
              && !fabAttached s1 (spbBase y.spb % 65536) tile set port then
            .next (portFault s1 tile set port 0x09 0 (nextFabItem y))
          else if y.ended || !elemRuns c e || !portActs s1 tile set port y then .next s1
          else
            match (chanOf (getTile s1 tile) key).q with
            | [] => .next s1
            | h :: _ => .next (takeEntry s1 tile set e o port key y h)

/-- A check-code failure at the completion counter (R71): an integrity fault of source kind region, once for each return from it; the
entry stays at the head. DESIGN CHOICE (notes/assumptions/113.md). -/
def counterBad (s : State) (tile set elem : Nat) : State :=
  let slot := (slotOfElem (getSet s tile set) elem).getD 0
  if recordStands (getSet s tile set) fun r => r.src == 3 && r.slot == slot then s
  else raiseTrap s tile set (unitRec 0x09 3 0 slot 0 0 0 0)

/-- A sink of the region's completion counter takes an entry, whose check code it verifies (R71, R88, R226, R326). At the array feed, whose instants complete
as they enter it, an END, a CAIRN or a SWITCH at the head is taken (R197). -/
def counterTake (s : State) (tile elem out : Nat) : State :=
  let t := getTile s tile
  let set := t.active
  let c := getSet s tile set
  let key := sinkKey set elem out
  let code := sinkCode (imageOf t elem (planeOf c elem)) out
  if !edgeNow s tile || t.removed || !elemRuns c elem || !(code == some 4 || code == some 5) then s
  else
    match (chanOf t key).q with
    | [] => s
    | e :: _ =>
      let s1 := popEntry s tile key
      if !entryGood e then if code = some 5 then s else counterBad s tile set elem
      else if code = some 5 then
        if e.kind = 2 then countEnd s1 tile set elem key
        else if e.kind = 6 then countCairn s1 tile set key
        else if e.kind = 7 then s1
        else s
      else if e.kind = 6 then countCairn s1 tile set key
      else if e.kind = 2 then noteInstant (countEnd s1 tile set elem key) tile set elem key
      else if isInstant e then noteInstant s1 tile set elem key
      else s1

/-! ### The SP engine's commands (R231, R409) -/

/-- The SPB of an OPEN. -/
def openSpb (s : State) (c : Cmd) : List (BitVec 64) :=
  (List.range 8).map fun i => shareWord (curTile s) (curSet s) (argBits c 38 24 * 64 + 8 * i)

/-- Whether a context holds a fabric channel: its block is mapped to it with write permission (R407). -/
def holdsFab (s : State) (ctx n : Nat) : Bool :=
  let blk := 0x000320000000 + n / 48 * 0x10000 + 64 * (n % 48)
  (getCtx s ctx).maps.any fun m => m.w && m.pa ≤ blk && blk + 64 ≤ m.pa + m.size

/-- Whether a code of an SPB is reserved (R227, R231, R409): for every port, for the port's kind, or for its space. -/
def spbReserved (s : State) (p : Nat) (b : List (BitVec 64)) : Bool :=
  let n := spbBase b % 65536
  bit (spbWord b 0) 63 || 14 ≤ spbType b || 2 < spbSpace b || bits (spbWord b 1) 63 62 != 0 || bits (spbWord b 6) 63 23 != 0
    || bits (spbWord b 6) 7 3 != 0 || spbWord b 7 != 0 || spbOrd b == 3 || 4 < spbIxs b || 4 < spbScope b
    || (spbRot b != 0 && spbSpace b != 0)
    || (if p < 4 then spbOrd b == 2 || spbAskip b || spbSat b else spbOrd b == 1 || spbIxs b != 0)
    || (spbSpace b == 2 && (3072 ≤ n || !holdsFab s (curCtx s) n || (fabOf s n).st != 2 || (fabOf s n).dir != (decide (p < 4))
      || spbScbase b != 0 || spbRot b != 0 || spbSmode b != 0 || spbIxs b != 0))

/-- The least and the greatest of a dimension's offsets, in elements. -/
def dimSpan (b : List (BitVec 64)) (d : Nat) : Int × Int :=
  let e := ((spbCount b d - 1 : Nat) : Int) * spbStride b d
  if e < 0 then (e, 0) else (0, e)

/-- Whether the bytes of a stream in the share, and its scale array, lie in the share (R231). -/
def spbInShare (c : CtxSet) (b : List (BitVec 64)) : Bool :=
  let ds := if spbIxs b = 0 then [0, 1, 2, 3] else [1, 2, 3]
  let lo := (ds.map fun d => (dimSpan b d).1).foldl (· + ·) 0
  let hi := (ds.map fun d => (dimSpan b d).2).foldl (· + ·) 0
  spbTotal b == 0 ||
    (0 ≤ (spbBase b : Int) * 8 + (spbWidth b : Int) * lo
      && (spbBase b : Int) * 8 + (spbWidth b : Int) * (hi + 1) ≤ 8 * (shareBytes c : Int)
      && (spbSmode b == 0 || spbScbase b + scaleBytes b ≤ shareBytes c))

/-- Whether each row of a rotated stream lies within one 2 KiB row (R227). -/
def rowsFit (b : List (BitVec 64)) : Bool :=
  (List.range (spbCount b 1 * spbCount b 2 * spbCount b 3)).all fun v =>
    let n := v * spbCount b 0
    let ba := streamPlain b 0 n
    let lo := ba + (spbWidth b : Int) * (dimSpan b 0).1
    let hi := ba + (spbWidth b : Int) * ((dimSpan b 0).2 + 1) - 1
    lo / 16384 == hi / 16384

/-- The command fault of an OPEN (R231, R242). -/
def openCheck (c : Cmd) (s : State) : Option Nat :=
  let p := argBits c 41 39
  let b := openSpb s c
  if shareBytes (curSet s) < argBits c 38 24 * 64 + 64 || spbReserved s p b || !typeThere s (spbType b)
      || (spbSpace b == 2 && !bit (features s) 5) then some 1
  else if spbSmode b = 3 || (spbSmode b != 0 && intCode (spbType b)) then some 8
  else if spbSpace b = 0 && (!spbInShare (curSet s) b || (spbRot b != 0 && !rowsFit b)) then some 9
  else if (portIn (curSet s) p).isSome || copyHolds s s.focus.tile s.focus.set p
      || (spbSpace b == 2 && ((fabOf s (spbBase b % 65536)).port.isSome || (fabOf s (spbBase b % 65536)).copy.isSome)) then some 10
  else if p < 4 && (match sourceReader (curTile s) (curSet s) (16 + p) with
      | some (e, i) => inType (imageOf (curTile s) e (planeOf (curSet s) e)) i != spbType b
      | none => false) then some 11
  else none

/-- The scope at which the accesses of an SP command are ordered after its ENQ (R295). -/
def spScope (b : List (BitVec 64)) : Nat := if spbScope b ≤ 4 then spbScope b else 4

/-- OPEN (R231): the SPB is checked and bound, at position 0; the signal comes at once. A gathering port goes on in the index stream
where the last one left it; an index port opened anew gives its stream from its start (R228): DEDUCED (notes/assumptions/112.md). -/
def execOpenPort (c : Cmd) (s : State) : Host.Outcome State Fault Refusal :=
  runCommand s 4 c (spScope (openSpb s c)) (fun _ => true) (openCheck c) fun s1 =>
    let p := argBits c 41 39
    let b := openSpb s1 c
    let x : StreamPort :=
      { spb := b, pos := 0, closing := false, ended := false, codes := none, stopped := false, writes := [], per := 0, base := (0, 0)
        ixFrom := ((portIn (curSet s1) (spbIxs b - 1)).map fun q => (q.ixUsed : Int)).getD 0, ixUsed := 0, miss := none, sigs := [], closeAt := 0, thr := (capturedAt (curSet s1) 4 (ringHead (curSet s1) 4)).thr, ahead := [], owed := [] }
    let n := spbBase b % 65536
    let s2 := if spbSpace b = 2 then putFab s1 n { fabOf s1 n with port := some (s1.focus.tile, s1.focus.set, p) } else s1
    let freshIndex (k : Nat) (y : StreamPort) : StreamPort :=
      if k < 4 && p < 4 && spbIxs y.spb == p + 1 then { y with ixFrom := -((y.pos * perItem (spbWidth y.spb) : Nat) : Int) } else y
    modCurSet (nextCommand s2 4) fun y => raiseSignal { y with ports := Tab.set (Tab.mapAll freshIndex y.ports) p x } c.sig

/-- The SPB that a port of the acting set holds. -/
def heldSpb (s : State) (p : Nat) : List (BitVec 64) := ((portIn (curSet s) p).map fun x => x.spb).getD []

/-- The command fault of a CLOSE or ADVANCE (R242): the port is closed. -/
def closedCheck (p : Nat) (s : State) : Option Nat := if (portIn (curSet s) p).isNone then some 10 else none

/-- CLOSE (R231): the port closes; it is unbound, and the signal raised, by READ_PORT_DELIVER or WRITE_PORT_CONSUME. -/
def execClosePort (c : Cmd) (s : State) : Host.Outcome State Fault Refusal :=
  let p := argBits c 41 39
  runCommand s 4 c (spScope (heldSpb s p)) (fun _ => true) (closedCheck p) fun s1 =>
    modPort (unpark (nextCommand s1 4) (.port s1.focus.tile s1.focus.set p)) s1.focus.tile s1.focus.set p fun x =>
      { x with closing := true, stopped := if p < 4 then false else x.stopped, sigs := x.sigs ++ c.sig.toList
               closeAt := if x.closing then x.closeAt else ringHead (curSet s1) 4 }

/-- ADVANCE (R231): the position advances, and nothing is delivered or written for the items it passes. -/
def execAdvancePort (c : Cmd) (s : State) : Host.Outcome State Fault Refusal :=
  let p := argBits c 41 39
  runCommand s 4 c (spScope (heldSpb s p)) (fun _ => true) (closedCheck p) fun s1 =>
    let s2 := match portIn (curSet s1) p with | some x => consumeIndex s1 s1.focus.tile s1.focus.set x (argBits c 38 7) | none => s1
    modCurSet (modPort (nextCommand s2 4) s1.focus.tile s1.focus.set p fun x =>
      { x with pos := x.pos + argBits c 38 7, ahead := x.ahead.filter fun a => 2 * (x.pos + argBits c 38 7) ≤ a.1 }) fun y => raiseSignal y c.sig

end Sys2Proof.Machine
end

