-- ==== Sys2Proof/Machine/CollarWords.lean ====
section
/-! DEFINITION. The thread's words about the collar: stream registers (R237 to R239), waiting on a frontier, resuming a
faulted element and reading a region's status (R118, R240). -/

namespace Sys2Proof.Machine

/-! ### Stream registers -/

/-- A stream register of the acting set. -/
def qregOf (c : CtxSet) (n : Nat) : QReg := Tab.get QReg.reset c.qregs n

/-- The stream register that an operand names; none for the zero register (R22). -/
def qReg? : Opnd → Option Nat
  | .q n => some n
  | _ => none

/-- QBIND (R237): a stream register bound to a region slot that does not run, or unbound. -/
def execQbind (w : TWord) (s : State) : Host.Outcome State Fault Refusal :=
  .next (runWord w s fun s1 =>
    let a := (argA w s1).toNat
    let put (q : QReg) : State := match qReg? w.d with
      | some n => modCurSet s1 fun c => { c with qregs := Tab.set c.qregs n q }
      | none => s1
    if a = 2 ^ 64 - 1 then .done (put QReg.reset)
    else if 3 < a || (regionOf (curSet s1) a).st == .running then illegalOperand s1
    else .done (put ⟨some a, false, 0⟩))

/-- The channel of the source that names a stream register, where its region is bound to the register (R237). -/
def qChannel (t : Tile) (c : CtxSet) (set n : Nat) : Option Nat :=
  match (qregOf c n).slot, sourceReader t c n with
  | some slot, some (e, i) => if (regionElems (regionOf c slot)).contains e then some (chanKey set e i) else none
  | _, _ => none

/-- Entries appended by a source, a CAIRN before the one for instant K + 1 of a snapshot (R326). -/
def appendEntries (s : State) (tile set key : Nat) (es : List Entry) : State :=
  es.foldl (fun acc e =>
    match cairnDue acc tile set key with
    | some (n, pl) => pushEntry (emitCairn acc tile key n pl) tile key e
    | none => pushEntry acc tile key e) s

/-- The slots that entries appended by a source need. -/
def slotsNeeded (s : State) (tile set key : Nat) (es : List Entry) : Nat :=
  let due : Nat := match graphOf s tile set with
    | some (_, g) =>
      if !g.srcs.contains (tile, key) && (g.k + 1 + 2 ^ 32 - (chanOf (getTile s tile) key).next % 2 ^ 32) % 2 ^ 32 < es.length
      then 1 else 0
    | none => 0
  es.length + due

/-- Whether an emitting word names a register that it may not append to (R238, R353): unbound, ended in the firing that its slot
still holds, or fed by a copy transfer. -/
def emitIllegal (s : State) (n : Nat) : Bool :=
  let q := qregOf (curSet s) n
  match q.slot with
  | none => true
  | some slot => (q.ended && regionHeld (regionOf (curSet s) slot)) || transferFeeds s s.focus.tile s.focus.set n

/-- Whether an emitting word is ready (R238): its slot is running or stopped, its channel has room, and the thread's
earlier stores are performed. -/
def emitReady (s : State) (n : Nat) (es : List Entry) : Bool :=
  let c := curSet s
  match (qregOf c n).slot, qChannel (curTile s) c s.focus.set n with
  | some slot, some key =>
    ((regionOf c slot).st == .running || (regionOf c slot).st == .stopped) && releaseMet s 0
      && slotsNeeded s s.focus.tile s.focus.set key es ≤ chanFree (chanOf (curTile s) key)
  | _, _ => false

/-- Entries appended to a stream register's channel (R238). -/
def emitEntries (s : State) (n : Nat) (es : List Entry) : Res :=
  if emitIllegal s n then illegalOperand s
  else if !emitReady s n es then .hold
  else
    match qChannel (curTile s) (curSet s) s.focus.set n with
    | some key =>
      .done (modCurSet (appendEntries s s.focus.tile s.focus.set key es) fun c =>
        let q := qregOf c n
        let q1 : QReg := { q with next := q.next + (es.filter isInstant).length, ended := q.ended || es.any fun e => e.kind == 2 }
        let slot := q.slot.getD 0
        let g := regionOf c slot
        { c with qregs := Tab.set c.qregs n q1, regions := Tab.set c.regions slot { g with before := (g.before ++ storesBefore s).eraseDups } })
    | none => .hold

/-- An emitting word: entries appended through the register that it names, and through the zero register none (R22). -/
def emitWord (s : State) (d : Opnd) (es : List Entry) : Res :=
  match qReg? d with
  | some n => emitEntries s n es
  | none => .done s

/-- The items of an EMIT (R238). -/
def emitItems (w : TWord) (s : State) : List Entry :=
  let v := readV (curTile s) (curSet s) 32 w.a 0
  let lo := dataEntry (v.setWidth 512)
  let hi := dataEntry ((v >>> 512).setWidth 512)
  match modFn w.modf with
  | 0 => [lo, hi]
  | 1 => [lo]
  | _ => [hi]

/-- EMIT (R238). -/
def execEmit (w : TWord) (s : State) : Host.Outcome State Fault Refusal :=
  .next (runWord w s fun s1 => emitWord s1 w.d (emitItems w s1))

/-- EMITA (R238). -/
def execEmita (w : TWord) (s : State) : Host.Outcome State Fault Refusal :=
  .next (runWord w s fun s1 => emitWord s1 w.d [markEntry])

/-- EMITE (R238). -/
def execEmite (w : TWord) (s : State) : Host.Outcome State Fault Refusal :=
  .next (runWord w s fun s1 => emitWord s1 w.d [endEntry])

/-- The status of a stream register (R239). -/
def statWord (s : State) (n : Nat) : BitVec 64 :=
  let q := qregOf (curSet s) n
  let free := match qChannel (curTile s) (curSet s) s.focus.set n with
    | some key => chanFree (chanOf (curTile s) key)
    | none => 0
  BitVec.ofNat 64 ((q.slot.getD 0) % 4 * 2 ^ 40 + flagAt q.slot.isSome 39 + flagAt q.ended 38 + free % 64 * 2 ^ 32 + q.next % 2 ^ 32)

/-- STAT (R239). -/
def execStat (w : TWord) (s : State) : Host.Outcome State Fault Refusal :=
  .next (runWord w s fun s1 => .done (writeS s1 w.d ((qReg? w.a).elim 0 (statWord s1))))

/-! ### Region instructions (R240) -/

/-- INSTW (R240): it waits until the frontier is reached, and completes at once when the slot is free. -/
def execInstw (w : TWord) (s : State) : Host.Outcome State Fault Refusal :=
  .next (runWord w s fun s1 =>
    let a := (argA w s1).toNat
    let g := regionOf (curSet s1) a
    let b := (argB w s1).toNat % 2 ^ 32
    if 3 < a then illegalOperand s1
    else if g.st == .free || (g.st != .stopped && (g.front % 2 ^ 32 + 2 ^ 32 - b) % 2 ^ 32 < 2 ^ 31) then .done s1
    else .wait s1)

/-- RGN (R240). -/
def execRgn (w : TWord) (s : State) : Host.Outcome State Fault Refusal :=
  .next (runWord w s fun s1 =>
    let a := (argA w s1).toNat
    if 3 < a then illegalOperand s1 else .done (writeS s1 w.d (rgnWord (curSet s1) a)))

/-! ### Resumption of a faulted element (R118) -/

/-- The cause of an element's fault (R115). -/
def faultCause (f : ElemFault) : Nat := bits f.w0.toNat 63 60
/-- FIN of an element's fault. -/
def faultFin (f : ElemFault) : Bool := bit f.w0.toNat 43

/-- Whether a resumption mode is valid for a fault (R118). DISCARD is listed for HDR, and its effect is given at stage 1
and for FIN alone: an HDR fault of a scaling operation refuses it. DESIGN CHOICE (notes/assumptions/95.md). -/
def resumeOk (f : ElemFault) (mode : Nat) : Bool :=
  let c := faultCause f
  match mode with
  | 0 => !f.stg1 && [1, 2, 3, 4, 7, 8].contains c
  | 1 => !f.stg1 && [1, 2, 3, 4, 7].contains c
  | 2 => !f.stg1 && !faultFin f
  | _ => f.stg1 || (c == 8 && faultFin f)

/-- An element without its fault. -/
def clearFault (s : State) (tile set elem : Nat) : State := modElem s tile set elem fun x => { x with fault := none }

/-- The stopped reaction of an element changed: the one whose moves are not over. -/
def modReaction (s : State) (tile set elem : Nat) (f : Reaction → Reaction) : State :=
  modElem s tile set elem fun x => { x with rxs := modRunning f x.rxs }

/-- Whether the bundle in progress is its handler's last. -/
def lastBundle (s : State) (tile elem : Nat) (rx : Reaction) : Bool :=
  (moveFields (imgMove (imageOf (getTile s tile) elem rx.plane) rx.idx)).eoh

/-- The faulting trigger executed again with its saved value, the current ports and ELXEN, and the bundle examined (R118
RETRY). -/
def retryTrigger (s : State) (tile set elem : Nat) (rx : Reaction) (t : TrigRec) (rest : List TrigRec) : State :=
  let s0 := modReaction s tile set elem fun r => { r with before := (elemOfSet (getSet s tile set) elem).ports }
  let m := trigMove (imageOf (getTile s tile) elem rx.plane) rx t
  let c := trigCtx s0 tile set elem m (laneMask m.lane) (some t.value)
  let op := opOf t.unit t.fop (if m.lane = .bcast then 0 else m.imm.toNat)
  let r := op c
  let s1 := modElem s0 tile set elem fun e => { e with ports := Tab.set e.ports (resultKey t.unit) r.2.res }
  let s2 := if t.unit = 5 && t.fop = 6 && r.1 = 0 then mergeHeld s1 tile set elem c else s1
  examineBundle (modReaction s2 tile set elem fun x => { x with trigs := trigRec t.mov t.unit t.fop c r :: rest }) tile set elem
    (lastBundle s tile elem rx)

/-- V written to the lanes that the fault names, and the bundle examined (R118 SUPPLY). -/
def supplyTrigger (s : State) (tile set elem : Nat) (rx : Reaction) (f : ElemFault) (t : TrigRec) (rest : List TrigRec)
    (v : Nat) : State :=
  let mask : BitVec 16 := if faultCause f = 7 then t.lanes else f.w0.setWidth 16
  let key := resultKey t.unit
  let s1 := modElem s tile set elem fun e =>
    { e with ports := Tab.set e.ports key (mergeLanes mask.toNat (spreadLane v) (Tab.get 0 e.ports key)) }
  let t1 : TrigRec := { t with alw := 0, nar := t.nar &&& ~~~mask, inv := t.inv &&& ~~~mask, dz := t.dz &&& ~~~mask, ovf := t.ovf &&& ~~~mask }
  examineBundle (modReaction s1 tile set elem fun x => { x with trigs := t1 :: rest }) tile set elem (lastBundle s tile elem rx)

/-- The rest of the reaction abandoned (R118 SKIP): it goes through its remaining stages without effect, and no MERGE takes
its item any more (R109). -/
def skipReaction (s : State) (tile set elem : Nat) : State :=
  let merge := (runningRx (elemOfSet (getSet s tile set) elem)).bind Reaction.merge
  modReaction (freeKept s tile set elem merge) tile set elem fun r =>
    { r with trigs := [], outs := [], scales := [], lines := [], merge := none, done := true, exd := r.bundle + 1
             stage := r.bundle + 3, since := tscOf s tile + 1 - rxWidth r }

/-- An entry discarded at stage 1 (R118 DISCARD): a side entry is removed, an instant entry becomes an absence mark. The
reserved kind 011 is neither in R70's table: it is taken as an instant entry, as its code bit [2] has it. DESIGN CHOICE
(notes/assumptions/96.md). -/
def discardHead (s : State) (tile set elem : Nat) (im : Image) (i : Nat) : State :=
  let key := chanKey set elem i
  match (chanOf (getTile s tile) key).q with
  | [] => s
  | x :: rest =>
    if isInstant x then modChan s tile key fun c => { c with q := markEntry :: rest } else takeHead s tile set elem im i

/-- The entry of a stage-1 fault discarded: one that followed END is removed, whether END has entered the delay line or
stands at the head of the channel (R72, R118). -/
def discardEntry (s : State) (tile set elem : Nat) (f : ElemFault) : State :=
  let im := imageNow s tile set elem
  let e := elemOfSet (getSet s tile set) elem
  let key := chanKey set elem f.inp
  if inDly im f.inp then
    if (lineOf e (inDln im f.inp)).any fun l => l.kind == 2 then takeHead s tile set elem im f.inp
    else discardHead s tile set elem im f.inp
  else if (inState e f.inp).ended then modChan s tile key fun c => { c with q := c.q.take 1 ++ c.q.drop 2 }
  else discardHead s tile set elem im f.inp

/-- Every held queue of an element emptied. -/
def dropHeld (s : State) (tile set elem : Nat) : State :=
  (List.range 8).foldl (fun acc i =>
    if (chanOf (getTile acc tile) (chanKey set elem i)).held.isEmpty then acc
    else modChan acc tile (chanKey set elem i) fun c => { c with held := [] }) s

/-- A resumption that is not refused takes effect (R118). -/
def resumeElem (s : State) (tile set elem mode v : Nat) (f : ElemFault) : State :=
  let s1 := clearFault s tile set elem
  let done (x : State) : State := modReaction x tile set elem fun r => { r with done := true }
  if faultFin f then
    if mode = 3 then done (dropHeld s1 tile set elem)
    else if holdsItems (getTile s tile) set elem then faultElem s1 tile set elem f
    else done s1
  else if f.stg1 then discardEntry s1 tile set elem f
  else if mode = 2 then skipReaction s1 tile set elem
  else
    match runningRx (elemOfSet (getSet s tile set) elem) with
    | none => s1
    | some rx =>
      match rx.trigs with
      | [] => s1
      | t :: rest =>
        if mode = 0 then retryTrigger s1 tile set elem rx t rest else supplyTrigger s1 tile set elem rx f t rest v

/-- RESUME (R240, R118). -/
def execResume (w : TWord) (s : State) : Host.Outcome State Fault Refusal :=
  .next (runWord w s fun s1 =>
    let a := (argA w s1).toNat
    let elem := a % 32
    let mode := bits a 6 5
    if 128 ≤ a || (slotOfElem (curSet s1) elem).isNone then illegalOperand s1
    else
      match (elemOfSet (curSet s1) elem).fault with
      | none => illegalOperand s1
      | some f =>
        if !resumeOk f mode then illegalOperand s1
        else .done (resumeElem s1 s1.focus.tile s1.focus.set elem mode ((argB w s1).toNat % 2 ^ 32) f))

end Sys2Proof.Machine
end

