-- ==== Sys2Proof/Machine/Control.lean ====
section
/-! DEFINITION. Branches, loops and YIELD (R146 to R150). HALT stands with the memory instructions, whose
accesses it awaits. -/

namespace Sys2Proof.Machine

/-- The word index of the acting thread. -/
def curPc (s : State) : Int := ((curThread s).pc : Int)

/-- BR (R146). -/
def execBr (w : TWord) (s : State) : Host.Outcome State Fault Refusal :=
  .next (runWord w s fun s1 => .jump s1 (curPc s1 + (argA w s1).toInt))

/-- BRI (R146): the target is read as unsigned. -/
def execBri (w : TWord) (s : State) : Host.Outcome State Fault Refusal :=
  .next (runWord w s fun s1 => .jump s1 ((argA w s1).toNat : Int))

/-- CALL (R146): D takes the index of the next word. -/
def execCall (w : TWord) (s : State) : Host.Outcome State Fault Refusal :=
  .next (runWord w s fun s1 =>
    .jump (writeS s1 w.d (BitVec.ofInt 64 (curPc s1 + 1))) (curPc s1 + (argA w s1).toInt))

/-- A loop counter of a count and a start (R148). -/
def loopCounter (count start : Nat) : BitVec 32 := BitVec.ofNat 32 (count % 2 ^ 19 * 2 ^ 13 + start % 2 ^ 13)

/-- COUNT of a loop counter (R148). -/
def loopCount (k : BitVec 32) : Nat := bits k.toNat 31 13

/-- START of a loop counter (R148). -/
def loopStart (k : BitVec 32) : Nat := bits k.toNat 12 0

/-- LOOP (R149): a count of 0 skips the body. -/
def execLoop (w : TWord) (s : State) : Host.Outcome State Fault Refusal :=
  .next (runWord w s fun s1 =>
    let a := (argA w s1).toInt
    if a < 0 || 524287 < a then illegalOperand s1
    else if a = 0 then .jump s1 (curPc s1 + sextN w.modf.toNat 16 + 1)
    else .done (writeK s1 w.d (loopCounter (a.toNat - 1) (curPc s1 + 1).toNat)))

/-- ENDL (R149): the body again while iterations remain. -/
def execEndl (w : TWord) (s : State) : Host.Outcome State Fault Refusal :=
  .next (runWord w s fun s1 =>
    let k := readK (curThread s1) w.d
    if 0 < loopCount k then .jump (writeK s1 w.d (loopCounter (loopCount k - 1) (loopStart k))) (loopStart k : Int)
    else .done s1)

/-- KSET (R149). -/
def execKset (w : TWord) (s : State) : Host.Outcome State Fault Refusal :=
  .next (runWord w s fun s1 =>
    let a := (argA w s1).toInt
    if a < 0 || 0xFFFFFFFF < a then illegalOperand s1 else .done (writeK s1 w.d (BitVec.ofInt 32 a)))

/-- KGET (R149). -/
def execKget (w : TWord) (s : State) : Host.Outcome State Fault Refusal :=
  .next (runWord w s fun s1 => .done (writeS s1 w.d ((readK (curThread s1) w.a).setWidth 64)))

/-- YIELD (R150): the thread is not ready in the next step. -/
def execYield (w : TWord) (s : State) : Host.Outcome State Fault Refusal :=
  .next (runWord w s fun s1 => .jump s1 (curPc s1 + 1))

end Sys2Proof.Machine
end

