-- ==== Sys2Proof/Machine/Copy.lean ====
section
/-! DEFINITION. Copy engines (R344 to R366): templates and their checks, arming, fire entries, transfers, and the copy
instructions and commands. -/

namespace Sys2Proof.Machine

/-! ### What a copy engine reaches (R348, R359) -/

/-- A copy channel. -/
def copyOf (s : State) (chan : Nat) : CopyChan := Tab.get CopyChan.reset s.copies chan

/-- The state with a copy channel changed. -/
def modCopy (s : State) (chan : Nat) (f : CopyChan → CopyChan) : State :=
  { s with copies := Tab.set s.copies chan (f (copyOf s chan)) }

/-- The number under which a copy engine keeps translations: behind those of the tiles. -/
def copyTlb (chan : Nat) : Nat := 256 + chan / 16

/-- The die beside which a channel's base die stands (R9, R342). -/
def copyDie (chan : Nat) : Nat := chan / 192

/-- A transfer of a channel, as an agent. -/
def copyAgent (chan : Nat) (r : Transfer) : Agent := .copy chan r.id.toNat

/-- A running transfer by its ID. -/
def findTransfer (s : State) (chan : Nat) (id : BitVec 32) : Option Transfer := (copyOf s chan).runs.find? fun r => r.id == id

/-- The first stopped transfer of a channel: its fault state (R356, R359). -/
def stoppedRun (c : CopyChan) : Option Transfer := c.runs.find? fun r => r.stop.isSome

/-- The location of a byte that a transfer of a context names, or the reason of R359. -/
def copyByte (s : State) (chan ctx space : Nat) (a : Int) (needW : Bool) : UnitLoc :=
  let va := wrapI a 56
  if space = 0 then
    let tile := bits va 39 32
    if va / 2 ^ 40 != 0 || bits va 31 21 != 0 then .trap 3
    else
      match setOfCtx (getTile s tile) ctx with
      | none => .trap 3
      | some j => if va % 2 ^ 21 < shareBytes (getSet s tile j) then .loc (.sp tile (spPhys (getSet s tile j) (va % 2 ^ 21))) else .trap 3
  else
    match translate s (copyTlb chan) ctx [] va with
    | .miss => .miss
    | .none => .trap 1
    | .hit pa m =>
      if (if needW then !m.w else !m.r) || !kindOk .plain 1 (placeOf pa) m then .trap 2 else .loc (.mem pa)

/-- The byte that a transfer reads. -/
def copyReadByte (s : State) (chan : Nat) (r : Transfer) (space : Nat) (a : Int) : Got :=
  match copyByte s chan r.ctx space a false with
  | .miss => .miss (wrapI a 56)
  | .trap x => .trap x (wrapI a 56)
  | .loc l => if lineBad s l then .trap 4 (wrapI a 56) else if readWaits s (copyAgent chan r) l then .wait else .val (locRead s l 1)

/-- The number that `n` bytes spell to a transfer. -/
def copyRead (s : State) (chan : Nat) (r : Transfer) (space : Nat) (a : Int) (n : Nat) : Got :=
  match gotAll (fun (i : Nat) => copyReadByte s chan r space (a + (i : Int))) (List.range n) with
  | .ok l => .val (packElems 8 l)
  | .error e => e

/-- The locations to which a transfer writes `n` bytes, or the first failure. -/
def copyLocs (s : State) (chan ctx space : Nat) (a : Int) : Nat → Nat → Except Got (List Loc)
  | _, 0 => .ok []
  | i, n + 1 =>
    match copyByte s chan ctx space (a + (i : Int)) true with
    | .miss => .error (.miss (wrapI (a + (i : Int)) 56))
    | .trap x => .error (.trap x (wrapI (a + (i : Int)) 56))
    | .loc l => (match copyLocs s chan ctx space a (i + 1) n with | .ok t => .ok (l :: t) | .error e => .error e)

/-- Whether a copy reaches a tile's banks now (R361): no transition and no stretch holds the tile. -/
def banksOpen (s : State) (space : Nat) (a : Int) : Bool := space != 0 || (getTile s (bits (wrapI a 56) 39 32)).clk.since < s.dcc || edgeNow s (bits (wrapI a 56) 39 32)

/-- A transfer stopped on a failure (R359). -/
def stopTransfer (s : State) (chan : Nat) (r : Transfer) (reason addr : Nat) : State :=
  modTransfer s chan r.id fun x => { x with stop := some (reason, addr) }

/-- What a failed access of a transfer does: a miss parks, a failure stops the transfer for its reason. -/
def copyFail (s : State) (chan : Nat) (r : Transfer) (reason : Nat → Nat) (g : Got) : State :=
  match g with
  | .miss va => park s (copyDie chan) r.ctx va (copyAgent chan r)
  | .trap x va => stopTransfer s chan r (reason x) va
  | _ => s

/-! ### Rows and pieces (R350) -/

/-- Whether a template moves data through a fabric channel. -/
def tplFabric (b : List (BitVec 64)) : Bool := tplSsp b == 2 || tplDsp b == 2

/-- src(r). -/
def srcRow (r : Transfer) (row : Nat) : Int :=
  let b := r.words
  let x : Int := if isGather b then sextN (r.index.getD row 0).toNat 32 else (row : Int)
  ((tplSaddr b + (if tplAs b then r.arg.toNat * tplAstr b else 0) : Nat) : Int) + x * tplSstr b

/-- The address of a destination row. -/
def dstRow (r : Transfer) (row : Nat) : Int :=
  let b := r.words
  ((tplDaddr b + (if tplAd b then r.arg.toNat * tplAstr b else 0) : Nat) : Int) + (row : Int) * tplDstr b

/-- The pieces in which a row is moved: the destination's lines, or 64-byte items where a fabric channel takes part. -/
def rowPieces (b : List (BitVec 64)) : Nat := if tplFabric b then (tplRowb b + 63) / 64 else tplRowb b / 64 + 2

/-- The pieces of a transfer. -/
def allPieces (b : List (BitVec 64)) : Nat := tplNrow b * rowPieces b

/-- The row of a piece, its first byte in the row and its length. -/
def pieceOf (r : Transfer) (p : Nat) : Nat × Nat × Nat :=
  let b := r.words
  let row := p / rowPieces b
  let j := p % rowPieces b
  if tplFabric b then (row, 64 * j, Nat.min 64 (tplRowb b - 64 * j))
  else
    let d := wrapI (dstRow r row) 56 % 64
    let lo := if j = 0 then 0 else 64 * j - d
    (row, lo, Nat.min (tplRowb b) (64 * (j + 1) - d) - lo)

/-- Whether a piece has been moved. -/
def pieceDone (r : Transfer) (p : Nat) : Bool := p < r.low || r.past.contains p

/-- A transfer with every moved piece at its lower end counted. -/
def settlePieces (r : Transfer) : Nat → Transfer
  | 0 => r
  | fuel + 1 => if r.past.contains r.low then settlePieces { r with low := r.low + 1, past := r.past.erase r.low } fuel else r

/-- A transfer after a piece has been moved. -/
def pieceMoved (r : Transfer) (p n : Nat) : Transfer :=
  settlePieces { r with past := p :: r.past, bytes := r.bytes + n } (r.past.length + 1)

/-- What a transfer has still to write: first address and length of each part. -/
def unwritten (r : Transfer) : List (Nat × Nat) :=
  let b := r.words
  if r.ended then []
  else if isTransform b then ((List.range (itemsOut b)).filter fun t => r.got ≤ t).map fun t => (itemAddr r t, 64)
  else ((List.range (allPieces b)).filter fun p => !pieceDone r p).map fun p =>
    let (row, off, n) := pieceOf r p
    (wrapI (dstRow r row + (off : Int)) 56, n)

/-- Whether two parts overlap. -/
def partsMeet (a b : Nat × Nat) : Bool := a.1 < b.1 + b.2 && b.1 < a.1 + a.2

/-- Whether a write of a transfer must wait for an earlier transfer of its channel, whose destination it overlaps (R350). -/
def mustFollow (s : State) (chan : Nat) (r : Transfer) (part : Nat × Nat) : Bool :=
  ((copyOf s chan).runs.takeWhile fun e => e.id != r.id).any fun e =>
    tplDsp e.words == tplDsp r.words && tplDsp r.words != 2 && (unwritten e).any (partsMeet part)

/-- Whether a piece must wait for an earlier row of its transfer that writes the same bytes (R350). -/
def afterRows (r : Transfer) (p : Nat) (part : Nat × Nat) : Bool :=
  (List.range p).any fun q =>
    !pieceDone r q &&
      (let (row, off, n) := pieceOf r q
       partsMeet part (wrapI (dstRow r row + (off : Int)) 56, n))

/-! ### Moving data -/

/-- The number of a transfer as an attachment of a fabric channel. -/
def copyTag (chan : Nat) (r : Transfer) : Nat := chan * 2 ^ 32 + r.id.toNat

/-- The fabric channel of a source or destination address. -/
def copyFab (a : Int) : Nat := wrapI a 16

/-- Whether a transfer is attached to an open fabric channel. -/
def copyAttached (s : State) (chan : Nat) (r : Transfer) (n : Nat) : Bool :=
  (fabOf s n).st == 2 && (fabOf s n).copy == some (copyTag chan r)

/-- Bytes written by a transfer: a number's bytes to a list of locations. -/
def copyWrite (s : State) (chan : Nat) (r : Transfer) (ls : List Loc) (v : Nat) : State :=
  (storeBytes s (copyAgent chan r) 3 (ls.zip ((List.range ls.length).map fun i => (v / 2 ^ (8 * i) % 256, 3))) true).1

/-- What a source gives for a piece: its bytes as a number with the state that has read them, a change of state without
bytes, or a failure. -/
inductive Taken where
  | bytes (s : State) (v : Nat)
  | other (s : State)

/-- A piece read from a fabric channel (R410): the next data item; absence marks and side entries are discarded, and an END
or a failed channel stops the transfer. -/
def takeFab (s : State) (chan : Nat) (r : Transfer) (n : Nat) : Taken :=
  if !copyAttached s chan r n then .other (stopTransfer s chan r 4 n)
  else if !flitRoom s (fabPortOf n) then .other s
  else
    match (fabOf s n).buf with
    | [] => .other s
    | e :: rest =>
      let s1 := sendControl (putFab s n { fabOf s n with buf := rest }) n 1 0 (fabOf s n).rch.toNat
      if e.kind = 1 then .bytes s1 e.payload.toNat
      else if e.kind = 2 then .other (stopTransfer s1 chan r 5 n)
      else .other s1

/-- A piece read from memory or a share. -/
def takeMem (s : State) (chan : Nat) (r : Transfer) (row off n : Nat) : Taken :=
  let a := srcRow r row + (off : Int)
  if !banksOpen s (tplSsp r.words) a then .other s
  else
    match copyRead s chan r (tplSsp r.words) a n with
    | .val v => .bytes s v
    | e => .other (copyFail s chan r (fun x => if isGather r.words then 6 else x) e)

/-- Whether a piece can be written now: what it must follow has been written, the banks are open, the channel takes an
entry. -/
def canPut (s : State) (chan : Nat) (r : Transfer) (p : Nat) : Bool :=
  let (row, off, n) := pieceOf r p
  let a := dstRow r row + (off : Int)
  if tplDsp r.words = 2 then canSend s (copyFab (dstRow r 0))
  else banksOpen s (tplDsp r.words) a && !mustFollow s chan r (wrapI a 56, n) && !afterRows r p (wrapI a 56, n)

/-- A piece moved (R350): read, then written or sent. -/
def movePiece (s : State) (chan : Nat) (r : Transfer) (p : Nat) : State :=
  let b := r.words
  let (row, off, n) := pieceOf r p
  let read (s0 : State) : Taken := if tplSsp b = 2 then takeFab s0 chan r (copyFab (srcRow r 0)) else takeMem s0 chan r row off n
  let moved (s1 : State) : State := modTransfer s1 chan r.id fun x => pieceMoved x p n
  if n = 0 then moved s
  else if tplDsp b = 2 then
    let f := copyFab (dstRow r 0)
    if !copyAttached s chan r f then stopTransfer s chan r 4 f
    else if !canPut s chan r p then s
    else
      match read s with
      | .other s1 => s1
      | .bytes s1 v =>
        let s2 := sendEntry s1 f (dataEntry (BitVec.ofNat 512 v))
        modTransfer (moved s2) chan r.id fun x => { x with ack := (fabOf s2 f).sent.toNat }
  else if !canPut s chan r p then s
  else
    match copyLocs s chan r.ctx (tplDsp b) (dstRow r row + (off : Int)) 0 n with
    | .error e => copyFail s chan r id e
    | .ok ls =>
      match read s with
      | .other s1 => s1
      | .bytes s1 v => moved (copyWrite s1 chan r ls v)

/-- A transfer all of whose pieces are moved ends, where it sent on a fabric channel once every item is acknowledged
(R412). -/
def endPieces (s : State) (chan : Nat) (r : Transfer) : State :=
  let f := copyFab (dstRow r 0)
  let fin : State := modTransfer s chan r.id fun x => { x with ended := true }
  if tplDsp r.words != 2 then fin
  else if !copyAttached s chan r f then stopTransfer s chan r 4 f
  else if acknowledged s f r.ack then fin
  else s

/-- A step of a transfer that is not through a transform: the piece that comes next is open, except on a fabric channel,
which keeps the order (notes/assumptions/3.md). -/
def plainStep (s : State) (chan : Nat) (r : Transfer) : State :=
  let total := allPieces r.words
  if total ≤ r.low then endPieces s chan r
  else if tplFabric r.words then movePiece s chan r r.low
  else
    let p := r.low + (freeValue s).1.toNat % (total - r.low)
    if pieceDone r p then (freeValue s).2 else movePiece (freeValue s).2 chan r p

/-! ### Transforms (R352, R353) -/

/-- The set on a transform's tile. -/
def transformSet (s : State) (r : Transfer) : Option Nat := setOfCtx (getTile s (tplTtile r.words)) r.ctx

/-- The next item of a transform's input appended to its stream register (R353). -/
def transformIn (s : State) (chan : Nat) (r : Transfer) (set : Nat) : State :=
  let b := r.words
  let tile := tplTtile b
  let per := tplRowb b / 64
  let t := getTile s tile
  let c := getSet s tile set
  match qChannel t c set (tplTq b) with
  | none => s
  | some key =>
    if itemsIn b ≤ r.low then s
    else
      match takeMem s chan r (r.low / per) (64 * (r.low % per)) 64 with
      | .other s1 => s1
      | .bytes s1 v =>
        let e := dataEntry (BitVec.ofNat 512 v)
        if chanFree (chanOf t key) < slotsNeeded s tile set key [e] then s
        else
          let s2 := modSet (appendEntries s1 tile set key [e]) tile set fun x =>
            { x with qregs := Tab.set x.qregs (tplTq b) { qregOf x (tplTq b) with next := (qregOf x (tplTq b)).next + 1 } }
          modTransfer s2 chan r.id fun x => { x with low := x.low + 1 }

/-- A data item of a transform's output written (R353). -/
def transformItem (s : State) (chan : Nat) (r : Transfer) (set elem key : Nat) (v : Nat) : State :=
  let b := r.words
  let tile := tplTtile b
  let a := itemAddr r r.got
  if !banksOpen s (tplDsp b) (a : Int) || mustFollow s chan r (a, 64) then s
  else
    match copyLocs s chan r.ctx (tplDsp b) (a : Int) 0 64 with
    | .error e => copyFail s chan r id e
    | .ok ls =>
      modTransfer (copyWrite (noteInstant (popEntry s tile key) tile set elem key) chan r ls v) chan r.id fun x =>
        { x with got := x.got + 1, bytes := x.bytes + 64 }

/-- The next entry of a transform's output (R353, R362). -/
def transformOut (s : State) (chan : Nat) (r : Transfer) (set : Nat) : State :=
  let b := r.words
  let tile := tplTtile b
  let t := getTile s tile
  let c := getSet s tile set
  match sinkFeeder t c (tplTwp b) with
  | none => s
  | some (elem, out) =>
    let key := sinkKey set elem out
    if itemsOut b ≤ r.got || !elemRuns c elem then s
    else
      match (chanOf t key).q with
      | [] => s
      | e :: _ =>
        let a := itemAddr r r.got
        if !entryGood e then stopTransfer s chan r 4 a
        else if e.kind = 1 then transformItem s chan r set elem key e.payload.toNat
        else if e.kind = 0 then noteInstant (popEntry s tile key) tile set elem key
        else if e.kind = 2 then
          stopTransfer (noteInstant (countEnd (popEntry s tile key) tile set elem key) tile set elem key) chan r 5 a
        else if e.kind = 6 then stopTransfer (popEntry (countCairn s tile set key) tile key) chan r 5 a
        else if e.kind = 7 then popEntry (switchType s tile set elem out key e.payload.toNat) tile key
        else popEntry s tile key

/-- A step of a transfer through a transform: an item in or an entry out, whichever comes next; a region that no longer runs
stops it. -/
def transformStep (s : State) (chan : Nat) (r : Transfer) : State :=
  let b := r.words
  let tile := tplTtile b
  match transformSet s r with
  | none => s
  | some set =>
    if itemsIn b ≤ r.low && itemsOut b ≤ r.got then modTransfer s chan r.id fun x => { x with ended := true }
    else if (regionOf (getSet s tile set) r.tslot).st != .running && r.got < itemsOut b then stopTransfer s chan r 5 (itemAddr r r.got)
    else if (getTile s tile).active != set || !edgeNow s tile || (getTile s tile).removed then s
    else if (freeValue s).1.toNat % 2 = 0 then transformIn (freeValue s).2 chan r set
    else transformOut (freeValue s).2 chan r set

/-! ### The start of a transfer (R352, R409) -/

/-- Whether a fabric channel can be attached to a transfer that sends or receives on it. -/
def fabFree (s : State) (n : Nat) (recv : Bool) : Bool :=
  let f := fabOf s n
  f.st == 2 && f.dir == recv && f.port.isNone && f.copy.isNone

/-- The fabric channels of a transfer attached to it, once they are open and free; one that its context does not hold stops
it. -/
def attachFabs (s : State) (chan : Nat) (r : Transfer) : State :=
  let b := r.words
  let need := (if tplSsp b = 2 then [(copyFab (srcRow r 0), true)] else []) ++ if tplDsp b = 2 then [(copyFab (dstRow r 0), false)] else []
  match need.find? fun p => !holdsFab s r.ctx p.1 with
  | some p => stopTransfer s chan r 2 p.1
  | none =>
    if need.all fun p => fabFree s p.1 p.2 then
      modTransfer (need.foldl (fun acc p => putFab acc p.1 { fabOf acc p.1 with copy := some (copyTag chan r) }) s) chan r.id fun x =>
        { x with bound := true }
    else s

/-- A transform's stream register and write port bound, once the register is bound to a running region, nothing else feeds
it and the port is closed (R352, R353). -/
def bindTransform (s : State) (chan : Nat) (r : Transfer) : State :=
  let b := r.words
  let tile := tplTtile b
  match transformSet s r with
  | none => s
  | some set =>
    let c := getSet s tile set
    match (qregOf c (tplTq b)).slot with
    | none => s
    | some slot =>
      if (regionOf c slot).st == .running && !transferFeeds s tile set (tplTq b) && (portIn c (4 + tplTwp b)).isNone
          && !copyHolds s tile set (4 + tplTwp b) then
        modTransfer s chan r.id fun x => { x with bound := true, tslot := slot }
      else s

/-- The next index value of a gather read (R351). -/
def readIndex (s : State) (chan : Nat) (r : Transfer) : State :=
  let a : Int := ((tplIaddr r.words + 4 * r.index.length : Nat) : Int)
  if !banksOpen s (tplIsp r.words) a then s
  else
    match copyRead s chan r (tplIsp r.words) a 4 with
    | .val v => modTransfer s chan r.id fun x => { x with index := x.index ++ [BitVec.ofNat 32 v] }
    | e => copyFail s chan r (fun _ => 6) e

/-- A running transfer's turn. -/
def copyStep (s : State) (chan id : Nat) : State :=
  match findTransfer s chan (BitVec.ofNat 32 id) with
  | none => s
  | some r =>
    if r.ended || r.stop.isSome || parkedOn s (copyAgent chan r) || s.boot != .running || (Tab.find? s.partsOut (partOf s r.ctx)).isSome then s
    else if !r.bound then (if isTransform r.words then bindTransform s chan r else attachFabs s chan r)
    else if isGather r.words && r.index.length < tplNrow r.words then readIndex s chan r
    else if isTransform r.words then transformStep s chan r
    else plainStep s chan r

/-! ### Fire lines (R346, R347) -/

/-- The number of an armed slot. -/
def slotKey (engine slot : Nat) : Nat := engine * 64 + slot

/-- An entry that every armed slot of its line can take. -/
def canDeliver (s : State) (e : FireEntry) : Bool :=
  s.slots.all fun x => x.2.line != e.line || x.2.q.length < 4

/-- FIRE_ENTRY_DELIVER (R346): the router delivers an entry to every slot armed on its line; where none is armed it is
discarded. The order among senders is the router's: a free value. -/
def execFireEntryDeliver (s : State) : Host.Outcome State Fault Refusal :=
  let able := s.fires.filter (canDeliver s)
  match able[(freeValue s).1.toNat % Nat.max 1 able.length]? with
  | none => .next s
  | some e =>
    .next { (freeValue s).2 with
      fires := s.fires.filter fun x => x.id != e.id
      slots := Tab.mapAll (fun _ x => if x.line == e.line then { x with q := x.q ++ [e.arg] } else x) s.slots }

/-- Whether a slot can take its next start entry (R347, R359): its channel runs fewer than four transfers and none of them is
stopped. -/
def slotStarts (s : State) (x : ArmedSlot) : Bool :=
  let c := copyOf s (tplChan x.words)
  !x.q.isEmpty && c.runs.length < 4 && (stoppedRun c).isNone

/-- A transfer as it starts. -/
def newTransfer (x : ArmedSlot) (id arg : BitVec 32) : Transfer :=
  { id := id, words := x.words, arg := arg, ctx := x.ctx, tile := x.tile, set := x.set, bound := !tplFabric x.words && !isTransform x.words,
    index := [], low := 0, past := [], got := 0, bytes := 0, ended := false, ack := 0, tslot := 0, stop := none, told := false,
    status := 0, record := none }

/-- TRANSFER_START (R347): the lowest slot of an engine that can takes the entry at the head of its start queue. -/
def execTransferStart (engine slot : Nat) (s : State) : Host.Outcome State Fault Refusal :=
  let able := Tab.keysWhere s.slots fun k x => k / 64 == engine && slotStarts s x
  match able.head?, Tab.find? s.slots (slotKey engine slot) with
  | some k, some x =>
    if k != slotKey engine slot || s.boot != .running || (Tab.find? s.partsOut (partOf s x.ctx)).isSome then .next s
    else
      match x.q with
      | [] => .next s
      | arg :: rest =>
        .next (modCopy { s with slots := Tab.set s.slots k { x with q := rest } } (tplChan x.words) fun c =>
          { c with next := c.next + 1, runs := c.runs ++ [newTransfer x c.next arg] })
  | _, _ => .next s

/-! ### The end of a transfer (R296, R347, R354) -/

/-- WM raised over the IDs that have completed. -/
def raiseWm (c : CopyChan) : Nat → CopyChan
  | 0 => c
  | fuel + 1 => if c.ends.contains c.wm then raiseWm { c with wm := c.wm + 1, ends := c.ends.erase c.wm } fuel else c

/-- A transfer completed: WM advances, and its fabric channels have no attachment any more. -/
def completeTransfer (s : State) (chan : Nat) (r : Transfer) : State :=
  { modCopy s chan (fun c =>
      raiseWm { c with ends := if (r.id - c.wm).toNat < 2 ^ 31 then c.ends ++ [r.id] else c.ends, runs := c.runs.filter fun x => x.id != r.id } (c.ends.length + 1)) with
    fabChans := Tab.mapAll (fun _ f => if f.copy == some (copyTag chan r) then { f with copy := none } else f) s.fabChans }

/-- The completion record of a transfer (R354). -/
def recordWords (s : State) (chan : Nat) (r : Transfer) : List Nat :=
  [r.status * 2 ^ 56 + chan % 1024 * 2 ^ 32 + r.id.toNat, s.dcc % 2 ^ 64, r.bytes % 2 ^ 64, 0]

/-- The completion record stored (R354); a fault on its store stops the transfer. -/
def writeRecord (s : State) (chan : Nat) (r : Transfer) : State :=
  let a : Int := (tplCrec r.words : Int)
  match copyLocs s chan r.ctx 1 a 0 32 with
  | .error e => copyFail s chan r id e
  | .ok ls =>
    let (s1, ids) := storeBytes s (copyAgent chan r) 3 (ls.zip ((List.range 32).map fun i => (packElems 64 (recordWords s chan r) / 2 ^ (8 * i) % 256, 3))) true
    modTransfer s1 chan r.id fun x => { x with record := some ids }

/-- TRANSFER_COMPLETE (R347, R354): when every write of a transfer has been applied at its home, its record is written, if it
has one, and once the record is applied too it completes. -/
def execTransferComplete (chan : Nat) (id : BitVec 32) (s : State) : Host.Outcome State Fault Refusal :=
  match findTransfer s chan id with
  | none => .next s
  | some r =>
    if !r.ended || r.stop.isSome || parkedOn s (copyAgent chan r) || !(reqsOf s (copyAgent chan r)).isEmpty then .next s
    else if tplCrv r.words && r.record.isNone then .next (writeRecord s chan r)
    else .next (completeTransfer s chan r)

/-! ### Stops (R359, R360) -/

/-- The record of a stopped transfer (R360). -/
def transferRec (chan : Nat) (r : Transfer) (reason addr : Nat) : TrapRec :=
  { unitRec 0x13 1 5 0 0 addr (BitVec.ofNat 64 (chan % 1024 * 2 ^ 48 + r.id.toNat * 2 ^ 16 + reason)) 0 with late := true }

/-- A record that arrives for a context at a tile: at its set there, in the tile or out of it, or, where there is none,
reflected. -/
def raiseAt (s : State) (tile ctx : Nat) (r : TrapRec) : State :=
  match whereSet s tile ctx with
  | some (u, j) => raiseTrap s u j r
  | none => reflect s tile 0 r 9 ctx

/-- COPY_TRANSFER_STOP (R360): a stopped transfer is reported to the arming context on the arming tile. -/
def execCopyTransferStop (chan : Nat) (id : BitVec 32) (s : State) : Host.Outcome State Fault Refusal :=
  match findTransfer s chan id with
  | none => .next s
  | some r =>
    match r.stop with
    | none => .next s
    | some (reason, addr) =>
      if r.told then .next s
      else .next (raiseAt (modTransfer s chan id fun x => { x with told := true }) r.tile r.ctx (transferRec chan r reason addr))

/-- A stopped transfer after the return from its record (R360): it resumes, finding its start conditions anew where it runs
through a region or a fabric channel, or it is abandoned; a record that could not be stored is left out. -/
def returnTransfer (s : State) (det0 : BitVec 64) (skip : Bool) : State :=
  let chan := bits det0.toNat 57 48
  let id := BitVec.ofNat 32 (bits det0.toNat 47 16)
  modTransfer s chan id fun x =>
    if x.stop.isNone then x
    else if skip then
      { x with stop := none, told := false, ended := true, status := 1, record := if x.ended then some [] else none }
    else { x with stop := none, told := false, bound := x.bound && !(tplFabric x.words || isTransform x.words) || x.ended }

/-! ### Reading a block (R356, R369) -/

/-- Whether a block of 64-bit words that a word of the acting thread reads must wait: an earlier access of its own to the block, or a
store that the reading follows, is still to be applied (R285, R299). -/
def blockWaits (s : State) (loc : Loc) (n : Nat) : Bool :=
  ((reqsOf s (curAgent s)).any fun e => overlaps e.loc e.size loc (8 * n) && !isApplied e)
    || s.reqs.any fun e => !isApplied e && reqStores e.op && overlaps e.loc e.size loc (8 * n)
        && ((sameTile e.agent (curAgent s) && e.stage != .held)
          || (e.stage == .accepted && (agentTile e.agent).map tileSlot == some (tileSlot s.focus.tile)))

/-- The 64-bit words of a block that a word of the acting thread reads when it issues: alignment, translation, permission and
check codes as for a load (R152); its own earlier accesses to the block are performed before. -/
def readBlock (s : State) (va align n : Nat) (go : State → List (BitVec 64) → Res) : Res :=
  if !memoryReady s then .hold
  else if va % align != 0 then trapAt s 0x04 va
  else
    match checkAddress s va (8 * n) true false .block with
    | .trap cause => trapAt s cause va
    | .miss => parkThread s va
    | .ok loc =>
      if blockWaits s loc n then .hold
      else
        let place (i : Nat) : Loc := match loc with | .mem a => .mem (a + i) | .sp t a => .sp t (a + i)
        if (List.range n).any fun i => lineBad s (place (8 * i)) then trapAt s 0x09 va
        else
          go (memoryBegin s) ((List.range n).map fun i =>
            BitVec.ofNat 64 (locRead s (place (8 * i)) 8))

/-- What a thread learns from a block that it reads as an acquire at PACKAGE (R289, R290). -/
def learnBlock (s : State) (va n : Nat) : State :=
  match checkAddress s va (8 * n) true false .block with
  | .ok loc =>
    learn s (curKey s) (curAgent s) true 3 (published s loc (8 * n))
  | _ => s

/-! ### The copy instructions (R355, R356) -/

/-- Whether a scratchpad or fabric address of a template uses only the bits of its space (R348). -/
def addressForm (space a : Nat) : Bool :=
  match space with
  | 0 => a / 2 ^ 40 == 0 && bits a 31 21 == 0 && a % 8 == 0
  | 1 => a % 8 == 0
  | _ => a < 3072

/-- Whether a context holds a tile. -/
def holdsTile (s : State) (ctx tile : Nat) : Bool := (Tab.find? (getCtx s ctx).shares tile).isSome

/-- Whether an address of a template names a tile that the context does not hold. -/
def foreignTile (s : State) (ctx space a : Nat) : Bool := space == 0 && !holdsTile s ctx (bits a 39 32)

/-- Whether the reserved fields and space codes of a template are 0 or defined (R348, R358). -/
def templateForm (b : List (BitVec 64)) : Bool :=
  bits (tplWord b 0) 60 56 == 0 && bits (tplWord b 1) 60 56 == 0 && bits (tplWord b 4) 63 58 == 0 && bits (tplWord b 4) 42 32 == 0
    && bits (tplWord b 5) 60 56 == 0 && bits (tplWord b 6) 49 48 == 0 && bits (tplWord b 6) 31 0 == 0 && bits (tplWord b 7) 63 56 == 0
    && tplSsp b ≤ 2 && tplDsp b ≤ 2 && tplIsp b ≤ 1 && (isTransform b || tplWord b 6 == 0) && (isGather b || tplIaddr b == 0)
    && (tplCrv b || tplCrec b == 0)

/-- Whether the alignments and sizes of a template hold (R348, R358). -/
def templateSizes (b : List (BitVec 64)) : Bool :=
  addressForm (tplSsp b) (tplSaddr b) && addressForm (tplDsp b) (tplDaddr b) && 1 ≤ tplNrow b && tplRowb b % 8 == 0 && 8 ≤ tplRowb b
    && tplRowb b ≤ 2 ^ 24 && tplSstr b % 8 == 0 && tplDstr b % 8 == 0 && tplAstr b % 8 == 0 && tplIaddr b % 4 == 0
    && (tplIsp b != 0 || (tplIaddr b / 2 ^ 40 == 0 && bits (tplIaddr b) 31 21 == 0)) && tplCrec b % 32 == 0
    && (!isTransform b || (tplRowb b % 64 == 0 && 1 ≤ tplRin b && 1 ≤ tplRout b && tplNrow b * tplRowb b / 64 % tplRin b == 0))

/-- Whether XARM accepts a template for a context (R358). -/
def templateOk (s : State) (ctx : Nat) (b : List (BitVec 64)) : Bool :=
  templateForm b && templateSizes b && ownsChan s ctx (tplChan b)
    && !(isTransform b && !holdsTile s ctx (tplTtile b)) && !foreignTile s ctx (tplSsp b) (tplSaddr b)
    && !foreignTile s ctx (tplDsp b) (tplDaddr b) && !(isGather b && foreignTile s ctx (tplIsp b) (tplIaddr b))
    && !(isTransform b && tplFabric b) && !(tplMode b == 1 && tplSsp b == 2) && !(tplFabric b && !bit (features s) 5)

/-- The lowest free slot of an engine. -/
def freeSlot (s : State) (engine : Nat) : Option Nat :=
  (List.range 64).find? fun k => (Tab.find? s.slots (slotKey engine k)).isNone

/-- A template armed on a line (R356). -/
def armTemplate (s : State) (line : Nat) (b : List (BitVec 64)) : Res :=
  if !templateOk s (curCtx s) b then illegalOperand s
  else
    match freeSlot s (tplChan b / 16) with
    | none => illegalOperand s
    | some k =>
      .done { s with slots := Tab.set s.slots (slotKey (tplChan b / 16) k) ⟨b, line, curCtx s, s.focus.tile, s.focus.set, []⟩ }

/-- XARM (R356). -/
def execXarm (w : TWord) (s : State) : Host.Outcome State Fault Refusal :=
  .next (runWord w s fun s1 =>
    let a := (argA w s1).toNat
    let va := (argB w s1).toNat % 2 ^ 56
    if 512 ≤ a || !ownsLine s1 (curCtx s1) a then illegalOperand s1
    else readBlock s1 va 64 8 fun s2 b => armTemplate (learnBlock s2 va 8) a b)

/-- XARM.D (R356): the context's slots on a line for a channel are freed, with what is queued for them. -/
def execXarmD (w : TWord) (s : State) : Host.Outcome State Fault Refusal :=
  .next (runWord w s fun s1 =>
    let a := (argA w s1).toNat
    let b := (argB w s1).toNat
    if 512 ≤ a || 1024 ≤ b || !ownsLine s1 (curCtx s1) a || !ownsChan s1 (curCtx s1) b then illegalOperand s1
    else .done { s1 with slots := s1.slots.filter fun x => !(x.2.ctx == curCtx s1 && x.2.line == a && tplChan x.2.words == b) })

/-- XFIRE (R356, R346): an entry sent as a release at PACKAGE; the thread waits until every slot has taken it. -/
def execXfire (w : TWord) (s : State) : Host.Outcome State Fault Refusal :=
  .next (runWord w s fun s1 =>
    let a := (argA w s1).toNat
    match (curThread s1).fl.asked with
    | some id => if fireUnderWay s1 id then .wait s1 else .done s1
    | none =>
      if bits a 31 9 != 0 || !ownsLine s1 (curCtx s1) (a % 512) then illegalOperand s1
      else if !releaseMet s1 3 then .hold
      else
        let s2 := sendFire s1 (a % 512) (BitVec.ofNat 32 (a / 2 ^ 32))
        .wait (modCurThread s2 fun th => { th with fl := { th.fl with asked := some s1.serial } }))

/-- Whether the watermark of a channel has reached an ID (R356, R357). -/
def wmReached (s : State) (chan : Nat) (id : BitVec 32) : Bool := ((copyOf s chan).wm - id).toNat < 2 ^ 31

/-- XWAIT (R356). -/
def execXwait (w : TWord) (s : State) : Host.Outcome State Fault Refusal :=
  .next (runWord w s fun s1 =>
    let a := (argA w s1).toNat
    let b := (argB w s1).toNat
    if 1024 ≤ a || 2 ^ 32 ≤ b || !ownsChan s1 (curCtx s1) a then illegalOperand s1
    else if wmReached s1 a (BitVec.ofNat 32 b) then .done s1
    else .wait s1)

/-- The two views of XSTAT (R356). -/
def xstatWord (c : CopyChan) (view : Bool) : BitVec 64 :=
  if view then
    match stoppedRun c with
    | some r => BitVec.ofNat 64 (2 ^ 63 + ((r.stop.map Prod.fst).getD 0) % 16 * 2 ^ 59 + c.runs.length % 8 * 2 ^ 56 + r.id.toNat)
    | none => BitVec.ofNat 64 (c.runs.length % 8 * 2 ^ 56)
  else BitVec.ofNat 64 (c.next.toNat * 2 ^ 32 + c.wm.toNat)

/-- XSTAT (R356). -/
def execXstat (w : TWord) (s : State) : Host.Outcome State Fault Refusal :=
  .next (runWord w s fun s1 =>
    let a := (argA w s1).toNat
    if a / 2 ^ 13 != 0 || bits a 11 10 != 0 || !ownsChan s1 (curCtx s1) (a % 1024) then illegalOperand s1
    else .done (writeS s1 w.d (xstatWord (copyOf s1 (a % 1024)) (bit a 12))))

/-! ### The commands of the XC engine (R357) -/

/-- Whether what a command's wait would consume is performed at PACKAGE (R295, R296): the stores that the signals which made those
tokens promised. -/
def waitOrdered (s : State) (c : Cmd) : Bool :=
  match c.wait with
  | some r =>
    (tokenIds s (curSet s) r.queue.toNat (r.less1.toNat + 1)).all fun id =>
      match findReq s id with
      | some e => performedId s e.agent 3 id
      | none => true
  | none => true

/-- FIRE (R357): after its wait it sends an entry, and signals when every slot has taken it, or, where none is armed and the entry is
discarded, in the step after. -/
def execXcFire (c : Cmd) (s : State) : Host.Outcome State Fault Refusal :=
  match (engState (curSet s) 5).sent with
  | some id =>
    if fireUnderWay s id then .next s else .next (modCurSet (nextCommand s 5) fun x => raiseSignal x c.sig)
  | none =>
    runCommand s 5 c 3 (fun s1 => waitOrdered s1 c) (fun _ => none) fun s1 =>
      if (armedOn s1 (argBits c 41 33)).isEmpty then
        modEng { s1 with serial := s1.serial + 1 } 5 fun x => { x with sent := some s1.serial, free := tscOf s1 s1.focus.tile + 1 }
      else modEng (sendFire s1 (argBits c 41 33) (BitVec.ofNat 32 (argBits c 31 0))) 5 fun x => { x with sent := some s1.serial }

/-- MARK (R357): after its wait it holds the ring until the watermark reaches its ID, then signals. -/
def execMark (c : Cmd) (s : State) : Host.Outcome State Fault Refusal :=
  runCommand s 5 c 3 (fun _ => true) (fun _ => none) fun s1 =>
    if wmReached s1 (argBits c 41 32) (BitVec.ofNat 32 (argBits c 31 0)) then modCurSet (nextCommand s1 5) fun x => raiseSignal x c.sig
    else s1

end Sys2Proof.Machine
end

