-- ==== Sys2Proof/Machine/Fabric.lean ====
section
/-! DEFINITION. The receiving side of the fabric: flits, link retry, retraining and the channels' messages (R405 to R409, R411,
R415). A link-control message acts alike whether its flit or its row of the opcode table brings it. -/

namespace Sys2Proof.Machine

/-! ### Channels (R407, R408, R415) -/

/-- Whether a channel is one of a port. -/
def chanAtPort (port n : Nat) : Bool := port < 6 && n < 3072 && fabPortOf n == port

/-- A channel stopped with a reason, if it is enabled and not stopped yet. -/
def stopChannel (reason : Nat) (c : FabChan) : FabChan := if c.st == 1 || c.st == 2 then { c with st := 3, reason := reason } else c

/-- Credits returned to a send channel (R408). -/
def creditBack (s : State) (port n count : Nat) : State :=
  let c := fabOf s n
  if chanAtPort port n && c.en && !c.dir then putFab s n { c with credit := Nat.min 32 (c.credit + count) } else s

/-- A peer's close message (R407). -/
def peerClosed (s : State) (port n : Nat) : State := if chanAtPort port n then putFab s n (stopChannel 3 (fabOf s n)) else s

/-- Every channel of a port stopped. -/
def stopPort (s : State) (port reason : Nat) : State :=
  { s with fabChans := Tab.mapAll (fun n c => if fabPortOf n = port then stopChannel reason c else c) s.fabChans }

/-- What a peer's channel says of its own end (R407): this one opens when the peer's channel is enabled with the other DIR and names it,
and stops when it names another or has the same DIR. -/
def peerOpened (s : State) (port n : Nat) (peer : PeerEnd) : State :=
  let c := fabOf s n
  if !chanAtPort port n || c.st != 1 || !peer.enabled then s
  else if peer.rch == n && peer.receive != c.dir then putFab s n { c with st := 2 }
  else putFab s n { c with st := 3, reason := 4 }

/-- CREDIT (R408). -/
def execCredit (port chan count : Nat) (s : State) : Host.Outcome State Fault Refusal := .next (creditBack s port chan count)
/-- FABRIC_OPEN_MESSAGE (R407). -/
def execFabricOpenMessage (port chan : Nat) (peer : PeerEnd) (s : State) : Host.Outcome State Fault Refusal :=
  .next (peerOpened s port chan peer)
/-- FABRIC_CLOSE_MESSAGE (R407, R415). -/
def execFabricCloseMessage (port chan : Nat) (s : State) : Host.Outcome State Fault Refusal := .next (peerClosed s port chan)
/-- FABRIC_RESET_MESSAGE (R415). -/
def execFabricResetMessage (port : Nat) (s : State) : Host.Outcome State Fault Refusal :=
  if port < 6 then .next (stopPort s port 3) else .next s

/-- FCCTL_ENABLE (R407). -/
def execFcctlEnable (chan : Nat) (value : BitVec 64) (s : State) : Host.Outcome State Fault Refusal :=
  if chan < 3072 && value.getLsbD 63 then .next (fcctlOn s chan value) else .next s
/-- FCCTL_DISABLE (R407). -/
def execFcctlDisable (chan : Nat) (value : BitVec 64) (s : State) : Host.Outcome State Fault Refusal :=
  if chan < 3072 && !value.getLsbD 63 then .next (fcctlOff s chan value) else .next s

/-! ### Flits (R405, R406) -/

/-- Whether a sequence number is acknowledged by an ACK. -/
def ackCovers (ack : Nat) (f : Flit) : Bool := (ack + 4096 - flitField f 4 2 % 4096) % 4096 < 2048

/-- The entries of acknowledged flits counted in ACKD (R412), and the flits out of the replay buffer. -/
def takeAck (s : State) (port ack : Nat) : State :=
  let done := (portOfFab s port).replay.filter fun f => ackCovers ack f.1
  let s1 := modFabPort s port fun p => { p with replay := p.replay.filter fun f => !ackCovers ack f.1 }
  (done.filterMap Prod.snd).foldl (fun acc n => putFab acc n { fabOf acc n with ackd := (fabOf acc n).ackd + 1 }) s1

/-- An entry received (R408, R415): it waits in its channel's buffer, with a new check code. -/
def receiveEntry (s : State) (port n kind : Nat) (payload : BitVec 512) : State :=
  let c := fabOf s n
  if chanAtPort port n && c.st == 2 && c.dir && c.buf.length < 32 then
    putFab s n { c with buf := c.buf ++ [mkEntry kind payload], recv := c.recv + 1 }
  else s

/-- A link-control message (R405); an open message acts with its row, which names the peer's end. -/
def controlMessage (s : State) (port : Nat) (f : Flit) : State :=
  match flitField f 11 1 with
  | 0 => creditBack s port (flitField f 8 2) (flitField f 10 1)
  | 2 => peerClosed s port (flitField f 8 2)
  | 3 => stopPort s port 3
  | _ => s

/-- What an accepted flit carries. -/
def flitContent (s : State) (port : Nat) (f : Flit) : State :=
  let kind := flitField f 2 1 % 8
  if kind = 3 then controlMessage s port f
  else receiveEntry s port (flitField f 0 2) kind (if 4 ≤ kind then BitVec.ofNat 512 (flitField f 8 8) else BitVec.ofNat 512 (flitField f 8 64))

/-- Whether a flit is taken: its LCRC holds and its SEQ is the next in order. -/
def flitGood (s : State) (port : Nat) (f : Flit) : Bool :=
  flitCrc (f.toNat % 2 ^ 608) == flitField f 76 4 && flitField f 4 2 % 4096 == (portOfFab s port).expect.toNat

/-- FLIT_RECEIVE (R405, R406, R408): a flit that fails its LCRC or is out of order is discarded; another is counted, its ACK is taken
and what it carries is delivered. -/
def execFlitReceive (port : Nat) (flit : Flit) (s : State) : Host.Outcome State Fault Refusal :=
  if 6 ≤ port || (portOfFab s port).down || (portOfFab s port).training || !flitGood s port flit then .next s
  else
    let s1 := modFabPort s port fun p => { p with expect := p.expect + 1 }
    .next (flitContent (takeAck s1 port (flitField flit 6 2 % 4096)) port flit)

/-- PORT_RETRAIN (R406): after 16 replays of its first flit a port retrains. -/
def execPortRetrain (port : Nat) (s : State) : Host.Outcome State Fault Refusal :=
  if 6 ≤ port || (portOfFab s port).down || (portOfFab s port).replay.isEmpty then .next s
  else .next (modFabPort s port fun p => { p with training := true })

/-- FABRIC_RETRAIN_END (R406, R415): a port that retrained goes on; after three failures in a row it is down until package reset, and its
channels are stopped. -/
def execFabricRetrainEnd (port : Nat) (good : Bool) (s : State) : Host.Outcome State Fault Refusal :=
  let p := portOfFab s port
  if 6 ≤ port || !p.training then .next s
  else if good then .next (modFabPort s port fun p => { p with training := false, fails := 0 })
  else if p.fails < 2 then .next (modFabPort s port fun p => { p with fails := p.fails + 1 })
  else .next (stopPort (modFabPort s port fun p => { p with fails := 3, training := false, down := true }) port 2)

end Sys2Proof.Machine
end

