-- ==== Sys2Proof/Machine/Power.lean ====
section
/-! DEFINITION. The power-quantum tree and the meters (R317, R395, R396, R398). -/

namespace Sys2Proof.Machine

/-! ### Die grants and shares (R317) -/

/-- An amount divided among dies in proportion to their weights; a remainder goes one each to the lowest-numbered. -/
def divideAmong (n : Nat) (w : List Nat) : List Nat :=
  let total := w.sum
  if total = 0 then w.map fun _ => 0
  else
    let base := w.map fun x => n * x / total
    let rest := n - base.sum
    let ranks := (List.range w.length).map fun d => ((w.take d).filter fun x => x != 0).length
    (List.range w.length).map fun d => base.getD d 0 + (if w.getD d 0 != 0 && ranks.getD d 0 < rest then 1 else 0)

/-- The weights of a context's dies: a partition's slots, another's tiles. -/
def dieWeights (s : State) (ctx : Nat) : List Nat :=
  (List.range 4).map fun d =>
    let mine := (getCtx s ctx).shares.filter fun p => tileDie p.1 == d
    if (getCtx s ctx).depth = 1 then (mine.map fun p => tileSlot p.1).eraseDups.length else mine.length

/-- The quanta that a context receives on each die. -/
def dieReceived (s : State) (ctx : Nat) : List Nat := divideAmong (getCtx s ctx).pwr (dieWeights s ctx)

/-- A child's quanta taken from its parent's on each die; what a die lacks is taken from the others, lowest first. -/
def takeQuanta (own child : List Nat) : List Nat :=
  let left := (List.range 4).map fun d => own.getD d 0 - child.getD d 0
  let lack := ((List.range 4).map fun d => child.getD d 0 - own.getD d 0).sum
  ((List.range 4).foldl (fun (acc : List Nat × Nat) d =>
    let take := Nat.min (left.getD d 0) acc.2
    (acc.1 ++ [left.getD d 0 - take], acc.2 - take)) ([], lack)).1

/-- The live children of a context, ascending. -/
def children (s : State) (ctx : Nat) : List Nat := (s.ctxs.filter fun p => p.2.depth != 0 && p.2.parent == ctx).map Prod.fst

/-- The quanta that serve a context's own placements on each die. -/
def dieGrant (s : State) (ctx : Nat) : List Nat := (children s ctx).foldl (fun own c => takeQuanta own (dieReceived s c)) (dieReceived s ctx)

/-- The tiles of a die that hold a bound placement of a context, ascending. -/
def boundTiles (s : State) (ctx die : Nat) : List Nat :=
  (List.range 64).map (fun k => die * 64 + k) |>.filter fun t => s.places.any fun p => p.2.ctx == ctx && p.2.tile == t

/-- The share of a context's set on a tile per interval. -/
def tileShare (s : State) (ctx tile : Nat) : Nat :=
  let l := boundTiles s ctx (tileDie tile)
  let g := (dieGrant s ctx).getD (tileDie tile) 0
  if l.contains tile then g / l.length + (if l.idxOf tile < g % l.length then 1 else 0) else 0

/-- A set at the start of an interval. -/
def refillSet (s : State) (tile : Nat) (c : CtxSet) : CtxSet :=
  { c with charged := 0, pwrCap := c.pwrCapNext
           share := match c.ctx with | some x => BitVec.ofNat 32 (tileShare s x tile) | none => 0 }

/-- A tile at the start of an interval: its pool is its sets' shares. -/
def refillTile (s : State) (tile : Nat) (t : Tile) : Tile :=
  let a := refillSet s tile t.set0
  let b := refillSet s tile t.set1
  { t with set0 := a, set1 := b, pool := a.share.toNat + b.share.toNat, poolAt := s.dcc }

/-- POOL_REFILL (R317): at each interval start every tile's pool is set and unused quanta lapse. -/
def execPoolRefill (s : State) : Host.Outcome State Fault Refusal :=
  if s.dcc % 1024 = 0 then
    .next { s with tiles := Tab.mapAll (fun n t => if n < 256 && t.poolAt != s.dcc then refillTile s n t else t) s.tiles }
  else .next s

/-! ### Meters (R395, R396, R398) -/

/-- A partition's entry in the layout in force; empty where there is none. -/
def layoutEntry (s : State) (p : Nat) : List (BitVec 64) := Tab.get [] s.layout p

/-- WATTS of a layout entry (R384). -/
def layoutWatts (e : List (BitVec 64)) : Nat := bits (e.getD 1 0).toNat 11 0

/-- A meter at an interval end, with quanta that it sums beside its own and a limit in watts: the throttle engages above 64
intervals' allotment and releases below 15/16 of it, and the accumulator rises by 64 pJ a quantum. -/
def meterEnd (m : Meter) (more watts : Nat) : Meter :=
  let e := m.now + more
  let past := (e :: m.past).take 64
  let limit := 64 * watts * 16000
  let pj := m.frac + 64 * e
  { now := 0, past := past, accum := Nat.min (m.accum + pj / 1000000) (2 ^ 64 - 1), frac := pj % 1000000
    hot := if limit < past.sum then true else if 16 * past.sum < 15 * limit then false else m.hot }

/-- The energy of a partition's copy engines in an interval, which the spec meters and does not give (R344): a free value
(notes/assumptions/3.md). -/
def copyEnergy (s : State) (p : Nat) : Nat := (Config.freeWord (s.fresh + p)).toNat

/-- The meters at an interval end: the partitions', then the package's, which sums them and what else the package draws, a free
value (notes/assumptions/3.md). -/
def endMeters (s : State) : State :=
  let parts := (List.range 12).filter fun p => !(layoutEntry s p).isEmpty
  let used (p : Nat) : Nat := (meterOf s p).now + copyEnergy s p
  let m1 := parts.foldl (fun m p => Tab.set m p (meterEnd (meterOf s p) (copyEnergy s p) (layoutWatts (layoutEntry s p)))) s.meters
  let pkg := meterEnd (meterOf s packageMeter) ((parts.map used).sum + copyEnergy s 12) s.limit
  { s with meters := Tab.set m1 packageMeter pkg, limit := s.limitNext, fresh := s.fresh + 13 }

/-- METER_CHECK (R395, R396, R398): at each interval end the meters engage or release the throttle of their tiles, and the energy
accumulators rise. -/
def execMeterCheck (s : State) : Host.Outcome State Fault Refusal :=
  if s.dcc % 1024 = 0 then
    let s1 := endMeters s
    let hot (n : Nat) : Bool := (meterOf s1 packageMeter).hot ||
      (match slotPart s1 (tileSlot n) with | some p => (meterOf s1 p).hot | none => false)
    .next { s1 with tiles := (List.range 256).foldl (fun m n =>
      let t := Tab.get Tile.reset m n
      if t.mtr == hot n then m else Tab.set m n { t with mtr := hot n }) s1.tiles }
  else .next s

end Sys2Proof.Machine
end

