-- ==== Sys2Proof/Machine/MatrixEngine.lean ====
section
/-! DEFINITION. The matrix engine (R191 to R215): shape records, command checks, the arithmetic of a row, issue in STRICT
and ELASTIC mode, the rows of running commands, and timing traps. -/

namespace Sys2Proof.Machine

/-! ### Shape records (R192 to R194) -/

/-- A shape record. -/
structure Shape where
  m : Nat
  n : Nat
  k : Nat
  ta : Nat
  tb : Nat
  sma : Nat
  smb : Nat
  xa : Bool
  xb : Bool
  sta : Nat
  ofa : Nat
  stb : Nat
  ofb : Nat
  acol : Nat
  src : Bool
  eos : Bool
  res : Nat
  rot : Nat
  tpitch : Nat
  rpitch : Nat
  base : Nat
  sbase : Nat
deriving DecidableEq, Repr

/-- The fields of a record's two words. -/
def shapeOf (r0 r1 : BitVec 64) : Shape :=
  let a := r0.toNat
  let b := r1.toNat
  { m := bits a 63 53 + 1, n := bits a 52 46 + 1, k := bits a 45 37 + 1, ta := bits a 36 33, tb := bits a 32 29
    sma := bits a 28 27, smb := bits a 26 25, xa := bit a 24, xb := bit a 23, sta := bits a 22 19 + 1, ofa := bits a 18 15
    stb := bits a 14 11 + 1, ofb := bits a 10 7, acol := bits a 6 0, src := bit b 63, eos := bit b 62, res := bits b 61 60
    rot := bits b 59 56, tpitch := bits b 55 46, rpitch := bits b 45 34, base := bits b 33 17, sbase := bits b 16 0 }

/-- The words of record n of the acting set. -/
def shapeWords (s : State) (n : Nat) : BitVec 64 × BitVec 64 :=
  (shareWord (curTile s) (curSet s) (16 * n), shareWord (curTile s) (curSet s) (16 * n + 8))

/-- The record that a command names. -/
def cmdShape (s : State) (c : Cmd) : Shape :=
  let w := shapeWords s (argBits c 25 20)
  shapeOf w.1 w.2

/-- The width class of a type for A and B (R191). -/
def meClass (t : Nat) : Option Nat :=
  match t with
  | 1 => some 16 | 2 => some 16 | 3 => some 8 | 4 => some 8 | 5 => some 8 | 9 => some 8 | 6 => some 4 | 10 => some 4
  | _ => none

/-- The greatest K of a width class (R191). -/
def classK (w : Nat) : Nat := 2048 / w

/-- The types of ACC.LD (R205): the non-integers, S32, S16, S8, Z16 and Z8. -/
def accLdType (t : Nat) : Bool := t < 7 || t == 7 || t == 8 || t == 9 || t == 12 || t == 13

/-! ### Scratchpad operands (R195, R196) -/

/-- The share offset of element e of vector v, with element width w, stride st and offset of_. -/
def operandAt (h : Shape) (w st of_ v e : Nat) : Nat :=
  let row := h.base * 16 + v / 128 * h.tpitch * 2048 + v % 128 * h.rpitch * 16
  let a := row + (of_ + e * st) * w / 8
  if h.rot = 0 then a else a - a / 64 % 32 * 64 + (a / 64 + h.rot * (v % 32)) % 32 * 64

/-- The share offset of an element before rotation. -/
def operandPlain (h : Shape) (w st of_ v e : Nat) : Nat := operandAt { h with rot := 0 } w st of_ v e

/-- Whether an element's place within its byte is the upper half (4-bit types, R39). -/
def upperHalf (w st of_ e : Nat) : Bool := w == 4 && (of_ + e * st) % 2 == 1

/-- Whether every byte of an operand of V vectors of L elements lies in the share and outside the shape table, each vector
within one 2 KiB row where it is rotated. -/
def operandFits (c : CtxSet) (h : Shape) (w st of_ nv nl : Nat) : Bool :=
  (List.range nv).all fun v =>
    ((List.range nl).all fun e =>
      let a := operandAt h w st of_ v e
      1024 ≤ a && a + (w + 7) / 8 ≤ shareBytes c)
    && (h.rot == 0 || operandPlain h w st of_ v 0 / 2048 == (operandPlain h w st of_ v (nl - 1) + (w + 7) / 8 - 1) / 2048)

/-- Whether a scale array of n bytes lies in the share and outside the shape table. -/
def scalesFit (c : CtxSet) (h : Shape) (sm n : Nat) : Bool :=
  sm == 0 || (1024 ≤ h.sbase * 16 && h.sbase * 16 + n ≤ shareBytes c)

/-- Element e of vector v as bits. -/
def operandBits (t : Tile) (c : CtxSet) (h : Shape) (w st of_ v e : Nat) : Nat :=
  let x := shareRead t c (operandAt h w st of_ v e) ((w + 7) / 8)
  if w = 4 then (if upperHalf w st of_ e then x / 16 % 16 else x % 16) else x

/-- The first address of an operand's vector whose line fails its check (R208). -/
def operandBad (t : Tile) (c : CtxSet) (h : Shape) (w st of_ v nl : Nat) : Option Nat :=
  ((List.range nl).map fun e => operandAt h w st of_ v e).find? fun a => spLineBad t (spPhys c a)

/-- A byte of a scale array. -/
def scaleByte (t : Tile) (c : CtxSet) (h : Shape) (i : Nat) : Nat := shareRead t c (h.sbase * 16 + i) 1

/-! ### The array feed (R197) -/

/-- Whether an element of the entry side feeds the array in the acting set. -/
def feedsArray (t : Tile) (c : CtxSet) (e : Nat) : Bool :=
  elemRuns c e && outKind (imageOf t e (planeOf c e)) 0 == 2 && outTo (imageOf t e (planeOf c e)) 0 == 5

/-- The feed elements of a half of a group: group 0 is W0 to W7, group 1 is N0 to N7. -/
def feedElems (t : Tile) (c : CtxSet) (group half : Nat) : List Nat :=
  ((List.range 4).map fun j => group * 8 + half * 4 + j).filter fun e => feedsArray t c e

/-- The instant entries that have left an element's feed. -/
def feedTaken (t : Tile) (set e : Nat) : Nat :=
  let ch := chanOf t (sinkKey set e 0)
  ch.next - (ch.q.filter isInstant).length

/-- The half that carries the next vector slot of a group. -/
def feedHalf (t : Tile) (c : CtxSet) (set group : Nat) : Nat :=
  match feedElems t c group 0, feedElems t c group 1 with
  | a :: _, b :: _ => if feedTaken t set a ≤ feedTaken t set b then 0 else 1
  | [], _ :: _ => 1
  | _, _ => 0

/-- The head entry of an element's feed. -/
def feedHead (t : Tile) (set e : Nat) : Option Entry := (chanOf t (sinkKey set e 0)).q.head?

/-- The side entries at the heads of a half's feeds taken: a SCALE latches its codes, others are discarded. The codes stay until the
next SCALE of the feed, over a FIRE of the region too: R58 ends latched codes at a FIRE for an element's channel and R197 does not say
so of a feed. DESIGN CHOICE (notes/assumptions/107.md). -/
def feedSides (s : State) (tile set : Nat) : List Nat → State
  | [] => s
  | e :: rest =>
    let key := sinkKey set e 0
    match feedHead (getTile s tile) set e with
    | some x =>
      if isInstant x || !entryGood x then feedSides s tile set rest
      else
        let s1 := popEntry s tile key
        let s2 := if x.kind = 5 then
            modSet s1 tile set fun c => { c with me := { c.me with codes := Tab.set c.me.codes e (x.payload.setWidth 64) } }
          else if x.kind = 6 then countCairn s1 tile set key else s1
        feedSides s2 tile set (e :: rest).tail
    | none => feedSides s tile set rest

/-- Whether the next slot of a group is complete: every feed element of its half has an instant entry. -/
def slotComplete (t : Tile) (c : CtxSet) (set group : Nat) : Bool :=
  let l := feedElems t c group (feedHalf t c set group)
  !l.isEmpty && l.all fun e => match feedHead t set e with | some x => isInstant x | none => false

/-- Whether the next slot of a group carries a vector: it is complete and some item is a data item. -/
def slotReady (t : Tile) (c : CtxSet) (set group : Nat) : Bool :=
  slotComplete t c set group
    && (feedElems t c group (feedHalf t c set group)).any fun e => match feedHead t set e with | some x => x.kind == 1 | none => false

/-- Whether a group's feed has ended: every feed element has appended END, and nothing else is left. -/
def feedEnded (t : Tile) (c : CtxSet) (set group : Nat) : Bool :=
  let l := feedElems t c group 0 ++ feedElems t c group 1
  !l.isEmpty && l.all fun e =>
    let ch := chanOf t (sinkKey set e 0)
    ch.ended && ch.q.all fun x => !isInstant x || x.kind == 2

/-- Whether a group's feed has ended: every feed element of a running region has, or the region has retired since and none feeds the
group now (R197, R198). -/
def feedOver (t : Tile) (c : CtxSet) (set group : Nat) : Bool :=
  feedEnded t c set group || ((feedElems t c group 0 ++ feedElems t c group 1).isEmpty && c.me.over_.contains group)

/-- The items of the next slot taken (END stays for the sink to count). -/
def popSlot (s : State) (tile set group : Nat) : State :=
  let t := getTile s tile
  let c := getSet s tile set
  (feedElems t c group (feedHalf t c set group)).foldl (fun acc e =>
    match feedHead t set e with
    | some x => if x.kind = 2 then acc else popEntry acc tile (sinkKey set e 0)
    | none => acc) s

/-- The feed of a group made ready to be read: side entries are taken, and slots that carry no vector leave. -/
def feedAdvance (s : State) (tile set group : Nat) : Nat → State
  | 0 => s
  | fuel + 1 =>
    let l := feedElems (getTile s tile) (getSet s tile set) group (feedHalf (getTile s tile) (getSet s tile set) set group)
    let s1 := feedSides s tile set l
    let t := getTile s1 tile
    let c := getSet s1 tile set
    if slotComplete t c set group && !slotReady t c set group && !feedEnded t c set group then
      feedAdvance (popSlot s1 tile set group) tile set group fuel
    else s1

/-- The 256 bytes of the next slot: item j of the half in bytes 64j, zeros for what is absent. -/
def slotBytes (t : Tile) (c : CtxSet) (set group : Nat) : Nat :=
  let half := feedHalf t c set group
  packElems 512 ((List.range 4).map fun j =>
    let e := group * 8 + half * 4 + j
    if feedsArray t c e then
      match feedHead t set e with
      | some x => if x.kind = 1 then x.payload.toNat else 0
      | none => 0
    else 0)

/-- Whether an item of the next slot fails its check code (R365). -/
def slotBad (t : Tile) (c : CtxSet) (set group : Nat) : Bool :=
  (feedElems t c group (feedHalf t c set group)).any fun e =>
    match feedHead t set e with | some x => !entryGood x | none => false

/-- The scale code of block b of the next slot of A (R197): that of the feed item that carries the block's first
element. Before a SCALE has come the spec gives none: a free value (notes/assumptions/3.md). -/
def slotCode (s : State) (t : Tile) (c : CtxSet) (set w b : Nat) : Nat :=
  let j := b * w / 16 % 4
  let e := feedHalf t c set 0 * 4 + j
  match Tab.find? c.me.codes e with
  | some v => bits v.toNat (8 * (b - b * w / 16 * 16 / w) + 7) (8 * (b - b * w / 16 * 16 / w))
  | none => (Config.freeWord s.fresh).toNat % 256

/-! ### Arithmetic (R202 to R206) -/

/-- The slab value before it is rounded (R202). -/
inductive SlabValue where
  | nan
  | inf (neg : Bool)
  | exact (x : Frac)
deriving DecidableEq, Repr

/-- The least integer n with |v| < 2^n, of a finite nonzero value (R202). -/
def mxOf : Num → Option Int
  | .real x => some (floorLog2 x.num.natAbs x.den + 1)
  | _ => none

/-- The greatest of some integers. -/
def maxInt : List Int → Option Int
  | [] => none
  | x :: t => match maxInt t with | some y => some (if x < y then y else x) | none => some x

/-- A rational truncated toward zero. -/
def truncFrac (x : Frac) : Int := Int.tdiv x.num x.den

/-- The slab value of a row and a column (R202): the elements of A and B, their codes by block, and whether each is
negated. -/
def slabValue (ta tb : Ty) (na nb : Bool) (a b : List Nat) (sa sb : Nat → Nat) : SlabValue :=
  let ks := List.range a.length
  let x (k : Nat) : Num := let v := sv ta (a.getD k 0) (sa (k / 32)); if na then numNegate v else v
  let y (k : Nat) : Num := let v := sv tb (b.getD k 0) (sb (k / 32)); if nb then numNegate v else v
  let p : List Num := ks.map fun k => (numMul (x k) (y k)).1
  let pos := p.any fun v => v == .inf false
  let neg := p.any fun v => v == .inf true
  if p.any numIsNan || (pos && neg) then .nan
  else if pos then .inf false
  else if neg then .inf true
  else
    let ea := maxInt (a.filterMap fun v => mxOf (dec ta false v))
    let eb := maxInt (b.filterMap fun v => mxOf (dec tb false v))
    let xs (c : Nat) : Int := (bits c 7 2 : Int) - 31
    let ok (c : Nat) : Bool := c != 0 && c != 0xFF
    let es := maxInt (((List.range ((a.length + 31) / 32)).filter fun i => ok (sa i) && ok (sb i)).map fun i => xs (sa i) + xs (sb i))
    match ea, eb, es with
    | some u, some v, some w =>
      let e := u + v + w + 2
      let sum := (p.map fun q => truncFrac (fracShift (numFrac q) (58 - e))).foldl (· + ·) 0
      .exact (fracScale sum (e - 58))
    | _, _, _ => .exact ⟨0, 1⟩

/-- The F32 code of a slab value (R202, R203). -/
def slabCode (sat : Bool) : SlabValue → Nat
  | .nan => 0x7FC00000
  | .inf neg => if neg then 0xFF800000 else 0x7F800000
  | .exact x => f32Rne sat (numOf false x)

/-- An accumulator word after a non-integer slab (R203). -/
def accFloat (acd sat : Bool) (slab c : Nat) : Nat :=
  if acd then slab else f32Rne sat (numAdd .rne (dec .f32 false slab) (dec .f32 false c)).1

/-- An accumulator word after an exact integer (R204). -/
def accInt (acd sat : Bool) (v : Int) (c : Nat) : Nat :=
  let t := if acd then v else sextN c 32 + v
  wrapI (if sat then clampI t (-2147483648) 2147483647 else t) 32

/-- The exact integer product sum of a row and a column (R204). -/
def intDot (ta tb : Ty) (na nb : Bool) (a b : List Nat) : Int :=
  let sg (n : Bool) (v : Int) : Int := if n then -v else v
  ((List.range a.length).map fun k =>
    sg na (sextN (a.getD k 0) ta.width) * sg nb (sextN (b.getD k 0) tb.width)).foldl (· + ·) 0

/-- The exact integer of an element of an integer type. -/
def intOf (t : Ty) (v : Nat) : Int := if t.isSigned then sextN v t.width else (v % 2 ^ t.width : Nat)

/-! ### Runs -/

/-- The flags of a run or command argument: NA, NB, ACD, DRN, SAT (R28). -/
def meFlag (arg : BitVec 42) (n : Nat) : Bool := arg.getLsbD n
/-- ACCB. -/
def meAccb (arg : BitVec 42) : Nat := bits arg.toNat 19 9

/-- The port of an operation (R209): 0 west, 1 shadow, 2 drain, 3 clear. -/
def mePort (eop : Nat) : Nat := match eop with | 1 => 1 | 4 => 2 | 5 => 3 | _ => 0

/-- The run on a port. -/
def meRunOn (m : MeState) (port : Nat) : Option MeRun :=
  match port with | 0 => m.west | 1 => m.load | 2 => m.drain | _ => m.clear

/-- The run on a port replaced. -/
def setMeRun (m : MeState) (port : Nat) (r : Option MeRun) : MeState :=
  match port with
  | 0 => { m with west := r }
  | 1 => { m with load := r }
  | 2 => { m with drain := r }
  | _ => { m with clear := r }

/-- The shape of a run. -/
def runShape (r : MeRun) : Shape := shapeOf r.rec0 r.rec1

/-- The steps from a row's entry to its write in the accumulator store (R209). -/
def writeLag (r : MeRun) : Nat :=
  let h := runShape r
  if r.eop = 2 then
    (match meClass h.ta with | some 16 => 136 | some 8 => 137 | _ => 138) + (if h.sma != 0 || h.smb != 0 then 2 else 0)
  else 12

/-- The steps from issue to the first row (R209). -/
def firstRow (eop : Nat) (h : Shape) : Nat :=
  match eop with
  | 2 => if h.xa then h.k else 0
  | 4 => 2
  | 5 => 1
  | _ => 0

/-- The units or rows of a command: 256 B units or vectors of a slab, rows of the others. -/
def meTotal (eop : Nat) (h : Shape) : Nat :=
  if eop = 1 then (if h.src then ceilDiv (h.k * h.n * codeWidth h.tb) 2048 else (if h.xb then h.n else h.k)) else h.m

/-- The quanta of a row or of a 256 B unit (R210), in the gear in force. -/
def rowQuanta (eop : Nat) (h : Shape) (gearL : Bool) : Nat :=
  match eop with
  | 2 =>
    let f := match meClass h.ta with
      | some 16 => if gearL then 128 else 320
      | some 8 => if gearL then 64 else 160
      | _ => if gearL then 32 else 80
    ceilDiv (h.n * h.k * f) 65536
  | 5 => 1
  | _ => if gearL then 1 else 2

/-- The 256 B units that the first v vectors of a region-fed slab fill. -/
def slabUnits (h : Shape) (v : Nat) : Nat := ceilDiv (v * (if h.xb then h.k else h.n) * codeWidth h.tb) 2048

/-- The quanta of a run's next row. -/
def nextQuanta (t : Tile) (r : MeRun) : Nat :=
  let h := runShape r
  if r.eop = 1 && !h.src then (slabUnits h (r.row + 1) - slabUnits h r.row) * rowQuanta 1 h t.effL
  else rowQuanta r.eop h t.effL

/-- Whether a command reads its operand from a feed: W0 to W7 for MMA and ACC.LD, N0 to N7 for WLD. -/
def readsFeed (eop : Nat) (h : Shape) : Bool := !h.src && (eop == 1 || eop == 2 || eop == 3)

/-- The feed group of an operation. -/
def feedGroup (eop : Nat) : Nat := if eop = 1 then 1 else 0

/-- The runs on the ports of an engine. -/
def meRuns (m : MeState) : List MeRun := [m.west, m.load, m.drain, m.clear].filterMap id

/-- Every command of an engine between issue and completion, those that faults stopped among them. -/
def allRuns (m : MeState) : List MeRun := meRuns m ++ m.done ++ m.back ++ m.again

/-- Whether a command has still to reach the accumulator words of a row's columns, or reaches them at this very step (R208). -/
def accessPending (q : MeRun) (tsc row col n : Nat) : Bool :=
  let h := runShape q
  let first := meAccb q.arg + (if q.accAt = tsc then q.acc - 1 else q.acc)
  q.eop != 1 && first ≤ row && row < meAccb q.arg + q.total && h.acol < col + n && col < h.acol + h.n

/-- Whether a command issued earlier has still to reach the accumulator words that a run's row x reaches (R208). -/
def accessBlocked (m : MeState) (tsc : Nat) (r : MeRun) (x : Nat) : Bool :=
  let h := runShape r
  (allRuns m).any fun q => q.issue < r.issue && accessPending q tsc (meAccb r.arg + x) h.acol h.n

/-- Whether a run's next access waits for a command that a fault stopped. -/
def behindStopped (m : MeState) (r : MeRun) : Bool :=
  let h := runShape r
  r.acc < r.total && m.again.any fun q => q.issue < r.issue && accessPending q 0 (meAccb r.arg + r.acc) h.acol h.n

/-- Whether the matrix engine has no command between issue and its last accumulator write (R122), but for those that a fault stopped
and those that wait for them. -/
def meIdle (m : MeState) : Bool := (meLive m).all (behindStopped m) && m.again.all fun r => r.held || (r.rows.isEmpty && r.outs.isEmpty)

/-- The run on a port or behind it, by its issue step, changed or removed. -/
def mapRun (m : MeState) (k : Nat) (f : MeRun → Option MeRun) : MeState :=
  let g (r : MeRun) : Option MeRun := if r.issue = k then f r else some r
  { m with west := m.west.bind g, load := m.load.bind g, drain := m.drain.bind g, clear := m.clear.bind g, done := m.done.filterMap g
           again := m.again.filterMap g }

/-- A set with the run of an issue step changed. -/
def modRun (s : State) (tile set k : Nat) (f : MeRun → MeRun) : State :=
  modSet s tile set fun c => { c with me := mapRun c.me k fun r => some (f r) }

/-- Whether a port is taken: a command runs on it, or one that a TRET.RETRY put back waits for it (R211, R212). -/
def portTaken (m : MeState) (port : Nat) : Bool := (meRunOn m port).isSome || m.back.any fun r => mePort r.eop == port

/-! ### Checks at the ring head (R198) -/

/-- SHAPE: the record suits the command. -/
def shapeBad (eop : Nat) (h : Shape) : Bool :=
  h.res != 0 ||
    match eop with
    | 1 => (match meClass h.tb with | some w => classK w < h.k | none => true) || h.stb ≤ h.ofb
    | 2 =>
      (match meClass h.ta, meClass h.tb with
      | some w, some v => w != v || (intCode h.ta != intCode h.tb) || classK w < h.k
      | _, _ => true) || h.sta ≤ h.ofa || (h.xa && 128 < h.m)
    | 3 => !accLdType h.ta || h.sta ≤ h.ofa || h.xa
    | 4 => 14 ≤ h.ta || h.sta ≤ h.ofa || h.xa
    | _ => false

/-- SCALEFMT (R53): a reserved scale mode, or a scale mode with an integer type, in either operand's fields of the record, and any scale
mode of a drain (R206). -/
def scaleFmtBad (eop : Nat) (h : Shape) : Bool :=
  let bad (sm t : Nat) : Bool := sm == 3 || (sm != 0 && intCode t)
  bad h.sma h.ta || bad h.smb h.tb || (eop == 4 && h.sma != 0)

/-- SCALEAXIS (R55, R196). -/
def scaleAxisBad (eop : Nat) (h : Shape) : Bool :=
  let a := h.sma != 0 && (h.sma != (if h.xa then 2 else 1) || h.sta != 1 || h.ofa != 0)
  let b := h.smb != 0 && h.smb != (if h.xb then 1 else 2)
  match eop with
  | 1 => b || (h.smb != 0 && (h.stb != 1 || h.ofb != 0))
  | 2 => a || b
  | 3 => a
  | _ => false

/-- FEEDFORM (R197, R206): a region-fed operand, its feed elements' type, and a drain's type. -/
def feedFormBad (t : Tile) (c : CtxSet) (eop : Nat) (h : Shape) : Bool :=
  let types (group ty : Nat) : Bool :=
    (feedElems t c group 0 ++ feedElems t c group 1).any fun e => outType (imageOf t e (planeOf c e)) 0 != ty
  !h.src &&
    match eop with
    | 1 => h.stb != 1 || h.ofb != 0 || h.smb != 0 || types 1 h.tb
    | 2 => h.sta != 1 || h.ofa != 0 || h.xa || h.sma == 2 || types 0 h.ta
    | 3 => h.sta != 1 || h.ofa != 0 || h.sma == 2 || types 0 h.ta || 2048 < h.n * codeWidth h.ta
    | 4 => !(h.ta == 0 || h.ta == 7)
        || (List.range 8).any fun j =>
          let im := imageOf t (16 + j) (planeOf c (16 + j))
          elemRuns c (16 + j) && inKind im 0 == 2 && inFrom im 0 == 20 && inType im 0 != h.ta
    | _ => false

/-- SPBOUND. -/
def spBoundBad (c : CtxSet) (eop : Nat) (h : Shape) : Bool :=
  h.src &&
    match eop with
    | 1 =>
      !operandFits c h (codeWidth h.tb) h.stb h.ofb (if h.xb then h.n else h.k) (if h.xb then h.k else h.n)
        || !scalesFit c h h.smb (if h.xb then h.n * ceilDiv h.k 32 else ceilDiv h.k 32 * h.n)
    | 2 =>
      !operandFits c h (codeWidth h.ta) h.sta h.ofa (if h.xa then h.k else h.m) (if h.xa then h.m else h.k)
        || !scalesFit c h h.sma (if h.xa then ceilDiv h.k 32 * h.m else h.m * ceilDiv h.k 32)
    | 3 => !operandFits c h (codeWidth h.ta) h.sta h.ofa h.m h.n || !scalesFit c h h.sma (h.m * ceilDiv h.n 32)
    | 4 => !operandFits c h (codeWidth h.ta) h.sta h.ofa h.m h.n
    | _ => false

/-- The slab that an MMA at the ring's head would use (R201): that of the WLD still loading, else the completed slab in the
shadow registers, else the active one. -/
def nextSlab (m : MeState) : Option Slab :=
  match m.load with
  | some r => r.slab
  | none => if m.fresh then m.shadow else m.active

/-- SLABMIS: the slab has another form than the MMA's record. -/
def slabDiffers (b : Slab) (h : Shape) : Bool := b.k != h.k || b.n != h.n || b.tb != h.tb || b.smb != h.smb || b.xb != h.xb

/-- The command fault that a command and its record raise at the ring's head (R198). -/
def meCheck (eop : Nat) (c : Cmd) (s : State) : Option Nat :=
  let t := curTile s
  let cs := curSet s
  let h := cmdShape s c
  if shapeBad eop h || (eop != 1 && eop != 5 && !typeThere s h.ta) || ((eop = 1 || eop = 2) && !typeThere s h.tb) then some 1
  else if scaleFmtBad eop h then some 2
  else if scaleAxisBad eop h then some 3
  else if feedFormBad t cs eop h then some 4
  else if eop != 1 && (cs.acclen < meAccb c.arg + h.m || 128 < h.acol + h.n) then some 5
  else if spBoundBad cs eop h then some 6
  else if eop = 2 then
    match nextSlab cs.me with
    | none => some 7
    | some b => if slabDiffers b h then some 8 else none
  else none

/-! ### Issue (R132, R133, R211, R213) -/

/-- The target of the command at a set's ME ring head. -/
def headTarget (t : Tile) (c : CtxSet) : Nat := ringTarget t c (ringHead c 0)

/-- The first reason of 2 to 6 for which a command cannot issue now (R211). -/
def issueReason (eop : Nat) (c : Cmd) (s : State) : Option Nat :=
  let t := curTile s
  let cs := curSet s
  let h := cmdShape s c
  if !waitMet s 0 c then some 2
  else if eop = 0 then none
  else if portTaken cs.me (mePort eop) then some 3
  else if readsFeed eop h && eop != 1 && !slotReady t cs s.focus.set 0 then some 4
  else if eop = 2 && (cs.me.load.isSome || tscOf s s.focus.tile < cs.me.slabAt) then some 5
  else if !canCharge s s.focus.tile (rowQuanta eop h t.effL) then some 6
  else none

/-- Whether a command's step has come: in STRICT mode its target, in ELASTIC mode from target + DLY on, after a
TRET.RETRY of its miss at any step (R211 to R213). -/
def issueStep (s : State) : Bool :=
  let c := curSet s
  let cap := capturedAt c 0 (ringHead c 0)
  let tsc := tscOf s s.focus.tile
  let target := headTarget (curTile s) c
  if cap.retry then true else if cap.elastic then target + c.dly.toNat ≤ tsc else tsc == target

/-- The region slots bound to the matrix engine (R197). -/
def boundSlots (t : Tile) (c : CtxSet) : List Nat :=
  (List.range 4).filter fun r =>
    regionHeld (regionOf c r) && (regionElems (regionOf c r)).any fun e =>
      let im := imageOf t e (planeOf c e)
      (outKind im 0 == 2 && outTo im 0 == 5 && e < 16) || (inKind im 0 == 2 && inFrom im 0 == 20 && 16 ≤ e)

/-- DLY raised, to at most all ones (R125). -/
def satDly (n : Nat) : BitVec 32 := BitVec.ofNat 32 (Nat.min n 0xFFFFFFFF)

/-- The lateness beyond the slack that a command's stalled rows have added since the last issue (R213). -/
def stallExcess (slack : Nat) (r : MeRun) : Nat := (r.late + r.stalls - slack) - (r.late - slack)

/-- A run whose stalls have been counted. -/
def countStalls (r : MeRun) : MeRun := { r with late := r.late + r.stalls, stalls := 0 }

/-- The least slack over the region slots bound to the matrix engine (R133). -/
def boundSlack (t : Tile) (c : CtxSet) : Nat := leastOf ((boundSlots t c).map fun r => (Tab.get 0 c.slk r).toNat)

/-- The lateness of the command at the head of the ring when it issues (R133), after the stalls of the commands before it. -/
def headLate (s : State) : Nat :=
  let c := curSet s
  let dly := c.dly.toNat + ((allRuns c.me).map (stallExcess (boundSlack (curTile s) c))).sum
  tscOf s s.focus.tile - (headTarget (curTile s) c + dly)

/-- DLY after a command issues in ELASTIC mode (R133, R213): the rows that stalled since the last issue add to the lateness of their
own commands first. DEDUCED (notes/assumptions/109.md). -/
def raiseDly (s : State) : State :=
  let c := curSet s
  let cap := capturedAt c 0 (ringHead c 0)
  let slack := boundSlack (curTile s) c
  let stalled := ((allRuns c.me).map (stallExcess slack)).sum
  if cap.elastic && !cap.retry then
    modCurSet s fun x =>
      { x with
        dly := satDly (x.dly.toNat + stalled + (headLate s - slack))
        me := { x.me with west := x.me.west.map countStalls, done := x.me.done.map countStalls, back := x.me.back.map countStalls
                          again := x.me.again.map countStalls } }
  else s

/-- The slab that a WLD begins to load: its form, without elements. -/
def newSlab (h : Shape) : Slab := ⟨h.tb, h.smb, h.xb, h.k, h.n, [], []⟩

/-- A command issued (R200, R201): its wait is performed, its run stands on its port, and an MMA activates its slab. -/
def issueMe (eop : Nat) (c : Cmd) (s : State) : State :=
  let cs := curSet s
  let h := cmdShape s c
  let w := shapeWords s (argBits c 25 20)
  let tsc := tscOf s s.focus.tile
  let cap := capturedAt cs 0 (ringHead cs 0)
  let used := if cs.me.fresh then cs.me.shadow else cs.me.active
  let run : MeRun :=
    { eop := eop, arg := c.arg, sig := c.sig, rec0 := w.1, rec1 := w.2, pos := ringHead cs 0, target := headTarget (curTile s) cs
      issue := tsc, row := 0, due := tsc + firstRow eop h, ent := tsc, acc := 0, accAt := 0, rows := [], outs := [], last := tsc
      slab := if eop = 1 then some (newSlab h) else if eop = 2 then used else none
      strict := !cap.elastic, total := meTotal eop h, loose := false, held := false, late := headLate s, stalls := 0 }
  let act (m : MeState) : MeState :=
    if eop = 2 && m.fresh then { m with active := m.shadow, fresh := false, slabAt := 0 }
    else if eop = 1 then { m with shadow := none, fresh := false }
    else m
  modCurSet (nextCommand (takeWait (raiseDly s) 0 c) 0) fun x => { x with me := setMeRun (act x.me) (mePort eop) (some run) }

/-- The address of a shape record whose line fails its check (R208). -/
def recordBad (s : State) (c : Cmd) : Option Nat :=
  let a := argBits c 25 20 * 16
  if spLineBad (curTile s) (spPhys (curSet s) a) then some a else none

/-- An integrity fault of the command at the ring's head (R208, R242). -/
def headIntegrity (s : State) (addr : Nat) : State :=
  raiseTrap (modEng s 0 fun x => { x with faulted := true }) s.focus.tile s.focus.set (unitRec 0x09 1 0 0 (ringHead (curSet s) 0) addr 0 0)

/-- A command of the matrix engine at the ring's head (R198, R200): its record is verified and checked, and it issues when its step has
come and no reason stands. One whose feed has ended before it could issue faults then: DEDUCED (notes/assumptions/108.md). -/
def runMe (eop : Nat) (c : Cmd) (s : State) : Host.Outcome State Fault Refusal :=
  let s1 := feedAdvance s s.focus.tile s.focus.set (feedGroup eop) 8
  if !headOrdered s1 0 0 then .next s1
  else
    match recordBad s1 c with
    | some a => .next (headIntegrity s1 a)
    | none =>
      match meCheck eop c s1 with
      | some code => .next (commandFault s1 0 code)
      | none =>
        if !issueStep s1 then .next s1
        else if readsFeed eop (cmdShape s1 c) && feedOver (curTile s1) (curSet s1) s1.focus.set (feedGroup eop) then .next (commandFault s1 0 9)
        else if (issueReason eop c s1).isNone then .next (issueMe eop c s1)
        else .next s1

/-- WLD (R201). -/
def execWld (c : Cmd) (s : State) : Host.Outcome State Fault Refusal := runMe 1 c s
/-- MMA (R202). -/
def execMma (c : Cmd) (s : State) : Host.Outcome State Fault Refusal := runMe 2 c s
/-- ACC.LD (R205). -/
def execAccLd (c : Cmd) (s : State) : Host.Outcome State Fault Refusal := runMe 3 c s
/-- ACC.ST (R206). -/
def execAccSt (c : Cmd) (s : State) : Host.Outcome State Fault Refusal := runMe 4 c s
/-- ACC.CLR (R207). -/
def execAccClr (c : Cmd) (s : State) : Host.Outcome State Fault Refusal := runMe 5 c s

/-- NOP (R200, R418): on the matrix engine it issues at its target; on every engine its signal comes at once. -/
def execEngineNop (e : Engine) (c : Cmd) (s : State) : Host.Outcome State Fault Refusal :=
  let n := engineNum e
  if n = 0 then
    if headOrdered s 0 0 && issueStep s && (issueReason 0 c s).isNone then
      .next (modCurSet (nextCommand (takeWait (raiseDly s) 0 c) 0) fun x => raiseSignal x c.sig)
    else .next s
  else
    runCommand s n c (if n = 5 then 3 else 0) (fun _ => true) (fun _ => none) fun s1 =>
      modCurSet (nextCommand s1 n) fun x => raiseSignal x c.sig

/-! ### Rows -/

/-- The key of an accumulator word. -/
def accKey (c : CtxSet) (row col : Nat) : Nat := (c.accbase + row) * 128 + col

/-- An accumulator word of a set. -/
def accWord (t : Tile) (c : CtxSet) (row col : Nat) : Nat := (Tab.get (0 : BitVec 32) t.acc (accKey c row col)).toNat

/-- The aligned 8 bytes of the accumulator store that some words of a row stand in (R366). -/
def accPairs (c : CtxSet) (row col n : Nat) : List Nat :=
  ((List.range n).map fun j => accKey c row (col + j) / 2).eraseDups

/-- Accumulator words of a row written, from a column on; aligned 8 bytes that are written whole have new ECC, where the write adds
nothing to what stood there (R366). -/
def accWrite (s : State) (tile set row col : Nat) (vs : List Nat) (fresh : Bool) : State :=
  let c := getSet s tile set
  let whole (q : Nat) : Bool := accKey c row col ≤ 2 * q && 2 * q + 1 < accKey c row col + vs.length
  modTile s tile fun t =>
    { t with
      acc := ((List.range vs.length).zip vs).foldl (fun a p => Tab.set a (accKey c row (col + p.1)) (BitVec.ofNat 32 p.2)) t.acc
      accBad := if fresh then t.accBad.filter fun q => !whole q else t.accBad }

/-- A row's touch state after a write or an add (R214). -/
def touchRow (s : State) (tile set row : Nat) (write : Bool) : State :=
  modSet s tile set fun c =>
    if Tab.get 0 c.me.touch row = 0 then { c with me := { c.me with touch := Tab.set c.me.touch row (if write then 1 else 2) } } else c

/-- Row i of A for an MMA, and the row's codes by block (R195, R196, R197). -/
def rowOfA (s : State) (t : Tile) (c : CtxSet) (set : Nat) (h : Shape) (i : Nat) : List Nat × (Nat → Nat) :=
  let w := codeWidth h.ta
  if h.src then
    ((List.range h.k).map fun k => if h.xa then operandBits t c h w h.sta h.ofa k i else operandBits t c h w h.sta h.ofa i k,
     fun b => if h.sma = 0 then 0x7C else scaleByte t c h (if h.xa then b * h.m + i else i * ceilDiv h.k 32 + b))
  else
    let v := slotBytes t c set 0
    ((List.range h.k).map fun k => v / 2 ^ (w * k) % 2 ^ w, fun b => if h.sma = 0 then 0x7C else slotCode s t c set w b)

/-- Column j of a slab, and its codes by block. -/
def slabColumn (b : Slab) (j : Nat) : List Nat × (Nat → Nat) :=
  ((List.range b.k).map fun k => Tab.get 0 b.elems (k * 128 + j), fun i => if b.smb = 0 then 0x7C else Tab.get 0 b.codes (i * 128 + j))

/-- Whether a run's rows add to the accumulator as integers (R204, R205). -/
def runInts (r : MeRun) : Bool := ((Ty.ofCode (runShape r).ta).getD .f32).isInt

/-- The slab values of row i of an MMA (R202, R204): exact integers, or F32 codes. -/
def mmaRow (s : State) (t : Tile) (c : CtxSet) (set : Nat) (r : MeRun) : List Int :=
  let h := runShape r
  let b := r.slab.getD (newSlab h)
  let a := rowOfA s t c set h r.row
  let na := meFlag r.arg 0
  let nb := meFlag r.arg 1
  let ta := (Ty.ofCode h.ta).getD .f16
  let tb := (Ty.ofCode h.tb).getD .f16
  (List.range h.n).map fun j =>
    let col := slabColumn b j
    if ta.isInt then intDot ta tb na nb a.1 col.1 else (slabCode (meFlag r.arg 4) (slabValue ta tb na nb a.1 col.1 a.2 col.2) : Int)

/-- The decoded values of row i of an ACC.LD (R205): exact integers, or F32 codes. -/
def accLdRow (s : State) (t : Tile) (c : CtxSet) (set : Nat) (r : MeRun) : List Int :=
  let h := runShape r
  let w := codeWidth h.ta
  let ta := (Ty.ofCode h.ta).getD .f32
  let feed := slotBytes t c set 0
  (List.range h.n).map fun j =>
    let x := if h.src then operandBits t c h w h.sta h.ofa r.row j else feed / 2 ^ (w * j) % 2 ^ w
    if ta.isInt then intOf ta x
    else
      let code := if h.sma = 0 then 0x7C
        else if h.src then scaleByte t c h (r.row * ceilDiv h.n 32 + j / 32) else slotCode s t c set w (j / 32)
      (f32Rne (meFlag r.arg 4) (sv ta x code) : Int)

/-- An accumulator word after a value of a run reaches it (R203 to R205). -/
def accWordAfter (r : MeRun) (v : Int) (old : Nat) : Nat :=
  if runInts r then accInt (meFlag r.arg 2) (meFlag r.arg 4) v old else accFloat (meFlag r.arg 2) (meFlag r.arg 4) v.toNat old

/-- A word converted for a drain (R206). -/
def drainWord (ta : Ty) (sat : Bool) (v : Nat) : Nat :=
  let src : Ty := if ta.isInt then .s32 else .f32
  (convert src ta .rne sat false (dec src false v)).1

/-- Bytes of a share written by the matrix engine (R206): a line that is written whole is made anew; in a line that fails
its check and is not written whole nothing changes (R365). -/
def meStore (s : State) (tile set : Nat) (bs : List (Nat × Nat)) : State :=
  let c := getSet s tile set
  let whole (a : Nat) : Bool := 64 ≤ ((bs.filter fun b => b.1 / 64 == a / 64).map fun b => b.1).eraseDups.length
  modTile s tile fun t =>
    bs.foldl (fun (x : Tile) b =>
      let p := spPhys c b.1
      if spLineBad x p && !whole b.1 then x
      else { x with sp := Memory.setByte x.sp p (BitVec.ofNat 8 b.2), spBad := x.spBad.filter fun l => l != p / 64 }) t

/-- The bytes that a row of a drain to scratchpad writes: half a byte keeps its other half (R39, R195). -/
def drainBytes (t : Tile) (c : CtxSet) (r : MeRun) (x : MeRow) : List (Nat × Nat) :=
  let h := runShape r
  let ta := (Ty.ofCode h.ta).getD .f32
  let w := ta.width
  (List.range h.n).foldl (fun acc j =>
    let v := drainWord ta (meFlag r.arg 4) (x.vals.getD j 0).toNat
    let a := operandAt h w h.sta h.ofa x.row j
    if w = 4 then
      let old := ((acc.reverse.find? fun b => b.1 == a).map fun b => b.2).getD (shareRead t c a 1)
      acc ++ [(a, if upperHalf w h.sta h.ofa j then old % 16 + v % 16 * 16 else old / 16 * 16 + v % 16)]
    else acc ++ (List.range (w / 8)).map fun i => (a + i, v / 2 ^ (8 * i) % 256)) []

/-- The S elements whose IN0 is the accumulator out (R197). -/
def accOutElems (t : Tile) (c : CtxSet) : List Nat :=
  ((List.range 8).map (· + 16)).filter fun e =>
    let im := imageOf t e (planeOf c e)
    elemRuns c e && inKind im 0 == 2 && inFrom im 0 == 20

/-- The entry that a row of a drain delivers to Sj (R206): its sixteen columns, an absence mark past column N, or END. -/
def drainEntry (r : MeRun) (x : MeRow) (j : Nat) : Entry :=
  let h := runShape r
  if h.m ≤ x.row then endEntry
  else if h.n ≤ 16 * j then markEntry
  else dataEntry (packLanes fun l => if 16 * j + l < h.n then (x.vals.getD (16 * j + l) 0).toNat else 0)

/-- A run stopped by a fault of the engine (R212): the rows that have entered go on, and it may begin again at its next one. -/
def stopRun (s : State) (tile set : Nat) (r : MeRun) (rec_ : TrapRec) : State :=
  raiseTrap (modSet s tile set fun c =>
    let m := mapRun c.me r.issue fun _ => none
    { c with me := { m with again := m.again ++ [r] }
             eng := Tab.set c.eng 0 { engState c 0 with faulted := true } }) tile set rec_

/-- A run after its next row has entered. -/
def rowDone (s : State) (tile set port : Nat) (r : MeRun) : State :=
  let tsc := tscOf s tile
  modSet s tile set fun c => { c with me := setMeRun c.me port (some { r with row := r.row + 1, due := tsc + 1, ent := tsc, loose := false }) }

/-- An integrity fault of a command (R208, R212). -/
def meIntegrity (r : MeRun) (addr : Nat) : TrapRec := unitRec 0x09 1 0 0 r.pos addr 0 0

/-- FEED: a feed ended, or the accumulator out has no configured input, before the command was done (R198). -/
def meFeedFault (r : MeRun) : TrapRec := unitRec 0x13 1 0 0 r.pos 0 9 0

/-- Whether a word of an accumulator row that a run reads fails its ECC (R208, R366). -/
def accRowBad (t : Tile) (c : CtxSet) (r : MeRun) (x : Nat) : Bool :=
  let h := runShape r
  (accPairs c (meAccb r.arg + x) h.acol h.n).any (t.accBad.contains ·) && (r.eop == 4 || (r.eop != 5 && !meFlag r.arg 2))

/-- The first address that fails its check among those that a run's next row reads as it enters (R208). -/
def rowBad (t : Tile) (c : CtxSet) (r : MeRun) : Option Nat :=
  let h := runShape r
  let sc (i n : Nat) : Option Nat := ((List.range n).map fun b => h.sbase * 16 + i + b).find? fun a => spLineBad t (spPhys c a)
  match r.eop with
  | 2 =>
    let a := if !h.src then none
      else if h.xa then ((List.range h.k).map fun k => operandAt h (codeWidth h.ta) h.sta h.ofa k r.row).find? fun x => spLineBad t (spPhys c x)
      else operandBad t c h (codeWidth h.ta) h.sta h.ofa r.row h.k
    let b := if h.src && h.sma != 0 then (if h.xa then sc 0 (ceilDiv h.k 32 * h.m) else sc (r.row * ceilDiv h.k 32) (ceilDiv h.k 32)) else none
    if a.isSome then a else b
  | 3 =>
    let a := if h.src then operandBad t c h (codeWidth h.ta) h.sta h.ofa r.row h.n else none
    let b := if h.src && h.sma != 0 then sc (r.row * ceilDiv h.n 32) (ceilDiv h.n 32) else none
    if a.isSome then a else b
  | 4 => if accRowBad t c r r.row then some 0 else none
  | _ => none

/-- The next row of a run on the west port enters (R209): its values go on their way to the accumulator store, and a region-fed row
leaves the feed. -/
def westRow (s : State) (tile set : Nat) (r : MeRun) : State :=
  let t := getTile s tile
  let c := getSet s tile set
  let h := runShape r
  let vs := if r.eop = 2 then mmaRow s t c set r else accLdRow s t c set r
  let s1 := if h.src then s else popSlot { s with fresh := s.fresh + 1 } tile set 0
  rowDone (charge s1 tile (nextQuanta t r)) tile set 0 { r with rows := r.rows ++ [⟨r.row, tscOf s tile + writeLag r, vs⟩] }

/-- A row of a run reaches the accumulator store (R208, R209, R214): its words are written, and the row is touched. One that an earlier
command's access keeps waits, and the run's later rows with it. -/
def writeRow (s : State) (tile set : Nat) (r : MeRun) : State :=
  let t := getTile s tile
  let c := getSet s tile set
  let h := runShape r
  let tsc := tscOf s tile
  match r.rows with
  | [] => s
  | x :: rest =>
    if tsc < x.at_ || r.held then s
    else if accessBlocked c.me tsc r x.row then modRun s tile set r.issue fun y => { y with rows := y.rows.map fun z => { z with at_ := z.at_ + 1 } }
    else if accRowBad t c r x.row then stopRun s tile set { r with held := true } (meIntegrity r 0)
    else
      let row := meAccb r.arg + x.row
      let words := (List.range h.n).map fun j => accWordAfter r (x.vals.getD j 0) (accWord t c row (h.acol + j))
      modRun (touchRow (accWrite s tile set row h.acol words (meFlag r.arg 2)) tile set row (meFlag r.arg 2)) tile set r.issue fun y =>
        { y with rows := rest, acc := x.row + 1, accAt := tsc, last := tsc }

/-- The elements of a slab that a run's next unit or vector holds, with their keys. -/
def slabPart (t : Tile) (c : CtxSet) (set : Nat) (r : MeRun) : List (Nat × Nat) :=
  let h := runShape r
  let w := codeWidth h.tb
  let len := if h.xb then h.k else h.n
  let key (v e : Nat) : Nat := if h.xb then e * 128 + v else v * 128 + e
  if h.src then
    let per := 2048 / w
    ((List.range per).map fun i => r.row * per + i).filterMap fun i =>
      if i < h.k * h.n then some (key (i / len) (i % len), operandBits t c h w h.stb h.ofb (i / len) (i % len)) else none
  else
    let v := slotBytes t c set 1
    (List.range len).map fun e => (key r.row e, v / 2 ^ (w * e) % 2 ^ w)

/-- The first address that fails its check among those that a slab's next unit reads, with the scale codes that the first one latches
(R52, R201, R208). -/
def slabBad (t : Tile) (c : CtxSet) (r : MeRun) : Option Nat :=
  let h := runShape r
  let w := codeWidth h.tb
  let len := if h.xb then h.k else h.n
  let per := 2048 / w
  if !h.src then none
  else
    let scales := if h.smb != 0 && r.row == 0 then (List.range (if h.xb then h.n * ceilDiv h.k 32 else ceilDiv h.k 32 * h.n)).map fun b => h.sbase * 16 + b else []
    ((((List.range per).map fun i => r.row * per + i).filter fun i => i < h.k * h.n).map (fun i => operandAt h w h.stb h.ofb (i / len) (i % len))
      ++ scales).find? fun a => spLineBad t (spPhys c a)

/-- The latched scale codes of a slab (R201): by block × 128 + column. -/
def slabCodes (t : Tile) (c : CtxSet) (h : Shape) : Tab Nat :=
  if h.smb = 0 || !h.src then []
  else (List.range (ceilDiv h.k 32)).flatMap fun b => (List.range h.n).map fun j =>
    (b * 128 + j, scaleByte t c h (if h.xb then j * ceilDiv h.k 32 + b else b * h.n + j))

/-- The next unit or vector of a slab enters the shadow registers (R201, R210). -/
def loadUnit (s : State) (tile set : Nat) (r : MeRun) : State :=
  let t := getTile s tile
  let c := getSet s tile set
  let h := runShape r
  let b := r.slab.getD (newSlab h)
  let b1 : Slab := { b with elems := (slabPart t c set r).foldl (fun a p => Tab.set a p.1 p.2) b.elems
                            codes := if r.row = 0 then slabCodes t c h else b.codes }
  let s1 := if h.src then s else popSlot s tile set 1
  rowDone (charge s1 tile (nextQuanta t r)) tile set 1 { r with slab := some b1 }

/-- The rows of a drain to the accumulator out that are delivered at a step have room in every configured S element. -/
def drainRoom (s : State) (tile set : Nat) (r : MeRun) (x : MeRow) : Bool :=
  let t := getTile s tile
  let c := getSet s tile set
  (accOutElems t c).all fun e =>
    slotsNeeded s tile set (chanKey set e 0) [drainEntry r x (e - 16)] ≤ chanFree (chanOf t (chanKey set e 0))

/-- Whether the accumulator out has an input for every S element that the drain's columns reach. -/
def drainConfigured (t : Tile) (c : CtxSet) (r : MeRun) : Bool :=
  (List.range 8).all fun j => (runShape r).n ≤ 16 * j || (accOutElems t c).contains (16 + j)

/-- A row that a drain has read is stored in scratchpad, or delivered to the S elements once they have room, END after the last one
(R206, R209). -/
def storeRow (s : State) (tile set : Nat) (r : MeRun) : State :=
  let t := getTile s tile
  let c := getSet s tile set
  let h := runShape r
  let tsc := tscOf s tile
  match r.outs with
  | [] => s
  | x :: rest =>
    let done (s1 : State) : State := modRun s1 tile set r.issue fun y => { y with outs := rest, last := if h.m ≤ x.row then y.last else tsc }
    if tsc < x.at_ then s
    else if h.src then done (meStore s tile set (drainBytes t c r x))
    else if drainRoom s tile set r x then
      done ((accOutElems t c).foldl (fun acc e => appendEntries acc tile set (chanKey set e 0) [drainEntry r x (e - 16)]) s)
    else s

/-- The next row of a drain is read (R206, R209): 8 steps later it is stored, or 2 steps later delivered. -/
def drainRow (s : State) (tile set : Nat) (r : MeRun) : State :=
  let t := getTile s tile
  let c := getSet s tile set
  let h := runShape r
  let tsc := tscOf s tile
  let vs := (List.range h.n).map fun j => (accWord t c (meAccb r.arg + r.row) (h.acol + j) : Int)
  let out : MeRow := ⟨r.row, tsc + (if h.src then 8 else 2), vs⟩
  let tail : List MeRow := if !h.src && h.eos && r.row + 1 == h.m then [⟨h.m, tsc + 3, []⟩] else []
  rowDone (charge s tile (nextQuanta t r)) tile set 2
    { r with outs := r.outs ++ out :: tail, acc := r.row + 1, accAt := tsc, last := Nat.max r.last tsc }

/-- The next row of a clear (R207). -/
def clearRow (s : State) (tile set : Nat) (r : MeRun) : State :=
  let h := runShape r
  let row := meAccb r.arg + r.row
  let tsc := tscOf s tile
  rowDone (charge (touchRow (accWrite s tile set row h.acol ((List.range h.n).map fun _ => 0) true) tile set row true) tile
    (nextQuanta (getTile s tile) r)) tile set 3 { r with acc := r.row + 1, accAt := tsc, last := tsc }

/-- What keeps a run's next row from entering, of what the spec lets stall it (R197, R208, R210): none where the row enters. -/
inductive RowStall where
  | order
  | feed
  | room
  | quanta
deriving DecidableEq, Repr

/-- The stall of a run's next row at this step. -/
def rowStall (s : State) (tile set port : Nat) (r : MeRun) : Option RowStall :=
  let t := getTile s tile
  let c := getSet s tile set
  let tsc := tscOf s tile
  if (port == 2 || port == 3) && accessBlocked c.me tsc r r.row then some .order
  else if readsFeed r.eop (runShape r) && !slotReady t c set (feedGroup r.eop) then some .feed
  else if r.outs.any (fun x => x.at_ ≤ tsc) then some .room
  else if !canCharge s tile (nextQuanta t r) then some .quanta
  else none

/-- The reason of a run's next row that is due in STRICT mode and cannot enter (R211): 7 or 8. -/
def rowReason (s : State) (tile set port : Nat) (r : MeRun) : Option Nat :=
  if !r.strict || r.loose || r.row = 0 || r.total ≤ r.row || tscOf s tile < r.due || port = 1 then none
  else
    match rowStall s tile set port r with
    | some .feed => some 7
    | some .quanta => some 8
    | _ => none

/-- A row that cannot enter when it is due: the run's later rows shift with it, and a stall of the west port in ELASTIC mode is counted
(R208, R213). A row due in STRICT mode stands for its timing trap. -/
def stallRow (s : State) (tile set port : Nat) (r : MeRun) : State :=
  if (rowReason s tile set port r).isSome then s
  else
    let counts := port == 0 && !r.strict && r.row != 0
    modSet s tile set fun x =>
      { x with me := setMeRun x.me port (some { r with due := tscOf s tile + 1, stalls := if counts then r.stalls + 1 else r.stalls }) }

/-- The matrix engine's turn on a port (R208 to R213): the next row of its run enters when it is due, nothing blocks it and
the pool holds its charge; a feed that has ended or a line that fails stops the command. -/
def enterRow (s : State) (tile set port : Nat) (r : MeRun) : State :=
  let h := runShape r
  let s1 := if readsFeed r.eop h then feedAdvance s tile set (feedGroup r.eop) 8 else s
  let t := getTile s1 tile
  let c := getSet s1 tile set
  if readsFeed r.eop h && feedOver t c set (feedGroup r.eop) then stopRun s1 tile set r (meFeedFault r)
  else if readsFeed r.eop h && slotReady t c set (feedGroup r.eop) && slotBad t c set (feedGroup r.eop) then stopRun s1 tile set r (meIntegrity r 0)
  else if r.eop = 4 && !h.src && !drainConfigured t c r then stopRun s1 tile set r (meFeedFault r)
  else if (rowStall s1 tile set port r).isSome then stallRow s1 tile set port r
  else
    match (if r.eop = 1 then slabBad t c r else rowBad t c r) with
    | some a => stopRun s1 tile set r (meIntegrity r a)
    | none =>
      match port with
      | 0 => westRow s1 tile set r
      | 1 => loadUnit s1 tile set r
      | 2 => drainRow s1 tile set r
      | _ => clearRow s1 tile set r

/-- A run that is given up (R212): what has entered is completed, unless an accumulator row that fails its check holds it, and no signal is
raised. -/
def abandonRun (r : MeRun) : MeRun :=
  if r.held then { r with sig := none, held := false, rows := [], row := r.acc, total := r.acc } else { r with sig := none, total := r.row }

/-- A stopped run that a TRET.RETRY puts back (R212): its next row enters, and the rows that were held go on, from the next step. -/
def resumedRun (r : MeRun) (tsc : Nat) : MeRun :=
  let first := ((r.rows.head?).map MeRow.at_).getD 0
  { r with due := tsc + 1, loose := true, held := false
           rows := if r.held then r.rows.map fun x => { x with at_ := x.at_ - first + tsc + 1 } else r.rows }

/-- The runs of a set by issue step, each with what it does now. -/
def eachRun (s : State) (tile set : Nat) (f : State → MeRun → State) : State :=
  ((allRuns (getSet s tile set).me).map fun r => r.issue).foldl (fun acc k =>
    let m := (getSet acc tile set).me
    match (meRuns m ++ m.done ++ m.again).find? fun r => r.issue == k with
    | some r => f acc r
    | none => acc) s

/-- The matrix engine's turn (R209): on ports 0 to 3 the next row of the run enters; beyond them the rows under way reach the
accumulator store, the scratchpad and the S elements. -/
def meRowTurn (s : State) (tile port : Nat) : State :=
  let set := (getTile s tile).active
  let t := getTile s tile
  if !edgeNow s tile || t.removed then s
  else if 4 ≤ port then eachRun (eachRun s tile set fun acc r => writeRow acc tile set r) tile set fun acc r => storeRow acc tile set r
  else
    match meRunOn (getSet s tile set).me port with
    | none => s
    | some r => if tscOf s tile < r.due || r.total ≤ r.row then s else enterRow s tile set port r

/-- The step at which a slab is ready, once its last unit or vector has entered (R209). -/
def slabStep (r : MeRun) : Nat :=
  let h := runShape r
  let units := ceilDiv (h.k * h.n * codeWidth h.tb) 2048
  if h.src then Nat.max (r.ent + 9) (r.issue + 8 + units) else Nat.max (r.ent + 2) (r.issue + units)

/-- SLAB_READY (R201, R209): the slab stands in the shadow registers, and WLD's signal comes. -/
def execSlabReady (tile : Nat) (s : State) : Host.Outcome State Fault Refusal :=
  let set := (getTile s tile).active
  let c := getSet s tile set
  match c.me.load with
  | none => .next s
  | some r =>
    if r.row < r.total || tscOf s tile < slabStep r || !edgeNow s tile then .next s
    else
      .next (modSet s tile set fun x =>
        raiseSignal { x with me := { x.me with load := none, shadow := r.slab, fresh := true, slabAt := 0 } } r.sig)

/-! ### Signals (R200, R296) -/

/-- Whether a command's accumulator accesses, stores and deliveries are all done before a step; its END may be to come. -/
def runWritten (tsc : Nat) (r : MeRun) : Bool :=
  r.eop == 1 || (r.row == r.total && r.rows.isEmpty && r.outs.all (fun x => (runShape r).m ≤ x.row) && r.last < tsc)

/-- Whether a command's signal point has come (R200): the step after its last row has entered, or for a drain or a clear has been read
or cleared; with DRN the step after its last write, and after those of every earlier command (R296). -/
def signalDue (m : MeState) (tsc : Nat) (r : MeRun) : Bool :=
  if meFlag r.arg 3 then runWritten tsc r && (meLive m ++ m.again).all fun q => r.issue ≤ q.issue || runWritten tsc q
  else r.row == r.total && r.ent < tsc

/-- The ports at a step: a command whose last row has passed leaves its port, and one that a TRET.RETRY put back takes its free port
(R209, R212). -/
def settlePorts (m : MeState) (tsc : Nat) : MeState :=
  let leaves (p : Option MeRun) : List MeRun := (p.filter fun r => r.row == r.total && r.ent < tsc).toList
  let stays (p : Option MeRun) : Option MeRun := p.filter fun r => !(r.row == r.total && r.ent < tsc)
  let m1 := { m with west := stays m.west, drain := stays m.drain, clear := stays m.clear
                     done := m.done ++ leaves m.west ++ leaves m.drain ++ leaves m.clear }
  m.back.foldl (fun acc r =>
    if (meRunOn acc (mePort r.eop)).isNone then
      setMeRun { acc with back := acc.back.erase r } (mePort r.eop) (some { r with due := Nat.max r.due tsc })
    else acc) m1

/-- The matrix engine's ports, signals and finished commands brought up to date: a command whose signal is raised and which has nothing
left to write or deliver is forgotten. -/
def settleMe (c : CtxSet) (tsc : Nat) : CtxSet :=
  let m := settlePorts c.me tsc
  let due := m.done.filter fun r => r.sig.isSome && signalDue m tsc r
  let c1 := due.foldl (fun x r => raiseSignal x r.sig) c
  let left := (m.done.map fun r => if signalDue m tsc r then { r with sig := none } else r).filter fun r =>
    r.sig.isSome || !runWritten tsc r || !r.outs.isEmpty
  { c1 with me := { m with done := left } }

/-- ENGINE_SIGNAL (R200, R223): an engine's command reaches its signal point; a switch of CE's or CX's side ends. -/
def execEngineSignal (tile eng : Nat) (s : State) : Host.Outcome State Fault Refusal :=
  let i := (getTile s tile).active
  let c := getSet s tile i
  if eng = 0 then .next (setSet s tile i (settleMe c (tscOf s tile)))
  else if eng = 1 || eng = 2 then .next (endSwitch s tile (eng - 1))
  else .next s

/-! ### Timing traps (R211, R212) -/

/-- The matrix engine's timing detail (R211). -/
def timingDetail (target row pos reason : Nat) : BitVec 64 :=
  BitVec.ofNat 64 (target % 2 ^ 32 * 2 ^ 32 + row % 2048 * 2 ^ 20 + pos % 65536 * 16 + reason)

/-- A miss raised (R212): thread RPSNAP0.THR enters TRAP, unless no entry is bound to it or it has halted (R120); without a
snapshot the miss is escalated. -/
def raiseMiss (s : State) (tile set cause pos : Nat) (detail : BitVec 64) : State :=
  let c := getSet s tile set
  let s1 := setSet s tile set { c with eng := Tab.set c.eng 0 { engState c 0 with faulted := true } }
  if c.rpsnap.valid then
    let st := (setThread? c c.rpsnap.thr).st
    raiseTrap s1 tile set { unitRec cause 1 0 0 pos 0 detail 0 with thr := c.rpsnap.thr, thv := st != .off && st != .halt }
  else raiseTrap s1 tile set (unitRec 0x12 1 0 0 pos 0 detail 0)

/-- The first step at which the command at the ME ring's head stood there: the step after the one before it left the head, or after its
ENQ. DESIGN CHOICE (notes/assumptions/106.md). -/
def headSince (c : CtxSet) : Nat := Nat.max (engState c 0).free ((capturedAt c 0 (ringHead c 0)).at_ + 1)

/-- The command at the head of the ME ring, with its operation. -/
def meHead (s : State) : Option (Nat × Cmd) :=
  match fetchCommand s 0 with
  | .cmd i => (cmdParts i).map fun p => (p.2.1, p.2.2)
  | _ => none

/-- Whether the head command is bound to its target: STRICT, and not freed by a TRET.RETRY. -/
def headStrict (c : CtxSet) : Bool :=
  let cap := capturedAt c 0 (ringHead c 0)
  !cap.elastic && !cap.retry

/-- The runs whose next row is due in STRICT mode and cannot enter, with their ports and reasons. -/
def lateRows (s : State) (tile set : Nat) : List (Nat × MeRun × Nat) :=
  ([0, 2, 3] : List Nat).filterMap fun p =>
    match meRunOn (getSet s tile set).me p with
    | some r => (rowReason s tile set p r).map fun x => (p, r, x)
    | none => none

/-- TIMING_TRAP (R211, R212): a command that cannot issue at its target, or a later row that cannot enter when it is due. What keeps a
command whose stores ahead of its ENQ are not performed yet (R295) is none of the reasons: the reason recorded is a free value of 2
to 6 (notes/assumptions/3.md). -/
def execTimingTrap (tile : Nat) (s : State) : Host.Outcome State Fault Refusal :=
  let set := (getTile s tile).active
  let s0 := { s with focus := ⟨tile, set, 0, 0, 0⟩ }
  let t := getTile s tile
  let c := getSet s tile set
  if !edgeNow s tile || (getTile s tile).removed || (engState c 0).faulted then .next s
  else
    match lateRows s tile set with
    | (p, r, x) :: _ =>
      .next (raiseMiss (modSet s tile set fun y => { y with me := { setMeRun y.me p none with again := y.me.again ++ [r] } }) tile set 0x10
        r.pos (timingDetail r.target r.row r.pos x))
    | [] =>
      match meHead s0 with
      | none => .next s
      | some (eop, cmd) =>
        if !headStrict c || tscOf s tile != headTarget t c || headTarget t c < headSince c then .next s
        else
          let trap (s1 : State) (x : Nat) : State := raiseMiss s1 tile set 0x10 (ringHead c 0) (timingDetail (headTarget t c) 0 (ringHead c 0) x)
          if !headOrdered s0 0 0 then .next (trap (freeValue s0).2 (2 + (freeValue s0).1.toNat % 5))
          else
            match issueReason eop cmd s0 with
            | some x => .next (trap s0 x)
            | none => .next s

/-- STALE_STAMP_MISS (R211, R212): a STRICT command came to the ring's head after its target. -/
def execStaleStampMiss (tile : Nat) (s : State) : Host.Outcome State Fault Refusal :=
  let set := (getTile s tile).active
  let s0 := { s with focus := ⟨tile, set, 0, 0, 0⟩ }
  let t := getTile s tile
  let c := getSet s tile set
  if !edgeNow s tile || (getTile s tile).removed || (engState c 0).faulted then .next s
  else
    match meHead s0 with
    | none => .next s
    | some _ =>
      if headStrict c && headTarget t c < headSince c && headTarget t c < tscOf s tile then
        .next (raiseMiss s0 tile set 0x11 (ringHead c 0) (timingDetail (headTarget t c) 0 (ringHead c 0) 1))
      else .next s

end Sys2Proof.Machine
end

