-- ==== Sys2Proof/Machine/Returns.lean ====
section
/-! DEFINITION. The return from a trap (R161, R247): what each form of TRET does for a record of a thread, an engine, a
region, a stream port or a copy transfer (R153, R171, R212, R226, R231, R242, R360), restart() (R136, R214), and the
presentation of the next record. -/

namespace Sys2Proof.Machine

/-- A change made with a set's unit as the one that acts. -/
def onSet (s : State) (tile set : Nat) (f : State → State) : State :=
  { f { s with focus := ⟨tile, set, 0, 0, 0⟩ } with focus := s.focus }

/-! ### Threads -/

/-- The trapped thread of a record goes on: it runs, but stays in TRAP while further records of it are held (R153). -/
def wakeThread (s : State) (tile set thr : Nat) (f : Thread → Thread) : State :=
  let more := (getSet s tile set).trap.held.any fun r => r.thv && r.thr == thr
  modThread s tile set thr fun th =>
    let x := f th
    { x with st := if more then .trap else .run, fl := { x.fl with notBefore := tscOf s tile + 1 } }

/-- IDX of VPROG set to 0 (R171). -/
def clearVprog (s : State) (tile set : Nat) : State := modSet s tile set fun c => { c with vprog := 0, vresume := [] }

/-- TRET.RETRY of a thread's record (R161): the word executes again, and for a deferred integrity trap the load alone, before the
thread goes on at its PC; a vector word begins at register IDX. -/
def retryThread (s : State) (tile set : Nat) (r : TrapRec) : State :=
  let opc := ((iword (getTile s tile) (getSet s tile set) r.pos).extractLsb' 118 10).toNat
  let s1 := if 0x200 ≤ opc && opc < 0x340 then modSet s tile set fun c => { c with vresume := r.thr :: c.vresume } else s
  wakeThread s1 tile set r.thr fun th =>
    if r.late then { th with fl := { th.fl with redo := th.fl.redo ++ [r.pos] } }
    else if th.fl.again then { th with fl := { th.fl with again := false } }
    else { th with pc := r.pos }

/-- TRET.NEXT of a thread's record (R161): the word after the trapping word follows, and for a deferred integrity trap the
thread goes on where it stopped. -/
def skipThread (s : State) (tile set : Nat) (r : TrapRec) : State :=
  let s1 := clearVprog s tile set
  if r.late then wakeThread s1 tile set r.thr id
  else if (getThread s1 tile set r.thr).fl.again then
    wakeThread s1 tile set r.thr fun th => { th with fl := { th.fl with redo := th.fl.redo.tail, again := false } }
  else if r.pos + 1 < (getSet s tile set).ilen then wakeThread s1 tile set r.thr fun th => { th with pc := r.pos + 1 }
  else raiseTrap s1 tile set (wordRec 0x03 r.thr r.pos 0 0)

/-- A thread that another unit's record stopped goes on at the word before which it stopped (R212). -/
def resumeOther (s : State) (tile set : Nat) (r : TrapRec) : State :=
  if r.thv then wakeThread s tile set r.thr id else s

/-! ### Engines (R212, R242) -/

/-- Whether a further record of an engine is held. -/
def engineHeld (c : CtxSet) (e : Nat) : Bool := c.trap.held.any fun r => r.src == 1 && r.unit == e

/-- An engine of a set no longer stopped, unless a further record of it stands: it takes its next command from the next step on. -/
def freeEngine (s : State) (tile set e : Nat) : State :=
  modSet s tile set fun c =>
    { c with eng := Tab.set c.eng e { engState c e with free := Nat.max (engState c e).free (tscOf s tile + 1), faulted := engineHeld c e || (e == 0 && !c.me.again.isEmpty) } }

/-- The return from a record of the matrix engine (R212): a command that stopped on a row begins again at that row, or is
abandoned with the rows it has entered; one that missed its target at the ring's head issues whatever its target, and any is checked again, or is skipped. -/
def returnMe (s : State) (tile set : Nat) (r : TrapRec) (skip : Bool) : State :=
  let c := getSet s tile set
  match c.me.again.find? fun x => x.pos % 65536 == r.pos % 65536 with
  | some x =>
    let me := { c.me with again := c.me.again.erase x }
    let me1 := if skip then { me with done := me.done ++ [abandonRun x] } else { me with back := me.back ++ [resumedRun x (tscOf s tile)] }
    freeEngine (setSet s tile set { c with me := me1 }) tile set 0
  | none =>
    if skip then freeEngine (onSet s tile set fun s1 => nextCommand s1 0) tile set 0
    else if r.cause != 0x10 && r.cause != 0x11 then freeEngine s tile set 0
    else
      freeEngine (setSet s tile set { c with
        captured := Tab.set c.captured (ringKey 0 (ringHead c 0)) { capturedAt c 0 (ringHead c 0) with retry := true } }) tile set 0

/-- The return from a record of an engine (R212, R242, R360); a configuration fault's only dismisses it (R220). -/
def returnEngine (s : State) (tile set : Nat) (r : TrapRec) (skip : Bool) : State :=
  if r.cause = 0x17 then s
  else if r.unit = 0 then returnMe s tile set r skip
  else if r.unit = 5 && r.late then returnTransfer s r.det0 skip
  else if skip then freeEngine (onSet s tile set fun s1 => nextCommand s1 r.unit) tile set r.unit
  else freeEngine s tile set r.unit

/-! ### Regions and stream ports (R226, R231) -/

/-- The return from a record of a region (R226): TRET.RETRY repeats the completion store, TRET.NEXT leaves it undone, and the
slot stays retiring. A stopped region can only be aborted (R94, R95, R225). -/
def returnRegion (s : State) (tile set : Nat) (r : TrapRec) (skip : Bool) : State :=
  if skip && (regionOf (getSet s tile set) r.slot).st == .retiring then
    modRegion s tile set r.slot fun g => { g with noStore := true }
  else s

/-- The item that a write port skips (R231): nothing more of it is written, and the port goes on with its next entry. -/
def skipItem (s : State) (tile set p : Nat) (x : StreamPort) : State :=
  match sinkFeeder (getTile s tile) (getSet s tile set) (p - 4) with
  | none => s
  | some (e, o) =>
    let key := sinkKey set e o
    match x.owed, (chanOf (getTile s tile) key).q with
    | _ :: rest, _ =>
      if spbSpace x.spb = 2 && !fabAttached s (spbBase x.spb % 65536) tile set p then
        noteInstant (modPort s tile set p fun y => { y with owed := rest }) tile set e key
      else skipHead s tile set e p key x
    | [], _ => skipHead s tile set e p key x
where
  /-- The sink's first entry passed over. -/
  skipHead (s : State) (tile set e p key : Nat) (x : StreamPort) : State :=
    match (chanOf (getTile s tile) key).q with
    | [] => s
    | h :: _ =>
      let s1 := popEntry s tile key
      if h.kind = 2 then
        acceptInstant (modPort (countEnd s1 tile set e key) tile set p fun y => { y with ended := true }) tile set e p key x []
      else if isInstant h then acceptInstant (modPort s1 tile set p fun y => { y with pos := y.pos + 1 }) tile set e p key x []
      else s1

/-- The return from a record of a stream port (R231): the port resumes at the failing item, or passes over it; a read port
delivers an absence mark in its place. -/
def returnPort (s : State) (tile set : Nat) (r : TrapRec) (skip : Bool) : State :=
  let p := r.unit
  let s0 := modPort s tile set p fun y => { y with stopped := false }
  match portIn (getSet s0 tile set) p with
  | none => s0
  | some x =>
    if !skip then s0
    else
      let s1 := modPort (portDone s0 tile set p x.thr [] fun k => x.miss == some k) tile set p fun y => { y with miss := none }
      if p < 4 then
        let k := r.det0.toNat
        modPort s1 tile set p fun y => { y with ahead := Tab.set (Tab.erase y.ahead (2 * k)) (2 * k + 1) 0 }
      else skipItem s1 tile set p x

/-! ### restart() (R136, R214) -/

/-- Whether a ring position comes before another, in the window of 2^15. -/
def posBefore (p q : Nat) : Bool := (q + 65535 - p % 65536) % 65536 < 32768

/-- Whether a ring holds a command enqueued before its snapshot tail that has not completed (R136). -/
def ringUnfinished (c : CtxSet) (e : Nat) : Bool :=
  let tail := Tab.get 0 c.rpsnap.tails e
  (ringCount c e != 0 && posBefore (ringHead c e) tail)
    || (e == 0 && (allRuns c.me).any fun r => posBefore r.pos tail)
    || ((e == 1 || e == 2) && (List.range 4).any fun k =>
        (match pendOf (regionOf c k) (e - 1) with | some p => posBefore p.pos tail | none => false)
          || (match (regionOf c k).abortAt with | some p => p.1 == e && posBefore p.2 tail | none => false))
    || (e == 3 && (match c.load with | some l => posBefore l.pos tail | none => false))
    || (e == 4 && c.ports.any fun p => p.2.closing && posBefore p.2.closeAt tail)

/-- Whether restart() escalates (R136, R214): no snapshot, an unfinished command, a row first touched by an add, a region
bound to the matrix engine that was fired before the snapshot and has not retired. -/
def restartFails (t : Tile) (c : CtxSet) : Bool :=
  !c.rpsnap.valid || (List.range 6).any (ringUnfinished c)
    || (List.range c.acclen).any (fun n => Tab.get 0 c.me.touch n == 2)
    || (boundSlots t c).any fun r => !(regionOf c r).snapAfter

/-- The set rewound (R136): rings, tokens, stream-port positions, DLY, touch states, and what the dropped commands had in
hand. -/
def rewindSet (c : CtxSet) : CtxSet :=
  let rp := c.rpsnap
  let drop (side : Nat) (g : Region) : Region := match pendOf g side with
    | some p => if p.reached then g else setPend g side none
    | none => g
  { c with
    head := (List.range 6).map fun e => (e, BitVec.ofNat 16 (Tab.get 0 rp.tails e))
    tail := (List.range 6).map fun e => (e, BitVec.ofNat 16 (Tab.get 0 rp.tails e))
    captured := [], tok := rp.tok, dly := rp.dly, load := none
    eng := (List.range 6).map fun e => (e, { engState c e with waited := false, faulted := false, sent := none })
    ports := Tab.mapAll (fun p x => { x with pos := Tab.get 0 rp.spos p, per := (Tab.get (0, 0, 0) rp.sper p).1, base := (Tab.get (0, 0, 0) rp.sper p).2, ahead := [] }) c.ports
    regions := Tab.mapAll (fun _ g => drop 1 (drop 0 g)) c.regions
    me := { c.me with touch := [], again := [], back := [], done := c.me.done ++ (c.me.again ++ c.me.back).map abandonRun } }

/-- restart() where nothing makes it escalate (R136, R214). -/
def restartSet (s : State) (tile set : Nat) : State :=
  let c := getSet s tile set
  let s1 := (boundSlots (getTile s tile) c).foldl (fun acc r => endAbort (abortRegionNow acc tile set r none) tile set r) s
  let s2 := modSet s1 tile set rewindSet
  wakeThread s2 tile set c.rpsnap.thr fun th =>
    { th with pc := c.rpsnap.pc, fl := { th.fl with redo := [], walked := [], asked := none, arrived := none, parked := none, again := false } }

/-- TRET.RESTART of a record (R136, R161): the trapped thread resumes where it stopped, then the context restarts; a restart
that fails raises an unrecoverable schedule miss of the same unit. -/
def returnRestart (s : State) (tile set : Nat) (r : TrapRec) : State :=
  let s1 := clearVprog s tile set
  if restartFails (getTile s1 tile) (getSet s1 tile set) then raiseTrap s1 tile set { r with cause := 0x12, late := false }
  else
    let s2 := restartSet (if r.thv then wakeThread s1 tile set r.thr id else s1) tile set
    if r.src = 1 && r.late then returnTransfer s2 r.det0 false
    else if r.src = 4 then returnPort s2 tile set r false
    else s2

/-! ### TRET -/

/-- What a return does for its record (R161, R247): fn 0 RETRY, 1 NEXT, 2 RESTART. -/
def resolveRecord (s : State) (tile set : Nat) (r : TrapRec) (fn : Nat) : State :=
  if fn = 2 then returnRestart s tile set r
  else
    let skip := fn == 1
    match r.src with
    | 0 => if !r.thv then s else if skip then skipThread s tile set r else retryThread s tile set r
    | 1 => resumeOther (returnEngine (if skip then clearVprog s tile set else s) tile set r skip) tile set r
    | 3 => returnRegion (if skip then clearVprog s tile set else s) tile set r skip
    | 4 => returnPort (if skip then clearVprog s tile set else s) tile set r skip
    | _ => if skip then clearVprog s tile set else s

/-- Whether a return form is admitted for a record (R212): an unrecoverable schedule miss admits TRET.RESTART alone. -/
def returnOk (r : TrapRec) (fn : Nat) : Bool := r.cause != 0x12 || fn == 2

/-- A set's presented record dismissed and resolved (R247): the handler thread returns, then the record's unit does. -/
def dismiss (s : State) (tile set fn : Nat) : State :=
  let c := getSet s tile set
  let tsc := tscOf s tile
  let s1 := setSet s tile set (leaveHandler { c with trap := { c.trap with left := tsc } })
  let s2 := modThread s1 tile set c.trap.hthr fun th => { th with fl := { th.fl with notBefore := tsc + 1 } }
  resolveRecord s2 tile set c.trap.cur fn

/-- A TRET (R161): the word is done for a thread that is not the handler thread, which then goes on at its next word. -/
def tretWord (w : TWord) (fn : Nat) (s : State) : Host.Outcome State Fault Refusal :=
  .next (runWord w s fun s1 =>
    let c := curSet s1
    if !c.trap.valid || !returnOk c.trap.cur fn then illegalOperand s1
    else
      let s2 := if s1.focus.thr = c.trap.hthr then s1 else goPc s1 ((curThread s1).pc + 1) false
      .stop (dismiss s2 s1.focus.tile s1.focus.set fn))

/-- TRET.RETRY (R161). -/
def execTretRetry (w : TWord) (s : State) : Host.Outcome State Fault Refusal := tretWord w 0 s
/-- TRET.NEXT (R161). -/
def execTretNext (w : TWord) (s : State) : Host.Outcome State Fault Refusal := tretWord w 1 s
/-- TRET.RESTART (R161, R136). -/
def execTretRestart (w : TWord) (s : State) : Host.Outcome State Fault Refusal := tretWord w 2 s

/-- TRAP_PRESENT (R246, R247): the next held record of a set is presented, or reflected, in a step after the last was
dismissed. -/
def execTrapPresent (tile set : Nat) (s : State) : Host.Outcome State Fault Refusal :=
  let c := getSet s tile set
  if (getTile s tile).active = set && edgeNow s tile && !(getTile s tile).removed && c.trap.left < tscOf s tile then
    .next (presentNext s tile set)
  else .next s

end Sys2Proof.Machine
end

