-- ==== Sys2Proof/Machine/Residency.lean ====
section
/-! DEFINITION. Sets that enter and leave tiles (R15, R119, R121, R122, R378): a set that is out stands, with its windows'
contents, as set 0 of a tile numbered 1,024 or more, and whatever in the state names it follows it there and back. -/

namespace Sys2Proof.Machine

/-- The bytes of a share (R371). -/
def shareSize (x : Share) : Nat := 2048 * x.sp + 512 * x.acc + 128 * x.v + 16 * x.il

/-! ### What names a set -/

/-- A set's change of place: from and to as tile and set, and its scratchpad rows' bytes, from their first offset before and
after. -/
structure Shift where
  src   : Nat × Nat
  dst   : Nat × Nat
  lo    : Nat
  len   : Nat
  lo1   : Nat
deriving DecidableEq, Repr

/-- A set's place after a shift. -/
def shiftedSet (m : Shift) (p : Nat × Nat) : Nat × Nat := if p = m.src then m.dst else p

/-- An agent after a shift. -/
def shiftedAgent (m : Shift) (a : Agent) : Agent :=
  match a with
  | .thread t i n => let q := shiftedSet m (t, i); .thread q.1 q.2 n
  | .port t i n => let q := shiftedSet m (t, i); .port q.1 q.2 n
  | .region t i n => let q := shiftedSet m (t, i); .region q.1 q.2 n
  | _ => a

/-- A location after a shift. -/
def shiftedLoc (m : Shift) (l : Loc) : Loc :=
  match l with
  | .sp t o => if t = m.src.1 && m.lo ≤ o && o < m.lo + m.len then .sp m.dst.1 (m.lo1 + (o - m.lo)) else l
  | _ => l

/-- A thread after a shift. -/
def shiftedThread (m : Shift) (p : Nat × Nat × Nat) : Nat × Nat × Nat :=
  let q := shiftedSet m (p.1, p.2.1)
  (q.1, q.2, p.2.2)

/-- A synchronisation record after a shift. -/
def shiftedRec (m : Shift) (r : SyncRec) : SyncRec := { r with agent := shiftedAgent m r.agent }

/-- A request after a shift. -/
def shiftedReq (m : Shift) (r : Req) : Req :=
  { r with agent := shiftedAgent m r.agent, loc := shiftedLoc m r.loc, pub := r.pub.map (shiftedRec m),
           got := r.got.map (shiftedRec m) }

/-- The key of a published value after a shift (locKey). -/
def shiftedKey (m : Shift) (k : Nat) : Nat :=
  let first := locKey (.sp m.src.1 m.lo)
  if first ≤ k && k < first + m.len then locKey (.sp m.dst.1 m.lo1) + (k - first) else k

/-- The number of a thread in the tables of R291 after a shift. -/
def shiftedThreadKey (m : Shift) (k : Nat) : Nat :=
  let q := shiftedThread m (k / 8, k / 4 % 2, k % 4)
  threadKey q.1 q.2.1 q.2.2

/-- A table with its keys renamed. -/
def rekey {α : Type} (f : Nat → Nat) (t : Tab α) : Tab α := t.foldl (fun acc p => Tab.set acc (f p.1) p.2) []

/-- A release of a barrier after a shift. -/
def shiftedRelease (m : Shift) (r : Release) : Release :=
  { r with parts := r.parts.map (shiftedThread m), ups := r.ups.map fun u => (shiftedThread m u.1, u.2)
           away := r.away.map (shiftedThread m) }

/-- A column's barriers after a shift. -/
def shiftedColumn (m : Shift) (c : Column) : Column :=
  { c with bars := Tab.mapAll (fun _ b => { b with parts := b.parts.map (shiftedThread m) }) c.bars }

/-- A transfer after a shift. -/
def shiftedTransfer (m : Shift) (r : Transfer) : Transfer :=
  let q := shiftedSet m (r.tile, r.set)
  { r with tile := q.1, set := q.2 }

/-- A source or sink, by tile and channel key, after a shift. -/
def shiftedEnd (m : Shift) (p : Nat × Nat) : Nat × Nat :=
  let q := shiftedSet m (p.1, p.2 / 1024)
  (q.1, q.2 * 1024 + p.2 % 1024)

/-- A graph under a snapshot after a shift. -/
def shiftedGraph (m : Shift) (g : Graph) : Graph :=
  { g with
    tiles := g.tiles.map (shiftedSet m), srcs := g.srcs.map (shiftedEnd m), sinks := g.sinks.map (shiftedEnd m)
    elems := if g.tiles.contains m.src then g.elems.map fun e => if e / 32 = m.src.1 then m.dst.1 * 32 + e % 32 else e else g.elems }

/-- Everything in the state that names a set follows it. -/
def shiftRefs (s : State) (m : Shift) : State :=
  { s with
    reqs := s.reqs.map (shiftedReq m)
    sync := rekey (shiftedKey m) (Tab.mapAll (fun _ l => l.map (shiftedRec m)) s.sync)
    known := rekey (shiftedThreadKey m) s.known
    seen := rekey (shiftedThreadKey m) (Tab.mapAll (fun _ l => l.map (shiftedRec m)) s.seen)
    fenced := rekey (shiftedThreadKey m) (Tab.mapAll (fun _ r => shiftedRec m r) s.fenced)
    columns := Tab.mapAll (fun _ c => shiftedColumn m c) s.columns
    releases := s.releases.map (shiftedRelease m)
    walks := s.walks.map fun w => { w with who := w.who.map (shiftedAgent m) }
    summit := s.summit.map fun r => { r with tile := (shiftedSet m (r.tile, r.set)).1, set := (shiftedSet m (r.tile, r.set)).2 }
    ctxs := Tab.mapAll (fun _ c => { c with twhere := c.twhere.map (shiftedSet m) }) s.ctxs
    graphs := Tab.mapAll (fun _ g => shiftedGraph m g) s.graphs
    slots := Tab.mapAll (fun _ x => { x with tile := (shiftedSet m (x.tile, x.set)).1, set := (shiftedSet m (x.tile, x.set)).2 }) s.slots
    copies := Tab.mapAll (fun _ c => { c with runs := c.runs.map (shiftedTransfer m) }) s.copies
    fabChans := Tab.mapAll (fun _ f => { f with port := f.port.map fun p => shiftedThread m p }) s.fabChans }

/-! ### Contents of windows -/

/-- The part of a table whose keys lie in a range, with the keys from another first key. -/
def tabPart {α : Type} (t : Tab α) (lo len lo1 : Nat) : Tab α :=
  (t.filter fun p => lo ≤ p.1 && p.1 < lo + len).map fun p => (p.1 - lo + lo1, p.2)

/-- The part of a table whose keys lie outside a range. -/
def tabRest {α : Type} (t : Tab α) (lo len : Nat) : Tab α := t.filter fun p => !(lo ≤ p.1 && p.1 < lo + len)

/-- A table with the entries of another set in it. -/
def tabUnion {α : Type} (t u : Tab α) : Tab α := u.foldl (fun acc p => Tab.set acc p.1 p.2) t

/-- The part of a memory in a range, from another first address. -/
def memPart (m : Memory) (lo len lo1 : Nat) : Memory :=
  (m.filter fun c => lo ≤ c.1 && c.1 < lo + len).map fun c => (c.1 - lo + lo1, c.2)

/-- A memory with the cells of another written into it. -/
def memUnion (m u : Memory) : Memory := u.foldl (fun acc c => Memory.setByte acc c.1 c.2) m

/-- The numbers of a list in a range, from another first number. -/
def listPart (l : List Nat) (lo len lo1 : Nat) : List Nat := (l.filter fun n => lo ≤ n && n < lo + len).map fun n => n - lo + lo1

/-- The numbers of a list outside a range. -/
def listRest (l : List Nat) (lo len : Nat) : List Nat := l.filter fun n => !(lo ≤ n && n < lo + len)

/-- The planes that a set owns and holds something in, or was granted (R216, R312). -/
def planesHeld (t : Tile) (i : Nat) : List Nat :=
  (List.range 4).filter fun k =>
    planeOwner t k == i && (bit (tileSet t i).plreq k || Tab.get Plane.empty t.planes k != Plane.empty)

/-- A tile that holds a set of another as its set 0, with the contents of its windows, owned planes, tables and
channels; it has no step edges. -/
def heldTile (t : Tile) (i : Nat) : Tile :=
  let c := tileSet t i
  let held := planesHeld t i
  { Tile.reset with
    removed := true, clk := ⟨c.leftAt, 2 ^ 128, false, 0⟩
    vregs := tabPart t.vregs c.vbase c.vlen 0
    sp := memPart t.sp (c.spbase * 2048) (c.splen * 2048) 0
    spBad := listPart t.spBad (c.spbase * 32) (c.splen * 32) 0
    acc := tabPart t.acc (c.accbase * 128) (c.acclen * 128) 0
    accBad := listPart t.accBad (c.accbase * 64) (c.acclen * 64) 0
    istore := tabPart t.istore c.ibase c.ilen 0
    planes := t.planes.filter fun p => held.contains p.1
    luts := t.luts.filterMap fun p => if p.2.owner = some i then some (p.1, { p.2 with owner := some 0 }) else none
    chans := tabPart t.chans (i * 1024) 1024 0
    set0 := { c with vbase := 0, spbase := 0, accbase := 0, ibase := 0 } }

/-- A tile without a set's state and windows' contents. -/
def emptiedTile (t : Tile) (i : Nat) : Tile :=
  let c := tileSet t i
  let held := planesHeld t i
  putTileSet
    { t with
      vregs := tabRest t.vregs c.vbase c.vlen
      sp := Memory.clear t.sp (c.spbase * 2048) (c.splen * 2048)
      spBad := listRest t.spBad (c.spbase * 32) (c.splen * 32)
      acc := tabRest t.acc (c.accbase * 128) (c.acclen * 128)
      accBad := listRest t.accBad (c.accbase * 64) (c.acclen * 64)
      istore := tabRest t.istore c.ibase c.ilen
      planes := t.planes.filter fun p => !held.contains p.1
      luts := Tab.mapAll (fun _ l => if l.owner = some i then { l with owner := none } else l) t.luts
      chans := tabRest t.chans (i * 1024) 1024
      vrun := t.vrun.filter fun v => v.set != i } i CtxSet.reset

/-! ### Windows (R121, R312) -/

/-- Whether two ranges meet. -/
def rangesMeet (a n b m : Nat) : Bool := a < b + m && b < a + n

/-- The lowest base at which a window fits below a limit, clear of another: 0, or right behind it (R312). -/
def lowestBase (limit len base1 len1 : Nat) : Option Nat :=
  if !rangesMeet 0 len base1 len1 && len ≤ limit then some 0
  else if base1 + len1 + len ≤ limit then some (base1 + len1)
  else none

/-- A set with its windows at the lowest bases of a tile that are clear of the other set's (R121, R125, R312). -/
def placeWindows (c o : CtxSet) : Option CtxSet :=
  match lowestBase 640 c.vlen o.vbase o.vlen, lowestBase 1024 c.splen o.spbase o.splen,
    lowestBase 2048 c.acclen o.accbase o.acclen, lowestBase 8192 c.ilen o.ibase o.ilen with
  | some v, some sp, some a, some il => some { c with vbase := v, spbase := sp, accbase := a, ibase := il }
  | _, _, _, _ => none

/-- A set's windows are the whole of what it held. -/
def unionTile (t h : Tile) (i : Nat) (c : CtxSet) : Tile :=
  let held := h.planes.map Prod.fst ++ (List.range 4).filter fun k => bit c.plreq k
  let own (n k : Nat) : Nat :=
    if held.contains k then (if i = 1 then n ||| 2 ^ k else n &&& (15 ^^^ 2 ^ k)) else n
  putTileSet
    { t with
      vregs := tabUnion t.vregs (tabPart h.vregs 0 c.vlen c.vbase)
      sp := memUnion t.sp (memPart h.sp 0 (c.splen * 2048) (c.spbase * 2048))
      spBad := t.spBad ++ listPart h.spBad 0 (c.splen * 32) (c.spbase * 32)
      acc := tabUnion t.acc (tabPart h.acc 0 (c.acclen * 128) (c.accbase * 128))
      accBad := t.accBad ++ listPart h.accBad 0 (c.acclen * 64) (c.accbase * 64)
      istore := tabUnion t.istore (tabPart h.istore 0 c.ilen c.ibase)
      planes := tabUnion t.planes h.planes
      plown := BitVec.ofNat 4 ((List.range 4).foldl own t.plown.toNat)
      luts := tabUnion t.luts (h.luts.map fun p => (p.1, { p.2 with owner := some i }))
      chans := tabUnion t.chans (tabPart h.chans 0 1024 (i * 1024)) } i c

/-! ### Steps of a set that was away (R122) -/

/-- A step count moved by a difference of TSCs. -/
def movedStep (d : Int) (n : Nat) : Nat := wrapI (n + d) 64

/-- A thread that comes to another tile: what it had issued has completed (R122), and the steps of its new tile count. -/
def landedThread (th : Thread) : Thread :=
  { th with fl := { th.fl with notBefore := 0, busy := th.fl.busy.filter fun b => b.req.isSome } }

/-- A region's step counts moved. -/
def movedRegion (d : Int) (g : Region) : Region :=
  { g with swe := g.swe.map fun p => { p with issue := movedStep d p.issue }
           swx := g.swx.map fun p => { p with issue := movedStep d p.issue } }

/-- The step counts of a row under way moved. -/
def movedRow (d : Int) (x : MeRow) : MeRow := { x with at_ := movedStep d x.at_ }

/-- A command's step counts moved. -/
def movedRun (d : Int) (r : MeRun) : MeRun :=
  { r with target := movedStep d r.target, issue := movedStep d r.issue, due := movedStep d r.due, ent := movedStep d r.ent
           accAt := movedStep d r.accAt, last := movedStep d r.last, rows := r.rows.map (movedRow d), outs := r.outs.map (movedRow d) }

/-- A matrix engine's step counts moved, for a set that returns at a step: slabs that it brings back may be used 128 steps later
(R215). -/
def movedMe (m : MeState) (d : Int) (tsc : Nat) : MeState :=
  let f := movedRun d
  { m with west := m.west.map f, load := m.load.map f, drain := m.drain.map f, clear := m.clear.map f, done := m.done.map f
           again := m.again.map f, back := m.back.map f, slabAt := if m.active.isSome || m.shadow.isSome then tsc + 129 else 0 }

/-- A set that becomes active after its tile's TSC has moved on (R122, R215): SCHBASE and the targets of the commands that
have not issued rise by the steps it was away, and by 128 more where a valid slab returns; its own step counts keep their
distances. The words that its threads had issued have completed by their own steps. -/
def returnedSet (c : CtxSet) (tsc : Nat) : CtxSet :=
  let away : Int := (tsc : Int) - c.leftAt
  let slab : Int := if c.me.active.isSome || c.me.shadow.isSome then 128 else 0
  { c with
    schbase := BitVec.ofNat 64 (wrapI (c.schbase.toNat + away + slab) 64)
    captured := Tab.mapAll (fun _ x =>
      { x with target := movedStep (away + slab) x.target, base := movedStep (away + slab) x.base, at_ := movedStep away x.at_ }) c.captured
    regions := Tab.mapAll (fun _ g => movedRegion away g) c.regions
    eng := Tab.mapAll (fun _ e => { e with free := movedStep away e.free }) c.eng
    load := c.load.map fun l => { l with issue := movedStep away l.issue }
    trap := { c.trap with left := movedStep away c.trap.left }
    gearPend := c.gearPend.map fun g => (g.1, movedStep away g.2.1, g.2.2)
    me := movedMe c.me away tsc }

/-! ### Leaving and entering a tile -/

/-- A set taken out of its tile (R326, R378): its windows' contents go with it, its placement keeps its tile. -/
def takeOut (s : State) (t i : Nat) (graph : Option Nat) : State :=
  let (n, s1) := newSerial s
  let u := 1024 + 64 * n
  let tile := getTile s1 t
  let c := tileSet tile i
  let c1 := if tile.active = i then { idleRegions c s.dcc with leftAt := clockTsc tile.clk s.dcc } else c
  let tile1 := putTileSet tile i c1
  let s2 := shiftRefs (setTile s1 t { emptiedTile tile1 i with swapReady := false }) ⟨(t, i), (u, 0), c.spbase * 2048, c.splen * 2048, 0⟩
  let s3 := setTile s2 u (heldTile tile1 i)
  { s3 with
    saved := s3.saved ++ [⟨c.ctx.getD 0, t, u, graph⟩]
    places := Tab.mapAll (fun _ p => if p.tile = t && p.set = some i then
      { p with set := none, tile := if graph.isSome then u else p.tile } else p) s3.places }

/-- Whether the planes that a set out of its tile needs are free of the other set on a tile (R312), and so the LUT tables that it
brings back (R15). DESIGN CHOICE for the tables (notes/assumptions/116.md). -/
def planesFree (t h : Tile) (i : Nat) : Bool :=
  let o := planesHeld t (otherSet i)
  ((List.range 4).filter fun k => bit h.set0.plreq k || Tab.get Plane.empty h.planes k != Plane.empty).all (fun k => !o.contains k)
    && h.luts.all fun p => (Tab.get ⟨[], none⟩ t.luts p.1).owner != some (otherSet i)

/-- A set that is out enters the empty inactive set of a tile, if its windows and planes fit there. -/
def bringIn (s : State) (v : SavedSet) (t i : Nat) : Option State :=
  let tile := getTile s t
  let h := getTile s v.held
  if (tileSet tile i).ctx.isSome || !planesFree tile h i then none
  else
    let land (c : CtxSet) : CtxSet := if t = v.tile then c else { c with threads := Tab.mapAll (fun _ th => landedThread th) c.threads }
    (placeWindows (land { h.set0 with stopReq := false }) (tileSet tile (otherSet i))).map fun c =>
      let s1 := shiftRefs { s with tiles := Tab.erase s.tiles v.held, saved := s.saved.filter fun x => x.held != v.held }
        ⟨(v.held, 0), (t, i), 0, c.splen * 2048, c.spbase * 2048⟩
      let s2 := setTile s1 t (unionTile tile h i c)
      { s2 with places := Tab.mapAll (fun n p => if h.set0.place = some n then { p with set := some i, tile := t } else p) s2.places }

end Sys2Proof.Machine
end

