-- ==== Sys2Proof/Machine/Demand.lean ====
section
/-! DEFINITION. First touches of demand pages (R321, R375), the walks of the die translation units (R320, R321), and the
records about contexts that go to a parent (R380). -/

namespace Sys2Proof.Machine

/-! ### Frames of demand ranges -/

/-- The pages of an owner whose frame may be reclaimed (R321 step 2): not pinned, and named by no access in flight. -/
def reclaimable (s : State) (owner : Nat) : List Nat :=
  let c := getCtx s owner
  (c.frames.filter fun f => !c.pinned.contains f.1 && s.reqs.all fun r =>
    match r.loc with | .mem pa => pa / 65536 != f.2 / 65536 | _ => true).map Prod.fst

/-- The bytes of a page written to another. -/
def copyPage (s : State) (src dst : Nat) : State :=
  { s with mem := memUnion (Memory.clear s.mem dst 65536) (memPart s.mem src 65536 dst)
           memBad := listRest s.memBad (dst / 64) 1024 ++ listPart s.memBad (src / 64) 1024 (dst / 64) }

/-- The physical address of a virtual address of a context, with a frame given to an untouched demand page (R321 steps 1 and
2), through as many levels of backing as `fuel`; none where the range is not mapped, lacks a permission, or the pool is
exhausted, as it is where no frame can go to its backing range. A reclaimed frame's contents go to the backing range of its mapping. -/
def touch : Nat → State → Nat → Nat → Bool → Bool → Option (Nat × State)
  | 0, _, _, _, _, _ => none
  | fuel + 1, s, ctx, va, needR, needW =>
    match mappingOf s ctx va with
    | none => none
    | some m =>
      if (needR && !m.r) || (needW && !m.w) then none
      else
        match physOf s ctx m va with
        | some pa => some (pa, s)
        | none =>
          let k := demandKey ctx m va
          if poolHasFrame s k.1 then
            let s1 := giveFrame s k.1 k.2
            (physOf s1 ctx m va).map fun pa => (pa, s1)
          else
            let l := reclaimable s k.1
            let page := l.getD ((freeValue s).1.toNat % Nat.max 1 l.length) 0
            match l, mappingOf s k.1 (page * 65536) with
            | _ :: _, some b =>
              let old := Tab.get 0 (getCtx s k.1).frames page
              let s1 := (freeValue s).2
              match touch fuel s1 (getCtx s k.1).parent (b.src + (page * 65536 - b.va)) true true with
              | some (pa, s2) =>
                let s3 := giveFrame (modCtx (copyPage s2 old (pa / 65536 * 65536)) k.1 fun c => { c with frames := Tab.erase c.frames page }) k.1 k.2
                (physOf s3 ctx m va).map fun pa => (pa, s3)
              | none => none
            | _, _ => none

/-- A page of an owner gives up its frame: its contents go to the backing range of its mapping (R321 step 2). -/
def reclaimPage (s : State) (owner page : Nat) : State :=
  let old := Tab.get 0 (getCtx s owner).frames page
  let s1 := match mappingOf s owner (page * 65536) with
    | some b =>
      match touch 9 s (getCtx s owner).parent (b.src + (page * 65536 - b.va)) true true with
      | some (pa, s2) => copyPage s2 old (pa / 65536 * 65536)
      | none => s
    | none => s
  modCtx s1 owner fun c => { c with frames := Tab.erase c.frames page, pinned := c.pinned.erase page }

/-- Whether an access of a context to an address finds its demand pool exhausted. -/
def exhausted (s : State) (ctx va : Nat) : Bool :=
  match mappingOf s ctx va with
  | some m => (physOf s ctx m va).isNone && (touch 9 s ctx va false false).isNone
  | none => false

/-! ### Records about contexts (R380) -/

/-- The set of a context that takes records about its children: the one at its HTILE, if the cause is delegated. -/
def parentSet (s : State) (par cause : Nat) : Option (Nat × Nat) :=
  match whereSet s (getCtx s par).htile par with
  | some (u, j) => if (getSet s u j).trap.vecEn && bit (getCtx s par).dmask.toNat cause then some (u, j) else none
  | none => none

/-- A record about a context that goes to its parent (R380): presented there, or the parent is itself stopped with it and
a child trap goes further up. -/
def raiseParent (s : State) (ctx : Nat) (r : TrapRec) : State :=
  if (getCtx s ctx).depth = 0 then reportRoot s r.det0
  else
    let par := (getCtx s ctx).parent
    if (getCtx s par).depth = 0 then reportRoot s r.det0
    else
      match parentSet s par r.cause with
      | some (u, j) => raiseTrap s u j r
      | none => reflect s (getCtx s par).htile 0 r 9 par

/-- Whether a record about a context finds no handler below the root. -/
def reachesRoot (s : State) : Nat → Nat → Nat → Bool
  | 0, _, _ => true
  | fuel + 1, ctx, cause =>
    let par := (getCtx s ctx).parent
    if (getCtx s ctx).depth = 0 || (getCtx s par).depth = 0 then true
    else if (parentSet s par cause).isSome then false
    else reachesRoot s fuel par 0x22

/-- The record of a frame exhaustion (R321, R380); what TRDET0 and TRDET1 hold is open (notes/assumptions/30.md). -/
def exhaustionRec (s : State) (va : Nat) : TrapRec × State :=
  let a := freeValue s
  let b := freeValue a.2
  (ctxRec 0x24 va a.1 b.1, b.2)

/-- Whether the root can give an owner a frame of its own (R380). -/
def rootHasFrame (s : State) : Bool := (getCtx s 0).frmu < (getCtx s 0).frm

/-- What a frame exhaustion comes to (R321 step 3, R380): a frame given by Summit, a record at the owner's parent or above it, which may
resolve it, or the end of the launch, since the root cannot resolve it. -/
inductive Relief where
  | given (s : State)
  | told (s : State)
  | ended (s : State)

/-- Frame exhaustion at an address of an owner's pool (R321 step 3, R380). -/
def meetExhaustion (s : State) (va owner : Nat) : Relief :=
  let (r, s1) := exhaustionRec s va
  if reachesRoot s 9 owner 0x24 then
    if rootHasFrame s then .given (modCtx (modCtx s 0 fun c => { c with frmu := c.frmu + 1 }) owner fun c => { c with frm := c.frm + 1 })
    else .ended (raiseParent s1 owner r)
  else .told (raiseParent s1 owner r)

end Sys2Proof.Machine
end

