-- ==== Sys2Proof/Machine/Spaces.lean ====
section
/-! DEFINITION. The address spaces of contexts (R370, R374 to R377, R383): composition of ranges, save ranges taken out of a space
and returned to it, and shootdowns. -/

namespace Sys2Proof.Machine

/-! ### Ranges -/

/-- A part of a mapping. -/
def mapPart (m : Mapping) (off size : Nat) : Mapping :=
  { m with va := m.va + off, size := size, pa := m.pa + off, src := m.src + off, pva := m.pva + off }

/-- The parts of a context's mappings that hold a range, in order; none where a byte of it is not mapped. -/
def rangeParts (s : State) (ctx : Nat) : Nat → Nat → Nat → Option (List Mapping)
  | 0, _, n => if n = 0 then some [] else none
  | fuel + 1, va, n =>
    if n = 0 then some []
    else
      match mappingOf s ctx va with
      | none => none
      | some m =>
        let off := va - m.va
        let k := Nat.min n (m.size - off)
        (rangeParts s ctx fuel (va + k) (n - k)).map fun l => mapPart m off k :: l

/-- The parts of a whole range of a context. -/
def partsOf (s : State) (ctx va n : Nat) : Option (List Mapping) := rangeParts s ctx ((getCtx s ctx).maps.length + 1) va n

/-- Whether the physical addresses of some parts follow each other. -/
def contiguous : List Mapping → Bool
  | a :: b :: t => a.pa + a.size == b.pa && contiguous (b :: t)
  | _ => true

/-- The slot in whose column a physical range lies. -/
def rangeColumn (pa n : Nat) : Option Nat :=
  match placeOf pa, placeOf (pa + n - 1) with
  | .column a _, .column b _ => if a = b then some a else none
  | _, _ => none

/-- The die in whose columns a physical range lies. -/
def rangeDie (pa n : Nat) : Option Nat :=
  match placeOf pa, placeOf (pa + n - 1) with
  | .column a _, .column b _ => if a / 16 = b / 16 then some (a / 16) else none
  | _, _ => none

/-! ### MAP (R374, R375) -/

/-- What a MAP or UNMAP block asks for. -/
structure MapAsk where
  pva  : Nat
  cva  : Nat
  size : Nat
  r    : Bool
  w    : Bool
  dmd  : Bool
  vers : Bool
  pin  : Bool
deriving DecidableEq, Repr

/-- The request of a block. -/
def mapAsk (b : List (BitVec 64)) : MapAsk :=
  let f := (b.getD 3 0).toNat
  { pva := bits (b.getD 0 0).toNat 55 0, cva := bits (b.getD 1 0).toNat 55 0, size := bits (b.getD 2 0).toNat 55 0
    r := bit f 4, w := bit f 5, dmd := bit f 56, vers := bit f 57, pin := bit f 7 }

/-- Whether the reserved bits of a block are 0. -/
def mapBlockOk (b : List (BitVec 64)) : Bool :=
  (List.range 3).all (fun i => (b.getD i 0).toNat / 2 ^ 56 == 0) && (b.getD 3 0).toNat &&& (2 ^ 64 - 1 - (2 ^ 4 + 2 ^ 5 + 2 ^ 7 + 2 ^ 56 + 2 ^ 57)) == 0

/-- A part of the issuer's range as the child holds it: permissions, attributes, and for a demand page the owner's address. -/
def composedPart (issuer : Nat) (q : MapAsk) (m : Mapping) : Mapping :=
  { m with va := q.cva + (m.va - q.pva), r := q.r && m.r, w := q.w && m.w, vers := q.vers, pin := q.pin
           src := if m.dmd && m.owner == issuer then m.va else m.src, pva := m.va, base := q.cva, span := q.size, held := false }

/-- The mappings that a MAP gives a child; none where R374 refuses it. -/
def mapResult (s : State) (issuer child : Nat) (q : MapAsk) : Option (List Mapping) :=
  let clear := (getCtx s child).maps.all fun m => !(q.cva < m.va + m.size && m.va < q.cva + q.size)
  if q.pva % 65536 != 0 || q.cva % 65536 != 0 || q.size % 65536 != 0 || q.size = 0 || !(q.r || q.w) || !clear
      || apertureBase < q.cva + q.size || (q.dmd && q.vers) then none
  else
    let n := if q.vers then 5 * q.size else q.size
    match partsOf s issuer q.pva n with
    | none => none
    | some ps =>
      let allowed := ps.all fun m => if q.dmd then m.r && m.w else (!q.r || m.r) && (!q.w || m.w)
      if !allowed then none
      else if q.dmd then
        some [⟨q.cva, q.size, 0, q.r, q.w, false, q.pin, true, child, q.pva, q.pva, q.cva, q.size, false⟩]
      else if q.vers then
        let pa := (ps.headD (mapPart ⟨0, 0, 0, false, false, false, false, true, 0, 0, 0, 0, 0, false⟩ 0 0)).pa
        if ps.all (fun m => !m.dmd) && contiguous ps && (rangeColumn pa n).isSome then
          some [⟨q.cva, q.size, pa, q.r, q.w, true, q.pin, false, 0, 0, q.pva, q.cva, q.size, false⟩]
        else none
      else some (ps.map (composedPart issuer q))

/-- The words of newly mapped versioned ranges as R262 has them at mapping, whatever an STV that came after the last UNMAP left. -/
def newWords (s : State) (ms : List Mapping) : State :=
  { s with vwords := s.vwords.filter fun v => ms.all fun m => !(m.vers && m.pa ≤ v.1 && v.1 < m.pa + m.size) }

/-- The demand pages of a range, by owner and number. -/
def demandPages (ctx : Nat) (m : Mapping) : List (Nat × Nat) :=
  if m.dmd then (List.range (m.size / 65536)).map fun i => demandKey ctx m (m.va + 65536 * i) else []

/-- Pages pinned or unpinned. -/
def pinPages (s : State) (on : Bool) (ps : List (Nat × Nat)) : State :=
  ps.foldl (fun acc p => modCtx acc p.1 fun c =>
    { c with pinned := if on then (if c.pinned.contains p.2 then c.pinned else c.pinned ++ [p.2]) else c.pinned.erase p.2 }) s

/-! ### Save ranges (R370) -/

/-- The parts of a mapping apart from a physical range, which a save range holds back. -/
def heldBack (lo n : Nat) (m : Mapping) : List Mapping :=
  let len := if m.vers then 5 * m.size else m.size
  if m.dmd || !rangesMeet m.pa len lo n then [m]
  else if m.vers then [{ m with held := true }]
  else
    let a := Nat.max m.pa lo - m.pa
    let b := Nat.min (m.pa + m.size) (lo + n) - m.pa
    ([mapPart m 0 a, { mapPart m a (b - a) with held := true }, mapPart m b (m.size - b)]).filter fun x => x.size != 0

/-- The translations of a context's range removed from every translation cache (R376). -/
def dropTlb (s : State) (ctx va n : Nat) : State :=
  { s with tlb := s.tlb.filter fun p => !(pageKey ctx va ≤ p.2 && p.2 < pageKey ctx (va + n)) }

/-- A save range removed from the address space of the issuer and of its descendants. -/
def holdBack (s : State) (issuer lo n : Nat) : State :=
  (subtree s issuer).foldl (fun acc x =>
    let hit := (getCtx acc x).maps.filter fun m => !m.dmd && rangesMeet m.pa m.size lo n
    modCtx (hit.foldl (fun a m => dropTlb a x m.va m.size) acc) x fun c => { c with maps := c.maps.flatMap (heldBack lo n) }) s

/-- A save range returned to the issuer: other contexts do not get it back. -/
def giveBack (s : State) (issuer lo n : Nat) : State :=
  let mine (m : Mapping) : Bool := m.held && lo ≤ m.pa && m.pa < lo + n
  (subtree s issuer).foldl (fun acc x => modCtx acc x fun c =>
    { c with maps := if x = issuer then c.maps.map fun m => if mine m then { m with held := false } else m
                     else c.maps.filter fun m => !mine m }) s

/-! ### Shootdowns (R376, R383) -/

/-- What a mapping's removal does besides: its demand frames return, versioned words lose their versions, translations go, and a
save range whose memory it held back faults. -/
def unmapOne (s : State) (ctx : Nat) (m : Mapping) : State :=
  let gone (p : Nat) : Bool := m.va / 65536 ≤ p && p < (m.va + m.size) / 65536
  let s1 := if m.dmd && m.owner == ctx then
      modCtx s ctx fun c => { c with frames := c.frames.filter (fun f => !gone f.1), pinned := c.pinned.filter fun p => !gone p }
    else s
  let s2 := if m.vers then { s1 with vwords := s1.vwords.filter fun v => !(m.pa ≤ v.1 && v.1 < m.pa + m.size) } else s1
  let s3 := if m.held then
      (subtree s2 ctx).foldl (fun acc x => modCtx acc x fun c =>
        { c with saveBad := c.saveBad ++ (c.saves.filter fun v => rangesMeet v.2.1 v.2.2 m.pa m.size && !c.saveBad.contains v.1).map Prod.fst }) s2
    else s2
  modCtx (dropTlb s3 ctx m.va m.size) ctx fun c => { c with maps := c.maps.filter fun x => x.va != m.va }

/-- The physical ranges that a mapping reaches. -/
def physRanges (s : State) (ctx : Nat) (m : Mapping) : List (Nat × Nat) :=
  if m.dmd then (demandPages ctx m).filterMap fun p => (Tab.find? (getCtx s p.1).frames p.2).map fun pa => (pa, 65536)
  else [(m.pa, if m.vers then 5 * m.size else m.size)]

/-- A range of a context removed, and every range of a descendant composed from it, with the physical ranges concerned. -/
def unmapRange : Nat → State → Nat → Nat → Nat → State × List (Nat × Nat)
  | 0, s, _, _, _ => (s, [])
  | fuel + 1, s, ctx, va, n =>
    let ms := (getCtx s ctx).maps.filter fun m => rangesMeet m.va m.size va n
    ms.foldl (fun acc m =>
      let kids := (acc.1.ctxs.filter fun p => p.2.depth != 0 && p.2.parent == ctx).map Prod.fst
      let below := kids.foldl (fun a k =>
        ((getCtx a.1 k).maps.filter fun x => rangesMeet x.pva x.size m.va m.size).foldl (fun b x =>
          let r := unmapRange fuel b.1 k x.va x.size
          (r.1, b.2 ++ r.2)) a) acc
      (unmapOne below.1 ctx m, below.2 ++ physRanges below.1 ctx m)) (s, [])

/-- Whether an UNMAP's range covers whole MAP ranges of a context, one at least (R374). -/
def unmapOk (s : State) (ctx va n : Nat) : Bool :=
  let ms := (getCtx s ctx).maps.filter fun m => rangesMeet m.va m.size va n
  va % 65536 == 0 && n % 65536 == 0 && n != 0 && !ms.isEmpty && ms.all fun m => va ≤ m.base && m.base + m.span ≤ va + n

/-- The accesses under way to physical ranges. -/
def accessesIn (s : State) (rs : List (Nat × Nat)) : List Nat :=
  (s.reqs.filter fun r => !isApplied r && match r.loc with | .mem pa => rs.any fun p => rangesMeet pa r.size p.1 p.2 | .sp _ _ => false).map
    fun r => r.id

end Sys2Proof.Machine
end

