-- ==== Sys2Proof/Machine/Gears.lean ====
section
/-! DEFINITION. Gear changes, droop and thermal samples (R126 to R130, R164, R278, R399). -/

namespace Sys2Proof.Machine

/-! ### Transitions (R127) -/

/-- The ticks without a step edge of a transition to a gear. -/
def shiftTicks (toL : Bool) : Nat := if toL then 16 else 48

/-- A transition of a tile's effective gear that begins at this tick. -/
def beginShift (t : Tile) (dcc : Nat) (toL : Bool) : Tile :=
  { putTileSet t t.active (pauseRegions (activeSet t) (shiftTicks toL)) with
    clk := tilePause t dcc (shiftTicks toL) toL, effL := toL, trans := some (clockTsc t.clk dcc), parked := false }

/-- Whether a tile's active set may change gear now but for a swap (R164): its ME commands with targets below s0 have issued,
and its regions are at an instant boundary. -/
def gearReady (t : Tile) (s0 : Nat) : Bool := meTargetsMet t (activeSet t) s0 && setBoundary (activeSet t)

/-- The threads of a set whose GEAR has completed. -/
def endGearing (c : CtxSet) : CtxSet :=
  { c with threads := Tab.mapAll (fun _ th => { th with fl := { th.fl with gearing := false } }) c.threads }

/-- GEAR_TAKE_EFFECT (R127, R164, R128): REQ takes the new gear; under the override, or where the gear is in force, there is no
transition. -/
def execGearTakeEffect (tile : Nat) (s : State) : Host.Outcome State Fault Refusal :=
  let t := getTile s tile
  let c := activeSet t
  match c.gearPend with
  | none => .next s
  | some (_, s0, g) =>
    if edgeNow s tile && !t.removed && !swapDue t && gearReady t s0 then
      let c1 := { c with reqL := g, gearPend := none }
      if t.therm || g == t.effL then .next (setTile s tile (putTileSet t t.active (endGearing c1)))
      else .next (setTile s tile (beginShift (putTileSet t t.active c1) s.dcc g))
    else .next s

/-- GEAR_TRANSITION_END (R127, R164): at the first step edge in the new gear the GEAR completes. -/
def execGearTransitionEnd (tile : Nat) (s : State) : Host.Outcome State Fault Refusal :=
  let t := getTile s tile
  if (match t.trans with | some x => x < tscOf s tile | none => false) && edgeNow s tile then
    let c := activeSet t
    .next (setTile s tile { putTileSet t t.active (if c.gearPend.isNone then endGearing c else c) with trans := none })
  else .next s

/-! ### Droop (R129) -/

/-- A tile after a trip outside a stretch: its next DRPSTR edges are removed, behind a transition that began at the same edge, and
DRPHALF steps of half width follow them; DRPSTR 0 acts as 1 (R125, R129, R138). -/
def beginStretch (t : Tile) (dcc : Nat) : Tile :=
  let tsc := clockTsc t.clk dcc
  let n := Nat.max 1 t.drpStr.toNat
  { t with
    clk := clockPause t.clk dcc (edgesAfter (Nat.max dcc t.clk.since) n t.clk.gearL) t.clk.gearL
    stretch := some (tsc, n)
    half := if droopHalf t tsc then t.half.map fun h => (h.1, tsc + t.drpHalf.toNat) else some (tsc + 1, tsc + t.drpHalf.toNat) }

/-- Whether a tick is one at which a stretch removes an edge of a tile. -/
def removedEdge (t : Tile) (dcc : Nat) : Bool :=
  (match t.stretch with
    | some (trip, n) => clockTsc t.clk dcc == trip && dcc ≤ t.clk.since && t.clk.since < edgesAfter dcc n t.clk.gearL
    | none => false)
    && (!t.clk.gearL || dcc % 4 == 0) && dcc != t.clk.mark

/-- DROOP_TRIP (R129): the rail's sample at an edge, or at one that a stretch removes, is below the threshold. -/
def execDroopTrip (tile : Nat) (s : State) : Host.Outcome State Fault Refusal :=
  let t := getTile s tile
  let counted := { t with drpCnt := if t.drpCnt = 0xFFFFFFFF then t.drpCnt else t.drpCnt + 1, tripAt := s.dcc }
  if t.drpTh = 0 || t.removed || t.tripAt = s.dcc then .next s
  else if removedEdge t s.dcc then .next (setTile s tile counted)
  else if edgeNow s tile then .next (setTile s tile (beginStretch counted s.dcc))
  else .next s

/-- DROOP_STRETCH_END (R129): the removed edges have passed. -/
def execDroopStretchEnd (tile : Nat) (s : State) : Host.Outcome State Fault Refusal :=
  let t := getTile s tile
  match t.stretch with
  | some (trip, _) => if edgeNow s tile && trip < clockTsc t.clk s.dcc then .next (setTile s tile { t with stretch := none }) else .next s
  | none => .next s

/-- DROOP_HALF_WIDTH_END (R129): the counted half-width steps have passed. -/
def execDroopHalfWidthEnd (tile : Nat) (s : State) : Host.Outcome State Fault Refusal :=
  let t := getTile s tile
  match t.half with
  | some (_, b) => if b < clockTsc t.clk s.dcc then .next (setTile s tile { t with half := none }) else .next s
  | none => .next s

/-! ### Temperature (R128, R278, R280, R399) -/

/-- A column after a sample: CRIT from above 105 °C until a reading below 100 °C (R128). -/
def sampledColumn (c : Column) (temp : BitVec 16) (dcc : Nat) : Column :=
  let v := sextN temp.toNat 16
  { c with temp := temp, sampled := dcc, crit := if v > 420 then true else if v < 400 then false else c.crit }

/-- The first reading below 100 °C ends the override on the column's tiles; the return to the gear requested is still to come
(R128). -/
def coolTiles (s : State) (slot : Nat) : State :=
  if (Tab.get Column.reset s.columns slot).crit then s
  else
    { s with tiles := Tab.mapAll (fun n t => if n < 256 && tileSlot n = slot && t.therm then { t with therm := false, cool := true } else t) s.tiles }

/-- THERMAL_SAMPLE (R278, R399): a column's sensor takes a sample; one at or above 115 °C shuts the package down, and the
management function is told the column. A failed sensor takes none. -/
def execThermalSample (slot : Nat) (temp : BitVec 16) (s : State) : Host.Outcome State Fault Refusal :=
  let c := Tab.get Column.reset s.columns slot
  if s.dcc % 4096 != 0 || c.sampled = s.dcc || c.fail || c.removed || 64 ≤ slot then .next s
  else
    let s1 := coolTiles (modColumn s slot fun c => sampledColumn c temp s.dcc) slot
    if sextN temp.toNat 16 ≥ 460 then
      .next { s1 with boot := .shutdown, box := { s1.box with res := Tab.set s1.box.res 3 (BitVec.ofNat 64 slot), told := s1.box.told + 1 } }
    else .next s1

/-- SENSOR_FAILURE (R280): FAIL, TEMP 0x7FFF, and the column counts as above TCRIT. -/
def execSensorFailure (slot : Nat) (s : State) : Host.Outcome State Fault Refusal :=
  .next (modColumn s slot fun c => { c with fail := true, temp := 0x7FFF, crit := true })

end Sys2Proof.Machine
end

