-- ==== Sys2Proof/Machine/Launch.lean ====
section
/-! DEFINITION. Launches (R12, R303 to R316, R390): the records in the queues, their selection and expansion, the placement
of placements on tiles, and their retirement. -/

namespace Sys2Proof.Machine

/-! ### What the lead reads and writes in a context's memory -/

/-- The bytes at an address of a context, as a die scheduler reads them: demand pages are touched; none where an access
faults (R312, R322). -/
def sysBytes : Nat → State → Nat → Nat → Option (List Byte × State)
  | 0, s, _, _ => some ([], s)
  | n + 1, s, ctx, va =>
    match touch 9 s ctx va true false with
    | some (pa, s1) =>
      if lineBad s1 (.mem pa) then none
      else (sysBytes n s1 ctx (va + 1)).map fun r => (Memory.byte s1.mem pa :: r.1, r.2)
    | none => none

/-- The 64-bit words at an address of a context, as a die scheduler reads them. -/
def sysWords : Nat → State → Nat → Nat → Option (List (BitVec 64) × State)
  | 0, s, _, _ => some ([], s)
  | n + 1, s, ctx, va =>
    match touch 9 s ctx va true false with
    | some (pa, s1) =>
      if lineBad s1 (.mem pa) then none
      else (sysWords n s1 ctx (va + 8)).map fun r => (BitVec.ofNat 64 (Memory.read s1.mem pa 8) :: r.1, r.2)
    | none => none

/-- `n` bytes of a number written to an address of a context by a die scheduler; nothing where the access faults. -/
def sysWrite (s : State) (ctx va n v : Nat) : State :=
  match touch 9 s ctx va false true with
  | some (pa, s1) =>
    { s1 with mem := Memory.write s1.mem pa n v
              sync := (locKeys (.mem pa) n).foldl Tab.erase s1.sync }
  | none => s

/-! ### Records (R303, R305, R308) -/

/-- A field of a record's word. -/
def recField (ws : List (BitVec 64)) (i hi lo : Nat) : Nat := bits (ws.getD i 0).toNat hi lo

/-- KDESC. -/
def recKdesc (ws : List (BitVec 64)) : Nat := recField ws 0 55 0
/-- NLEV: the levels less one. -/
def recNlev (ws : List (BitVec 64)) : Nat := recField ws 1 58 56
/-- LTAB. -/
def recLtab (ws : List (BitVec 64)) : Nat := recField ws 1 55 0
/-- ICV. -/
def recIcv (ws : List (BitVec 64)) : Bool := bit (ws.getD 2 0).toNat 59
/-- PRIO. -/
def recPrio (ws : List (BitVec 64)) : Nat := recField ws 2 58 56
/-- ICNT. -/
def recIcnt (ws : List (BitVec 64)) : Nat := recField ws 2 55 0
/-- MAXP. -/
def recMaxp (ws : List (BitVec 64)) : Nat := recField ws 3 63 32
/-- LID. -/
def recLid (ws : List (BitVec 64)) : Nat := recField ws 3 31 0
/-- ARGS. -/
def recArgs (ws : List (BitVec 64)) : Nat := recField ws 4 55 0
/-- V of dependence i. -/
def depOn (ws : List (BitVec 64)) (i : Nat) : Bool := bit (ws.getD (5 + i) 0).toNat 16
/-- CNT of dependence i. -/
def depCnt (ws : List (BitVec 64)) (i : Nat) : Nat := recField ws (5 + i) 11 0
/-- VAL of dependence i. -/
def depVal (ws : List (BitVec 64)) (i : Nat) : Nat := recField ws (5 + i) 63 32
/-- CTX. -/
def recCtx (ws : List (BitVec 64)) : Nat := recField ws 7 41 32
/-- EVR. -/
def recEvr (ws : List (BitVec 64)) : Nat := recField ws 7 31 24
/-- SV. -/
def recSv (ws : List (BitVec 64)) : Bool := bit (ws.getD 7 0).toNat 16
/-- SCNT. -/
def recScnt (ws : List (BitVec 64)) : Nat := recField ws 7 11 0

/-- Whether a context holds a counter. -/
def ownsCounter (s : State) (ctx n : Nat) : Bool := Tab.get 0 s.counterOwner n == ctx

/-- Whether a context owns an event ring: its table names one of a proper size and alignment (R390). -/
def ownsRing (s : State) (ctx n : Nat) : Bool :=
  n < (getCtx s ctx).nring &&
    (match sysWords 1 s ctx ((getCtx s ctx).ertab.toNat + 32 * n) with
     | some ([w], _) => 3 ≤ bits w.toNat 63 59 && bits w.toNat 63 59 ≤ 16 && bits w.toNat 55 0 % (32 * 2 ^ bits w.toNat 63 59) == 0
     | _ => false)

/-- Whether the reserved fields of a record are 0 (R303). -/
def recReserved (ws : List (BitVec 64)) : Bool :=
  recField ws 0 63 56 == 0 && recField ws 1 63 59 == 0 && recField ws 2 63 60 == 0 && recField ws 4 63 56 == 0
    && recField ws 5 31 17 == 0 && recField ws 5 15 12 == 0 && recField ws 6 31 17 == 0 && recField ws 6 15 12 == 0
    && recField ws 7 63 42 == 0 && recField ws 7 23 17 == 0 && recField ws 7 15 12 == 0

/-- Whether the entries of a loop table are well formed (R308). -/
def levelsOk (es : List (BitVec 64)) : Bool :=
  es.all fun e => bits e.toNat 63 62 != 3 && bits e.toNat 61 32 == 0 && (bits e.toNat 63 62 != 0 || bits e.toNat 31 0 ≤ 524287)

/-- The entries of a launch's loop table: the record's, or the kernel's default (R303, R311), and the state that has read them. -/
def readLoops (s : State) (ctx : Nat) (ws : List (BitVec 64)) : Option (List (BitVec 64) × State) :=
  if recLtab ws != 0 then sysWords (recNlev ws + 1) s ctx (recLtab ws)
  else
    match sysWords 1 s ctx (recKdesc ws + 0x78) with
    | some ([w], s1) => sysWords (bits w.toNat 58 56 + 1) s1 ctx (bits w.toNat 55 0)
    | _ => none

/-- The entries of a launch's loop table. -/
def loopTable (s : State) (ctx : Nat) (ws : List (BitVec 64)) : Option (List (BitVec 64)) := (readLoops s ctx ws).map Prod.fst

/-- Whether a record of a queue of a tenant is malformed (R305, R308). -/
def malformedRecord (s : State) (tag : Nat) (ws : List (BitVec 64)) : Bool :=
  !recReserved ws || recKdesc ws == 0 || recKdesc ws % 128 != 0 || recLtab ws % 8 != 0 || (recLtab ws == 0 && recNlev ws != 0)
    || (recIcv ws && recIcnt ws % 4 != 0) || (!recIcv ws && recIcnt ws != 0) || recCtx ws != tag
    || (getCtx s tag).pceil < recPrio ws
    || ((List.range 2).any fun i => depOn ws i && !ownsCounter s tag (depCnt ws i)) || (recSv ws && !ownsCounter s tag (recScnt ws))
    || !ownsRing s tag (recEvr ws)
    || (match loopTable s tag ws with | some es => !levelsOk es | none => false)

/-- Whether the dependences in force of a record are met (R304). -/
def depsMet (s : State) (ws : List (BitVec 64)) : Bool :=
  (List.range 2).all fun i => !depOn ws i || (Tab.get 0 s.counters (depCnt ws i) - BitVec.ofNat 32 (depVal ws i)).toNat < 2 ^ 31

/-! ### Selection (R306) -/

/-- The lead of a context's launches (R12, R330): the lowest die in service that holds a tile of it, else die 0. -/
def leadDie (s : State) (ctx : Nat) : Nat :=
  ((List.range 4).find? fun d => !s.dieOut.contains d && (getCtx s ctx).shares.any fun p => tileDie p.1 == d).getD 0

/-- A record of a queue by its position; zeros where it cannot be read. -/
def recordAt (s : State) (q n : Nat) : List (BitVec 64) :=
  let k := queueOf s q
  match sysWords 8 s (queueTag s q) (k.base.toNat + 64 * (n % 2 ^ k.lsz)) with
  | some (ws, _) => ws
  | none => List.replicate 8 0

/-- The positions of a queue's unselected records, in order. -/
def unselected (k : Queue) : List Nat :=
  ((List.range (k.tail - k.head).toNat).map fun i => (k.head.toNat + i) % 2 ^ 32).filter fun n => !k.taken.contains n

/-- The unselected records of every queue that a lead serves: queue, position and words. -/
def allUnselected (s : State) : List (Nat × Nat × List (BitVec 64)) :=
  s.queues.flatMap fun p =>
    if p.2.en && 3 ≤ p.2.lsz then (unselected p.2).map fun n => (p.1, n, recordAt s p.1 n) else []

/-- The effective priority of a launch (R306): its own, or that of an unselected launch that waits on its signal. -/
def effPrio (s : State) (all : List (Nat × Nat × List (BitVec 64))) : Nat → List (BitVec 64) → Nat
  | 0, ws => recPrio ws
  | fuel + 1, ws =>
    if !recSv ws then recPrio ws
    else
      (all.filter fun r => (List.range 2).any fun i =>
          depOn r.2.2 i && depCnt r.2.2 i == recScnt ws && !depsMet s [0, 0, 0, 0, 0, r.2.2.getD (5 + i) 0]).foldl
        (fun m r => Nat.max m (effPrio s all fuel r.2.2)) (recPrio ws)

/-- The effective priority of a record among those that stand. -/
def prioNow (s : State) (ws : List (BitVec 64)) : Nat :=
  let all := allUnselected s
  effPrio s all (all.length + 1) ws

/-- Whether a record may be selected (R305, R306): its context runs, and it is eligible, or it is malformed and first. -/
def eligible (s : State) (q n : Nat) (ws : List (BitVec 64)) : Bool :=
  let before := (unselected (queueOf s q)).takeWhile fun m => m != n
  ctxRuns s (queueTag s q) &&
    (if malformedRecord s (queueTag s q) ws then before.isEmpty
     else depsMet s ws && before.all fun m => prioNow s (recordAt s q m) != prioNow s ws)

/-- The record that a lead selects next (R306): the greatest effective priority, then queues in rotation after the one
served last, then queue order. -/
def nextRecord (s : State) (lead : Nat) : Option (Nat × Nat × List (BitVec 64)) :=
  let all := (allUnselected s).filter fun r => leadDie s (queueTag s r.1) == lead && eligible s r.1 r.2.1 r.2.2
  let last := Tab.get 1023 s.lastQueue lead
  let rank (r : Nat × Nat × List (BitVec 64)) : Nat := (7 - prioNow s r.2.2) * 1024 + (r.1 + 1023 - last) % 1024
  all.foldl (fun best r => match best with
    | some b => if rank r < rank b then some r else best
    | none => some r) none

/-- A queue with a record taken: HEAD passes the records taken at it (R388). -/
def takeRecord (k : Queue) (n : Nat) : Queue :=
  let t := k.taken ++ [n]
  let run := (List.range t.length).takeWhile fun i => t.contains ((k.head.toNat + i) % 2 ^ 32)
  let gone := run.map fun i => (k.head.toNat + i) % 2 ^ 32
  { k with taken := t.filter (fun m => !gone.contains m), head := k.head + BitVec.ofNat 32 run.length }

/-- A launch of a record as selected. -/
def newLaunch (id ctx queue : Nat) (ws : List (BitVec 64)) (bad : Bool) : Launch :=
  { id := id, ctx := ctx, queue := queue, words := ws, prio := recPrio ws, expanded := bad, count := 0, nc := 1, total := 0, waiting := [], live := 0,
    disc := 0, done := 0, status := if bad then 4 else 0, cause := 0, tile := 0, levels := [], dies := [], signalled := false, recorded := false, retiredAt := 0, starved := false }

/-- Every selected launch keeps the priority to which the unselected records raise it (R306). -/
def keepPrios (s : State) : State :=
  { s with launches := Tab.mapAll (fun _ l => { l with prio := Nat.max l.prio (prioNow s l.words) }) s.launches }

/-- LAUNCH_SELECTION (R306): the lead of a queue's tenant takes the record that comes next, if this queue holds it. -/
def execLaunchSelection (queue : Nat) (s : State) : Host.Outcome State Fault Refusal :=
  let lead := leadDie s (queueTag s queue)
  match nextRecord s lead with
  | some (q, n, ws) =>
    if q = queue && s.boot == .running && !s.dieOut.contains lead then
      let bad := malformedRecord s (queueTag s q) ws
      let (id, s1) := newSerial (keepPrios s)
      .next { putQueue s1 q (takeRecord (queueOf s1 q) n) with
        launches := Tab.set s1.launches id (newLaunch id (queueTag s q) q ws bad)
        lastQueue := Tab.set s1.lastQueue lead q }
    else .next s
  | none => .next s

/-! ### Launches -/

/-- A launch. -/
def launchOf (s : State) (id : Nat) : Option Launch := Tab.find? s.launches id

/-- The state with a launch changed. -/
def modLaunch (s : State) (id : Nat) (f : Launch → Launch) : State :=
  { s with launches := Tab.mapAll (fun k l => if k = id then f l else l) s.launches }

/-- The product of the counts of the levels of a kind (0 T, 1 C, 2 D). -/
def levelCount (es : List (BitVec 64)) (kind : Nat) : Nat :=
  (es.filter fun e => bits e.toNat 63 62 == kind).foldl (fun n e => n * bits e.toNat 31 0) 1

/-- The dies in service that hold tiles of a context, ascending (R310). -/
def ctxDies (s : State) (ctx : Nat) : List Nat :=
  (List.range 4).filter fun d => !s.dieOut.contains d && (getCtx s ctx).shares.any fun p => tileDie p.1 == d

/-! ### Failures of launches -/

/-- A launch that fails: its first failure gives its status, and its placements that have not started are discarded (R316). -/
def failLaunch (s : State) (launch status cause tile : Nat) : State :=
  let idle := s.places.filter fun p => p.2.launch = launch && !p.2.going
  modLaunch { s with places := s.places.filter fun p => !(p.2.launch = launch && !p.2.going) } launch fun l =>
    { l with status := if l.status = 0 then status else l.status, cause := if l.status = 0 then cause else l.cause
             tile := if l.status = 0 then tile else l.tile, disc := l.disc + l.waiting.length + idle.length, waiting := []
             live := l.live - idle.length }

/-! ### Expansion (R309, R310) -/

/-- The first of some addresses at which a die scheduler's reads, made in order, find a demand pool exhausted (R321); none where
they end before that. -/
def starvedAt : List Nat → State → Nat → Option Nat
  | [], _, _ => none
  | va :: rest, s, ctx =>
    match touch 9 s ctx va true false with
    | some (pa, s1) => if lineBad s1 (.mem pa) then none else starvedAt rest s1 ctx
    | none => if (match mappingOf s ctx va with | some m => m.r | none => false) && exhausted s ctx va then some va else none

/-- The addresses of `n` words. -/
def wordAddrs (va n : Nat) : List Nat := (List.range n).map fun i => va + 8 * i

/-- The addresses that the expansion of a launch reads: its loop table and its indirect count. -/
def expandAddrs (s : State) (l : Launch) : List Nat :=
  (if recLtab l.words != 0 then wordAddrs (recLtab l.words) (recNlev l.words + 1)
   else
    let at_ := recKdesc l.words + 0x78
    match sysWords 1 s l.ctx at_ with
    | some ([w], _) => at_ :: wordAddrs (bits w.toNat 55 0) (bits w.toNat 58 56 + 1)
    | _ => [at_])
    ++ if recIcv l.words then (List.range 4).map fun i => recIcnt l.words + i else []

/-- Frame exhaustion met by a die scheduler's read for a launch (R321, R322): resolved by a frame of the root's, reported once and
waited for, or the launch ends with FRAMEX. DESIGN CHOICE for these reads (notes/assumptions/124.md). -/
def starveLaunch (s : State) (l : Launch) (va tile : Nat) : State :=
  match mappingOf s l.ctx va with
  | none => s
  | some m =>
    if l.starved then s
    else
      match meetExhaustion s va (demandKey l.ctx m va).1 with
      | .given s1 => s1
      | .told s1 => modLaunch s1 l.id fun x => { x with starved := true }
      | .ended s1 => modLaunch (failLaunch s1 l.id 6 0x24 tile) l.id fun x => { x with expanded := true }

/-- The indirect count of a launch (R309): none where its read faults. -/
def indirectCount (s : State) (l : Launch) : Option Nat :=
  if recIcv l.words then (sysBytes 4 s l.ctx (recIcnt l.words)).map fun r => leNat r.1 else some (2 ^ 64)

/-- A launch expanded over its loop table's entries (R309, R310): the indices at or beyond the placement count are discarded, and the
D indices are handed to the dies that hold tiles of the context then (R12). -/
def expandLaunch (s : State) (l : Launch) (es : List (BitVec 64)) : State :=
  let all := levelCount es 2 * levelCount es 1
  let l1 := { l with expanded := true, nc := levelCount es 1, dies := ctxDies s l.ctx, levels := es.map fun (e : BitVec 64) => (bits e.toNat 63 62, bits e.toNat 31 0) }
  let stop (st : Nat) : Launch := { l1 with status := st, disc := all }
  if (ctxDies s l.ctx).isEmpty then modLaunch s l.id fun _ => stop 8
  else
    match indirectCount s l with
    | none => modLaunch s l.id fun _ => stop 5
    | some ic =>
      let p := Nat.min all (Nat.min (recMaxp l.words) ic)
      modLaunch s l.id fun _ => { l1 with count := p, total := p, waiting := List.range p, disc := all - p }

/-- LAUNCH_EXPANSION (R309, R310): the loop table and the indirect count are read, and the launch is expanded. -/
def execLaunchExpansion (launch : Nat) (s : State) : Host.Outcome State Fault Refusal :=
  match launchOf s launch with
  | none => .next s
  | some l =>
    if l.expanded || !ctxRuns s l.ctx then .next s
    else
      match starvedAt (expandAddrs s l) s l.ctx with
      | some va => .next (starveLaunch s l va 0)
      | none =>
        match readLoops s l.ctx l.words with
        | none => .next (modLaunch s launch fun x => { x with expanded := true, status := 3 })
        | some (es, s1) => .next (expandLaunch s1 l es)

/-! ### The end of placements -/

/-- Whether an agent is a unit of a set. -/
def agentOfSet (t i : Nat) (a : Agent) : Bool :=
  match a with
  | .thread u j _ => u == t && j == i
  | .port u j _ => u == t && j == i
  | .region u j _ => u == t && j == i
  | _ => false

/-- A set ends: its state is that of an empty set, and what it had in flight is discarded (notes/assumptions/29.md). -/
def dropSet (s : State) (t i : Nat) : State :=
  let mine (p : Nat × Nat × Nat) : Bool := p.1 == t && p.2.1 == i
  let s1 := modTile s t fun x =>
    putTileSet { x with chans := tabRest x.chans (i * 1024) 1024, vrun := x.vrun.filter (fun v => v.set != i), swapReady := if x.active = i then x.swapReady else false
                        luts := Tab.mapAll (fun _ l => if l.owner = some i then { l with owner := none } else l) x.luts } i CtxSet.reset
  { s1 with
    reqs := s1.reqs.filter fun r => !agentOfSet t i r.agent
    summit := (s1.summit.filter fun r => !(r.applied && mine (r.tile, r.set, r.thr))).map fun r => if mine (r.tile, r.set, r.thr) then { r with dst := .zero } else r
    walks := (s1.walks.map fun w => { w with who := w.who.filter fun a => !agentOfSet t i a }).filter fun w => !w.who.isEmpty
    releases := (s1.releases.map fun r => { r with parts := r.parts.filter (fun p => !mine p), ups := r.ups.filter (fun u => !mine u.1), away := r.away.filter fun p => !mine p }).filter
      fun r => !r.parts.isEmpty
    fabChans := Tab.mapAll (fun _ f => match f.port with | some p => if mine p then { f with port := none } else f | none => f) s1.fabChans
    known := s1.known.filter fun p => p.1 / 4 != t * 2 + i
    seen := s1.seen.filter fun p => p.1 / 4 != t * 2 + i
    fenced := s1.fenced.filter fun p => p.1 / 4 != t * 2 + i }

/-- Where a placement's set stands: in a tile or out of it. -/
def placeSet (s : State) (id : Nat) (p : Placement) : Option (Nat × Nat) :=
  match p.set with
  | some i => some (p.tile, i)
  | none => (s.saved.find? fun v => (getSet s v.held 0).place == some id).map fun v => (v.held, 0)

/-- A placement's set discarded, with its saved copy. -/
def discardSet (s : State) (id : Nat) (p : Placement) : State :=
  match placeSet s id p with
  | some (t, i) =>
    let s1 := dropSet s t i
    if t < 256 then s1 else { s1 with tiles := Tab.erase s1.tiles t, saved := s1.saved.filter fun v => v.held != t }
  | none => s

/-- A placement ends with a failure of its launch (R314, R330, R382, R383). -/
def endPlacement (s : State) (id status cause tile : Nat) : State :=
  match Tab.find? s.places id with
  | none => s
  | some p =>
    if !p.going then failLaunch s p.launch status cause tile
    else
      let s1 := failLaunch (discardSet s id p) p.launch status cause tile
      modLaunch { s1 with places := Tab.erase s1.places id } p.launch fun l => { l with live := l.live - 1 }

/-! ### Placement (R307, R310) -/

/-- Whether a column reads above THOT, 95 °C, in its latest sample (R278). -/
def columnHot (s : State) (slot : Nat) : Bool :=
  let c := Tab.get Column.reset s.columns slot
  sextN c.temp.toNat 16 > 380

/-- Whether a tile is in service. -/
def tileUp (s : State) (t : Nat) : Bool :=
  !(getTile s t).removed && !(Tab.get Column.reset s.columns (tileSlot t)).removed && !s.dieOut.contains (tileDie t)

/-- Whether a tile is free for a context (R310). -/
def tileFree (s : State) (ctx t : Nat) : Bool := tileUp s t && s.places.all fun p => !(p.2.ctx == ctx && p.2.tile == t)

/-- Whether a tile is hot: its column, or the thermal override on it (R310). -/
def tileHot (s : State) (t : Nat) : Bool := columnHot s (tileSlot t) || (getTile s t).therm

/-- The die to which a launch's expansion handed a placement (R12, R310). -/
def handedTo (l : Launch) (p : Nat) : Option Nat := l.dies[p / l.nc % l.dies.length]?

/-- The placements that wait for a die: launch, index, effective priority; in the order of R307. -/
def waitingOn (s : State) (die : Nat) : List (Launch × Nat) :=
  let cand := (s.launches.map Prod.snd).filter fun l => l.expanded && l.status == 0 && ctxRuns s l.ctx
  let byPrio := (List.range 8).reverse.flatMap fun k => cand.filter fun l => Nat.max l.prio (prioNow s l.words) == k
  byPrio.flatMap fun l => (l.waiting.filter fun p => handedTo l p == some die).map fun p => (l, p)

/-! ### Where a graph that is out goes (R329, R337) -/

/-- The even components of an offset. -/
def evenShifts : List Int := [-6, -4, -2, 0, 2, 4, 6]

/-- The offsets in the order in which they are considered: ascending |Δx| + |Δy|, then Δy, then Δx. -/
def shiftOrder : List (Int × Int) :=
  (List.range 13).flatMap fun m => evenShifts.flatMap fun dy => (evenShifts.filter fun dx => dx.natAbs + dy.natAbs == m).map fun dx => (dx, dy)

/-- A tile's place on a die under an offset; none outside the mesh. -/
def shiftedTile (die tile : Nat) (d : Int × Int) : Option Nat :=
  let x : Int := (tile % 8 : Nat) + d.1
  let y : Int := (tile % 64 / 8 : Nat) + d.2
  if 0 ≤ x && x < 8 && 0 ≤ y && y < 8 then some (die * 64 + y.toNat * 8 + x.toNat) else none

/-- The tiles of a graph that is out, on a die under an offset, if it qualifies: all in the mesh, the context's, and free. -/
def graphTargets (s : State) (ctx : Nat) (homes : List Nat) (die : Nat) (d : Int × Int) : Option (List Nat) :=
  let ts := homes.filterMap fun t => shiftedTile die t d
  if ts.length == homes.length && ts.all fun t => (Tab.find? (getCtx s ctx).shares t).isSome && tileFree s ctx t then some ts else none

/-- The sets of a graph that are out. -/
def graphSaved (s : State) (id : Nat) : List SavedSet := s.saved.filter fun v => v.graph == some id

/-- The targets that a graph takes: on its own die, else on the first other die of the context where an offset qualifies, the
first offset whose columns all read at or below THOT, else the first that qualifies. -/
def graphPlan (s : State) (id : Nat) (g : Graph) : Option (Nat × (Int × Int) × List Nat) :=
  let homes := (graphSaved s id).map SavedSet.tile
  let home := tileDie (homes.headD 0)
  let fits (die : Nat) : List ((Int × Int) × List Nat) :=
    shiftOrder.filterMap fun d => (graphTargets s g.ctx homes die d).map fun ts => (d, ts)
  let pick (die : Nat) : Option (Nat × (Int × Int) × List Nat) :=
    let l := fits die
    match l.find? fun p => p.2.all fun t => !columnHot s (tileSlot t) with
    | some p => some (die, p)
    | none => l.head?.map fun p => (die, p)
  (home :: (ctxDies s g.ctx).filter fun d => d != home).findSome? pick

/-- The tiles that graphs out on a SNAP are about to take: no other work is placed on them first (R337). -/
def reservedTiles (s : State) : List Nat :=
  s.graphs.flatMap fun p =>
    if p.2.tiles.isEmpty && !p.2.sched then (match graphPlan s p.1 p.2 with | some x => x.2.2 | none => []) else []

/-- The tile that a placement of a context takes on a die (R310): the lowest free cool one, or, where every tile reads above
THOT, the lowest free one; none that a graph is about to take (R337). -/
def chooseTile (s : State) (ctx die : Nat) : Option Nat :=
  let mine := ((getCtx s ctx).shares.map Prod.fst).filter fun t => tileDie t == die
  let kept := reservedTiles s
  let free := mine.filter fun t => tileFree s ctx t && !kept.contains t
  if mine.all fun t => columnHot s (tileSlot t) then free.head? else free.find? fun t => !tileHot s t

/-- PLACEMENT (R307, R310): the first waiting placement of a die for which a tile is free takes it. -/
def execPlacement (die : Nat) (s : State) : Host.Outcome State Fault Refusal :=
  if s.dieOut.contains die || s.boot != .running then .next s
  else
    match (waitingOn s die).find? fun x => (chooseTile s x.1.ctx die).isSome with
    | none => .next s
    | some (l, p) =>
      match chooseTile s l.ctx die with
      | none => .next s
      | some t =>
        let (id, s1) := newSerial s
        .next (modLaunch { s1 with places := Tab.set s1.places id ⟨id, l.id, l.ctx, p, t, none, false⟩ } l.id fun x =>
          { x with waiting := x.waiting.filter fun q => q != p, live := x.live + 1 })

/-! ### Retirement (R314, R315, R316, R390) -/

/-- Whether a set's work has ended (R314): its threads halt or have no entry, its rings are empty and their last commands
complete, its slots free and its ports closed, and nothing of it is in flight. -/
def setDone (s : State) (t i : Nat) : Bool :=
  let c := getSet s t i
  (List.range 4).all (fun n => (setThread? c n).st == .halt || (setThread? c n).st == .off)
    && (List.range 6).all (fun e => ringCount c e == 0) && meIdle c.me && c.load.isNone && c.ports.isEmpty
    && (List.range 4).all (fun r => !regionHeld (regionOf c r)) && s.reqs.all fun r => !agentOfSet t i r.agent

/-- The placement that a set of a tile runs. -/
def placeOn (s : State) (t i : Nat) : Option Nat := (getSet s t i).place

/-- A placement that has retired leaves its set and its tile (R314). -/
def retirePlacement (s : State) (t i id : Nat) : State :=
  match Tab.find? s.places id with
  | some p =>
    modLaunch { dropSet s t i with places := Tab.erase s.places id } p.launch fun l => { l with live := l.live - 1, done := l.done + 1 }
  | none => s

/-- PLACEMENT_RETIRE (R314): a placement of a tile whose set's work has ended. -/
def execPlacementRetire (tile : Nat) (s : State) : Host.Outcome State Fault Refusal :=
  match (List.range 2).find? fun i => (placeOn s tile i).isSome && setDone s tile i with
  | some i => .next (retirePlacement s tile i ((placeOn s tile i).getD 0))
  | none => .next s

/-- A completion record's words (R316). -/
def completionRecord (l : Launch) : List (BitVec 64) :=
  [BitVec.ofNat 64 (l.status % 256 * 2 ^ 56 + l.ctx % 1024 * 2 ^ 32 + recLid l.words), BitVec.ofNat 64 l.retiredAt,
   BitVec.ofNat 64 (l.disc % 2 ^ 32 * 2 ^ 32 + l.done % 2 ^ 32), BitVec.ofNat 64 (l.cause % 256 * 2 ^ 56 + l.tile % 256 * 2 ^ 40)]

/-- The four words of an event ring's entry (R390). -/
def ringEntry (s : State) (ctx ring : Nat) : Option (List (BitVec 64)) :=
  (sysWords 4 s ctx ((getCtx s ctx).ertab.toNat + 32 * ring)).map Prod.fst

/-- Whether an event ring has room for a record among its own (R390). -/
def ringRoom (e : List (BitVec 64)) : Bool :=
  (BitVec.ofNat 32 (recField e 1 31 0) - BitVec.ofNat 32 (recField e 1 63 32)).toNat < 2 ^ recField e 0 63 59

/-- The notify write of an event ring (R390, R393): held back while it goes to host memory and the link is down. -/
def sendNotify (s : State) (ctx addr : Nat) (v : BitVec 32) : State :=
  match touch 9 s ctx addr false true with
  | some (pa, s1) => if hostBase ≤ pa && !s1.linkUp then { s1 with notifies := s1.notifies ++ [(pa, v)] } else sysWrite s ctx addr 4 v.toNat
  | none => s

/-- A record written to an event ring with room (R390): the record, TAIL, then the notify write while ARM is 1. -/
def putRecord (s : State) (ctx ring : Nat) (e : List (BitVec 64)) (r : List (BitVec 64)) : State :=
  let tail := recField e 1 31 0
  let at_ := recField e 0 55 0 + 32 * (tail % 2 ^ recField e 0 63 59)
  let s1 := (List.range 4).foldl (fun acc i => sysWrite acc ctx (at_ + 8 * i) 8 (r.getD i 0).toNat) s
  let s2 := sysWrite s1 ctx ((getCtx s ctx).ertab.toNat + 32 * ring + 8) 4 ((tail + 1) % 2 ^ 32)
  if bit (e.getD 3 0).toNat 63 then sendNotify s2 ctx (recField e 2 55 0) (BitVec.ofNat 32 (recField e 3 31 0)) else s2

/-- The number of a context's event ring. -/
def ringNumber (ctx ring : Nat) : Nat := ctx * 256 + ring

/-- What stands beyond an event ring's own records. -/
def ringOver (s : State) (ctx ring : Nat) : RingOver := Tab.get ⟨0, []⟩ s.rings (ringNumber ctx ring)

/-- A launch's completion record given to its ring, if the ring or its segments have room (R315, R390). A launch whose
context owns no such ring has none to write. -/
def recordLaunch (s : State) (l : Launch) : State :=
  let extra := ringOver s l.ctx (recEvr l.words)
  let done (x : State) : State := modLaunch x l.id fun y => { y with recorded := true }
  if !ownsRing s l.ctx (recEvr l.words) then done s
  else
    match ringEntry s l.ctx (recEvr l.words) with
    | none => s
    | some e =>
      if extra.q.isEmpty && ringRoom e then done (putRecord s l.ctx (recEvr l.words) e (completionRecord l))
      else if extra.q.length < 64 * extra.segs then
        done { s with rings := Tab.set s.rings (ringNumber l.ctx (recEvr l.words)) { extra with q := extra.q ++ [completionRecord l] } }
      else s

/-- The oldest record beyond an event ring's own moves into the ring once the consumer has made room; the segments return
when the ring's have drained (R390, R323). -/
def ringDrain (s : State) (ctx ring : Nat) : State :=
  let extra := ringOver s ctx ring
  match extra.q, ringEntry s ctx ring with
  | r :: rest, some e =>
    if ringRoom e then
      let s1 := putRecord s ctx ring e r
      let die := leadDie s ctx
      let s2 := if rest.isEmpty then modCtx s1 ctx fun c => { c with scrnUsed := Tab.set c.scrnUsed die (Tab.get 0 c.scrnUsed die - extra.segs) }
        else s1
      { s2 with rings := Tab.set s2.rings (ringNumber ctx ring) ⟨if rest.isEmpty then 0 else extra.segs, rest⟩ }
    else s
  | _, _ => s

/-- Whether a launch's retirement adds to its counter (R304): whatever its status, and whoever holds the counter by then; a record that
was malformed may name one that its context was never granted, and adds to none but its own. DESIGN CHOICE for that
(notes/assumptions/115.md). -/
def signals (s : State) (l : Launch) : Bool := recSv l.words && (l.status != 4 || ownsCounter s l.ctx (recScnt l.words))

/-- A launch's retirement signalled (R304, R315): its counter rises by 1. -/
def signalLaunch (s : State) (l : Launch) : State :=
  let s1 := modLaunch (keepPrios s) l.id fun x => { x with signalled := true, retiredAt := s.dcc }
  if signals s l then { s1 with counters := Tab.set s1.counters (recScnt l.words) (Tab.get 0 s1.counters (recScnt l.words) + 1) }
  else s1

/-- LAUNCH_RETIRE (R315): the counter, then the completion record with its notify write, which waits for room in the ring. -/
def execLaunchRetire (launch : Nat) (s : State) : Host.Outcome State Fault Refusal :=
  match launchOf s launch with
  | none => .next s
  | some l =>
    if !l.expanded || !l.waiting.isEmpty || l.live != 0 then .next s
    else
      let s0 := if l.signalled then s else signalLaunch s l
      let s1 := recordLaunch s0 ((launchOf s0 launch).getD l)
      match launchOf s1 launch with
      | some x => if x.recorded then .next { s1 with launches := Tab.erase s1.launches launch } else .next s1
      | none => .next s1

end Sys2Proof.Machine
end

