-- ==== Sys2Proof/Machine/Swap.lean ====
section
/-! DEFINITION. Shadow-set swaps (R119, R122, R215, R322, R378, R383), the thermal override (R128) and the slices of a
scheduling period (R373). -/

namespace Sys2Proof.Machine

/-! ### When a set may leave (R122, R322) -/

/-- Whether a region that waits on parked stream ports is quiescent (R322); any other is. -/
def regionQuiet (s : State) (tile set slot : Nat) : Bool :=
  let c := getSet s tile set
  let g := regionOf c slot
  !((portsOfRegion (getTile s tile) c slot).any fun p => parkedOn s (.port tile set p)) || (regionBoundary c slot && g.moved + 64 ≤ s.dcc)

/-- Whether the active set of a tile may leave it at this step edge (R122, R322): instant boundary, matrix engine idle, regions
quiescent. -/
def leaveReady (s : State) (tile : Nat) : Bool :=
  let t := getTile s tile
  edgeNow s tile && !t.removed && setBoundary (activeSet t) && meIdle (activeSet t).me
    && (List.range 4).all fun r => !regionHeld (regionOf (activeSet t) r) || regionQuiet s tile t.active r

/-- The active set of a tile whose transition, if one was under way, has ended at this edge: its GEAR has completed (R164). -/
def endedShift (t : Tile) : CtxSet :=
  let c := activeSet t
  if t.trans.isSome && c.gearPend.isNone then endGearing c else c

/-- The active and the inactive set of a tile exchanged at a step edge (R122, R128, R215): the swap takes the next tick, and the
transition of differing gears the ticks after it. -/
def exchange (t : Tile) (dcc : Nat) : Tile :=
  let tsc := clockTsc t.clk dcc
  let i := t.active
  let j := otherSet i
  let out := { idleRegions (endedShift t) dcc with leftAt := tsc }
  let inc := returnedSet (tileSet t j) tsc
  let gear := inc.reqL || t.therm
  let pause := 1 + (if gear == t.effL then 0 else shiftTicks gear)
  { putTileSet (putTileSet t i out) j (idleRegions inc (dcc + pause)) with
    active := j, swapReady := false, effL := gear, clk := { tilePause t dcc pause gear with mark := 0 }
    trans := if gear == t.effL then none else some tsc, parked := false, cool := false }

/-! ### Lost contexts (R383) -/

/-- A context lost with its descendants (R383): their sets and placements are discarded, their launches complete FAILED with cause
0x23, and the parent receives the save-area fault. -/
def loseContext (s : State) (ctx tile : Nat) : State :=
  let all := subtree s ctx
  let ids := (s.places.filter fun p => all.contains p.2.ctx).map Prod.fst
  let s1 := ids.foldl (fun acc id => endPlacement acc id 1 0x23 tile) s
  let ls := (s1.launches.filter fun l => all.contains l.2.ctx).map Prod.fst
  let s2 := ls.foldl (fun acc id => modLaunch (failLaunch acc id 1 0x23 tile) id fun l => { l with expanded := true }) s1
  let s3 := { s2 with ctxs := Tab.mapAll (fun n c => if all.contains n then { c with st := .lost } else c) s2.ctxs
                      graphs := s2.graphs.filter fun g => !all.contains g.2.ctx }
  raiseParent s3 ctx (ctxRec 0x23 0 (BitVec.ofNat 64 ctx) 0)

/-- A context whose set has just been moved out of a tile is lost if its save range there faults (R383). -/
def saveChecked (s : State) (ctx tile : Nat) : State :=
  if (getCtx s ctx).saveBad.contains (tileDie tile) then loseContext s ctx tile else s

/-! ### SHADOW_SET_SWAP -/

/-- Whether a context's share of a tile is being taken by a revocation that has fallen due (R382). -/
def tileRevoked (s : State) (tile ctx : Nat) : Bool :=
  s.revs.any fun r => r.due && r.kind == 0 && r.b.toNat % 256 == tile && inSubtree s r.child ctx

/-- A set taken out of its tile, its save range checked; where a revocation takes the tile, its placement ends REVOKED. -/
def leaveTile (s : State) (tile i : Nat) (graph : Option Nat) : State :=
  let ctx := (getSet s tile i).ctx.getD 0
  let s1 := takeOut s tile i graph
  if tileRevoked s tile ctx then
    match (getSet s tile i).place with
    | some id => endPlacement s1 id 2 0 tile
    | none => s1
  else saveChecked s1 ctx tile

/-- SHADOW_SET_SWAP (R122, R378): the sets of a tile are exchanged once the incoming one is ready and the outgoing one may leave;
a set that was asked to leave its tile goes out of it. -/
def execShadowSetSwap (tile : Nat) (s : State) : Host.Outcome State Fault Refusal :=
  let t := getTile s tile
  let o := tileSet t (otherSet t.active)
  if 256 ≤ tile || t.removed then .next s
  else if o.ctx.isSome && o.stopReq then .next (leaveTile s tile (otherSet t.active) none)
  else if !leaveReady s tile then .next s
  else if t.swapReady && o.ctx.isSome then
    match (activeSet t).ctx with
    | some x => .next (saveChecked (setTile s tile (exchange t s.dcc)) x tile)
    | none => .next (setTile s tile (exchange t s.dcc))
  else if (activeSet t).ctx.isSome && (activeSet t).stopReq then .next (leaveTile s tile t.active none)
  else .next s

/-! ### THERMAL_OVERRIDE (R128) -/

/-- THERMAL_OVERRIDE (R128): at an instant boundary the override begins where the column reads above TCRIT, with a transition to
gear L, and the transition back to the gear requested is made once the override has ended; a swap that falls due comes first
(R122). -/
def execThermalOverride (tile : Nat) (s : State) : Host.Outcome State Fault Refusal :=
  let t := getTile s tile
  let crit := (Tab.get Column.reset s.columns (tileSlot tile)).crit
  let swap := t.swapReady && (tileSet t (otherSet t.active)).ctx.isSome && leaveReady s tile
  if !edgeNow s tile || t.removed || !setBoundary (activeSet t) || swap || !(if t.therm then false else crit || t.cool) then .next s
  else
    let t1 := { t with therm := crit, cool := false }
    let gear := crit || (activeSet t).reqL
    .next (setTile s tile (if gear == t.effL then t1 else beginShift t1 s.dcc gear))

/-! ### Time shares (R373) -/

/-- The running contexts that have a set on a tile, out of it, or a placement that waits for it. -/
def contenders (s : State) (t : Nat) : List Nat :=
  (((List.range 2).filterMap fun i => (getSet s t i).ctx)
    ++ ((s.saved.filter fun v => v.tile == t && (match v.graph with
        | some n => (match Tab.find? s.graphs n with | some g => g.sched | none => false)
        | none => true)).map SavedSet.ctx)
    ++ ((s.places.filter fun p => p.2.tile == t && !p.2.going).map fun p => p.2.ctx)).eraseDups.filter fun c => ctxRuns s c

/-- The ticks of a scheduling period that a context receives with its descendants: TS/256 of its parent's. -/
def ticksReceived (s : State) : Nat → Nat → Nat
  | 0, _ => 2 ^ 20
  | fuel + 1, ctx =>
    let c := getCtx s ctx
    if c.depth = 0 then 2 ^ 20 else ticksReceived s fuel c.parent * c.ts / 256

/-- The ticks that a context's own sets receive among contending contexts: what its contending children do not. -/
def ownTicks (s : State) (cs : List Nat) (ctx : Nat) : Nat :=
  ticksReceived s 9 ctx - (((s.ctxs.map Prod.fst).filter fun d =>
    (getCtx s d).depth != 0 && (getCtx s d).parent == ctx && cs.any fun c => inSubtree s d c).map (ticksReceived s 9)).sum

/-- Slices in order, each with the tick at which it ends. -/
def slicesFrom (dcc : Nat) : List (Nat × Nat) → List (Nat × Nat)
  | [] => []
  | (c, n) :: t => (c, dcc + n) :: slicesFrom (dcc + n) t

/-- A tile's slices of the period that begins: one for each contending context; which comes first is open
(notes/assumptions/3.md). -/
def slicesOf (s : State) (t turn : Nat) : List (Nat × Nat) :=
  let cs := contenders s t
  let k := turn % Nat.max 1 cs.length
  if cs.length < 2 then []
  else slicesFrom s.dcc (((cs.drop k ++ cs.take k).map fun c => (c, ownTicks s cs c)).filter fun p => p.2 != 0)

/-- TIME_SLICE (R373): a scheduling period begins, and every tile has its contexts' slices. -/
def execTimeSlice (s : State) : Host.Outcome State Fault Refusal :=
  if s.dcc % 2 ^ 20 = 0 then
    let turn := (freeValue s).1.toNat
    .next { (freeValue s).2 with tiles := Tab.mapAll (fun n t => if n < 256 then { t with plan := slicesOf s n turn } else t) s.tiles }
  else .next s

/-- The context that a tile's time belongs to now: that of the slice in hand, or, where its context has nothing there or the
slices are over, any contending one. -/
def wantedCtx (s : State) (t : Nat) : Option Nat :=
  let cs := contenders s t
  match (getTile s t).plan.find? fun p => s.dcc < p.2 with
  | some p => if cs.contains p.1 then some p.1 else cs[(freeValue s).1.toNat % Nat.max 1 cs.length]?
  | none => cs[(freeValue s).1.toNat % Nat.max 1 cs.length]?

end Sys2Proof.Machine
end

