-- ==== Sys2Proof/Machine/Walks.lean ====
section
/-! DEFINITION. The end of a translation walk (R320, R321) and frame exhaustion (R321, R380). -/

namespace Sys2Proof.Machine

/-- The unit whose translation cache serves an agent. -/
def agentUnit (a : Agent) : Option Nat :=
  match a with
  | .copy chan _ => some (copyTlb chan)
  | _ => agentTile a

/-- A walk that has ended, its page found or not: the units that parked on it know, and their accesses go on. -/
def endWalk (s : State) (w : Walk) : State :=
  let key := w.ctx * 2 ^ 40 + w.page
  let units := (w.who.filterMap agentUnit).eraseDups.map fun u => (u, key)
  let wake (acc : State) (a : Agent) : State :=
    match a with
    | .thread t i n => modThread acc t i n fun th => { th with fl := { th.fl with walked := key :: th.fl.walked } }
    | _ => acc
  w.who.foldl wake { s with walks := s.walks.filter (fun x => x.id != w.id), tlb := s.tlb ++ units.filter fun u => !s.tlb.contains u }

/-- The placements whose accesses are parked on a walk. -/
def walkPlaces (s : State) (w : Walk) : List Nat :=
  (w.who.filterMap fun a =>
    match a with
    | .thread t i _ => (getSet s t i).place
    | .port t i _ => (getSet s t i).place
    | .region t i _ => (getSet s t i).place
    | _ => none).eraseDups

/-- A walk whose exhaustion was reported. -/
def toldWalk (s : State) (w : Walk) : State := { s with walks := s.walks.map fun x => if x.id = w.id then { x with told := true } else x }

/-- Frame exhaustion met by a walk (R321 step 3, R380): a frame of the root's, or a report to the owner's parent, or the end of the launches
whose accesses wait, with FRAMEX. -/
def reportExhaustion (s : State) (w : Walk) (owner : Nat) : State :=
  match meetExhaustion s w.va owner with
  | .given s1 => s1
  | .told s1 => toldWalk s1 w
  | .ended s1 =>
    (walkPlaces s1 w).foldl (fun acc id => endPlacement acc id 6 0x24 ((Tab.find? acc.places id).elim 0 Placement.tile)) (toldWalk s1 w)

/-- WALK_COMPLETE (R320, R321): the page is found, or none is mapped there, or a demand page takes a frame, or its pool is
exhausted, and the walk stays until that is resolved. -/
def execWalkComplete (walk : Nat) (s : State) : Host.Outcome State Fault Refusal :=
  match s.walks.find? fun w => w.id == walk with
  | none => .next s
  | some w =>
    let va := w.page * 65536
    match mappingOf s w.ctx va with
    | none => .next (endWalk s w)
    | some m =>
      match touch 9 s w.ctx va false false with
      | some (_, s1) => .next (endWalk s1 w)
      | none => if w.told then .next s else .next (reportExhaustion s w (demandKey w.ctx m va).1)

end Sys2Proof.Machine
end

