-- ==== Sys2Proof/Machine/Summit.lean ====
section
/-! DEFINITION. Summit and the context instructions (R367 to R381): what they ask, what Summit decides, and what it answers. -/

namespace Sys2Proof.Machine

/-! ### The context instructions (R368, R369) -/

/-- A request passed to Summit; the thread waits for the answer. -/
def askSummit (s : State) (d : Opnd) (op : Nat) (a b : BitVec 64) (block : List (BitVec 64)) : Res :=
  let (id, s1) := newSerial s
  let r : SummitReq := ⟨id, op, s.focus.tile, s.focus.set, s.focus.thr, curCtx s, a, b, d, block, s.dcc, false, [], false, 0, 0⟩
  .wait (modCurThread { s1 with summit := s1.summit ++ [r] } fun th => { th with fl := { th.fl with asked := some id } })

/-- The answer of Summit to the acting thread: none while it is out. -/
def summitAnswered (s : State) : Option SummitReq :=
  match (curThread s).fl.asked with
  | some id => s.summit.find? fun r => r.id == id && r.ready
  | none => none

/-- The acting thread takes its answer: the value to D, or illegal-operand with the reason (R369). -/
def takeAnswer (w : TWord) (s : State) (r : SummitReq) : Res :=
  let s1 := { s with summit := s.summit.filter fun x => x.id != r.id }
  if r.reason != 0 then trapDet s1 0x02 0 (BitVec.ofNat 64 r.reason) else .done (writeS s1 w.d r.value)

/-- A context instruction without a block: passed on once the thread's earlier accesses are performed at PACKAGE. -/
def ctxWord (w : TWord) (op : Nat) (s : State) : Res :=
  match summitAnswered s with
  | some r => takeAnswer w s r
  | none =>
    if (curThread s).fl.asked.isSome then .wait s
    else if !releaseMet s 3 then .hold
    else askSummit s w.d op (argA w s) (argB w s) []

/-- A context instruction that reads a block of `n` words at an address. -/
def ctxBlockWord (w : TWord) (op va align n : Nat) (s : State) : Res :=
  match summitAnswered s with
  | some r => takeAnswer w s r
  | none =>
    if (curThread s).fl.asked.isSome then .wait s
    else if !releaseMet s 3 then .hold
    else readBlock s va align n fun s1 b => askSummit (learnBlock s1 va n) w.d op (argA w s) (argB w s) b

/-- CTXNEW (R370). -/
def execCtxnew (w : TWord) (s : State) : Host.Outcome State Fault Refusal :=
  .next (runWord w s fun s1 => ctxBlockWord w 0 ((argA w s1).toNat % 2 ^ 56) 64 8 s1)
/-- CTXGRANT (R372). -/
def execCtxgrant (w : TWord) (s : State) : Host.Outcome State Fault Refusal := .next (runWord w s fun s1 => ctxWord w 1 s1)
/-- CTXREVOKE (R381). -/
def execCtxrevoke (w : TWord) (s : State) : Host.Outcome State Fault Refusal := .next (runWord w s fun s1 => ctxWord w 2 s1)
/-- CTXRUN (R378). -/
def execCtxrun (w : TWord) (s : State) : Host.Outcome State Fault Refusal := .next (runWord w s fun s1 => ctxWord w 3 s1)
/-- CTXSTOP (R378). -/
def execCtxstop (w : TWord) (s : State) : Host.Outcome State Fault Refusal := .next (runWord w s fun s1 => ctxWord w 4 s1)
/-- CTXQ (R379). -/
def execCtxq (w : TWord) (s : State) : Host.Outcome State Fault Refusal := .next (runWord w s fun s1 => ctxWord w 5 s1)
/-- MAP (R374, R375). -/
def execMapRange (w : TWord) (s : State) : Host.Outcome State Fault Refusal :=
  .next (runWord w s fun s1 => ctxBlockWord w 6 ((argB w s1).toNat % 2 ^ 56) 32 4 s1)
/-- UNMAP (R374, R376). -/
def execUnmap (w : TWord) (s : State) : Host.Outcome State Fault Refusal :=
  .next (runWord w s fun s1 => ctxBlockWord w 7 ((argB w s1).toNat % 2 ^ 56) 32 4 s1)
/-- PIN.P (R377). -/
def execPinP (w : TWord) (s : State) : Host.Outcome State Fault Refusal := .next (runWord w s fun s1 => ctxWord w 8 s1)
/-- PIN.U (R377). -/
def execPinU (w : TWord) (s : State) : Host.Outcome State Fault Refusal := .next (runWord w s fun s1 => ctxWord w 9 s1)

/-! ### Resources (R367, R372) -/

/-- The granted amount of a quantity: 1 FRAMES, 3 SLOTS, 7 POWER, 8 TIME. -/
def qtyOf (c : Ctx) (kind : Nat) : Nat :=
  match kind with | 1 => c.frm | 3 => c.slt | 7 => c.pwr | _ => c.ts
/-- The amount of a quantity granted on. -/
def qtyUsed (c : Ctx) (kind : Nat) : Nat :=
  match kind with | 1 => c.frmu | 3 => c.sltu | 7 => c.pwru | _ => c.tsu
/-- A context with a quantity's granted amount changed. -/
def putQty (c : Ctx) (kind v : Nat) : Ctx :=
  match kind with | 1 => { c with frm := v } | 3 => { c with slt := v } | 7 => { c with pwr := v } | _ => { c with ts := v }
/-- A context with a quantity's amount granted on changed. -/
def putUsed (c : Ctx) (kind v : Nat) : Ctx :=
  match kind with | 1 => { c with frmu := v } | 3 => { c with sltu := v } | 7 => { c with pwru := v } | _ => { c with tsu := v }

/-- Whether a kind is a quantity. -/
def isQty (kind : Nat) : Bool := kind == 1 || kind == 3 || kind == 7 || kind == 8
/-- Whether a kind names single objects: 2 QUEUE, 4 COUNTER, 5 CHAN, 6 FLINE, 9 VF. -/
def isObject (kind : Nat) : Bool := kind == 2 || kind == 4 || kind == 5 || kind == 6 || kind == 9

/-- The objects of a kind. -/
def objectCount (kind : Nat) : Nat :=
  match kind with | 2 => 1024 | 4 => 4096 | 5 => 768 | 6 => 512 | _ => 128

/-- The context that holds an object. -/
def holder (s : State) (kind n : Nat) : Nat :=
  match kind with
  | 2 => Tab.get 0 s.queueOwner n
  | 4 => Tab.get 0 s.counterOwner n
  | 5 => Tab.get 0 s.chanOwner n
  | 6 => Tab.get 0 s.fireOwner n
  | _ => Tab.get 0 s.vfOwner n

/-- An object moved to a context. -/
def giveObject (s : State) (kind n ctx : Nat) : State :=
  match kind with
  | 2 => { s with queueOwner := Tab.set s.queueOwner n ctx }
  | 4 => { s with counterOwner := Tab.set s.counterOwner n ctx }
  | 5 => { s with chanOwner := Tab.set s.chanOwner n ctx }
  | 6 => { s with fireOwner := Tab.set s.fireOwner n ctx }
  | _ => { s with vfOwner := Tab.set s.vfOwner n ctx }

/-- A context's share of a tile. -/
def shareOf (s : State) (ctx tile : Nat) : Share := Tab.get ⟨0, 0, 0, 0⟩ (getCtx s ctx).shares tile

/-- The children of a context. -/
def kidsOf (s : State) (ctx : Nat) : List Nat := (s.ctxs.filter fun p => p.2.depth != 0 && p.2.parent == ctx).map Prod.fst

/-- A context's share of a tile less its children's. -/
def shareLeft (s : State) (ctx tile : Nat) : Share :=
  (kidsOf s ctx).foldl (fun x k =>
    let y := shareOf s k tile
    ⟨x.sp - y.sp, x.acc - y.acc, x.v - y.v, x.il - y.il⟩) (shareOf s ctx tile)

/-- The share that a TILE grant names (R372). -/
def grantShare (b : BitVec 64) : Share := ⟨bits b.toNat 18 8, bits b.toNat 31 20, bits b.toNat 41 32, bits b.toNat 55 42⟩

/-- Whether a TILE grant's fields are well formed: reserved bits 0, the multiples of R372. -/
def grantShareOk (b : BitVec 64) : Bool :=
  let x := grantShare b
  !bit b.toNat 19 && b.toNat / 2 ^ 56 == 0 && x.acc % 128 == 0 && x.v % 8 == 0 && x.il % 64 == 0

/-- The sum of two shares. -/
def addShare (x y : Share) : Share := ⟨x.sp + y.sp, x.acc + y.acc, x.v + y.v, x.il + y.il⟩
/-- Whether a share lies within another. -/
def shareFits (x y : Share) : Bool := x.sp ≤ y.sp && x.acc ≤ y.acc && x.v ≤ y.v && x.il ≤ y.il

/-- Whether a context's save ranges hold what R371 asks. A partition's save areas are Summit's own (R256). -/
def savesHold (c : Ctx) : Bool :=
  c.depth ≤ 1 || (List.range 4).all fun d =>
    let mine := c.shares.filter fun p => tileDie p.1 == d
    mine.isEmpty || c.scrn * 4672 + (mine.map fun p => 327680 + shareSize p.2).sum ≤ (Tab.get (0, 0) c.saves d).2

/-- Whether two resources of a kind are the same, by their B operands. -/
def sameResource (kind : Nat) (b1 b2 : Nat) : Bool :=
  if kind = 0 then b1 % 256 == b2 % 256 else if isObject kind then b1 == b2 else true

/-- Whether a revocation of a resource is pending against a context or an ancestor of it (R381). -/
def revocationOf (s : State) (ctx kind b : Nat) : Bool :=
  s.revs.any fun r => inSubtree s r.child ctx && (r.kind == 15 || (r.kind == kind && sameResource kind r.b.toNat b))

/-- Whether a context is being revoked as a whole. -/
def beingRevoked (s : State) (ctx : Nat) : Bool := s.revs.any fun r => r.kind == 15 && inSubtree s r.child ctx

/-! ### Decisions -/

/-- What Summit decides: a refusal by its reason (R369), an answer, or an effect that is not complete yet, with the accesses that it
waits for; or nothing yet, with whether what it waits for was reported. -/
inductive Verdict where
  | refuse (reason : Nat)
  | done (s : State) (v : BitVec 64)
  | later (s : State) (ids : List Nat)
  | again (s : State) (told : Bool)

/-- Whether a number names a live child of a context. -/
def isChild (s : State) (ctx child : Nat) : Bool :=
  isLive s child && (getCtx s child).depth != 0 && (getCtx s child).parent == ctx

/-- Whether a child is lost or being revoked as a whole. -/
def childGone (s : State) (child : Nat) : Bool := (getCtx s child).st == .lost || beingRevoked s child

/-- A creation block's save range of a die: the issuer's address and the bytes (R370). -/
def blockSave (b : List (BitVec 64)) (d : Nat) : Nat × Nat :=
  ((b.getD (2 + d) 0).toNat / 65536 * 65536, (b.getD (2 + d) 0).toNat % 65536 * 65536)

/-- The physical base of a save range of a die; none where R370 or R371 refuses it. -/
def savePhys (s : State) (issuer d scrn : Nat) (v : Nat × Nat) : Option Nat :=
  if v.2 < scrn * 4672 || 2 ^ 56 ≤ v.1 + v.2 then none
  else
    match partsOf s issuer v.1 v.2 with
    | some (m :: ms) =>
      if (m :: ms).all (fun x => x.r && x.w && !x.vers && !x.dmd) && contiguous (m :: ms) && rangeDie m.pa v.2 == some d then some m.pa else none
    | _ => none

/-- The save ranges of a creation block: die and physical base; none where one is refused. -/
def blockSaves (s : State) (issuer : Nat) (b : List (BitVec 64)) : Option (List (Nat × Nat)) :=
  (List.range 4).foldl (fun acc d =>
    match acc with
    | none => none
    | some l =>
      if (blockSave b d).2 = 0 then some l
      else (savePhys s issuer d (bits (b.getD 0 0).toNat 31 16) (blockSave b d)).map fun pa => l ++ [(d, pa)]) (some [])

/-- Whether the reserved fields of a creation block are 0 (R370). -/
def creationOk (b : List (BitVec 64)) : Bool :=
  bits (b.getD 0 0).toNat 7 3 == 0 && (b.getD 0 0).toNat / 2 ^ 32 == 0 && (b.getD 1 0).toNat / 2 ^ 38 == 0
    && bits (b.getD 6 0).toNat 4 0 == 0 && b.getD 7 0 == 0

/-- The lowest free number from 13 to 1,023 (R370). -/
def freeCtx (s : State) : Option Nat := ((List.range 1011).map (· + 13)).find? fun n => !isLive s n

/-- The child of a creation block (R370); where its table stands in memory is Summit's choice, a free value
(notes/assumptions/3.md). -/
def newCtx (s : State) (issuer : Nat) (b : List (BitVec 64)) (saves : List (Nat × Nat)) : Ctx :=
  { Ctx.root with
    st := .stopped, depth := (getCtx s issuer).depth + 1, parent := issuer, part := (getCtx s issuer).part
    pceil := bits (b.getD 0 0).toNat 2 0, htile := bits (b.getD 0 0).toNat 15 8, scrn := bits (b.getD 0 0).toNat 31 16
    dmask := b.getD 1 0, troot := (freeValue s).1 &&& 0xFFFFFFFFFF000, nring := (b.getD 6 0).toNat / 2 ^ 56, ertab := (b.getD 6 0).setWidth 56
    saves := saves.map fun p => (p.1, p.2, (blockSave b p.1).2), saveVa := saves.map fun p => (p.1, (blockSave b p.1).1)
    pwr := 0, frm := 0, slt := 0, ts := 0 }

/-- CTXNEW decided (R370). -/
def decideNew (s : State) (r : SummitReq) : Verdict :=
  let b := r.block
  if (getCtx s r.ctx).depth = 8 || (1 ≤ (getCtx s r.ctx).depth && !bit (features s) 6) then .refuse 2
  else if !creationOk b || r.a.toNat / 2 ^ 56 != 0 then .refuse 7
  else if (getCtx s r.ctx).pceil < bits (b.getD 0 0).toNat 2 0 then .refuse 8
  else
    match freeCtx s, blockSaves s r.ctx b with
    | none, _ => .refuse 3
    | _, none => .refuse 6
    | some n, some l =>
      let s1 := l.foldl (fun acc p => holdBack acc r.ctx p.2 (blockSave b p.1).2) s
      let s2 := (freeValue s1).2
      .done { s2 with ctxs := Tab.set s2.ctxs n (newCtx s r.ctx b l) } (BitVec.ofNat 64 n)

/-- A TILE grant decided (R371, R372). -/
def grantTile (s : State) (r : SummitReq) (child : Nat) : Verdict :=
  let tile := r.b.toNat % 256
  let x := grantShare r.b
  let sum := addShare (shareOf s child tile) x
  if !grantShareOk r.b then .refuse 7
  else if (Tab.find? (getCtx s r.ctx).shares tile).isNone || !shareFits x (shareLeft s r.ctx tile) || !shareFits sum ⟨1024, 2048, 640, 8192⟩ then .refuse 4
  else
    let c := { getCtx s child with shares := Tab.set (getCtx s child).shares tile sum }
    if !savesHold c then .refuse 6 else .done { s with ctxs := Tab.set s.ctxs child c } 0

/-- Accesses that wait for a frame are walked again (R321): frames were granted, or pages unpinned. -/
def walkAgain (s : State) : State :=
  { s with walks := s.walks.map fun w => { w with told := false }
           launches := Tab.mapAll (fun _ l => { l with starved := false }) s.launches
           summit := s.summit.map fun r => if r.applied then r else { r with waits := [] } }

/-- CTXGRANT decided (R372). -/
def decideGrant (s : State) (r : SummitReq) : Verdict :=
  let child := r.a.toNat % 1024
  let kind := bits r.a.toNat 19 16
  let b := r.b.toNat
  if !isChild s r.ctx child then .refuse 1
  else if bits r.a.toNat 15 10 != 0 || r.a.toNat / 2 ^ 20 != 0 || 10 ≤ kind then .refuse 7
  else if childGone s child || revocationOf s r.ctx kind b then .refuse 9
  else if kind = 0 then grantTile s r child
  else if isQty kind then
    if qtyOf (getCtx s r.ctx) kind - qtyUsed (getCtx s r.ctx) kind < b then .refuse 4
    else
      let s1 := modCtx s r.ctx fun c => putUsed c kind (qtyUsed c kind + b)
      .done ((if kind = 1 then walkAgain else id) (modCtx s1 child fun c => putQty c kind (qtyOf c kind + b))) 0
  else if b < objectCount kind && holder s kind b == r.ctx then .done (giveObject s kind b child) 0
  else .refuse 4

/-- Whether a child or a descendant of it holds what a CTXREVOKE names (R369 SHARE, R381). -/
def holdsResource (s : State) (child kind b : Nat) : Bool :=
  if kind = 15 then true
  else if kind = 0 then (Tab.find? (getCtx s child).shares (b % 256)).isSome
  else if isQty kind then b ≤ qtyOf (getCtx s child) kind
  else b < objectCount kind && inSubtree s child (holder s kind b)

/-- The contexts that a revocation concerns: the child, and its descendants that hold part of the resource. -/
def concerned (s : State) (child kind b : Nat) : List Nat :=
  (subtree s child).filter fun x => x == child || (if kind = 15 then true else if kind = 0 then (Tab.find? (getCtx s x).shares (b % 256)).isSome
    else if isQty kind then qtyOf (getCtx s x) kind != 0 else holder s kind b == x)

/-- A revocation notice presented to a context that delegates it, else dropped (R380, R381). -/
def notifyRevocation (s : State) (ctx kind : Nat) (b : BitVec 64) (dl : Nat) : State :=
  match whereSet s (getCtx s ctx).htile ctx with
  | some (u, j) =>
    if (getSet s u j).trap.vecEn && bit (getCtx s ctx).dmask.toNat 0x21 then
      raiseTrap s u j (ctxRec 0x21 dl (BitVec.ofNat 64 (b.toNat % 2 ^ 32 * 2 ^ 32 + kind * 2 ^ 16)) 0)
    else s
  | none => s

/-- CTXREVOKE decided (R381): the revocation stands until its deadline, and the notices go out. -/
def decideRevoke (s : State) (r : SummitReq) : Verdict :=
  let child := r.a.toNat % 1024
  let kind := bits r.a.toNat 19 16
  let dl := r.tick + r.a.toNat / 2 ^ 32
  if !isChild s r.ctx child then .refuse 1
  else if bits r.a.toNat 15 10 != 0 || bits r.a.toNat 31 20 != 0 || (10 ≤ kind && kind < 15) then .refuse 7
  else if ((getCtx s child).st == .lost && kind != 15) || beingRevoked s child || (s.revs.any fun x => x.child == child && x.kind == kind && sameResource kind x.b.toNat r.b.toNat) then .refuse 9
  else if !holdsResource s child kind r.b.toNat then .refuse 4
  else
    let (id, s1) := newSerial s
    let s2 := modCtx { s1 with revs := s1.revs ++ [⟨id, r.id, r.ctx, child, kind, r.b, dl, false⟩] } child fun c =>
      { c with revk := true, revdl := BitVec.ofNat 32 dl }
    .later ((concerned s2 child kind r.b.toNat).foldl (fun acc x => notifyRevocation acc x kind r.b dl) s2) []

/-- A trapped context's record resolved by the mode of CTXRUN (R378): 0 retry, 1 next, 2 restart, 3 fail. -/
def resolveTrapped (s : State) (c : Ctx) (mode : Nat) : State :=
  match c.torig, c.twhere with
  | some r, some (t, i) =>
    if mode = 3 then
      match (getSet s t i).place with
      | some id => endPlacement s id 1 r.cause ((Tab.find? s.places id).elim 0 Placement.tile)
      | none => s
    else resolveRecord s t i r mode
  | _, _ => s

/-- The sets of running contexts are no longer asked to leave their tiles. -/
def wakeSets (s : State) : State :=
  let calm (c : CtxSet) : CtxSet := match c.ctx with | some x => if ctxRuns s x then { c with stopReq := false } else c | none => c
  { s with tiles := Tab.mapAll (fun _ t => { t with set0 := calm t.set0, set1 := calm t.set1 }) s.tiles }

/-- CTXRUN decided (R378). -/
def decideRun (s : State) (r : SummitReq) : Verdict :=
  let child := r.a.toNat % 1024
  let mode := bits r.a.toNat 11 10
  let c := getCtx s child
  if !isChild s r.ctx child then .refuse 1
  else if r.a.toNat / 2 ^ 12 != 0 || (c.st != .trapped && mode != 0) then .refuse 7
  else if childGone s child then .refuse 9
  else
    let s1 := if c.st == .trapped then resolveTrapped s c mode else s
    .done (wakeSets (modCtx s1 child fun x => { x with st := .running, trec := [0, 0, 0, 0], torig := none, twhere := none })) 0

/-- CTXSTOP decided (R378). -/
def decideStop (s : State) (r : SummitReq) : Verdict :=
  let child := r.a.toNat % 1024
  if !isChild s r.ctx child then .refuse 1
  else if r.a.toNat / 2 ^ 10 != 0 then .refuse 7
  else if childGone s child then .refuse 9
  else .later (stopSets (modCtx s child fun c => { c with st := if c.st == .running then .stopped else c.st }) (subtree s child)) []

/-- The code of a context's state (R367). -/
def ctxCode : CtxState → Nat
  | .stopped => 0 | .running => 1 | .trapped => 2 | .lost => 3

/-- Word i of a context's descriptor (R367). -/
def descWord (s : State) (n i : Nat) : Nat :=
  let c := getCtx s n
  match i with
  | 0 => (if c.depth = 1 && c.st == .running && (Tab.find? s.partsOut c.part).isSome then 0 else ctxCode c.st) * 2 ^ 62 + c.depth % 16 * 2 ^ 58 + c.parent % 1024 * 2 ^ 48 + c.part % 16 * 2 ^ 44 + c.pceil % 8 * 2 ^ 41
      + flagAt c.revk 40 + c.htile % 256 * 2 ^ 32 + (kidsOf s n).length % 1024 * 2 ^ 10 + n % 1024
  | 1 => c.dmask.toNat
  | 2 => c.troot.toNat
  | 7 => c.nring % 256 * 2 ^ 56 + c.ertab.toNat
  | 8 => c.pwru % 2 ^ 32 * 2 ^ 32 + c.pwr % 2 ^ 32
  | 9 => c.frmu % 2 ^ 32 * 2 ^ 32 + c.frm % 2 ^ 32
  | 10 => c.tsu % 512 * 2 ^ 41 + c.ts % 512 * 2 ^ 32 + c.sltu % 65536 * 2 ^ 16 + c.slt % 65536
  | 11 => c.revdl.toNat * 2 ^ 32 + c.shares.length % 512
  | _ =>
    if i < 7 then
      let v := Tab.get (0, 0) c.saves (i - 3)
      v.1 / 65536 % 2 ^ 36 * 2 ^ 16 + v.2 / 65536 % 65536
    else (c.trec.getD (i - 12) 0).toNat

/-- The context of a subtree that holds an object, the lowest-numbered of those that share a tile; all ones where none does (R379).
DESIGN CHOICE for the lowest number (notes/assumptions/123.md). -/
def queryHolder (s : State) (ctx kind n : Nat) : BitVec 64 :=
  let found := if kind = 0 then ((subtree s ctx).filter fun x => (Tab.find? (getCtx s x).shares n).isSome).min?
    else if n < objectCount kind && inSubtree s ctx (holder s kind n) then some (holder s kind n) else none
  match found with | some x => BitVec.ofNat 64 x | none => 0xFFFFFFFFFFFFFFFF

/-- CTXQ decided (R379). -/
def decideQuery (s : State) (r : SummitReq) : Verdict :=
  let a := r.a.toNat
  let q := bits a 23 20
  let kind := bits a 19 16
  if !inSubtree s r.ctx (a % 1024) then .refuse 1
  else if bits a 15 10 != 0 || bits a 31 24 != 0 || a / 2 ^ 48 != 0 || 1 < q || (q = 1 && !(isObject kind || kind == 0)) then .refuse 7
  else if q = 0 then .done s (BitVec.ofNat 64 (descWord s (a % 1024) kind))
  else .done s (queryHolder s r.ctx kind (bits a 47 32))

/-- MAP decided (R374, R375). -/
def decideMap (s : State) (r : SummitReq) : Verdict :=
  let child := r.a.toNat % 1024
  if !isChild s r.ctx child then .refuse 1
  else if r.a.toNat / 2 ^ 10 != 0 || r.b.toNat / 2 ^ 56 != 0 || !mapBlockOk r.block then .refuse 7
  else if childGone s child then .refuse 9
  else if (mapAsk r.block).vers && !bit (features s) 2 then .refuse 5
  else
    match mapResult s r.ctx child (mapAsk r.block) with
    | some ms =>
      let s1 := newWords (modCtx s child fun c => { c with maps := c.maps ++ ms }) ms
      .done (if (mapAsk r.block).pin then pinPages s1 true (ms.flatMap (demandPages child)) else s1) 0
    | none => .refuse 5

/-- UNMAP decided (R374, R376). -/
def decideUnmap (s : State) (r : SummitReq) : Verdict :=
  let child := r.a.toNat % 1024
  let q := mapAsk r.block
  if !isChild s r.ctx child then .refuse 1
  else if r.a.toNat / 2 ^ 10 != 0 || r.b.toNat / 2 ^ 56 != 0 || !mapBlockOk r.block then .refuse 7
  else if childGone s child then .refuse 9
  else if !unmapOk s child q.cva q.size then .refuse 5
  else
    let x := unmapRange 9 s child q.cva q.size
    .later x.1 (accessesIn x.1 x.2)

/-- Every demand page of some parts with a frame; none where a pool is exhausted (R377). -/
def touchAll (s : State) (ctx : Nat) : List Nat → Option State
  | [] => some s
  | va :: t => (touch 9 s ctx va false false).bind fun r => touchAll r.2 ctx t

/-- A PIN.P that meets frame exhaustion at the first page without a frame (R377, R321): whether it was reported, which is done once. -/
def pinExhausted (s : State) (r : SummitReq) (vas : List Nat) : State × Bool :=
  match r.waits, vas.find? fun va => (touch 9 s r.ctx va false false).isNone with
  | [], some va =>
    match mappingOf s r.ctx va with
    | some m =>
      match meetExhaustion s va (demandKey r.ctx m va).1 with
      | .given s1 => (s1, false)
      | .told s1 => (s1, true)
      | .ended s1 =>
        (match (getSet s1 r.tile r.set).place with
          | some id => endPlacement s1 id 6 0x24 ((Tab.find? s1.places id).elim 0 Placement.tile)
          | none => s1, true)
    | none => (s, false)
  | _, _ => (s, !r.waits.isEmpty)

/-- PIN.P or PIN.U decided (R377); an exhausted pool leaves PIN.P waiting. -/
def decidePin (s : State) (r : SummitReq) (on : Bool) : Verdict :=
  let a := r.a.toNat
  let n := r.b.toNat
  if a % 65536 != 0 || n % 65536 != 0 || n = 0 || 2 ^ 56 < a + n then .refuse 5
  else
    match partsOf s r.ctx a n with
    | none => .refuse 5
    | some ps =>
      let pages := ps.flatMap (demandPages r.ctx)
      if !on then .done (walkAgain (pinPages s false pages)) 0
      else
        let vas := (ps.filter Mapping.dmd).flatMap fun m => (List.range (m.size / 65536)).map fun i => m.va + 65536 * i
        match touchAll s r.ctx vas with
        | some s1 => .done (pinPages s1 true pages) 0
        | none => .again (pinExhausted s r vas).1 (pinExhausted s r vas).2

/-- A request decided against the state that Summit holds (R369). -/
def decide369 (s : State) (r : SummitReq) : Verdict :=
  match r.op with
  | 0 => decideNew s r
  | 1 => decideGrant s r
  | 2 => decideRevoke s r
  | 3 => decideRun s r
  | 4 => decideStop s r
  | 5 => decideQuery s r
  | 6 => decideMap s r
  | 7 => decideUnmap s r
  | 8 => decidePin s r true
  | _ => decidePin s r false

/-! ### SUMMIT_ANSWER (R369) -/

/-- A request replaced. -/
def putSummit (s : State) (r : SummitReq) : State := { s with summit := s.summit.map fun x => if x.id == r.id then r else x }

/-- Whether a context has a set in a tile. -/
def residentSomewhere (s : State) (cs : List Nat) : Bool :=
  s.tiles.any fun t => t.1 < 256 &&
    ((match t.2.set0.ctx with | some x => cs.contains x | none => false) || (match t.2.set1.ctx with | some x => cs.contains x | none => false))

/-- Whether an applied request is complete: a CTXREVOKE with its revocation, a CTXSTOP when every set is out, an UNMAP when every
translated access is performed. -/
def summitDone (s : State) (r : SummitReq) : Bool :=
  match r.op with
  | 2 => s.revs.all fun v => v.req != r.id
  | 4 => !residentSomewhere s (subtree s (r.a.toNat % 1024))
  | _ => r.waits.all fun id => match findReq s id with | some e => isApplied e | none => true

/-- The D of an answered request of a set that is not active in its tile is written into the saved set (R120, R369); the thread of an
active one writes it as it goes on. -/
def answerSaved (s : State) (r : SummitReq) : State :=
  match r.dst with
  | .s n =>
    if r.reason != 0 || (getTile s r.tile).active = r.set && r.tile < 256 then s
    else modThread s r.tile r.set r.thr fun th => { th with s := Tab.set th.s n r.value }
  | _ => s

/-- A request answered. -/
def answerSummit (s : State) (r : SummitReq) : State := answerSaved (putSummit s { r with applied := true, ready := true }) r

/-- Whether Summit may take a request that is not applied: a PIN.P that waits for a frame lets the later ones pass. DESIGN CHOICE
(notes/assumptions/124.md). -/
def mayDecide (s : State) (r : SummitReq) : Bool :=
  !r.applied && (r.waits.isEmpty || match decide369 s r with | .again _ _ => false | _ => true)

/-- SUMMIT_ANSWER (R369): applied requests that are complete are answered, and the first request that Summit holds is applied. -/
def execSummitAnswer (s : State) : Host.Outcome State Fault Refusal :=
  let s1 := (s.summit.filter fun r => r.applied && !r.ready && summitDone s r).foldl answerSummit s
  match s1.summit.find? (mayDecide s1) with
  | none => .next s1
  | some r =>
    match decide369 s1 r with
    | .refuse n => .next (answerSummit s1 { r with reason := n })
    | .done s2 v => .next (answerSummit s2 { r with value := v })
    | .later s2 ids => .next (putSummit s2 { r with applied := true, waits := ids })
    | .again s2 told => .next (putSummit s2 { r with waits := if told then [r.id] else [] })

end Sys2Proof.Machine
end

