-- ==== Sys2Proof/Machine/Revoke.lean ====
section
/-! DEFINITION. Revocation (R381, R382): what is taken at the deadline, and the end of a revocation. -/

namespace Sys2Proof.Machine

/-! ### Quantities -/

/-- `n` units of a quantity taken from a context: from its unallocated share first, then from its children in ascending number; with
what is still to be found (R381). -/
def takeQty : Nat → State → Nat → Nat → Nat → State × Nat
  | 0, s, _, _, n => (s, n)
  | fuel + 1, s, kind, ctx, n =>
    let c := getCtx s ctx
    let own := Nat.min n (qtyOf c kind - qtyUsed c kind)
    let s1 := modCtx s ctx fun x => putQty x kind (qtyOf x kind - own)
    (kidsOf s1 ctx).foldl (fun acc k =>
      if acc.2 = 0 then acc
      else
        let r := takeQty fuel acc.1 kind k acc.2
        let got := acc.2 - r.2
        (modCtx r.1 ctx fun x => putUsed (putQty x kind (qtyOf x kind - got)) kind (qtyUsed x kind - got), r.2)) (s1, n - own)

/-- A page whose frame a smaller pool gives up (R382): the one whose frame is the oldest among the unpinned; a pinned one where only
such are left. -/
def victimPage (s : State) (ctx : Nat) : Option Nat :=
  let c := getCtx s ctx
  let l := pagesByAge c
  match l.filter fun p => !c.pinned.contains p with
  | p :: _ => some p
  | [] => l.head?

/-- Frames reclaimed until a context's pool holds those in use. -/
def fitFrames : Nat → State → Nat → State
  | 0, s, _ => s
  | fuel + 1, s, ctx =>
    let c := getCtx s ctx
    if c.frm < c.frames.length + c.frmu then
      match victimPage s ctx with
      | some p => fitFrames fuel (reclaimPage s ctx p) ctx
      | none => s
    else s

/-! ### Launch records (R382) -/

/-- An unselected record completes REVOKED. -/
def revokeRecord (s : State) (q n : Nat) : State :=
  let ws := recordAt s q n
  let (id, s1) := newSerial (keepPrios s)
  let l : Launch := { newLaunch id (queueTag s q) q ws true with status := 2 }
  { putQueue s1 q (takeRecord (queueOf s1 q) n) with launches := Tab.set s1.launches id l }

/-- The unselected records of a queue complete REVOKED. -/
def revokeQueue (s : State) (q : Nat) : State := (unselected (queueOf s q)).foldl (fun acc n => revokeRecord acc q n) s

/-- The records of a context beyond its quota, youngest first, complete REVOKED. -/
def fitRecords (s : State) (ctx : Nat) : State :=
  let c := getCtx s ctx
  let excess := tenantRecords s ctx 1024 - (c.slt - c.sltu)
  let mine := (s.queues.filter fun q => queueTag s q.1 == ctx).flatMap fun q => (unselected q.2).map fun n => (q.1, n)
  (mine.reverse.take excess).foldl (fun acc p => revokeRecord acc p.1 p.2) s

/-! ### Copy engines -/

/-- A transfer cut short at a line boundary: its status is 0x02, and its record follows. -/
def cutTransfer (r : Transfer) : Transfer := { r with ended := true, status := 2, stop := none, bound := true }

/-- A channel taken: armed slots and queued entries go, its transfers are cut short, WM := NEXT. -/
def cutChannel (s : State) (chan : Nat) : State :=
  let s1 := { s with slots := s.slots.filter fun x => tplChan x.2.words != chan }
  modCopy s1 chan fun c => { c with runs := c.runs.map cutTransfer, ends := [], wm := c.next }

/-- A fire line taken: its armed slots and queued entries go, and the transfers that its slots started are cut short. -/
def cutLine (s : State) (line : Nat) : State :=
  let armed := s.slots.filter fun x => x.2.line == line
  let cut (r : Transfer) : Transfer := if armed.any fun x => x.2.words == r.words && x.2.ctx == r.ctx && x.2.tile == r.tile then cutTransfer r else r
  { s with slots := s.slots.filter fun x => x.2.line != line
           copies := Tab.mapAll (fun _ c => { c with runs := c.runs.map cut }) s.copies }

/-- The transfers of some contexts to or from a tile's share are cut short. -/
def cutTile (s : State) (cs : List Nat) (tile : Nat) : State :=
  let names (space a : Nat) : Bool := space == 0 && bits a 39 32 == tile
  let cut (r : Transfer) : Transfer :=
    if cs.contains r.ctx && (names (tplSsp r.words) (tplSaddr r.words) || names (tplDsp r.words) (tplDaddr r.words)
        || (isTransform r.words && tplTtile r.words == tile)) then cutTransfer r else r
  { s with copies := Tab.mapAll (fun _ c => { c with runs := c.runs.map cut }) s.copies }

/-! ### At the deadline -/

/-- An object taken from its holder and given to a context. -/
def takeObject (s : State) (kind n ctx : Nat) : State :=
  let s1 := match kind with
    | 2 => revokeQueue s n
    | 5 => cutChannel s n
    | 6 => cutLine s n
    | _ => s
  giveObject s1 kind n ctx

/-- The tile shares of a subtree taken: sets are asked to leave, placements that are not in the tile end, transfers are cut short. -/
def takeTile (s : State) (cs : List Nat) (tile : Nat) : State :=
  let s1 := cs.foldl (fun acc x => modCtx acc x fun c => { c with shares := Tab.erase c.shares tile }) (cutTile s cs tile)
  let ask (c : CtxSet) : CtxSet := match c.ctx with | some x => if cs.contains x then { c with stopReq := true } else c | none => c
  let s2 := modTile s1 tile fun t => { t with set0 := ask t.set0, set1 := ask t.set1 }
  let away := s2.places.filter fun p => cs.contains p.2.ctx && (p.2.tile == tile || s2.saved.any fun v => v.tile == tile && (getSet s2 v.held 0).place == some p.1)
    && p.2.set.isNone
  away.foldl (fun acc p => endPlacement acc p.1 2 0 tile) s2

/-- Every object of a kind that some contexts hold taken for another. -/
def takeObjects (s : State) (cs : List Nat) (kind ctx : Nat) : State :=
  ((List.range (objectCount kind)).filter fun n => cs.contains (holder s kind n)).foldl (fun acc n => takeObject acc kind n ctx) s

/-- Contexts as a whole taken: they run no more, their sets are asked to leave, their objects go to the issuer. -/
def takeWhole (s : State) (cs : List Nat) (issuer : Nat) : State :=
  let s1 := stopSets { s with ctxs := Tab.mapAll (fun n c => if cs.contains n then { c with st := .stopped } else c) s.ctxs } cs
  [2, 4, 5, 6, 9].foldl (fun acc k => takeObjects acc cs k issuer) s1

/-- A revocation falls due (R382). -/
def fallDue (s : State) (v : Revocation) : State :=
  let s1 := { s with revs := s.revs.map fun x => if x.id == v.id then { x with due := true } else x }
  let cs := subtree s v.child
  let b := v.b.toNat
  if v.kind = 15 then takeWhole s1 cs v.issuer
  else if v.kind = 0 then takeTile s1 cs (b % 256)
  else if isQty v.kind then
    let (s2, left) := takeQty 9 s1 v.kind v.child b
    let s3 := modCtx s2 v.issuer fun c => putUsed c v.kind (qtyUsed c v.kind - (b - left))
    if v.kind = 1 then cs.foldl (fun acc x => fitFrames (getCtx acc x).frames.length acc x) s3
    else if v.kind = 3 then cs.foldl fitRecords s3
    else s3
  else takeObject s1 v.kind b v.issuer

/-! ### The end of a revocation -/

/-- Whether a revocation that has fallen due is complete: no set that it takes is still in a tile, and no transfer of a revoked context
is under way. -/
def revocationDone (s : State) (v : Revocation) : Bool :=
  let cs := subtree s v.child
  if v.kind = 15 then
    !residentSomewhere s cs && s.copies.all fun c => c.2.runs.all fun r => !cs.contains r.ctx || r.stop.isSome
  else if v.kind = 0 then cs.all fun x => (setOfCtx (getTile s (v.b.toNat % 256)) x).isNone
  else true

/-- A launch of a revoked context completes REVOKED, as far as its ring takes the record. -/
def retireRevoked (s : State) (id : Nat) : State :=
  let s1 := modLaunch (failLaunch s id 2 0 0) id fun l => { l with expanded := true }
  match launchOf s1 id with
  | some l =>
    let s0 := if l.signalled then s1 else signalLaunch s1 l
    let s2 := recordLaunch s0 ((launchOf s0 id).getD l)
    { s2 with launches := Tab.erase s2.launches id }
  | none => s1

/-- A context that goes (R382): its placements and launches end, its ranges are unmapped, its save ranges return to its parent, its
number is free. -/
def destroyCtx (s : State) (ctx : Nat) : State :=
  let c := getCtx s ctx
  let s1 := ((s.places.filter fun p => p.2.ctx == ctx).map Prod.fst).foldl (fun acc id => endPlacement acc id 2 0 0) s
  let s2 := ((s1.launches.filter fun l => l.2.ctx == ctx).map Prod.fst).foldl retireRevoked s1
  let s3 := c.maps.foldl (fun acc m => (unmapRange 9 acc ctx m.va m.size).1) s2
  let s4 := c.saves.foldl (fun acc v => giveBack acc c.parent v.2.1 v.2.2) s3
  let tile (v : SavedSet) : Bool := v.ctx == ctx
  { s4 with
    ctxs := Tab.erase s4.ctxs ctx
    tiles := (s4.saved.filter tile).foldl (fun t v => Tab.erase t v.held) s4.tiles
    saved := s4.saved.filter fun v => !tile v
    graphs := s4.graphs.filter fun g => g.2.ctx != ctx
    rings := s4.rings.filter fun r => r.1 / 256 != ctx
    slots := s4.slots.filter fun x => x.2.ctx != ctx
    copies := Tab.mapAll (fun _ x => { x with runs := x.runs.filter fun r => r.ctx != ctx }) s4.copies
    summit := s4.summit.filter fun r => r.ctx != ctx
    revs := s4.revs.filter fun v => v.child != ctx }

/-- The quantities of a child that goes return to its parent. -/
def returnQty (s : State) (issuer child : Nat) : State :=
  [1, 3, 7, 8].foldl (fun acc k => modCtx acc issuer fun c => putUsed c k (qtyUsed c k - qtyOf (getCtx s child) k)) s

/-- A revocation ends (R381, R382). -/
def endRevocation (s : State) (v : Revocation) : State :=
  let s1 := { s with revs := s.revs.filter fun x => x.id != v.id }
  if v.kind = 15 then
    let cs := subtree s v.child
    let deep := (List.range 9).reverse.flatMap fun d => cs.filter fun x => (getCtx s x).depth == d
    deep.foldl destroyCtx (returnQty s1 v.issuer v.child)
  else if s1.revs.any fun x => x.child == v.child then s1
  else modCtx s1 v.child fun c => { c with revk := false, revdl := 0 }

/-- REVOCATION_DEADLINE (R381, R382): at the deadline the resource is taken, and the revocation ends once the sets concerned have left
their tiles. -/
def execRevocationDeadline (rev : Nat) (s : State) : Host.Outcome State Fault Refusal :=
  match s.revs.find? fun v => v.id == rev with
  | none => .next s
  | some v =>
    if s.dcc < v.dl then .next s
    else
      let s1 := if v.due then s else fallDue s v
      if revocationDone s1 v then .next (endRevocation s1 v) else .next s1

end Sys2Proof.Machine
end

