-- ==== Sys2Proof/Machine/Layout.lean ====
section
/-! DEFINITION. Partition layouts (R14, R256, R384, R387). -/

namespace Sys2Proof.Machine

/-! ### The fields of an entry (R384) -/

/-- SLOTS. -/
def entSlots (e : List (BitVec 64)) : Nat := (e.getD 0 0).toNat
/-- The slots that an entry names, ascending. -/
def entSlotList (e : List (BitVec 64)) : List Nat := (List.range 64).filter fun n => bit (entSlots e) n
/-- FSW. -/
def entFsw (e : List (BitVec 64)) : Bool := bit (e.getD 1 0).toNat 12
/-- VF0. -/
def entVf0 (e : List (BitVec 64)) : Nat := bits (e.getD 1 0).toNat 23 16
/-- NVF. -/
def entNvf (e : List (BitVec 64)) : Nat := bits (e.getD 1 0).toNat 31 24
/-- FRAMES. -/
def entFrames (e : List (BitVec 64)) : Nat := bits (e.getD 1 0).toNat 63 32
/-- The first physical address of the HBM range. -/
def entHbmBase (e : List (BitVec 64)) : Nat := (hbmRange e).1
/-- The bytes of the HBM range. -/
def entHbmSize (e : List (BitVec 64)) : Nat := (hbmRange e).2
/-- CSRAM, in 64 KiB units. -/
def entCsram (e : List (BitVec 64)) : Nat := bits (e.getD 3 0).toNat 15 0
/-- PCEIL. -/
def entPceil (e : List (BitVec 64)) : Nat := bits (e.getD 3 0).toNat 18 16

/-- Whether the reserved bits of an entry are 0 (R6). -/
def entReserved (e : List (BitVec 64)) : Bool :=
  bits (e.getD 1 0).toNat 15 13 == 0 && bits (e.getD 2 0).toNat 39 36 == 0 && bits (e.getD 3 0).toNat 63 19 == 0

/-- The partitions of a layout. -/
def layoutParts (lay : Tab (List (BitVec 64))) : List Nat := (List.range 12).filter fun p => entSlots (Tab.get [] lay p) != 0

/-! ### When a layout is refused (R384, R11, R403) -/

/-- Pairs of different partitions, each once. -/
def partPairs (ps : List Nat) : List (Nat × Nat) := ps.flatMap fun p => (ps.filter fun q => p < q).map fun q => (p, q)

/-- Whether two ranges, neither of them empty, meet. -/
def overlap (a n b m : Nat) : Bool := n != 0 && m != 0 && rangesMeet a n b m

/-- The column SRAM that partitions need on a slot, in 64 KiB units. -/
def slotNeed (lay : Tab (List (BitVec 64))) (ps : List Nat) (slot : Nat) : Nat :=
  ((ps.filter fun p => bit (entSlots (Tab.get [] lay p)) slot).map fun p => entCsram (Tab.get [] lay p)).sum

/-- Whether Summit refuses a layout. Reserved bits and an HBM range outside the stacks are refused too
(notes/assumptions/32.md). -/
def layoutRefused (s : State) (lay : Tab (List (BitVec 64))) : Bool :=
  let ps := layoutParts lay
  let ent (p : Nat) : List (BitVec 64) := Tab.get [] lay p
  let watts := (ps.map fun p => layoutWatts (ent p)).sum
  (partPairs ps).any (fun x =>
      (entSlots (ent x.1) &&& entSlots (ent x.2) != 0 && !entFsw (ent x.1) && !entFsw (ent x.2))
        || overlap (entHbmBase (ent x.1)) (entHbmSize (ent x.1)) (entHbmBase (ent x.2)) (entHbmSize (ent x.2))
        || overlap (entVf0 (ent x.1)) (entNvf (ent x.1)) (entVf0 (ent x.2)) (entNvf (ent x.2)))
    || ((List.range 64).any fun n => slotNeed lay ps n != 0 && 1536 < slotNeed lay ps n + Config.slotReserve n)
    || s.limit < watts || s.limitNext < watts
    || hbmEnd - hbmFirst < (ps.map fun p => entHbmSize (ent p) + 65536 * entFrames (ent p)).sum
    || ps.any fun p =>
      128 < entVf0 (ent p) + entNvf (ent p) || !entReserved (ent p) || (entFsw (ent p) && !bit (features s) 4)
        || ((entSlotList (ent p)).any fun n => (Tab.get Column.reset s.columns n).removed)
        || (entHbmSize (ent p) != 0 && (entHbmBase (ent p) < hbmFirst || hbmEnd < entHbmBase (ent p) + entHbmSize (ent p)))

/-! ### What a partition receives (R384) -/

/-- The tiles of a slot (R9). -/
def slotTiles (slot : Nat) : List Nat :=
  let t := slot / 16 * 64 + slot % 16 / 4 * 16 + slot % 4 * 2
  [t, t + 1, t + 8, t + 9]

/-- Where a partition's column SRAM of a slot begins: behind that of the lower-numbered partitions of the slot. DESIGN CHOICE
(notes/assumptions/32.md). -/
def csramBase (lay : Tab (List (BitVec 64))) (p slot : Nat) : Nat :=
  0x000100000000 + slot * 0x6000000 + 65536 * slotNeed lay ((layoutParts lay).filter fun q => q < p) slot

/-- The physical ranges of a partition in the order of its virtual addresses: HBM, then column SRAM in ascending slot; behind them,
as the model places them, the control pages (R259) and the fabric pages (R407) of its slots. -/
def partRanges (lay : Tab (List (BitVec 64))) (p : Nat) : List (Nat × Nat) :=
  let e := Tab.get [] lay p
  let slots := entSlotList e
  ((entHbmBase e, entHbmSize e) :: slots.map (fun n => (csramBase lay p n, 65536 * entCsram e))
    ++ slots.map (fun n => (0x000300000000 + n * 65536, 65536)) ++ slots.map fun n => (0x000320000000 + n * 65536, 65536)).filter
    fun r => r.2 != 0

/-- Ranges mapped one behind the other from a virtual address. -/
def mapInOrder : Nat → List (Nat × Nat) → List Mapping
  | _, [] => []
  | va, (pa, n) :: t => ⟨va, n, pa, true, true, false, false, false, 0, 0, 0, va, n, false⟩ :: mapInOrder (va + n) t

/-- The descriptor of a partition as it is created (R384, R367). What R384 does not give it is free: its quota of launch records, its
delegation mask, its handler tile, its event rings, its scree pool and its table root (notes/assumptions/32.md). -/
def newPartition (s : State) (lay : Tab (List (BitVec 64))) (p : Nat) : Ctx :=
  let e := Tab.get [] lay p
  let free (k : Nat) : BitVec 64 := Config.freeWord (s.fresh + k)
  { Ctx.root with
    depth := 1, parent := 0, part := p, pceil := entPceil e, dmask := (free 0).extractLsb' 0 38 |>.setWidth 64
    htile := (free 1).toNat % 256, troot := free 2 &&& 0xFFFFFFFFFF000, scrn := (free 3).toNat % 65536, nring := (free 4).toNat % 256
    ertab := (free 5).setWidth 56, slt := (free 6).toNat % 65536, pwr := layoutWatts e * 16000, frm := entFrames e, ts := 256
    shares := ((entSlotList e).flatMap slotTiles).foldl (fun t n => Tab.set t n ⟨1024, 2048, 640, 8192⟩) []
    maps := mapInOrder 0 (partRanges lay p) }

/-! ### The two phases (R387) -/

/-- Whether a partition's slots or memory differ between two layouts. -/
def partChanges (old new : Tab (List (BitVec 64))) (p : Nat) : Bool :=
  entSlots (Tab.get [] old p) != entSlots (Tab.get [] new p)
    || (entSlots (Tab.get [] new p) != 0 && partRanges old p != partRanges new p)

/-- Whether a partition is idle or swapped out (R387). -/
def partIdle (s : State) (p : Nat) : Bool :=
  let cs := subtree s (p + 1)
  (Tab.find? s.partsOut p).isSome
    || (!residentSomewhere s cs && (s.saved.all fun v => !cs.contains v.ctx) && (s.places.all fun x => !cs.contains x.2.ctx)
        && (s.launches.all fun l => !cs.contains l.2.ctx || l.2.recorded)
        && s.copies.all fun c => c.2.runs.all fun r => !cs.contains r.ctx)

/-- The objects of some contexts return to the root. -/
def objectsHome (s : State) (cs : List Nat) : State := [2, 4, 5, 6, 9].foldl (fun acc k => takeObjects acc cs k 0) s

/-- The counters that some contexts of a state hold get the value 0 in another (R304). -/
def clearCounters (old s : State) (cs : List Nat) : State :=
  { s with counters := Tab.mapAll (fun n v => if cs.contains (Tab.get 0 old.counterOwner n) then 0 else v) s.counters }

/-- A partition destroyed with its descendants, deepest first, and with what is kept of it while it is out. -/
def destroyPartition (s : State) (p : Nat) : State :=
  if !isLive s (p + 1) then s
  else
    let cs := subtree s (p + 1)
    let deep := (List.range 9).reverse.flatMap fun d => cs.filter fun x => (getCtx s x).depth == d
    let s1 := clearCounters s (deep.foldl destroyCtx (objectsHome s cs)) cs
    let held := match Tab.find? s1.partsOut p with | some v => v.tiles.map Prod.snd | none => []
    { s1 with tiles := held.foldl (fun t u => Tab.erase t u) s1.tiles, partsOut := Tab.erase s1.partsOut p
              swapAsks := s1.swapAsks.filter fun a => a.part != p }

/-- Whether a slot of an entry has a partition in it that is not swapped out. -/
def slotsTaken (s : State) (lay : Tab (List (BitVec 64))) (p : Nat) : Bool :=
  (layoutParts lay).any fun q => q != p && isLive s (q + 1) && (Tab.find? s.partsOut q).isNone
    && entSlots (Tab.get [] lay p) &&& entSlots (Tab.get [] lay q) != 0

/-- A partition created; one whose slots another holds begins swapped out (R386). -/
def createPartition (s : State) (p : Nat) : State :=
  let s1 := { s with ctxs := Tab.set s.ctxs (p + 1) (newPartition s s.staged p), fresh := s.fresh + 7 }
  if slotsTaken s s.staged p then { s1 with partsOut := Tab.set s1.partsOut p ⟨p, [], [], false⟩ } else s1

/-- The allotments of a partition that stays. -/
def updatePartition (s : State) (p : Nat) : State :=
  let e := Tab.get [] s.staged p
  modCtx s (p + 1) fun c => { c with pceil := entPceil e, pwr := layoutWatts e * 16000, frm := entFrames e }

/-- The virtual functions bound as a layout says; one that its partition has granted on stays where it is. -/
def bindVfs (s : State) (lay : Tab (List (BitVec 64))) : State :=
  let part (v : Nat) : Option Nat := (layoutParts lay).find? fun p => entVf0 (Tab.get [] lay p) ≤ v && v < entVf0 (Tab.get [] lay p) + entNvf (Tab.get [] lay p)
  { s with vfOwner := (List.range 128).foldl (fun t v =>
      match part v with
      | some p => if inSubtree s (p + 1) (Tab.get 0 t v) then t else Tab.set t v (p + 1)
      | none => Tab.set t v 0) s.vfOwner }

/-- A demand frame that a new layout's HBM ranges take in moves to a free frame, with every access that is on its way to it. -/
def moveFrame (s : State) (owner page pa : Nat) : State :=
  if !hbmTaken s.layout pa then s
  else
    match newFrame s with
    | none => s
    | some dst =>
      let s1 := modCtx (copyPage s pa dst) owner fun c => { c with frames := Tab.set c.frames page dst }
      let aim (l : Loc) : Loc := match l with | .mem x => if x / 65536 = pa / 65536 then .mem (dst + x % 65536) else l | _ => l
      { s1 with reqs := s1.reqs.map (fun r => { r with loc := aim r.loc })
                sync := rekey (fun k => if k / 65536 = pa / 65536 then dst + k % 65536 else k) s1.sync }

/-- Every demand frame in its place under the layout in force. -/
def moveFrames (s : State) : State :=
  s.ctxs.foldl (fun acc c => c.2.frames.foldl (fun a f => moveFrame a c.1 f.1 f.2) acc) s

/-- Phase 2: the staged layout applied. Partitions without full swap take their slots first. -/
def applyLayout (s : State) : State :=
  let new := layoutParts s.staged
  let gone := (List.range 12).filter fun p => isLive s (p + 1) && (partChanges s.layout s.staged p || !new.contains p)
  let s1 := gone.foldl destroyPartition s
  let fresh := (new.filter fun p => !entFsw (Tab.get [] s.staged p)) ++ new.filter fun p => entFsw (Tab.get [] s.staged p)
  let s2 := fresh.foldl (fun acc p => if isLive acc (p + 1) then updatePartition acc p else createPartition acc p) s1
  let s3 := bindVfs s2 s2.staged
  moveFrames { s3 with
    layout := s3.staged, staged := [], ljState := 0, ljSeq := s3.ljSeq + 1, committed := true, boot := .running
    box := { s3.box with ended := true } }

/-- LAYOUT_PHASE2 (R387): once every partition that changes is idle or swapped out the layout is committed, and then it is
applied. -/
def execLayoutPhase2 (s : State) : Host.Outcome State Fault Refusal :=
  if s.ljState = 2 then .next (applyLayout s)
  else if s.ljState = 1 && (List.range 12).all (fun p => !isLive s (p + 1) || !partChanges s.layout s.staged p || partIdle s p) then
    .next { s with ljState := 2 }
  else .next s

end Sys2Proof.Machine
end

