-- ==== Sys2Proof/Machine/Mailbox.lean ====
section
/-! DEFINITION. The mailbox of the management function and the commands that Summit performs (R394, R397, R398, R402, R403), and the
events that Summit reports (R385, R387, R393). A command's row is the host's write of MBCMD and Summit's
performing of it. -/

namespace Sys2Proof.Machine

/-! ### Commands (R394) -/

/-- Whether a write of MBCMD is taken: no command is in progress, and the management function answers (R400, R401). -/
def boxTakes (s : State) : Bool := !s.box.busy && (s.boot == .waiting || s.boot == .running)

/-- An argument of the command. -/
def boxArg (s : State) (n : Nat) : BitVec 64 := Tab.get 0 s.box.arg n

/-- A command taken: BUSY. -/
def boxBegin (s : State) (op : Nat) : State := { s with box := { s.box with busy := true, ended := false, op := op, stat := 0 } }

/-- A command performed, with its status: 0 OK, 1 REFUSED, 2 BADOP, 3 LOCKED, 4 EXHAUSTED. -/
def boxEnd (s : State) (stat : Nat) : State := { s with box := { s.box with ended := true, stat := stat } }

/-- A command of the mailbox, ignored while another is in progress. -/
def mailboxCommand (s : State) (op : Nat) (eff : State → State) : Host.Outcome State Fault Refusal :=
  if boxTakes s then .next (eff (boxBegin s op)) else .next s

/-- MAILBOX_COMPLETE (R394): BUSY := 0, and the completion write. -/
def execMailboxComplete (s : State) : Host.Outcome State Fault Refusal :=
  if s.box.busy && s.box.ended then .next { s with box := { s.box with busy := false, ended := false, told := s.box.told + 1 } }
  else .next s

/-- A 64-bit word of host memory. -/
def hostWord (s : State) (a : Nat) : BitVec 64 := BitVec.ofNat 64 (Memory.read s.mem (hostBase + a) 8)

/-- The layout that stands in host memory: 12 entries of four words. -/
def readLayout (s : State) (a : Nat) : Tab (List (BitVec 64)) :=
  (List.range 12).foldl (fun t p => Tab.set t p ((List.range 4).map fun j => hostWord s (a + 32 * p + 8 * j))) []

/-- LAYOUT (R384, R387): phase 1, whose checks refuse the layout or stage it. -/
def execMbLayout (s : State) : Host.Outcome State Fault Refusal :=
  mailboxCommand s 1 fun s1 =>
    let lay := readLayout s1 (boxArg s1 0).toNat
    if layoutRefused s1 lay then boxEnd s1 1 else { s1 with staged := lay, ljState := 1 }

/-- The sum of the partitions' WATTS (R11). -/
def wattsInForce (s : State) : Nat := ((layoutParts s.layout).map fun p => layoutWatts (layoutEntry s p)).sum

/-- SETLIMIT (R397, R11). -/
def execMbSetlimit (s : State) : Host.Outcome State Fault Refusal :=
  mailboxCommand s 2 fun s1 =>
    let w := bits (boxArg s1 0).toNat 11 0
    if w < 1200 || 2800 < w || w < wattsInForce s1 then boxEnd s1 1 else boxEnd { s1 with limitNext := w } 0

/-- FEATSEL (R403). -/
def execMbFeatsel (s : State) : Host.Outcome State Fault Refusal :=
  mailboxCommand s 3 fun s1 =>
    let f : BitVec 128 := boxArg s1 1 ++ boxArg s1 0
    if s1.featsel.isSome || s1.committed then boxEnd s1 3
    else if f.toNat / 512 != 0 then boxEnd s1 1
    else boxEnd { s1 with featsel := some f } 0

/-- LJSTAT (R387). -/
def ljWord (s : State) : BitVec 64 := BitVec.ofNat 64 (s.ljSeq.toNat * 2 ^ 32 + s.ljState % 16)

/-- The feature set in force, locked at the first commit or by FEATSEL (R403). -/
def lockedFeatures (s : State) : BitVec 128 :=
  match s.featsel with
  | some f => s.featcap &&& f
  | none => s.featcap

/-- The bytes of a report: a body of 256 bytes and the two signatures (R402). -/
def attestReport (s : State) (nonce : List Byte) (leaf : Nat) : List Byte :=
  let body := ((Config.attestBody nonce s.fwDigest s.featcap (lockedFeatures s) (ljWord s) (BitVec.ofNat 64 s.dcc) leaf)
    ++ List.replicate 256 (0 : Byte)).take 256
  body ++ Config.attestSignatures body leaf

/-- ATTEST (R402): the leaf counter rises before the report is signed; after 2^20 reports nothing is written. -/
def execMbAttest (s : State) : Host.Outcome State Fault Refusal :=
  mailboxCommand s 4 fun s1 =>
    if 2 ^ 20 ≤ s1.lmsLeaf then boxEnd s1 4
    else
      let leaf := s1.lmsLeaf + 1
      let nonce := (List.range 48).map fun i => Memory.byte s1.mem (hostBase + (boxArg s1 0).toNat + i)
      boxEnd { s1 with lmsLeaf := leaf
                       mem := Memory.setBytes s1.mem (hostBase + (boxArg s1 1).toNat) (attestReport s1 nonce leaf) } 0

/-- CLRENRG (R398); an argument that names no accumulator is refused. -/
def execMbClrenrg (s : State) : Host.Outcome State Fault Refusal :=
  mailboxCommand s 5 fun s1 =>
    let n := (boxArg s1 0).toNat
    if n < 12 || n = packageMeter then
      boxEnd { s1 with meters := Tab.set s1.meters n { meterOf s1 n with accum := 0, frac := 0 } } 0
    else boxEnd s1 1

/-- ERRLOG (R394). The corrections are those of soft errors, which the model does not show: a free value
(notes/assumptions/3.md). -/
def execMbErrlog (s : State) : Host.Outcome State Fault Refusal :=
  mailboxCommand s 6 fun s1 =>
    let s2 := (freeValue s1).2
    boxEnd { s2 with box := { s2.box with
      res := [(0, (freeValue s1).1), (1, BitVec.ofNat 64 s2.uncorrected), (2, BitVec.ofNat 64 s2.gateBad), (3, s2.rootEvent)].foldl
        (fun t p => Tab.set t p.1 p.2) s2.box.res } } 0

/-- The partitions that stand in the slots of a partition. -/
def slotSharers (s : State) (p : Nat) : List Nat :=
  (layoutParts s.layout).filter fun q => q != p && (Tab.find? s.partsOut q).isNone
    && entSlots (layoutEntry s p) &&& entSlots (layoutEntry s q) != 0

/-- SWAP (R386): the swap is to be done; one in has the partitions that hold its slots moved out first. A partition without full swap,
or one whose slots such a partition holds, is refused; one that is already where it is to be stays. -/
def execMbSwap (s : State) : Host.Outcome State Fault Refusal :=
  mailboxCommand s 7 fun s1 =>
    let p := (boxArg s1 0).toNat
    let out := (boxArg s1 1).getLsbD 0
    let others := slotSharers s1 p
    if 12 ≤ p || !entFsw (layoutEntry s1 p) || !isLive s1 (p + 1) || (!out && others.any fun q => !entFsw (layoutEntry s1 q)) then boxEnd s1 1
    else if (Tab.find? s1.partsOut p).isSome == out then boxEnd s1 0
    else
      { s1 with swapAsks := (s1.swapAsks.filter fun a => a.part != p && !others.contains a.part)
          ++ (if out then [] else others.map fun q => ⟨q, true, false⟩) ++ [⟨p, out, true⟩] }

/-- A write of MBCMD with any other OP (R394). -/
def execMbBadop (op : BitVec 8) (s : State) : Host.Outcome State Fault Refusal :=
  if 1 ≤ op.toNat && op.toNat ≤ 7 then .next s else mailboxCommand s op.toNat fun s1 => boxEnd s1 2

/-! ### Events that Summit reports -/

/-- The completion write of an asynchronous event: MBRES3 names it, by a code that is open (notes/assumptions/3.md). -/
def tellHost (s : State) : State :=
  let s1 := (freeValue s).2
  { s1 with box := { s1.box with res := Tab.set s1.box.res 3 (freeValue s).1, told := s1.box.told + 1 } }

/-- WATCHDOG_RESET (R387): phase 2 runs again from its start, or phase 1 is rolled back; the host is told. -/
def execWatchdogReset (s : State) : Host.Outcome State Fault Refusal :=
  if s.ljState = 2 then .next (tellHost (applyLayout s))
  else if s.ljState = 1 then .next (tellHost (boxEnd { s with staged := [], ljState := 0 } 1))
  else .next s

/-- GATE_REFUSAL (R385): the packet is dropped and the violation counted. -/
def execGateRefusal (slot : Nat) (s : State) : Host.Outcome State Fault Refusal :=
  if slot < 64 then .next (tellHost { s with gateBad := s.gateBad + 1 }) else .next s

/-- LINK_DOWN (R393): accesses to host memory fail until the link retrains. -/
def execLinkDown (s : State) : Host.Outcome State Fault Refusal :=
  if s.linkUp then .next (tellHost { s with linkUp := false }) else .next s

/-- LINK_RETRAINED (R393): the notify writes that fell due meanwhile are sent in ring order. -/
def execLinkRetrained (s : State) : Host.Outcome State Fault Refusal :=
  if s.linkUp then .next s
  else
    .next { s with linkUp := true, notifies := []
                   mem := s.notifies.foldl (fun m n => Memory.write m n.1 4 n.2.toNat) s.mem }

end Sys2Proof.Machine
end

