-- ==== Sys2Proof/Machine/Failures.lean ====
section
/-! DEFINITION. Failures of units (R8, R280, R330, R294) and the partition full swap (R386). -/

namespace Sys2Proof.Machine

/-! ### Errors in a column controller's state (R280) -/

/-- A participant of a barrier that is lost: a thread that waits there takes an integrity trap; one that a handler interrupted
arrives again. -/
def waiterLost (s : State) (p : Nat × Nat × Nat) : State :=
  let th := getThread s p.1 p.2.1 p.2.2
  let s1 := modThread s p.1 p.2.1 p.2.2 fun x => { x with fl := { x.fl with arrived := none } }
  if th.st == .wait then raiseTrap s1 p.1 p.2.1 (wordRec 0x09 p.2.2 (fetchPc th) 0 0) else s1

/-- A barrier whose state is lost: it is unbound, and its waiters take integrity traps. -/
def barrierError (s : State) (slot n : Nat) : State :=
  let b := barrierOf s slot n
  b.parts.foldl waiterLost (putBarrier s slot n { b with bnd := false, arr := 0, parts := [], failed := true })

/-- The operations that wait at an object answer with a failing state. -/
def waitersFail (s : State) (ops : List ReqOp) (pa : Nat) : State :=
  { s with reqs := s.reqs.map fun r =>
      if r.waiting && ops.contains r.op && locPa r.loc == pa then { r with stage := .applied, waiting := false, bad := true } else r }

/-- A versioned word whose tags or values are lost. -/
def versionError (s : State) (pa : Nat) : State :=
  waitersFail { s with vwords := Tab.set s.vwords pa { vwordOf s pa with poisoned := true } } [.ldv, .stv, .reclaim] pa

/-- A deque that is lost: it is emptied, and its segments return (R274). -/
def dequeError (s : State) (slot n : Nat) : State :=
  waitersFail (putDeque s slot n { dequeOf s slot n with q := [], segs := 0, failed := true }) [.push, .pop, .steal] (locPa (dequeLoc slot n))

/-- UNCORRECTABLE_STATE_ERROR (R280): a versioned word is poisoned, a barrier unbound, a deque emptied. -/
def execUncorrectableStateError (what : StateError) (s : State) : Host.Outcome State Fault Refusal :=
  let s1 := { s with uncorrected := s.uncorrected + 1 }
  match what with
  | .versioned addr => .next (versionError s1 (addr / 8 * 8))
  | .barrier slot n => .next (barrierError s1 slot (n % 16))
  | .deque slot n => .next (dequeError s1 slot (n % 16))

/-- A channel whose head entry fails its check code (R71, R330). -/
def spoilHead (c : Chan) : Chan :=
  match c.q with
  | x :: rest => { c with q := { x with crc := ~~~ entryCode x.kind.toNat x.payload } :: rest }
  | [] => c

/-- A part of a store fails for good (R71, R225, R280, R366): its consumer finds it. -/
def storeError (s : State) (what : StoreFault) : State :=
  let s1 := { s with uncorrected := s.uncorrected + 1 }
  match what with
  | .mem line => if s1.memBad.contains line || isRegister (64 * line) then s1 else { s1 with memBad := s1.memBad ++ [line] }
  | .sp tile line => modTile s1 tile fun t => if t.spBad.contains line then t else { t with spBad := t.spBad ++ [line] }
  | .acc tile pair => modTile s1 tile fun t => if t.accBad.contains pair then t else { t with accBad := t.accBad ++ [pair] }
  | .plane tile k => modTile s1 tile fun t => { t with planes := Tab.set t.planes k { Tab.get Plane.empty t.planes k with bad := true } }
  | .entry tile key => modChan s1 tile key spoilHead

/-! ### Units that fail (R8, R280, R330) -/

/-- The bound placements of a tile end TILEFAIL, naming it. -/
def failTile (s : State) (tile : Nat) : State :=
  ((s.places.filter fun p => p.2.tile == tile).map Prod.fst).foldl (fun acc id => endPlacement acc id 7 0 tile) s

/-- TILE_FAILURE (R8, R280, R330): the tile is removed from placement. -/
def execTileFailure (tile : Nat) (s : State) : Host.Outcome State Fault Refusal :=
  if 256 ≤ tile || (getTile s tile).removed then .next s
  else .next (modTile (failTile s tile) tile fun t => { t with removed := true })

/-- The launches with placements that wait for a die end TILEFAIL, naming its first tile. DESIGN CHOICE for the tile
(notes/assumptions/115.md). -/
def failWaiting (s : State) (die : Nat) : State :=
  ((s.launches.filter fun l => l.2.waiting.any fun p => handedTo l.2 p == some die).map Prod.fst).foldl
    (fun acc id => failLaunch acc id 7 0 (die * 64)) s

/-- DIE_SCHEDULER_FAILURE (R330): the die goes out of service, and the launches with placements on it, bound or waiting, end
TILEFAIL. -/
def execDieSchedulerFailure (die : Nat) (s : State) : Host.Outcome State Fault Refusal :=
  if 4 ≤ die || s.dieOut.contains die then .next s
  else .next (failWaiting ((List.range 64).foldl (fun acc k => failTile acc (die * 64 + k)) { s with dieOut := s.dieOut ++ [die] }) die)

/-- An SC access to a slot that has gone out of service (R294): it raises an access fault, precise to its word. -/
def scLost (s : State) (r : Req) : State :=
  match r.agent with
  | .thread t i n => raiseTrap (unbusy (dropReq s r.id) r.agent r.id) t i { wordRec 0x06 n r.pc r.va 0 with late := true }
  | _ => dropReq s r.id

/-- The SC accesses to a slot that are not yet performed. -/
def scOfSlot (s : State) (slot : Nat) : List Req :=
  s.reqs.filter fun r => r.sc && !isApplied r && (match r.loc with
    | .mem pa => (match placeOf pa with | .column n _ => n == slot | _ => false)
    | .sp _ _ => false)

/-- COLUMN_CONTROLLER_FAILURE (R280, R294): Summit removes the slot from service: the token's ring closes around its controller, the
SC accesses on their way to it fault, and its tiles are removed from placement. -/
def execColumnControllerFailure (slot : Nat) (s : State) : Host.Outcome State Fault Refusal :=
  if 64 ≤ slot || (Tab.get Column.reset s.columns slot).removed then .next s
  else
    let s1 := modColumn s slot fun c => { c with removed := true }
    let s2 := if s1.scToken = slot / 16 * 48 + slot % 16 then
        { s1 with scToken := nextNode s1 192 s1.scToken, scDone := 0, scAt := tokenComes s1 (nextNode s1 192 s1.scToken) } else s1
    .next ((slotTiles slot).foldl failTile ((scOfSlot s2 slot).foldl scLost s2))

/-! ### Partition full swap (R386) -/

/-- The tiles of a partition. -/
def partTiles (s : State) (p : Nat) : List Nat := (entSlotList (layoutEntry s p)).flatMap slotTiles

/-- Whether a tile is halted for a full swap: it has no step edge ahead. -/
def tileHalted (t : Tile) : Bool := 2 ^ 127 ≤ t.clk.since

/-- A tile halted at an instant boundary, quiescent (R322); one with nothing active at once; a tile out of service is. -/
def haltTile (s : State) (tile : Nat) : State :=
  let t := getTile s tile
  if tileHalted t || t.removed then s
  else if (activeSet t).ctx.isNone || leaveReady s tile then
    setTile s tile { t with clk := clockPause t.clk s.dcc (2 ^ 128) t.clk.gearL }
  else s

/-- A tile's own equipment, which no partition takes with it, with the stores of another and the droop settings and count that its
partition's threads see (R15, R123). -/
def withStores (hw st : Tile) : Tile :=
  { hw with
    vregs := st.vregs, sp := st.sp, spBad := st.spBad, acc := st.acc, accBad := st.accBad, istore := st.istore, planes := st.planes
    plown := st.plown, luts := st.luts, chans := st.chans, active := st.active, set0 := st.set0, set1 := st.set1
    swapReady := st.swapReady, parked := st.parked
    drpHalf := st.drpHalf, drpStr := st.drpStr, drpTh := st.drpTh, drpCnt := st.drpCnt }

/-- Both sets of a tile follow it to another number. -/
def shiftTile (s : State) (t u : Nat) : State :=
  shiftRefs (shiftRefs s ⟨(t, 0), (u, 0), 0, 2 ^ 21, 0⟩) ⟨(t, 1), (u, 1), 0, 0, 0⟩

/-- A tile with its active set replaced. -/
def modActive (t : Tile) (f : CtxSet → CtxSet) : Tile := putTileSet t t.active (f (activeSet t))

/-- A halted tile's stores moved out, under the number `u`: the tile itself is empty and counts on. -/
def storeOut (s : State) (tile u : Nat) : State :=
  let t := getTile s tile
  let tsc := clockTsc t.clk s.dcc
  let out := modActive t fun c => { idleRegions c s.dcc with leftAt := tsc }
  let hw := { withStores t Tile.reset with clk := ⟨tsc, s.dcc, t.therm, 0⟩, effL := t.therm, trans := none }
  let s1 := setTile (setTile (shiftTile s tile u) u { out with removed := true }) tile hw
  { s1 with places := Tab.mapAll (fun _ p => if p.tile = tile && p.set.isSome then { p with tile := u } else p) s1.places }

/-- A partition's tile brought back from the number `u`. -/
def storeIn (s : State) (tile u : Nat) : State :=
  let hw := getTile s tile
  let tsc := clockTsc hw.clk s.dcc
  let back := modActive (getTile s u) fun c => idleRegions (returnedSet c tsc) s.dcc
  let gear := (activeSet back).reqL || hw.therm
  let s1 := shiftTile { s with tiles := Tab.erase s.tiles u } u tile
  let s2 := setTile s1 tile { withStores hw back with clk := ⟨tsc, s.dcc, gear, 0⟩, effL := gear }
  { s2 with places := Tab.mapAll (fun _ p => if p.tile = u && p.set.isSome then { p with tile := tile } else p) s2.places }

/-- The barriers and deques of a column, without its own equipment. -/
def columnStores (hw st : Column) : Column := { hw with verswait := st.verswait, bars := st.bars, deques := st.deques }

/-- A partition whose tiles are halted moved out: the stores, then its columns' barriers and deques. -/
def movePartOut (s : State) (p : Nat) (byHost : Bool) : State :=
  let ts := (partTiles s p).map fun t => (t, 1024 + 64 * (s.serial + t))
  let s1 := ts.foldl (fun acc x => storeOut acc x.1 x.2) { s with serial := s.serial + 256 }
  let slots := entSlotList (layoutEntry s p)
  let cols := slots.map fun n => (n, Tab.get Column.reset s1.columns n)
  { s1 with
    columns := slots.foldl (fun t n => Tab.set t n (columnStores (Tab.get Column.reset t n) Column.reset)) s1.columns
    partsOut := Tab.set s1.partsOut p ⟨p, ts, cols.foldl (fun t c => Tab.set t c.1 c.2) [], byHost⟩ }

/-- A partition moved in. -/
def movePartIn (s : State) (v : PartSave) : State :=
  let s1 := { s with columns := v.cols.foldl (fun t c => Tab.set t c.1 (columnStores (Tab.get Column.reset t c.1) c.2)) s.columns
                     partsOut := Tab.erase s.partsOut v.part }
  v.tiles.foldl (fun acc x => storeIn acc x.1 x.2) s1

/-- A swap done: its request goes, and a host's command has been performed. -/
def askDone (s : State) (a : SwapAsk) : State :=
  let s1 := { s with swapAsks := s.swapAsks.filter fun x => x != a }
  if a.byHost then boxEnd s1 0 else s1

/-- A swap out goes on: tiles halt, and when all are halted the partition moves. -/
def swapOutStep (s : State) (a : SwapAsk) : State :=
  let s1 := (partTiles s a.part).foldl haltTile s
  if (partTiles s a.part).all fun t => tileHalted (getTile s1 t) || (getTile s1 t).removed then
    askDone (movePartOut s1 a.part a.byHost) a
  else s1

/-- A swap in, once nothing else stands in the partition's slots. -/
def swapInStep (s : State) (a : SwapAsk) : State :=
  match Tab.find? s.partsOut a.part with
  | some v => if (slotSharers s a.part).isEmpty then askDone (movePartIn s v) a else s
  | none => askDone s a

/-- What Summit does of itself in rotation among partitions with full swap that share slots: a running one is moved out where one that
the host did not send out waits for its slots, which comes in when they are free. -/
def rotation (s : State) (p : Nat) : Option SwapAsk :=
  let waits (q : Nat) : Bool := q != p && entFsw (layoutEntry s q) && entSlots (layoutEntry s p) &&& entSlots (layoutEntry s q) != 0
    && (match Tab.find? s.partsOut q with | some v => !v.byHost | none => false)
  match Tab.find? s.partsOut p with
  | some v => if v.byHost || !(slotSharers s p).isEmpty then none else some ⟨p, false, false⟩
  | none => if (List.range 12).any waits then some ⟨p, true, false⟩ else none

/-- PARTITION_FULL_SWAP (R386): a swap that is to be done goes on, or one of Summit's rotation begins. -/
def execPartitionFullSwap (part : Nat) (s : State) : Host.Outcome State Fault Refusal :=
  if 12 ≤ part || !entFsw (layoutEntry s part) || s.boot != .running then .next s
  else
    match s.swapAsks.find? fun a => a.part == part with
    | some a => .next (if a.out then swapOutStep s a else swapInStep s a)
    | none =>
      match rotation s part with
      | some a => .next { s with swapAsks := s.swapAsks ++ [a] }
      | none => .next s

end Sys2Proof.Machine
end

