-- ==== Sys2Proof/Machine/Loading.lean ====
section
/-! DEFINITION. DISPATCH (R311 to R313): the kernel descriptor, the windows, planes, code, data and relocations of a
placement, and the threads that it binds. -/

namespace Sys2Proof.Machine

/-! ### The kernel descriptor (R311) -/

/-- A field of the kernel descriptor: the 64-bit word at an offset, bits hi to lo. -/
def kdField (kd : List (BitVec 64)) (off hi lo : Nat) : Nat := bits (kd.getD (off / 8) 0).toNat hi lo

/-- The 32 bits of RINGBe. -/
def kdRing (kd : List (BitVec 64)) (e : Nat) : Nat := kdField kd (0x48 + e / 2 * 8) (32 * (e % 2) + 31) (32 * (e % 2))
/-- LSZ of RINGBe. -/
def kdLsz (kd : List (BitVec 64)) (e : Nat) : Nat := bits (kdRing kd e) 27 24
/-- BASE of RINGBe, in 64-byte units. -/
def kdBase (kd : List (BitVec 64)) (e : Nat) : Nat := bits (kdRing kd e) 20 6
/-- TQCFGn. -/
def kdTq (kd : List (BitVec 64)) (n : Nat) : Nat := kdField kd (0x60 + n / 8 * 8) (8 * (n % 8) + 7) (8 * (n % 8))
/-- V of thread t. -/
def kdHas (kd : List (BitVec 64)) (t : Nat) : Bool := bit (kdField kd 0x08 63 0) (16 * t + 15)
/-- ENT of thread t. -/
def kdEnt (kd : List (BitVec 64)) (t : Nat) : Nat := kdField kd 0x08 (16 * t + 12) (16 * t)
/-- NWORD. -/
def kdNword (kd : List (BitVec 64)) : Nat := kdField kd 0x10 13 0
/-- GEAR. -/
def kdGear (kd : List (BitVec 64)) : Bool := bit (kdField kd 0x10 63 0) 16
/-- PLREQ. -/
def kdPlreq (kd : List (BitVec 64)) : Nat := kdField kd 0x10 23 20
/-- DSIZE. -/
def kdDsize (kd : List (BitVec 64)) : Nat := kdField kd 0x20 23 0
/-- DOFF, in 16-byte units. -/
def kdDoff (kd : List (BitVec 64)) : Nat := kdField kd 0x20 40 24
/-- VLEN. -/
def kdVlen (kd : List (BitVec 64)) : Nat := kdField kd 0x40 9 0
/-- SPLEN. -/
def kdSplen (kd : List (BitVec 64)) : Nat := kdField kd 0x40 26 16
/-- ACCLEN. -/
def kdAcclen (kd : List (BitVec 64)) : Nat := kdField kd 0x40 43 32
/-- ILEN. -/
def kdIlen (kd : List (BitVec 64)) : Nat := kdField kd 0x40 61 48

/-- A code of PROD or CONS that R125 names. -/
def partyOk (n : Nat) : Bool := n ≤ 5 || n == 8 || n == 15

/-- Whether the reserved fields of a descriptor are 0 (R311, R312). -/
def kdReserved (kd : List (BitVec 64)) : Bool :=
  kdField kd 0x00 63 56 == 0 && (List.range 4).all (fun t => kdField kd 0x08 (16 * t + 14) (16 * t + 13) == 0)
    && kdField kd 0x10 15 14 == 0 && kdField kd 0x10 19 17 == 0 && kdField kd 0x10 63 24 == 0 && kdField kd 0x18 63 56 == 0
    && kdField kd 0x20 63 41 == 0 && kdField kd 0x28 63 56 == 0 && kdField kd 0x30 63 56 == 0 && kdField kd 0x38 63 16 == 0
    && kdField kd 0x40 15 10 == 0 && kdField kd 0x40 31 27 == 0 && kdField kd 0x40 47 44 == 0 && kdField kd 0x40 63 62 == 0
    && (List.range 6).all (fun e => bits (kdRing kd e) 31 28 == 0 && bits (kdRing kd e) 23 21 == 0 && bits (kdRing kd e) 5 0 == 0)
    && kdField kd 0x78 63 59 == 0

/-- Whether the windows that a descriptor requests keep R125 and fit the context's shares (R312). -/
def kdWindows (kd : List (BitVec 64)) (sh : Share) : Bool :=
  kdVlen kd % 8 == 0 && kdAcclen kd % 128 == 0 && kdIlen kd % 64 == 0
    && kdVlen kd ≤ sh.v && kdSplen kd ≤ sh.sp && kdAcclen kd ≤ sh.acc && kdIlen kd ≤ sh.il

/-- Whether a descriptor's ring is well formed: no ring, or 2^LSZ words in the share beyond the shape table (R312). -/
def kdRingOk (kd : List (BitVec 64)) (e : Nat) : Bool :=
  let z := kdLsz kd e
  z == 0 || (3 ≤ z && z ≤ 12 && 0x400 ≤ kdBase kd e * 64 && kdBase kd e * 64 + 8 * 2 ^ z ≤ kdSplen kd * 2048)

/-- Whether a descriptor passes the checks of R312 that concern it alone. -/
def kdOk (kd : List (BitVec 64)) (sh : Share) : Bool :=
  kdReserved kd && kdWindows kd sh && kdNword kd ≤ kdIlen kd
    && (kdField kd 0x18 55 0 == 0 || kdDoff kd * 16 + kdDsize kd ≤ kdSplen kd * 2048)
    && (List.range 6).all (kdRingOk kd) && (List.range 16).all (fun n => partyOk (kdTq kd n % 16) && partyOk (kdTq kd n / 16))

/-! ### Relocation (R313) -/

/-- The value of a relocation symbol for a placement; none for a reserved code. -/
def relocSym (l : Launch) (p : Placement) (sym : Nat) : Option Nat :=
  match sym with
  | 0 => some 0
  | 1 => some (recArgs l.words)
  | 2 => some p.p
  | 3 => some p.tile
  | 4 => some (tileSlot p.tile)
  | 5 => some (tileDie p.tile)
  | 6 => some l.ctx
  | 7 => some (recLid l.words)
  | _ => none

/-- `n` bytes of a list replaced, little-endian, from an index. -/
def putBytes (bs : List Byte) (at_ n v : Nat) : List Byte := bs.take at_ ++ leBytes v n ++ bs.drop (at_ + n)

/-- A code word with its LIT field replaced (R17). -/
def putLit (w : BitVec 128) (v : Nat) : BitVec 128 :=
  (w &&& ~~~(0xFFFFFFFF00000000 : BitVec 128)) ||| BitVec.ofNat 128 (v % 2 ^ 32 * 2 ^ 32)

/-- A relocation applied to the data image and the code; none where it gives LOADFAIL. -/
def relocate (l : Launch) (p : Placement) (img : List Byte × List (BitVec 128)) (w0 w1 : BitVec 64) :
    Option (List Byte × List (BitVec 128)) :=
  let at_ := bits w0.toNat 47 0
  match relocSym l p (bits w0.toNat 59 56) with
  | none => none
  | some sym =>
    let v := (sym + w1.toNat) % 2 ^ 64
    if bits w0.toNat 55 48 != 0 then none
    else
      match bits w0.toNat 63 60 with
      | 1 => if at_ + 8 ≤ img.1.length then some (putBytes img.1 at_ 8 v, img.2) else none
      | 2 => if at_ + 4 ≤ img.1.length then some (putBytes img.1 at_ 4 v, img.2) else none
      | 3 => if at_ < img.2.length then some (img.1, img.2.set at_ (putLit (img.2.getD at_ 0) v)) else none
      | 4 => if at_ < img.2.length then some (img.1, img.2.set at_ (putLit (img.2.getD at_ 0) (v / 2 ^ 32))) else none
      | _ => none

/-- The relocation records applied in order. -/
def relocateAll (l : Launch) (p : Placement) : List (BitVec 64) → List Byte × List (BitVec 128) → Option (List Byte × List (BitVec 128))
  | w0 :: w1 :: rest, img => (relocate l p img w0 w1).bind fun r => relocateAll l p rest r
  | _, img => some img

/-- Pairs of 64-bit words as code words. -/
def pairWords : List (BitVec 64) → List (BitVec 128)
  | a :: b :: t => BitVec.ofNat 128 (b.toNat * 2 ^ 64 + a.toNat) :: pairWords t
  | _ => []

/-! ### What a dispatch loads -/

/-- What a placement loads: its descriptor, shape table, data image and code, relocated. -/
structure Loaded where
  kd     : List (BitVec 64)
  shapes : List Byte
  data   : List Byte
  code   : List (BitVec 128)
deriving DecidableEq, Repr

/-- A read of `n` bytes that an address of 0 leaves out. -/
def sysImage (s : State) (ctx va n : Nat) : Option (List Byte × State) :=
  if va = 0 then some ([], s) else sysBytes n s ctx va

/-- What a placement loads, and the state with the demand pages it touched; none where a read faults or a check of R312 or R313
fails. -/
def loadKernel (s : State) (l : Launch) (p : Placement) : Option (Loaded × State) :=
  match sysWords 16 s l.ctx (recKdesc l.words) with
  | none => none
  | some (kd, s1) =>
    if !kdOk kd (Tab.get ⟨0, 0, 0, 0⟩ (getCtx s l.ctx).shares p.tile) || (kdGear kd && !bit (features s) 0) then none
    else
      (sysImage s1 l.ctx (kdField kd 0x28 55 0) 1024).bind fun sh =>
      (sysImage sh.2 l.ctx (kdField kd 0x18 55 0) (kdDsize kd)).bind fun da =>
      (sysWords (2 * kdNword kd) da.2 l.ctx (kdField kd 0x00 55 0)).bind fun co =>
      (sysWords (2 * kdField kd 0x38 15 0) co.2 l.ctx (kdField kd 0x30 55 0)).bind fun re =>
      (relocateAll l p re.1 (da.1, pairWords co.1)).map fun im => (⟨kd, sh.1, im.1, im.2⟩, re.2)

/-- The set of a placement before its threads are bound (R312): windows, rings, queues and slack of the descriptor, every
other register at its reset value. -/
def freshSet (ctx id : Nat) (kd : List (BitVec 64)) : CtxSet :=
  { CtxSet.reset with
    ctx := some ctx, place := some id, plreq := kdPlreq kd
    vlen := kdVlen kd, splen := kdSplen kd, acclen := kdAcclen kd, ilen := kdIlen kd
    ringLsz := (List.range 6).map fun e => (e, kdLsz kd e)
    ringBase := (List.range 6).map fun e => (e, kdBase kd e)
    tqcfg := (List.range 16).map fun n => (n, BitVec.ofNat 8 (kdTq kd n))
    slk := (List.range 4).map fun n => (n, BitVec.ofNat 16 (kdField kd 0x70 (16 * n + 15) (16 * n)))
    reqL := kdGear kd }

/-- A thread bound at dispatch (R312): p, c, d and LID in s60 to s63, the counts of the T levels in k0 upward, and the PC. -/
def boundThread (l : Launch) (p ent : Nat) (gearing : Bool) : Thread :=
  let trips := (l.levels.filter fun x => x.1 == 0).map Prod.snd
  { Thread.reset with
    s := [(60, BitVec.ofNat 64 p), (61, BitVec.ofNat 64 (p % l.nc)), (62, BitVec.ofNat 64 (p / l.nc)), (63, BitVec.ofNat 64 (recLid l.words))]
    k := (List.range trips.length).map fun j => (j, loopCounter (trips.getD j 0) 0)
    pc := ent, st := .run, fl := { Flight.none with gearing := gearing } }

/-- A tile with the windows of a set zeroed and loaded: scratchpad, vector registers and accumulator rows to 0, then the shape
table, as far as the share reaches, the data image and the code (R312). DEDUCED for the clipping (notes/assumptions/121.md). -/
def loadWindows (t : Tile) (c : CtxSet) (x : Loaded) : Tile :=
  let sp0 := Memory.clear t.sp (c.spbase * 2048) (c.splen * 2048)
  let sp1 := Memory.setBytes sp0 (c.spbase * 2048) (x.shapes.take (c.splen * 2048))
  { t with
    vregs := tabRest t.vregs c.vbase c.vlen
    acc := tabRest t.acc (c.accbase * 128) (c.acclen * 128)
    accBad := listRest t.accBad (c.accbase * 64) (c.acclen * 64)
    sp := Memory.setBytes sp1 (c.spbase * 2048 + kdDoff x.kd * 16) x.data
    spBad := listRest t.spBad (c.spbase * 32) (c.splen * 32)
    istore := (List.range x.code.length).foldl (fun m i => Tab.set m (c.ibase + i) (x.code.getD i 0)) t.istore }

/-- The planes of PLREQ in the hands of a set (R312). -/
def grantPlanes (t : Tile) (i : Nat) (req : Nat) : Tile :=
  let n := t.plown.toNat
  { t with plown := BitVec.ofNat 4 (if i = 1 then n ||| req else n &&& (15 ^^^ req)) }

/-- The set that a dispatch takes on a tile: the active one if it is empty, else the other if that is. -/
def emptySet (t : Tile) : Option Nat :=
  if (tileSet t t.active).ctx.isNone then some t.active
  else if (tileSet t (otherSet t.active)).ctx.isNone then some (otherSet t.active)
  else none

/-- A placement loaded and bound on a set of its tile (R312). -/
def bindPlacement (s : State) (id : Nat) (p : Placement) (l : Launch) (i : Nat) (c0 : CtxSet) (x : Loaded) : State :=
  let t := getTile s p.tile
  let shift := t.active == i && kdGear x.kd != t.effL && !t.therm
  let c := { c0 with
    threads := ((List.range 4).filter (kdHas x.kd)).map fun n => (n, boundThread l p.p (kdEnt x.kd n) shift)
    gearPend := if shift then some (4, clockTsc t.clk s.dcc, kdGear x.kd) else none
    leftAt := clockTsc t.clk s.dcc }
  let t1 := putTileSet (grantPlanes (loadWindows t c x) i (kdPlreq x.kd)) i c
  { setTile s p.tile t1 with places := Tab.set s.places id { p with set := some i, going := true } }

/-- The placement of a tile that waits to be dispatched. -/
def toDispatch (s : State) (tile : Nat) : Option (Nat × Placement) :=
  List.find? (fun (p : Nat × Placement) => p.2.tile == tile && !p.2.going && ctxRuns s p.2.ctx) s.places

/-- The addresses that a dispatch reads: the descriptor, the shape table, the data image, the code and the relocations. -/
def loadAddrs (s : State) (l : Launch) : List Nat :=
  let image (va n : Nat) : List Nat := if va = 0 then [] else (List.range n).map fun i => va + i
  match sysWords 16 s l.ctx (recKdesc l.words) with
  | some (kd, _) =>
    wordAddrs (recKdesc l.words) 16 ++ image (kdField kd 0x28 55 0) 1024 ++ image (kdField kd 0x18 55 0) (kdDsize kd)
      ++ wordAddrs (kdField kd 0x00 55 0) (2 * kdNword kd) ++ wordAddrs (kdField kd 0x30 55 0) (2 * kdField kd 0x38 15 0)
  | none => wordAddrs (recKdesc l.words) 16

/-- A placement whose kernel could not be loaded: it waits for a frame that its reads need, or its launch fails with LOADFAIL (R312). -/
def loadFailed (s : State) (l : Launch) (tile : Nat) : State :=
  match starvedAt (loadAddrs s l) s l.ctx with
  | some va => starveLaunch s l va tile
  | none => failLaunch s l.id 3 0 tile

/-- DISPATCH (R312): a placement of a tile is loaded into a set whose windows and planes are clear of the other set's, or its
launch fails with LOADFAIL. -/
def execDispatch (tile : Nat) (s : State) : Host.Outcome State Fault Refusal :=
  match toDispatch s tile with
  | none => .next s
  | some (id, p) =>
    match launchOf s p.launch, emptySet (getTile s tile) with
    | some l, some i =>
      match loadKernel s l p with
      | none => .next (loadFailed s l tile)
      | some (x, s1) =>
        let t := getTile s1 tile
        let held := planesHeld t (otherSet i)
        match placeWindows (freshSet l.ctx id x.kd) (tileSet t (otherSet i)) with
        | some c =>
          if held.any fun k => bit (kdPlreq x.kd) k then .next s else .next (bindPlacement s1 id p l i c x)
        | none => .next s
    | _, _ => .next s

end Sys2Proof.Machine
end

