-- ==== Sys2Proof/Machine/Snap.lean ====
section
/-! DEFINITION. Cairn snapshots of graphs (R325 to R329, R337, R338). -/

namespace Sys2Proof.Machine

/-! ### Graphs (R325) -/

/-- The elements of a set that stand in regions. -/
def heldElems (c : CtxSet) : List Nat := (List.range 32).filter fun e => (slotOfElem c e).isSome

/-- The far end of a link from a tile of a context, if a region of the context stands there. -/
def farSet (s : State) (ctx tile e : Nat) : Option (Nat × Nat) :=
  let p := linkEnd e
  let u := tile / 64 * 64 + p.1
  match setOfCtx (getTile s u) ctx with
  | some j => if (slotOfElem (getSet s u j) p.2.1).isSome then some (u, j) else none
  | none => none

/-- The sets that links join to a set's regions. -/
def joinedSets (s : State) (ctx : Nat) (p : Nat × Nat) : List (Nat × Nat) :=
  let c := getSet s p.1 p.2
  (heldElems c).flatMap fun e =>
    let im := imageOf (getTile s p.1) e (planeOf c e)
    (List.range 8).flatMap fun n =>
      (if inKind im n = 1 && !inLoc im n then (farSet s ctx p.1 (inFrom im n)).toList else [])
        ++ (if outKind im n = 1 && !outLoc im n then (farSet s ctx p.1 (outTo im n)).toList else [])

/-- The sets of a context that links join to some sets, themselves included. -/
def graphSets (s : State) (ctx : Nat) : Nat → List (Nat × Nat) → List (Nat × Nat)
  | 0, l => l
  | fuel + 1, l =>
    let m := (l ++ l.flatMap (joinedSets s ctx)).eraseDups
    if m.length = l.length then l else graphSets s ctx fuel m

/-- The graph that holds a set's regions: its tiles with the set on each. -/
def graphAt (s : State) (tile set : Nat) : List (Nat × Nat) := graphSets s ((getSet s tile set).ctx.getD 0) 64 [(tile, set)]

/-- The channels of a set's region sources. -/
def sourceKeys (s : State) (p : Nat × Nat) : List Nat :=
  let c := getSet s p.1 p.2
  (heldElems c).flatMap fun e =>
    let im := imageOf (getTile s p.1) e (planeOf c e)
    ((List.range 8).filter fun i => inKind im i == 2).map fun i => chanKey p.2 e i

/-- The instants of which the sources of a graph have delivered an entry, counted. -/
def sourceCounts (s : State) (tiles : List (Nat × Nat)) : List Nat :=
  tiles.flatMap fun p => (sourceKeys s p).map fun k => (chanOf (getTile s p.1) k).next

/-- Whether a snapshot of a graph at an instant can be armed (R325): its regions run, none is pending, no source has delivered an
entry for an instant above K. -/
def canArm (s : State) (tiles : List (Nat × Nat)) (k : Nat) : Bool :=
  tiles.all (fun p => (graphOf s p.1 p.2).isNone && (List.range 4).all fun r =>
    !regionHeld (regionOf (getSet s p.1 p.2) r) || (regionOf (getSet s p.1 p.2) r).st == .running)
    && (sourceCounts s tiles).all fun n => n = 0 || instReached k (n - 1)

/-- A snapshot of a graph armed (R325, R328). -/
def armGraph (s : State) (ctx : Nat) (tiles : List (Nat × Nat)) (k : Nat) (sched : Bool) : State :=
  let (id, s1) := newSerial s
  let n := ((getCtx s ctx).snapId + 1) % 65536
  let s2 := modCtx s1 ctx fun c => { c with snapId := n }
  let s3 := { s2 with graphs := Tab.set s2.graphs id ⟨id, ctx, k, n, tiles, [], [], [], sched⟩ }
  tiles.foldl (fun acc p => modSet acc p.1 p.2 fun c => { c with snapK := k, snapId := n, snapDone := false, snapBusy := true }) s3

/-- SNAP (R325). -/
def execSnap (w : TWord) (s : State) : Host.Outcome State Fault Refusal :=
  .next (runWord w s fun s1 =>
    let a := (argA w s1).toNat
    let tiles := graphAt s1 s1.focus.tile s1.focus.set
    if bits a 31 2 != 0 || (regionOf (curSet s1) (a % 4)).st != .running || !canArm s1 tiles (a / 2 ^ 32) then illegalOperand s1
    else .done (armGraph s1 (curCtx s1) tiles (a / 2 ^ 32) false))

/-! ### CAIRN_RECORD (R326, R338) -/

/-- Whether an input has delivered the cairn: a CAIRN stands at its head, or its END has come. -/
def cairnCame (e : Elem) (im : Image) (i : Nat) : Bool :=
  e.cairnIn.contains i || (inState e i).ended || (inDly im i && (lineOf e (inDln im i)).any fun l => l.kind == 2)

/-- The outputs of an element to which a CAIRN goes: the connected ones that have not carried END. -/
def cairnOuts (s : State) (tile set elem : Nat) (im : Image) : List Nat :=
  (outputs im).filter fun o =>
    match outTarget s tile set im elem o with
    | some (u, key) => !(chanOf (getTile s u) key).ended
    | none => false

/-- Whether an element writes its record now. -/
def recordReady (s : State) (tile set elem : Nat) (g : Graph) : Bool :=
  let c := getSet s tile set
  let e := elemOfSet c elem
  let im := imageNow s tile set elem
  edgeNow s tile && !(getTile s tile).removed && (getTile s tile).active == set && e.rxs.isEmpty && e.fault.isNone
    && !g.elems.contains (tile * 32 + elem) && (slotOfElem c elem).isSome && (e.finished || !instReached g.k e.inst)
    && (connected im).all (cairnCame e im) && (cairnOuts s tile set elem im).all fun o => 1 ≤ outFree s tile set im elem o

/-- An element's record written: its CAIRNs are consumed, its channels offer no slot, and a CAIRN goes to every output. -/
def recordElem (s : State) (tile set elem n : Nat) (g : Graph) : State :=
  let im := imageNow s tile set elem
  let e := elemOfSet (getSet s tile set) elem
  let s1 := (connected im).foldl (fun acc i =>
    let key := chanKey set elem i
    modChan (if e.cairnIn.contains i then popEntry acc tile key else acc) tile key fun c => { c with shut := true }) s
  let cairn := sideEntry 6 (BitVec.ofNat 64 (g.k % 2 ^ 32 * 2 ^ 32 + g.ident % 65536 * 65536))
  let s2 := (cairnOuts s tile set elem im).foldl (fun acc o => writeOut acc tile set elem im o [cairn]) s1
  { s2 with graphs := Tab.mapAll (fun m x => if m = n then { x with elems := x.elems ++ [tile * 32 + elem] } else x) s2.graphs }

/-- CAIRN_RECORD (R326): an element past instant K whose inputs have all delivered a CAIRN or ended. -/
def execCairnRecord (tile elem : Nat) (s : State) : Host.Outcome State Fault Refusal :=
  let set := (getTile s tile).active
  match graphOf s tile set with
  | some (n, g) => if recordReady s tile set elem g then .next (recordElem s tile set elem n g) else .next s
  | none => .next s

/-! ### The snapshot's bytes (R327, R323) -/

/-- Numbers at byte offsets, as one number. -/
def packAt (l : List (Nat × Nat)) : Nat := (l.map fun p => p.2 * 2 ^ (8 * p.1)).sum

/-- An entry as a slot of 72 bytes (R323). -/
def slotNat (e : Entry) : Nat := packAt [(0, e.payload.toNat), (64, e.crc.toNat), (66, e.kind.toNat)]

/-- A region block. -/
def regionBlock (c : CtxSet) (tile slot : Nat) : List Byte :=
  let g := regionOf c slot
  leBytes (packAt ((0, tile % 256 + slot * 2 ^ 8 + g.pe % 2 * 2 ^ 10 + g.px % 2 * 2 ^ 11 + flagAt g.ens 12 + flagAt g.exs 13
    + g.front % 2 ^ 32 * 2 ^ 32) :: (List.range 8).map fun p => (8 + 4 * p, portPos c p % 2 ^ 32))) 64

/-- An element record. -/
def elemRecord (e : Elem) : List Byte :=
  let flag (f : InState → Bool) (base : Nat) : Nat := ((List.range 8).map fun i => flagAt (f (inState e i)) (base + i)).sum
  let input (i : Nat) : Nat × Nat :=
    let v := inState e i
    (0x240 + 16 * i, v.ty % 16 + v.sm % 4 * 2 ^ 4 + v.len % 65536 * 2 ^ 16 + v.codes.toNat * 2 ^ 64)
  let line (d : Nat) : List (Nat × Nat) :=
    let l := lineOf e d
    (List.range l.length).map fun i =>
      (0x340 + 1152 * d + 72 * i, match l[i]? with | some x => slotNat (mkEntry x.kind.toNat x.item) | none => 0)
  let fault := match e.fault with
    | some f => [(0x2C0, f.w0.toNat), (0x2C8, f.w1.toNat), (0x300, f.value.toNat)]
    | none => []
  leBytes (packAt ([(0, e.inst % 2 ^ 32 + flagAt e.finished 32 + flag InState.ended 40),
      (8, ((List.range 8).map fun i => (inState e i).drain % 32 * 2 ^ (5 * i)).sum)]
    ++ ((List.range 8).map fun p => (0x40 + 64 * p, (Tab.get 0 e.ports p).toNat)) ++ (List.range 8).map input ++ fault
    ++ (List.range 4).flatMap line)) 5632

/-- The number of a channel in reports (R92): tile within its die, element and consuming input. -/
def chanNumber (tile elem inp : Nat) : Nat := 2048 * (tile % 64) + 8 * elem + inp

/-- A channel record: held items, then entries. -/
def chanRecord (n : Nat) (c : Chan) : List Byte :=
  leBytes (n + c.q.length % 65536 * 2 ^ 32 + c.held.length % 65536 * 2 ^ 48) 16
    ++ (c.held.map fun v => leBytes (slotNat (dataEntry v)) 72).flatten ++ (c.q.map fun e => leBytes (slotNat e) 72).flatten

/-- The bytes of a snapshot. -/
def snapshotBytes (s : State) (g : Graph) : List Byte :=
  let tiles := (List.range 256).flatMap fun t => g.tiles.filter fun p => p.1 == t
  let regions := tiles.flatMap fun p =>
    ((List.range 4).filter fun r => regionHeld (regionOf (getSet s p.1 p.2) r)).map fun r => (p, r)
  let elems := regions.flatMap fun x => (regionElems (regionOf (getSet s x.1.1 x.1.2) x.2)).map fun e => (x.1, e)
  let chans := tiles.flatMap fun p => (heldElems (getSet s p.1 p.2)).flatMap fun e =>
    (connected (imageOf (getTile s p.1) e (planeOf (getSet s p.1 p.2) e))).map fun i => (p, e, i)
  let body := (regions.flatMap fun x => regionBlock (getSet s x.1.1 x.1.2) x.1.1 x.2)
    ++ (elems.flatMap fun x => elemRecord (elemOfSet (getSet s x.1.1 x.1.2) x.2))
    ++ chans.flatMap fun x => chanRecord (chanNumber x.1.1 x.2.1 x.2.2) (chanOf (getTile s x.1.1) (chanKey x.1.2 x.2.1 x.2.2))
  leBytes (packAt [(0, g.k % 2 ^ 32 * 2 ^ 32 + g.ident % 65536 * 65536),
    (8, regions.length + elems.length * 2 ^ 16 + chans.length * 2 ^ 32), (16, 64 + body.length)]) 64 ++ body

/-- The bytes of a context's save range on a die before its snapshot space (R371). -/
def saveNeed (c : Ctx) (die : Nat) : Nat :=
  c.scrn * 4672 + ((c.shares.filter fun p => tileDie p.1 == die).map fun p => 327680 + shareSize p.2).sum

/-- A snapshot written into its context's save range, as far as it fits (notes/assumptions/31.md). -/
def writeSnapshot (s : State) (g : Graph) : State :=
  let die := tileDie ((g.tiles.headD (0, 0)).1)
  let c := getCtx s g.ctx
  match Tab.find? c.saves die with
  | some (base, size) =>
    let bs := (snapshotBytes s g).take (size - saveNeed c die)
    { s with mem := Memory.setBytes s.mem (base + saveNeed c die) bs }
  | none => s

/-! ### SNAPSHOT_COMPLETE (R326) -/

/-- Whether every element of a tile of a graph has written its record and every sink has counted a CAIRN or END. -/
def tileRecorded (s : State) (g : Graph) (p : Nat × Nat) : Bool :=
  let c := getSet s p.1 p.2
  (heldElems c).all (fun e => g.elems.contains (p.1 * 32 + e)) && (List.range 4).all fun r =>
    let x := regionOf c r
    !regionHeld x || x.sinks.all fun k => g.sinks.contains (p.1, k.1) || x.ends.contains k.1

/-- A tile's set leaves with its graph, as at a swap: the transfers through its regions end short (R362). -/
def leaveWithGraph (s : State) (id : Nat) (p : Nat × Nat) : State :=
  let s1 := (List.range 4).foldl (fun acc r =>
    if regionHeld (regionOf (getSet acc p.1 p.2) r) then shortTransfers acc p.1 p.2 r else acc) s
  leaveTile { s1 with graphs := Tab.mapAll (fun n g => if n = id then { g with tiles := g.tiles.erase p } else g) s1.graphs } p.1 p.2 (some id)

/-- SNAPSHOT_COMPLETE (R326): once every record is written, the snapshot's bytes are in the save range, and each tile leaves the set
at the first point that a swap would take. -/
def execSnapshotComplete (graph : Nat) (s : State) : Host.Outcome State Fault Refusal :=
  match Tab.find? s.graphs graph with
  | some g =>
    if !g.tiles.isEmpty && g.tiles.all fun p => tileRecorded s g p then
      let s1 := if (graphSaved s graph).isEmpty then writeSnapshot s g else s
      .next (g.tiles.foldl (fun acc p =>
        if p.1 < 256 && (Tab.find? acc.graphs graph).isSome && ((getTile acc p.1).active != p.2 || leaveReady acc p.1) then leaveWithGraph acc graph p
        else acc) s1)
    else .next s
  | none => .next s

/-! ### GRAPH_RESTORE (R329, R337) -/

/-- A link descriptor with its tile field moved, where its kind is link and its LOC bit is 0. -/
def movedLink (w : BitVec 64) (loc : Nat) (d : Int) : BitVec 64 :=
  if bits w.toNat 63 62 = 1 && !bit w.toNat loc then
    BitVec.ofNat 64 (w.toNat - bits w.toNat 61 56 * 2 ^ 56 + wrapI ((bits w.toNat 61 56 : Nat) + d) 6 * 2 ^ 56)
  else w

/-- An image with its link ends on other tiles moved (R88, R329). -/
def movedImage (d : Int) (im : Image) : Image :=
  { im with words := Tab.mapAll (fun i w =>
      if 112 ≤ i && i < 120 then movedLink w 32 d else if 120 ≤ i && i < 128 then movedLink w 43 d else w) im.words }

/-- A set restored with its graph: its links' tile fields are moved, its channels take entries again, SNAPST.DONE := 1. -/
def restoredTile (t : Tile) (i : Nat) (d : Int) : Tile :=
  let held := planesHeld t i
  let c := tileSet t i
  putTileSet
    { t with
      planes := Tab.mapAll (fun k p => if held.contains k then { p with imgs := Tab.mapAll (fun _ im => movedImage d im) p.imgs } else p) t.planes
      chans := Tab.mapAll (fun k ch => if k / 1024 = i then { ch with shut := false } else ch) t.chans } i
    { c with snapDone := true, snapBusy := false, elems := Tab.mapAll (fun _ e => { e with cairnIn := [] }) c.elems }

/-- A set of a graph restored on a target tile; none where the tile has no place for it yet. -/
def restoreSet (s : State) (v : SavedSet) (target : Nat) (d : Int) : Option State :=
  let i := otherSet (getTile s target).active
  let s1 := if (getSet s target i).ctx.isSome && (graphOf s target i).isNone then leaveTile s target i none else s
  (bringIn s1 v target i).map fun s2 => modTile s2 target fun t => restoredTile t i d

/-- The sets of a graph restored in order, all or none. -/
def restoreAll (s : State) (d : Int) : List (SavedSet × Nat) → Option State
  | [] => some s
  | (v, t) :: rest => (restoreSet s v t d).bind fun s1 => restoreAll s1 d rest

/-- Whether a graph that is out may be restored now: one of a SNAP at once, one of the die scheduler's own when its context's slice
comes (R373). -/
def restoreDue (s : State) (id : Nat) (g : Graph) : Bool :=
  !g.sched || (graphSaved s id).any fun v => wantedCtx s v.tile == some g.ctx

/-- GRAPH_RESTORE (R329, R337): the graph's sets go onto the tiles of the first offset that qualifies, and run on from instant
K + 1. -/
def execGraphRestore (graph : Nat) (s : State) : Host.Outcome State Fault Refusal :=
  match Tab.find? s.graphs graph with
  | some g =>
    if g.tiles.isEmpty && !(graphSaved s graph).isEmpty && ctxRuns s g.ctx && restoreDue s graph g then
      match graphPlan s graph g with
      | some (_, d, ts) =>
        match restoreAll s (d.1 + 8 * d.2) ((graphSaved s graph).zip ts) with
        | some s1 => .next { s1 with graphs := Tab.erase s1.graphs graph }
        | none => .next s
      | none => .next s
    else .next s
  | none => .next s

/-! ### The die scheduler's turn on a tile (R373) -/

/-- The set of a saved context that waits for a tile, out of it without a graph. -/
def savedFor (s : State) (tile ctx : Nat) : Option SavedSet :=
  s.saved.find? fun v => v.tile == tile && v.ctx == ctx && v.graph.isNone

/-- The active set of a tile is to make room (R373, R325): it is exchanged, or, where its graph spans tiles, the graph is snapshot at
the least instant that no source has passed. -/
def preempt (s : State) (tile : Nat) : State :=
  let set := (getTile s tile).active
  let tiles := graphAt s tile set
  let k := (sourceCounts s tiles).foldl Nat.max 0 - 1
  if (graphOf s tile set).isSome then s
  else if 1 < tiles.length && !(heldElems (getSet s tile set)).isEmpty && canArm s tiles k then
    armGraph s ((getSet s tile set).ctx.getD 0) tiles k true
  else modTile s tile fun t => { t with swapReady := true }

/-- The die scheduler's turn on a tile (R373): the context whose time it is comes to stand in the inactive set, and the sets are
exchanged. -/
def schedulerTurn (s : State) (tile : Nat) : State :=
  let t := getTile s tile
  let o := otherSet t.active
  if 256 ≤ tile || t.removed then s
  else
    match wantedCtx s tile with
    | none => s
    | some w =>
      let s1 := (freeValue s).2
      match setOfCtx t w with
      | some i => if i = t.active then s1 else preempt s1 tile
      | none =>
        if (tileSet t o).ctx.isNone then (match savedFor s1 tile w with | some v => (bringIn s1 v tile o).getD s1 | none => s1)
        else if (activeSet t).ctx.isNone then modTile s1 tile fun x => { x with swapReady := true }
        else if t.swapReady || (graphOf s tile o).isSome then s1
        else leaveTile s1 tile o none

end Sys2Proof.Machine
end

