-- ==== Sys2Proof/Machine/Monitor.lean ====
section
/-! DEFINITION. The progress monitor of regions (R91 to R95, R322, R324, R414) and the linking of scree segments (R274, R323,
R390). -/

namespace Sys2Proof.Machine

/-! ### Waits (R92) -/

/-- An edge of the wait-for relation: the element waited for (tile, set and number), the consuming element and input of the channel between, and
whether it is a full wait. -/
structure WaitEdge where
  dst  : Nat × Nat × Nat
  tile : Nat
  set  : Nat
  elem : Nat
  inp  : Nat
  full : Bool
deriving DecidableEq, Repr

/-- The element at the far end of a link: on the same tile and set, or in a region of the context on another tile (R333). -/
def farElem (s : State) (tile set : Nat) (loc : Bool) (v : Nat) : Option (Nat × Nat × Nat) :=
  if loc then some (tile, set, (linkEnd v).2.1)
  else (farSet s ((getSet s tile set).ctx.getD 0) tile v).map fun p => (p.1, p.2, (linkEnd v).2.1)

/-- The U-wait of an element on an input: an edge where an element produces it. -/
def uEdge (s : State) (tile set : Nat) (im : Image) (elem i : Nat) : Option WaitEdge :=
  if inKind im i = 1 then (farElem s tile set (inLoc im i) (inFrom im i)).map fun d => ⟨d, tile, set, elem, i, false⟩ else none

/-- The full wait of an element on an output: an edge where an element consumes it. -/
def fullEdge (s : State) (tile set : Nat) (im : Image) (o : Nat) : Option WaitEdge :=
  if outKind im o = 1 then
    (farElem s tile set (outLoc im o) (outTo im o)).map fun d => ⟨d, d.1, d.2.1, d.2.2, (linkEnd (outTo im o)).2.2, true⟩
  else none

/-- The edge of an element whose reaction lacks a free slot on an output: that of the lowest-numbered full one (R92 rule 2). -/
def fullWait (s : State) (tile set elem : Nat) (im : Image) (h : Option Nat) : Option WaitEdge :=
  ((outputs im).find? fun o => outFree s tile set im elem o < slotsFor (elemOfSet (getSet s tile set) elem) im h o).bind (fullEdge s tile set im)

/-- The edge of an element's wait, by the first rule of R92 that applies; none where its wait has none, as while a fault is
held, of a reaction or of stage 1 (R117). -/
def elemWait (s : State) (tile set elem : Nat) : Option WaitEdge :=
  let t := getTile s tile
  let e := elemOfSet (getSet s tile set) elem
  let im := imageNow s tile set elem
  let st := inStatus t set elem im e
  let past := match graphOf s tile set with | some (_, g) => !instReached g.k e.inst | none => false
  if e.finished || !e.rxs.isEmpty || e.fault.isSome || past then none
  else if allEnded im e then fullWait s tile set elem im none
  else
    match topHandler im st with
    | some h =>
      match (List.range 8).find? fun i => st i == 0 && hPat im h i != 0 with
      | some i => uEdge s tile set im elem i
      | none => fullWait s tile set elem im (some h)
    | none =>
      match (List.range 8).find? fun i => st i == 0 with
      | some i => uEdge s tile set im elem i
      | none => fullWait s tile set elem im none

/-! ### Cycles (R93) -/

/-- The edges from an element back to a start, with the elements on the way; none where the way ends or is too long. -/
def wayBack (next : Nat × Nat × Nat → Option WaitEdge) (start : Nat × Nat × Nat) : Nat → Nat × Nat × Nat → Option (List ((Nat × Nat × Nat) × WaitEdge))
  | 0, _ => none
  | fuel + 1, e =>
    match next e with
    | none => none
    | some w => if w.dst = start then some [(e, w)] else (wayBack next start fuel w.dst).map fun l => (e, w) :: l

/-- The edge of an element as the monitor of a region sees it: one of the region's own elements, or one of a region that links join to it on
another tile (R333), where an entry that stage 1 has still to take is no U-wait. -/
def seenWait (s : State) (tile set slot : Nat) (e : Nat × Nat × Nat) : Option WaitEdge :=
  let own (d : Nat × Nat × Nat) : Bool := d.1 == tile && d.2.1 == set
  let es := regionElems (regionOf (getSet s tile set) slot)
  match if own e && !es.contains e.2.2 then none else elemWait s e.1 e.2.1 e.2.2 with
  | some w =>
    if (own w.dst && !es.contains w.dst.2.2)
        || (!own e && !w.full && !(chanOf (getTile s w.tile) (chanKey w.set w.elem w.inp)).q.isEmpty) then none
    else some w
  | none => none

/-- The cycles of the wait-for relation through a region, each once: from the lowest-numbered of the region's elements on it. -/
def waitCycles (s : State) (tile set slot : Nat) : List (List WaitEdge) :=
  (regionElems (regionOf (getSet s tile set) slot)).filterMap fun e =>
    match wayBack (seenWait s tile set slot) (tile, set, e) 2048 (tile, set, e) with
    | some l => if l.all fun p => p.1.1 != tile || p.1.2.1 != set || e ≤ p.1.2.2 then some (l.map Prod.snd) else none
    | none => none

/-- The number of an edge's channel (R92). -/
def edgeChan (w : WaitEdge) : Nat := chanNumber w.tile w.elem w.inp

/-- The edge of the lowest-numbered channel. -/
def lowestEdge (l : List WaitEdge) : Option WaitEdge :=
  l.foldl (fun b w => match b with | some x => if edgeChan w < edgeChan x then some w else b | none => some w) none

/-- The cycle of U-waits that is reported: where one snapshot finds several, the one that holds the lowest-numbered channel.
R93 and R94 do not say which. DESIGN CHOICE (notes/assumptions/97.md). -/
def causalityCycle (cs : List (List WaitEdge)) : Option (WaitEdge × Nat) :=
  ((cs.filter fun l => l.all fun w => !w.full).filterMap fun l => (lowestEdge l).map fun w => (w, l.length)).foldl
    (fun b x => match b with | some y => if edgeChan x.1 < edgeChan y.1 then some x else b | none => some x) none

/-- The channels that take a segment: of each cycle with a full wait, the lowest-numbered that carries one (R95). -/
def capacityEdges (cs : List (List WaitEdge)) : List WaitEdge := (cs.filterMap fun l => lowestEdge (l.filter fun w => w.full)).eraseDups

/-! ### The monitor (R91, R322) -/

/-- CAUSEWAIT's ticks: values below 64 act as 64. -/
def waitTicks (c : CtxSet) : Nat := Nat.max 64 c.causewait.toNat

/-- Whether a region's monitor takes a snapshot: the region runs, its set is active and not paused, no source or sink waits on a
stopped port, and no entry has moved for CAUSEWAIT ticks. -/
def monitorDue (s : State) (tile slot : Nat) : Bool :=
  let t := getTile s tile
  let c := activeSet t
  let g := regionOf c slot
  !t.removed && t.clk.since < s.dcc && g.st == .running && !c.stopReq && c.gearPend.isNone && g.moved + waitTicks c ≤ s.dcc
    && (portsOfRegion t c slot).all fun p =>
      !parkedOn s (.port tile t.active p) && (match portIn c p with | some x => !x.stopped | none => true)

/-- The scree segments of a context in use on a die: its channels' and rings', and those of its deques (R323). -/
def screeUsed (s : State) (ctx die : Nat) : Nat :=
  Tab.get 0 (getCtx s ctx).scrnUsed die + ((s.columns.filter fun c => c.1 / 16 == die).map fun c =>
    ((c.2.deques.filter fun d => d.2.en && d.2.ctx == ctx).map fun d => d.2.segs).sum).sum

/-- Whether a context's scree pool on a die has a segment left. -/
def screeLeft (s : State) (ctx die : Nat) : Bool := screeUsed s ctx die < (getCtx s ctx).scrn

/-- A segment taken from a context's pool on a die for a channel or a ring. -/
def takeSegment (s : State) (ctx die : Nat) : State :=
  modCtx s ctx fun c => { c with scrnUsed := Tab.set c.scrnUsed die (Tab.get 0 c.scrnUsed die + 1) }

/-- A region stopped by its monitor, with the record of the fault (R94, R95). -/
def monitorStop (s : State) (tile slot cause : Nat) (det0 det1 : BitVec 64) : State :=
  let set := (getTile s tile).active
  raiseTrap (modRegion s tile set slot fun g => { g with st := .stopped }) tile set (unitRec cause 3 0 slot 0 0 det0 det1)

/-- Whether a channel can take a segment: it holds fewer than 8 and the pool of its die is not empty (R95, R323). -/
def canLink (s : State) (w : WaitEdge) : Bool :=
  (chanOf (getTile s w.tile) (chanKey w.set w.elem w.inp)).segs < 8
    && screeLeft s ((getSet s w.tile w.set).ctx.getD 0) (tileDie w.tile)

/-- WAIT_SNAPSHOT (R91 to R95): a cycle of U-waits stops the region with cause 0x15; a capacity cycle that no segment can resolve, with
cause 0x16; another goes to the die scheduler, which links segments (SCREE_LINK); without a cycle the count starts again. -/
def execWaitSnapshot (tile slot : Nat) (s : State) : Host.Outcome State Fault Refusal :=
  let set := (getTile s tile).active
  let cs := waitCycles s tile set slot
  if !monitorDue s tile slot then .next s
  else
    match causalityCycle cs with
    | some (w, n) =>
      .next (monitorStop s tile slot 0x15 (BitVec.ofNat 64 (edgeChan w))
        (BitVec.ofNat 64 ((elemOfSet (getSet s w.tile w.set) w.elem).inst % 2 ^ 32 + n % 65536 * 2 ^ 32)))
    | none =>
      match (capacityEdges cs).find? fun w => !canLink s w with
      | some w => .next (monitorStop s tile slot 0x16 (BitVec.ofNat 64 (edgeChan w)) 0)
      | none => if cs.isEmpty then .next (modRegion s tile set slot fun g => { g with moved := s.dcc }) else .next s

/-! ### SCREE_LINK (R95, R274, R323, R324, R390) -/

/-- A segment linked into a channel. -/
def linkChannel (s : State) (w : WaitEdge) : State :=
  modChan (takeSegment s ((getSet s w.tile w.set).ctx.getD 0) (tileDie w.tile)) w.tile (chanKey w.set w.elem w.inp) fun c => { c with segs := c.segs + 1 }

/-- SCRN of a region after segments are linked: the delay from the snapshot on, and the segments (R324). -/
def linkedReport (w : BitVec 48) (delay n : Nat) : BitVec 48 :=
  BitVec.ofNat 48 (Nat.min (w.toNat / 65536 + delay) (2 ^ 32 - 1) * 65536 + (w.toNat % 65536 + n) % 65536)

/-- The segments of a region's capacity cycles linked, and the region resumed. -/
def linkRegion (s : State) (tile slot : Nat) (es : List WaitEdge) : State :=
  let set := (getTile s tile).active
  let c := getSet s tile set
  let delay := s.dcc - ((regionOf c slot).moved + waitTicks c)
  modSet (es.foldl (fun acc w => linkChannel acc w) s) tile set fun x =>
    { x with scrn := Tab.set x.scrn slot (linkedReport (Tab.get 0 x.scrn slot) delay es.length)
             regions := Tab.set x.regions slot { regionOf x slot with moved := s.dcc } }

/-- A deque's waiting push: performed where there is room, or once a segment is linked; an empty pool gives the capacity fault (R274,
R323). -/
def linkDeque (s : State) (slot n : Nat) : State :=
  let d := dequeOf s slot n
  match s.reqs.find? fun r => r.op == .push && r.waiting && dequeOfLoc r.loc == (slot, n) with
  | some r =>
    if d.failed then s
    else if !d.en || d.ctx != reqCtx s r then answerWithTrap s r 0x06 0
    else if d.q.length < dequeRoom d then performPush s r
    else if 8 ≤ d.segs || !screeLeft s d.ctx (slot / 16) then answerWithTrap s r 0x16 (BitVec.ofNat 64 (slot * 16 + n))
    else performPush (putDeque s slot n { d with segs := d.segs + 1 }) r
  | none => s

/-- Whether a completion record waits for an event ring. -/
def recordWaits (s : State) (ctx ring : Nat) : Bool :=
  s.launches.any fun l => l.2.ctx == ctx && recEvr l.2.words == ring && l.2.signalled && !l.2.recorded

/-- A segment linked into a full event ring for whose records its segments have no room (R390). -/
def linkRing (s : State) (ctx ring : Nat) : State :=
  let x := ringOver s ctx ring
  let die := leadDie s ctx
  let full := match ringEntry s ctx ring with | some e => !ringRoom e | none => false
  if recordWaits s ctx ring && full && x.q.length = 64 * x.segs && x.segs < 8 && screeLeft s ctx die then
    let s1 := takeSegment s ctx die
    { s1 with rings := Tab.set s1.rings (ringNumber ctx ring) { x with segs := x.segs + 1 } }
  else s

/-- SCREE_LINK (R323): the die scheduler links a segment into a channel on a capacity cycle, a deque or an event ring. -/
def execScreeLink (what : ScreeTarget) (s : State) : Host.Outcome State Fault Refusal :=
  match what with
  | .channel tile elem inp =>
    let set := (getTile s tile).active
    match slotOfElem (getSet s tile set) elem with
    | some slot =>
      let cs := waitCycles s tile set slot
      let es := capacityEdges cs
      if monitorDue s tile slot && (causalityCycle cs).isNone && (es.any fun w => edgeChan w == chanNumber tile elem inp) && es.all fun w => canLink s w then
        .next (linkRegion s tile slot es)
      else .next s
    | none => .next s
  | .deque slot n => .next (linkDeque s slot n)
  | .ring ctx n => .next (linkRing s ctx n)

end Sys2Proof.Machine
end

