-- ==== Sys2Proof/Machine/Predicate.lean ====
section
/-! DEFINITION. The predicate instructions (R144, R145). -/

namespace Sys2Proof.Machine

/-- CMP (R144). -/
def execCmp (w : TWord) (s : State) : Host.Outcome State Fault Refusal :=
  .next (runWord w s fun s1 => .done (writeP s1 w.d (predOf (cmpHolds w.modf (srcA w s1) (srcB w s1)))))

/-- A word that combines two predicates. -/
def predWord (w : TWord) (f : BitVec 32 → BitVec 32 → BitVec 32) (s : State) : Host.Outcome State Fault Refusal :=
  .next (runWord w s fun s1 => .done (writeP s1 w.d (f (readP (curThread s1) w.a) (readP (curThread s1) w.b))))

/-- PAND (R145). -/
def execPand (w : TWord) (s : State) : Host.Outcome State Fault Refusal := predWord w (fun a b => a &&& b) s

/-- POR (R145). -/
def execPor (w : TWord) (s : State) : Host.Outcome State Fault Refusal := predWord w (fun a b => a ||| b) s

/-- PXOR (R145). -/
def execPxor (w : TWord) (s : State) : Host.Outcome State Fault Refusal := predWord w (fun a b => a ^^^ b) s

/-- PNOT (R145). -/
def execPnot (w : TWord) (s : State) : Host.Outcome State Fault Refusal := predWord w (fun a _ => ~~~a) s

/-- PSET (R145). -/
def execPset (w : TWord) (s : State) : Host.Outcome State Fault Refusal :=
  .next (runWord w s fun s1 => .done (writeP s1 w.d ((argA w s1).setWidth 32)))

/-- PGET (R145). -/
def execPget (w : TWord) (s : State) : Host.Outcome State Fault Refusal :=
  .next (runWord w s fun s1 => .done (writeS s1 w.d ((readP (curThread s1) w.a).setWidth 64)))

/-- The number of one bits of a predicate (R145). -/
def onesOf (v : BitVec 32) : Nat := ((List.range 32).filter fun i => v.getLsbD i).length

/-- PCNT (R145). -/
def execPcnt (w : TWord) (s : State) : Host.Outcome State Fault Refusal :=
  .next (runWord w s fun s1 => .done (writeS s1 w.d (BitVec.ofNat 64 (onesOf (readP (curThread s1) w.a)))))

end Sys2Proof.Machine
end

