-- ==== Sys2Proof/Machine/Scalar.lean ====
section
/-! DEFINITION. The scalar integer and address instructions (R140 to R143). -/

namespace Sys2Proof.Machine

/-- A scalar word whose destination is computed from the state before it. -/
def scalarWord (w : TWord) (value : State → BitVec 64) (s : State) : Host.Outcome State Fault Refusal :=
  .next (runWord w s fun s1 => .done (writeS s1 w.d (value s1)))

/-- A two-operand integer instruction (R141). -/
def scalarOp (w : TWord) (op : Nat → Bool → Int → Int → Int) (s : State) : Host.Outcome State Fault Refusal :=
  scalarWord w (fun s1 => scalarValue w.modf op (srcA w s1) (srcB w s1)) s

/-- A bitwise operation on the low `w` bits. -/
def bitOp (f : Nat → Nat → Nat) (w : Nat) (_ : Bool) (a b : Int) : Int := (f (wrapI a w) (wrapI b w) : Nat)

/-- The position and length of BFX and BFI (R142). -/
def fieldPosLen (b : BitVec 64) : Nat × Nat := (bits b.toNat 5 0, bits b.toNat 11 6 + 1)

/-- The number of leading zeros of the low `w` bits. -/
def clzN : Nat → Nat → Nat
  | _, 0 => 0
  | x, w + 1 => if bit x w then 0 else clzN x w + 1

/-- The number of trailing zeros below bit `w`, counting from bit `i`. -/
def ctzN (x : Nat) : Nat → Nat → Nat
  | _, 0 => 0
  | i, w + 1 => if bit x i then 0 else ctzN x (i + 1) w + 1

/-- The number of one bits below bit `w`. -/
def popcN (x : Nat) : Nat → Nat
  | 0 => 0
  | w + 1 => (if bit x w then 1 else 0) + popcN x w

/-- The low `w` bits rotated left by `n` below `w`. -/
def rolN (x w n : Nat) : Nat := (x * 2 ^ n + x / 2 ^ (w - n)) % 2 ^ w

/-- NOP (R142). -/
def execNop (w : TWord) (s : State) : Host.Outcome State Fault Refusal := .next (runWord w s fun s1 => .done s1)

/-- MOV (R142). -/
def execMov (w : TWord) (s : State) : Host.Outcome State Fault Refusal := scalarWord w (fun s1 => srcA w s1) s

/-- MOVH: the high half of D replaced (R142). -/
def execMovh (w : TWord) (s : State) : Host.Outcome State Fault Refusal :=
  scalarWord w (fun s1 =>
    BitVec.ofNat 64 ((srcA w s1).toNat % 2 ^ 32 * 2 ^ 32 + (readS false (curThread s1) w.d).toNat % 2 ^ 32)) s

/-- LEA (R142): B shifted by FN and added to A. -/
def execLea (w : TWord) (s : State) : Host.Outcome State Fault Refusal :=
  scalarWord w (fun s1 => srcA w s1 + srcB w s1 <<< modFn w.modf) s

/-- ADD (R142). -/
def execAdd (w : TWord) (s : State) : Host.Outcome State Fault Refusal :=
  scalarOp w (fun _ _ a b => a + b) s

/-- SUB (R142). -/
def execSub (w : TWord) (s : State) : Host.Outcome State Fault Refusal :=
  scalarOp w (fun _ _ a b => a - b) s

/-- MUL (R142). -/
def execMul (w : TWord) (s : State) : Host.Outcome State Fault Refusal :=
  scalarOp w (fun _ _ a b => a * b) s

/-- MULH: the high half of the product (R142). -/
def execMulh (w : TWord) (s : State) : Host.Outcome State Fault Refusal :=
  scalarOp w (fun wd _ a b => a * b / ((2 ^ wd : Nat) : Int)) s

/-- DIV (R143). -/
def execDiv (w : TWord) (s : State) : Host.Outcome State Fault Refusal :=
  scalarOp w (fun wd sg a b => intDivCases sg wd a b) s

/-- REM (R143). -/
def execRem (w : TWord) (s : State) : Host.Outcome State Fault Refusal :=
  scalarOp w (fun _ _ a b => intRemCases a b) s

/-- MIN (R142). -/
def execMin (w : TWord) (s : State) : Host.Outcome State Fault Refusal :=
  scalarOp w (fun _ _ a b => if a ≤ b then a else b) s

/-- MAX (R142). -/
def execMax (w : TWord) (s : State) : Host.Outcome State Fault Refusal :=
  scalarOp w (fun _ _ a b => if a ≤ b then b else a) s

/-- AND (R142). -/
def execAnd (w : TWord) (s : State) : Host.Outcome State Fault Refusal :=
  scalarOp w (bitOp Nat.land) s

/-- OR (R142). -/
def execOr (w : TWord) (s : State) : Host.Outcome State Fault Refusal :=
  scalarOp w (bitOp Nat.lor) s

/-- XOR (R142). -/
def execXor (w : TWord) (s : State) : Host.Outcome State Fault Refusal :=
  scalarOp w (bitOp Nat.xor) s

/-- ANDN: a and not b (R142). -/
def execAndn (w : TWord) (s : State) : Host.Outcome State Fault Refusal :=
  scalarOp w (bitOp fun a b => a - Nat.land a b) s

/-- SHL by b mod w (R142). -/
def execShl (w : TWord) (s : State) : Host.Outcome State Fault Refusal :=
  scalarOp w (fun wd _ a b => a * ((2 ^ (wrapI b wd % wd) : Nat) : Int)) s

/-- SHR by b mod w (R142). -/
def execShr (w : TWord) (s : State) : Host.Outcome State Fault Refusal :=
  scalarOp w (fun wd _ a b => ((wrapI a wd / 2 ^ (wrapI b wd % wd) : Nat) : Int)) s

/-- SAR by b mod w (R142). -/
def execSar (w : TWord) (s : State) : Host.Outcome State Fault Refusal :=
  scalarOp w (fun wd _ a b => sextN (wrapI a wd) wd / ((2 ^ (wrapI b wd % wd) : Nat) : Int)) s

/-- ROL by b mod w (R142). -/
def execRol (w : TWord) (s : State) : Host.Outcome State Fault Refusal :=
  scalarOp w (fun wd _ a b => (rolN (wrapI a wd) wd (wrapI b wd % wd) : Nat)) s

/-- CLZ (R142). -/
def execClz (w : TWord) (s : State) : Host.Outcome State Fault Refusal :=
  scalarOp w (fun wd _ a _ => (clzN (wrapI a wd) wd : Nat)) s

/-- CTZ (R142). -/
def execCtz (w : TWord) (s : State) : Host.Outcome State Fault Refusal :=
  scalarOp w (fun wd _ a _ => (ctzN (wrapI a wd) 0 wd : Nat)) s

/-- POPC (R142). -/
def execPopc (w : TWord) (s : State) : Host.Outcome State Fault Refusal :=
  scalarOp w (fun wd _ a _ => (popcN (wrapI a wd) wd : Nat)) s

/-- EXT (R142). -/
def execExt (w : TWord) (s : State) : Host.Outcome State Fault Refusal :=
  scalarOp w (fun _ _ a _ => a) s

/-- BFX: a bit field of A, zero- or sign-extended by the type (R142). -/
def execBfx (w : TWord) (s : State) : Host.Outcome State Fault Refusal :=
  scalarWord w (fun s1 =>
    let pl := fieldPosLen (srcB w s1)
    let f := (srcA w s1).toNat / 2 ^ pl.1 % 2 ^ pl.2
    if typeUnsigned w then BitVec.ofNat 64 f else BitVec.ofInt 64 (sextN f pl.2)) s

/-- BFI: the low bits of A put into a bit field of D (R142). -/
def execBfi (w : TWord) (s : State) : Host.Outcome State Fault Refusal :=
  scalarWord w (fun s1 =>
    let pl := fieldPosLen (srcB w s1)
    let mask : BitVec 64 := BitVec.ofNat 64 ((2 ^ pl.2 - 1) * 2 ^ pl.1)
    (readS false (curThread s1) w.d &&& ~~~mask) ||| ((srcA w s1 <<< pl.1) &&& mask)) s

/-- SEL: A where bit 0 of the predicate is 1, else B (R142). -/
def execSel (w : TWord) (s : State) : Host.Outcome State Fault Refusal :=
  scalarWord w (fun s1 => if (readP (curThread s1) w.c).getLsbD 0 then srcA w s1 else srcB w s1) s

end Sys2Proof.Machine
end

