-- ==== Sys2Proof/Machine/Vector.lean ====
section
/-! DEFINITION. Vector arithmetic, compare, select, conversion and block quantisation (R168 to R183). -/

namespace Sys2Proof.Machine

/-! ### The frame of a vector word -/

/-- The register at which a group word begins: IDX where a TRET.RETRY resumes the word, else 0 (R171). -/
def startReg (s : State) : Nat := if (curSet s).vresume.contains s.focus.thr then (curSet s).vprog else 0

/-- The word that a TRET.RETRY resumed has issued. -/
def clearResume (s : State) : State := modCurSet s fun c => { c with vresume := c.vresume.filter fun n => n != s.focus.thr }

/-- The end of a vector word: IDX is 0 again, unless a deferred trap of a VLD or VGATH stands (R153, R171). -/
def vectorDone (s : State) : State :=
  clearResume (if vectorTrapHeld (curTile s) (curSet s) then s else modCurSet s fun c => { c with vprog := 0 })

/-- The elements of width w that a vector register holds. -/
def elemsPer (w : Nat) : Nat := 1024 / w

/-- Register j of a source operand as the state stands. -/
def srcReg (s : State) (width : Nat) (o : Opnd) (j : Nat) : BitVec 1024 := readV (curTile s) (curSet s) width o j

/-- Element e of a source group, counted through its registers (R39, R168). -/
def groupElem (s : State) (width : Nat) (o : Opnd) (e : Nat) : Nat :=
  elemOf (srcReg s width o (e / elemsPer width)) width (e % elemsPer width)

/-- A vector register of its elements. -/
def packReg (width : Nat) (f : Nat → Nat) : BitVec 1024 :=
  BitVec.ofNat 1024 (packElems width ((List.range (elemsPer width)).map f))

/-- The destination group written register by register, each from the state in which the ones before it are written
(R170), from register IDX on where a TRET.RETRY resumes the word (R171): `new` gives register j from its old value. -/
def writeGroup (w : TWord) (mask : BitVec 32) (s : State) (new : State → Nat → BitVec 1024 → BitVec 1024) : State :=
  ((List.range (groupLen w)).filter fun j => startReg s ≤ j).foldl (fun acc j =>
    let old := srcReg acc 32 w.d j
    writeV acc w.d j (maskLanes mask (modZl w.modf) old (new acc j old))) s

/-- A vector word that writes a group (R19, R168). -/
def groupWord (w : TWord) (new : State → Nat → BitVec 1024 → BitVec 1024) (s : State) :
    Host.Outcome State Fault Refusal :=
  .next (runVector w s fun mask s1 => .done (vectorDone (writeGroup w mask s1 new)))

/-- An elementwise operation of T1 (R176): a, b and c are the elements at one position. -/
def elementWord (w : TWord) (f : Nat → Nat → Nat → Nat) (s : State) : Host.Outcome State Fault Refusal :=
  let n := (modTy w.modf).width
  groupWord w (fun acc j _ =>
    let a := srcReg acc n w.a j
    let b := srcReg acc n w.b j
    let c := srcReg acc n w.c j
    packReg n fun e => f (elemOf a n e) (elemOf b n e) (elemOf c n e)) s

/-! ### Floating and integer operations (R174, R175) -/

/-- The code of a floating result in T1, rounded once (R174). -/
def vround (m : BitVec 32) (v : Num) : Nat := (convert .f32 (modTy m) (modRound m) (modSat m) (modFtz m) v).1

/-- An element as a value of T1, subnormals flushed under FTZ (R42). -/
def vdec (m : BitVec 32) (x : Nat) : Num := dec (modTy m) (modFtz m) x

/-- An element as an integer of T1. -/
def vint (m : BitVec 32) (x : Nat) : Int := extw (modTy m).isSigned (modTy m).width x

/-- An integer result of T1 (R175). -/
def vintResult (m : BitVec 32) (t : Int) : Nat :=
  wrapI (if modSat m then clampType (modTy m).isSigned (modTy m).width t else t) (modTy m).width

/-- An arithmetic element operation: on values for a floating T1, on exact integers otherwise. -/
def varith (m : BitVec 32) (f : Num → Num → Num → Num) (g : Int → Int → Int → Int) (a b c : Nat) : Nat :=
  if (modTy m).isInt then vintResult m (g (vint m a) (vint m b) (vint m c))
  else vround m (f (vdec m a) (vdec m b) (vdec m c))

/-- VADD (R176). -/
def execVadd (w : TWord) (s : State) : Host.Outcome State Fault Refusal :=
  elementWord w (varith w.modf (fun a b _ => (numAdd (modRound w.modf) a b).1) fun a b _ => a + b) s

/-- VSUB (R176). -/
def execVsub (w : TWord) (s : State) : Host.Outcome State Fault Refusal :=
  elementWord w (varith w.modf (fun a b _ => (numAdd (modRound w.modf) a (numNegate b)).1) fun a b _ => a - b) s

/-- VMUL (R176). -/
def execVmul (w : TWord) (s : State) : Host.Outcome State Fault Refusal :=
  elementWord w (varith w.modf (fun a b _ => (numMul a b).1) fun a b _ => a * b) s

/-- VMIN (R176). -/
def execVmin (w : TWord) (s : State) : Host.Outcome State Fault Refusal :=
  elementWord w (varith w.modf (fun a b _ => numMinMax false a b) fun a b _ => if a ≤ b then a else b) s

/-- VMAX (R176). -/
def execVmax (w : TWord) (s : State) : Host.Outcome State Fault Refusal :=
  elementWord w (varith w.modf (fun a b _ => numMinMax true a b) fun a b _ => if a ≤ b then b else a) s

/-- VAND (R176). -/
def execVand (w : TWord) (s : State) : Host.Outcome State Fault Refusal := elementWord w (fun a b _ => Nat.land a b) s
/-- VOR (R176). -/
def execVor (w : TWord) (s : State) : Host.Outcome State Fault Refusal := elementWord w (fun a b _ => Nat.lor a b) s
/-- VXOR (R176). -/
def execVxor (w : TWord) (s : State) : Host.Outcome State Fault Refusal := elementWord w (fun a b _ => Nat.xor a b) s

/-- VSHL (R176). -/
def execVshl (w : TWord) (s : State) : Host.Outcome State Fault Refusal :=
  elementWord w (fun a b _ => a * 2 ^ (b % (modTy w.modf).width)) s

/-- VSHR (R176). -/
def execVshr (w : TWord) (s : State) : Host.Outcome State Fault Refusal :=
  elementWord w (fun a b _ => a / 2 ^ (b % (modTy w.modf).width)) s

/-- VSAR (R176). -/
def execVsar (w : TWord) (s : State) : Host.Outcome State Fault Refusal :=
  let n := (modTy w.modf).width
  elementWord w (fun a b _ => wrapI (sextN a n / ((2 ^ (b % n) : Nat) : Int)) n) s

/-- VDIV (R176). -/
def execVdiv (w : TWord) (s : State) : Host.Outcome State Fault Refusal :=
  let t := modTy w.modf
  elementWord w (fun a b c =>
    if t.isInt then wrapI (intDivCases t.isSigned t.width (vint w.modf a) (vint w.modf b)) t.width
    else varith w.modf (fun x y _ => (numDiv x y).1) (fun x _ _ => x) a b c) s

/-- VFMA (R176). -/
def execVfma (w : TWord) (s : State) : Host.Outcome State Fault Refusal :=
  elementWord w (varith w.modf (fun a b c => (numFma (modRound w.modf) a b c).1) fun a b c => a * b + c) s

/-- VFMS (R176). -/
def execVfms (w : TWord) (s : State) : Host.Outcome State Fault Refusal :=
  elementWord w (varith w.modf (fun a b c => (numFma (modRound w.modf) a b (numNegate c)).1) fun a b c => a * b - c) s

/-- VABS (R176). -/
def execVabs (w : TWord) (s : State) : Host.Outcome State Fault Refusal :=
  elementWord w (varith w.modf (fun a _ _ => numAbs a) fun a _ _ => if a < 0 then -a else a) s

/-- VNEG (R176). -/
def execVneg (w : TWord) (s : State) : Host.Outcome State Fault Refusal :=
  elementWord w (varith w.modf (fun a _ _ => numNegate a) fun a _ _ => -a) s

/-- A function of R102 on one element, in T1 (R177). -/
def vfunction (fn : Nat) (m : BitVec 32) (x : Nat) : Nat :=
  match floatFmt (modTy m) with
  | some f =>
    (sfuFn fn (modTy m) f (modRound m) (modSat m) (modFtz m)
      (Config.sfuFallback (fn + (if modFtz m then 16 else 8)) x) (vdec m x)).1
  | none => 0

/-- VRCP (R177). -/
def execVrcp (w : TWord) (s : State) : Host.Outcome State Fault Refusal := elementWord w (fun a _ _ => vfunction 1 w.modf a) s
/-- VSQRT (R177). -/
def execVsqrt (w : TWord) (s : State) : Host.Outcome State Fault Refusal := elementWord w (fun a _ _ => vfunction 2 w.modf a) s
/-- VRSQ (R177). -/
def execVrsq (w : TWord) (s : State) : Host.Outcome State Fault Refusal := elementWord w (fun a _ _ => vfunction 3 w.modf a) s
/-- VEXP2 (R177). -/
def execVexp2 (w : TWord) (s : State) : Host.Outcome State Fault Refusal := elementWord w (fun a _ _ => vfunction 4 w.modf a) s
/-- VLOG2 (R177). -/
def execVlog2 (w : TWord) (s : State) : Host.Outcome State Fault Refusal := elementWord w (fun a _ _ => vfunction 5 w.modf a) s
/-- VTANH (R177). -/
def execVtanh (w : TWord) (s : State) : Host.Outcome State Fault Refusal := elementWord w (fun a _ _ => vfunction 6 w.modf a) s
/-- VSIG (R177). -/
def execVsig (w : TWord) (s : State) : Host.Outcome State Fault Refusal := elementWord w (fun a _ _ => vfunction 7 w.modf a) s

/-- VCLZ (R176). -/
def execVclz (w : TWord) (s : State) : Host.Outcome State Fault Refusal :=
  elementWord w (fun a _ _ => clzN a (modTy w.modf).width) s

/-- VPOPC (R176). -/
def execVpopc (w : TWord) (s : State) : Host.Outcome State Fault Refusal :=
  elementWord w (fun a _ _ => popcN a (modTy w.modf).width) s

/-- VMOV (R176). -/
def execVmov (w : TWord) (s : State) : Host.Outcome State Fault Refusal := elementWord w (fun a _ _ => a) s

/-! ### Compare and select -/

/-- Whether a condition holds between two lanes (R178). -/
def vcmpLane (m : BitVec 32) (a b : Nat) : Bool :=
  let c := (Cond.ofCode (modFn m)).getD .eq
  if modT1 m = 0 then numCond c (vdec m a) (vdec m b) else intCond c (vint m a) (vint m b)

/-- The predicate that a VCMP writes (R178). -/
def vcmpBits (m : BitVec 32) (mask : BitVec 32) (zl : Bool) (old : BitVec 32) (a b : BitVec 1024) : BitVec 32 :=
  BitVec.ofNat 32 (packElems 1 ((List.range 32).map fun i =>
    if mask.getLsbD i then (if vcmpLane m (elemOf a 32 i) (elemOf b 32 i) then 1 else 0)
    else if zl then 0 else (if old.getLsbD i then 1 else 0)))

/-- VCMP (R178). -/
def execVcmp (w : TWord) (s : State) : Host.Outcome State Fault Refusal :=
  .next (runVector w s fun mask s1 =>
    .done (vectorDone (writeP s1 w.d
      (vcmpBits w.modf mask (modZl w.modf) (readP (curThread s1) w.d) (srcReg s1 32 w.a 0) (srcReg s1 32 w.b 0)))))

/-- VSEL (R179). -/
def execVsel (w : TWord) (s : State) : Host.Outcome State Fault Refusal :=
  groupWord w (fun acc j _ =>
    let p := readP (curThread acc) w.c
    let a := srcReg acc (modTy w.modf).width w.a j
    let b := srcReg acc (modTy w.modf).width w.b j
    packReg 32 fun i => if p.getLsbD i then elemOf a 32 i else elemOf b 32 i) s

/-! ### Conversions (R180 to R183) -/

/-- The element of A that a VCVT converts into element e of D, of a group of c registers; none where the element keeps
its value. -/
def vcvtFrom (ws wd c part e : Nat) : Option Nat :=
  if wd < ws then
    let n := 1024 * c / ws
    if part * n ≤ e && e < (part + 1) * n then some (e - part * n) else none
  else if ws < wd then some (part * (1024 * c / wd) + e)
  else some e

/-- VCVT (R180). -/
def execVcvt (w : TWord) (s : State) : Host.Outcome State Fault Refusal :=
  let m := w.modf
  let ws := (modTy2 m).width
  let wd := (modTy m).width
  groupWord w (fun acc j old =>
    packReg wd fun q =>
      match vcvtFrom ws wd (groupLen w) (modFn m) (j * elemsPer wd + q) with
      | some e =>
        (convert (modTy2 m) (modTy m) (modRound m) (modSat m) (modFtz m)
          (dec (modTy2 m) (modFtz m) (groupElem acc ws w.a e))).1
      | none => elemOf old wd q) s

/-- VBSCL (R181). -/
def execVbscl (w : TWord) (s : State) : Host.Outcome State Fault Refusal :=
  .next (runVector w s fun mask s1 =>
    .done (vectorDone (writeGroup w mask s1 fun acc j _ =>
      let a := srcReg acc 32 w.a j
      let l := ((List.range 32).filter fun i => mask.getLsbD i).map fun i => dec .f32 (modFtz w.modf) (elemOf a 32 i)
      let code := blockScale (modTy w.modf) (modRound w.modf) l
      packReg 32 fun _ => code)))

/-- One quantised element of a VQNT (R182). -/
def vqntElem (t : Ty) (ftz : Bool) (x code : Nat) : Nat :=
  if code = 0xFF then canonNan t
  else if code = 0 then 0
  else (convert .f32 t .rne true ftz (numDiv (dec .f32 ftz x) (.real (scaleValue code))).1).1

/-- VQNT (R182). -/
def execVqnt (w : TWord) (s : State) : Host.Outcome State Fault Refusal :=
  let m := w.modf
  let wd := (modTy m).width
  let n := 32 * groupLen w
  groupWord w (fun acc j old =>
    packReg wd fun q =>
      let e := j * elemsPer wd + q
      if modFn m * n ≤ e && e < (modFn m + 1) * n then
        vqntElem (modTy m) (modFtz m) (groupElem acc 32 w.a (e - modFn m * n)) (groupElem acc 32 w.b (e - modFn m * n) % 256)
      else elemOf old wd q) s

/-- VDQNT (R183). -/
def execVdqnt (w : TWord) (s : State) : Host.Outcome State Fault Refusal :=
  let m := w.modf
  let t := modTy2 m
  groupWord w (fun acc j _ =>
    packReg 32 fun i =>
      let x := groupElem acc t.width w.a (32 * groupLen w * modFn m + 32 * j + i)
      vround m (scaledNum (dec t (modFtz m) x) (groupElem acc 32 w.b (32 * j + i) % 256))) s

end Sys2Proof.Machine
end

