-- ==== Sys2Proof/Machine/VectorMove.lean ====
section
/-! DEFINITION. Vector memory words (R184 to R187), permute, rotate, broadcast and extract (R188), reductions and scans
(R189). -/

namespace Sys2Proof.Machine

/-! ### Vector memory -/

/-- The active lanes of a word as register, lane and address, in flat order from a register on. -/
def laneAddrs (w : TWord) (mask : BitVec 32) (start : Nat) (addr : Nat → Nat → Nat) : List (Nat × Nat × Nat) :=
  ((List.range (groupLen w)).filter fun j => start ≤ j).flatMap fun j =>
    ((List.range 32).filter fun i => mask.getLsbD i).map fun i => (j, i, addr j i)

/-- The address of a lane of a VLD or VST (R184). -/
def stripAddr (w : TWord) (s : State) (j i : Nat) : Nat := (effAddr w s + accessSize w.modf * (32 * j + i)) % 2 ^ 56

/-- The address of a lane of a VGATH or VSCAT (R185). -/
def gatherAddr (w : TWord) (s : State) (j i : Nat) : Nat :=
  wrapI ((((argA w s).toNat % 2 ^ 56 : Nat) : Int) + sextN (elemOf (srcReg s 32 w.b j) 32 i) 32) 56

/-- The checks of every lane (R186): the locations, or the first lane that parks or traps. -/
def checkLanes (s : State) (size : Nat) (needR needW : Bool) :
    List (Nat × Nat × Nat) → Except (Nat × Checked) (List (Nat × Nat × Nat × Loc))
  | [] => .ok []
  | (j, i, va) :: rest =>
    if va % size != 0 then .error (va, .trap 0x04)
    else
      match checkAddress s va size needR needW .plain with
      | .ok loc =>
        match checkLanes s size needR needW rest with
        | .ok l => .ok ((j, i, va, loc) :: l)
        | .error e => .error e
      | c => .error (va, c)

/-- A lane's request (R187): ordered as the word is, and after the word's earlier lanes that touch its bytes. -/
def laneReq (s0 s : State) (w : TWord) (op : ReqOp) (mask : BitVec 32) (j i va : Nat) (loc : Loc) (v : BitVec 64)
    (base : Nat) : Req :=
  let size := accessSize w.modf
  let rel := isRelease w.modf
  let own := (reqsOf s (curAgent s)).filter fun e => e.grp == s0.serial && overlaps e.loc e.size loc size
  { threadReq s op va loc size (modScope w.modf) (isAcquire w.modf) rel false with
    after := orderBefore s0 op loc size (modScope w.modf) (isAcquire w.modf) rel false ++ own.map fun e => (e.id, 5)
    ahead := (threadReq s0 op va loc size (modScope w.modf) (isAcquire w.modf) rel false).ahead
    val := v, sx := modSx w.modf, grp := s0.serial, mask := if op = .load then mask else 0, zl := modZl w.modf
    dst := if op = .load then .lane base (groupLen w) j i else .none }

/-- The requests of a word's lanes sent (R299). -/
def sendLanes (s0 : State) (w : TWord) (op : ReqOp) (mask : BitVec 32) (base : Nat) (value : Nat → Nat → BitVec 64) :
    List (Nat × Nat × Nat × Loc) → State → State
  | [], s => s
  | (j, i, va, loc) :: rest, s =>
    sendLanes s0 w op mask base value rest (pushReq s (laneReq s0 s w op mask j i va loc (value j i) base))

/-- The registers of a destination group wait for the word (R131). -/
def busyGroup (s : State) (w : TWord) (start id : Nat) : State :=
  match w.d with
  | .v n => modCurThread s fun th =>
      { th with fl := { th.fl with busy := th.fl.busy ++
          (((List.range (groupLen w)).filter fun j => start ≤ j).map fun j => ⟨2, n + j, 0, some id⟩) } }
  | _ => s

/-- A vector memory word: every lane checked, then every lane sent (R186). -/
def vectorAccess (w : TWord) (needR needW : Bool) (lanes : List (Nat × Nat × Nat))
    (go : State → List (Nat × Nat × Nat × Loc) → State) (s : State) : Res :=
  if !memoryReady s then .hold
  else
    match checkLanes s (accessSize w.modf) needR needW lanes with
    | .error (va, .miss) => parkThread s va
    | .error (va, .trap cause) => trapAt s cause va
    | .error (_, .ok _) => .hold
    | .ok l => .done (clearResume (go (memoryBegin s) l))

/-- A vector load (R184, R185). Where no lane is active nothing is read, and the group is zeroed under .Z. -/
def vectorLoad (w : TWord) (addr : State → Nat → Nat → Nat) (s : State) : Host.Outcome State Fault Refusal :=
  .next (runVector w s fun mask s1 =>
    let start := startReg s1
    let lanes := laneAddrs w mask start (addr s1)
    vectorAccess w true false lanes (fun s2 l =>
      if l.isEmpty then vectorDone (writeGroup w mask s2 fun _ _ old => old)
      else
        let base := match w.d with | .v n => n | _ => 1024
        busyGroup (sendLanes s2 w .load mask base (fun _ _ => 0) l s2) w start s2.serial) s1)

/-- A vector store (R184, R185). -/
def vectorStore (w : TWord) (addr : State → Nat → Nat → Nat) (s : State) : Host.Outcome State Fault Refusal :=
  .next (runVector w s fun mask s1 =>
    let start := startReg s1
    let lanes := laneAddrs w mask start (addr s1)
    vectorAccess w false true lanes (fun s2 l =>
      vectorDone (sendLanes s2 w .store mask 0
        (fun j i => BitVec.ofNat 64 (elemOf (srcReg s1 32 w.c j) 32 i)) l s2)) s1)

/-- VLD (R184). -/
def execVld (w : TWord) (s : State) : Host.Outcome State Fault Refusal := vectorLoad w (stripAddr w) s
/-- VST (R184). -/
def execVst (w : TWord) (s : State) : Host.Outcome State Fault Refusal := vectorStore w (stripAddr w) s
/-- VGATH (R185). -/
def execVgath (w : TWord) (s : State) : Host.Outcome State Fault Refusal := vectorLoad w (gatherAddr w) s
/-- VSCAT (R185). -/
def execVscat (w : TWord) (s : State) : Host.Outcome State Fault Refusal := vectorStore w (gatherAddr w) s

/-! ### Lane moves (R188) -/

/-- The destination group written from source groups that are read whole before any register is written (R170). -/
def wholeWord (w : TWord) (lane : State → BitVec 32 → Nat → Nat) (s : State) : Host.Outcome State Fault Refusal :=
  .next (runVector w s fun mask s1 =>
    .done (vectorDone (writeGroup w mask s1 fun _ j _ => packReg 32 fun i => lane s1 mask (32 * j + i))))

/-- VPERM (R188). -/
def execVperm (w : TWord) (s : State) : Host.Outcome State Fault Refusal :=
  wholeWord w (fun s1 _ m =>
    let n := groupElem s1 32 w.b m % 256
    if n < 32 * groupLen w then groupElem s1 32 w.a n else 0) s

/-- VROT (R188). -/
def execVrot (w : TWord) (s : State) : Host.Outcome State Fault Refusal :=
  wholeWord w (fun s1 _ m => groupElem s1 32 w.a ((m + (srcB w s1).toNat) % (32 * groupLen w))) s

/-- VBCAST (R188). -/
def execVbcast (w : TWord) (s : State) : Host.Outcome State Fault Refusal :=
  let n := (modTy w.modf).width
  groupWord w (fun acc _ _ => packReg n fun _ => (srcA w acc).toNat % 2 ^ n) s

/-- VEXTR (R188): guarded as a scalar word is. The index b is read as an unsigned 64-bit number, as VROT's is: DEDUCED
(notes/assumptions/103.md). -/
def execVextr (w : TWord) (s : State) : Host.Outcome State Fault Refusal :=
  .next (runWord w s fun s1 =>
    let x := groupElem s1 32 w.a ((srcB w s1).toNat % (32 * groupLen w))
    .done (vectorDone (writeS s1 w.d (if modT1 w.modf = 7 then BitVec.ofInt 64 (sextN x 32) else BitVec.ofNat 64 x))))

/-! ### Reductions and scans (R189) -/

/-- The flat lanes of A up to a count, an inactive one as the identity +0 of a sum (R189). -/
def summedLanes (w : TWord) (s : State) (mask : BitVec 32) (count : Nat) : List Nat :=
  (List.range count).map fun m => if mask.getLsbD (m % 32) then groupElem s 32 w.a m else 0

/-- The active flat lanes of A, up to lane m of the group. -/
def activeLanes (w : TWord) (s : State) (mask : BitVec 32) (count : Nat) : List Nat :=
  ((List.range count).filter fun m => mask.getLsbD (m % 32)).map fun m => groupElem s 32 w.a m

/-- The least or greatest of some F32 values, with the identity of an empty set. -/
def extremeF32 (m : BitVec 32) (wantMax : Bool) (l : List Nat) : Num :=
  l.foldl (fun acc x => numMinMax wantMax acc (vdec m x)) (.inf wantMax)

/-- The least or greatest of some integers of T1, with the identity of an empty set. -/
def extremeInt (m : BitVec 32) (wantMax : Bool) (l : List Nat) : Int :=
  let r := intRange (modTy m).isSigned 32
  l.foldl (fun acc x => if wantMax then (if acc ≤ vint m x then vint m x else acc) else (if acc ≤ vint m x then acc else vint m x))
    (if wantMax then r.1 else r.2)

/-- The exact sum of some integers of T1. -/
def sumInt (m : BitVec 32) (l : List Nat) : Int := l.foldl (fun acc x => acc + vint m x) 0

/-- The bitwise result of some lanes: 3 AND, 4 OR, else XOR. -/
def bitReduce (fn : Nat) (l : List Nat) : Nat :=
  match fn with
  | 3 => l.foldl Nat.land 0xFFFFFFFF
  | 4 => l.foldl Nat.lor 0
  | _ => l.foldl Nat.xor 0

/-- The scalar that a VRED writes. -/
def vredValue (m : BitVec 32) (l : List Nat) : BitVec 64 :=
  match modFn m with
  | 0 => if modT1 m = 0 then BitVec.ofNat 64 (vround m (numSum (modRound m) (l.map (vdec m))).1) else BitVec.ofInt 64 (sumInt m l)
  | 1 => if modT1 m = 0 then BitVec.ofNat 64 (vround m (extremeF32 m false l)) else BitVec.ofInt 64 (extremeInt m false l)
  | 2 => if modT1 m = 0 then BitVec.ofNat 64 (vround m (extremeF32 m true l)) else BitVec.ofInt 64 (extremeInt m true l)
  | n => BitVec.ofNat 64 (bitReduce n l)

/-- VRED (R189). -/
def execVred (w : TWord) (s : State) : Host.Outcome State Fault Refusal :=
  .next (runVector w s fun mask s1 =>
    let lanes := if modFn w.modf = 0 then summedLanes else activeLanes
    .done (vectorDone (writeS s1 w.d (vredValue w.modf (lanes w s1 mask (32 * groupLen w))))))

/-- A lane of a VSCAN: the prefix of the active lanes up to it. -/
def vscanLane (m : BitVec 32) (l : List Nat) : Nat :=
  match modFn m with
  | 0 => if modT1 m = 0 then vround m (numSum (modRound m) (l.map (vdec m))).1 else vintResult m (sumInt m l)
  | 1 => if modT1 m = 0 then vround m (extremeF32 m false l) else wrapI (extremeInt m false l) 32
  | 2 => if modT1 m = 0 then vround m (extremeF32 m true l) else wrapI (extremeInt m true l) 32
  | n => bitReduce n l

/-- VSCAN (R189). -/
def execVscan (w : TWord) (s : State) : Host.Outcome State Fault Refusal :=
  wholeWord w (fun s1 mask m => vscanLane w.modf (activeLanes w s1 mask (m + 1))) s

end Sys2Proof.Machine
end

