-- ==== Sys2Proof/Machine/Dispatch.lean ====
section
/-! DEFINITION. The meaning of every instruction: one arm per constructor of Instr. -/

namespace Sys2Proof.Machine

def exec (i : Instr) (s : State) : Host.Outcome State Fault Refusal :=
  match i with
  | .nop w => Sys2Proof.Machine.execNop w s
  | .mov w => Sys2Proof.Machine.execMov w s
  | .movh w => Sys2Proof.Machine.execMovh w s
  | .lea w => Sys2Proof.Machine.execLea w s
  | .add w => Sys2Proof.Machine.execAdd w s
  | .sub w => Sys2Proof.Machine.execSub w s
  | .mul w => Sys2Proof.Machine.execMul w s
  | .mulh w => Sys2Proof.Machine.execMulh w s
  | .div w => Sys2Proof.Machine.execDiv w s
  | .rem w => Sys2Proof.Machine.execRem w s
  | .min w => Sys2Proof.Machine.execMin w s
  | .max w => Sys2Proof.Machine.execMax w s
  | .and w => Sys2Proof.Machine.execAnd w s
  | .or w => Sys2Proof.Machine.execOr w s
  | .xor w => Sys2Proof.Machine.execXor w s
  | .andn w => Sys2Proof.Machine.execAndn w s
  | .shl w => Sys2Proof.Machine.execShl w s
  | .shr w => Sys2Proof.Machine.execShr w s
  | .sar w => Sys2Proof.Machine.execSar w s
  | .rol w => Sys2Proof.Machine.execRol w s
  | .clz w => Sys2Proof.Machine.execClz w s
  | .ctz w => Sys2Proof.Machine.execCtz w s
  | .popc w => Sys2Proof.Machine.execPopc w s
  | .ext w => Sys2Proof.Machine.execExt w s
  | .bfx w => Sys2Proof.Machine.execBfx w s
  | .bfi w => Sys2Proof.Machine.execBfi w s
  | .sel w => Sys2Proof.Machine.execSel w s
  | .br w => Sys2Proof.Machine.execBr w s
  | .bri w => Sys2Proof.Machine.execBri w s
  | .call w => Sys2Proof.Machine.execCall w s
  | .loop w => Sys2Proof.Machine.execLoop w s
  | .endl w => Sys2Proof.Machine.execEndl w s
  | .kset w => Sys2Proof.Machine.execKset w s
  | .kget w => Sys2Proof.Machine.execKget w s
  | .halt w => Sys2Proof.Machine.execHalt w s
  | .yield w => Sys2Proof.Machine.execYield w s
  | .cmp w => Sys2Proof.Machine.execCmp w s
  | .pand w => Sys2Proof.Machine.execPand w s
  | .por w => Sys2Proof.Machine.execPor w s
  | .pxor w => Sys2Proof.Machine.execPxor w s
  | .pnot w => Sys2Proof.Machine.execPnot w s
  | .pset w => Sys2Proof.Machine.execPset w s
  | .pget w => Sys2Proof.Machine.execPget w s
  | .pcnt w => Sys2Proof.Machine.execPcnt w s
  | .ld w => Sys2Proof.Machine.execLd w s
  | .st w => Sys2Proof.Machine.execSt w s
  | .atom w => Sys2Proof.Machine.execAtom w s
  | .cas w => Sys2Proof.Machine.execCas w s
  | .fence w => Sys2Proof.Machine.execFence w s
  | .csrr w => Sys2Proof.Machine.execCsrr w s
  | .csrw w => Sys2Proof.Machine.execCsrw w s
  | .csrx w => Sys2Proof.Machine.execCsrx w s
  | .trapWord w => Sys2Proof.Machine.execTrapWord w s
  | .bkpt w => Sys2Proof.Machine.execBkpt w s
  | .tretRetry w => Sys2Proof.Machine.execTretRetry w s
  | .tretNext w => Sys2Proof.Machine.execTretNext w s
  | .tretRestart w => Sys2Proof.Machine.execTretRestart w s
  | .timeD w => Sys2Proof.Machine.execTimeD w s
  | .timeS w => Sys2Proof.Machine.execTimeS w s
  | .gear w => Sys2Proof.Machine.execGear w s
  | .gearq w => Sys2Proof.Machine.execGearq w s
  | .sched w => Sys2Proof.Machine.execSched w s
  | .slack w => Sys2Proof.Machine.execSlack w s
  | .pwrq w => Sys2Proof.Machine.execPwrq w s
  | .pwrcap w => Sys2Proof.Machine.execPwrcap w s
  | .vadd w => Sys2Proof.Machine.execVadd w s
  | .vsub w => Sys2Proof.Machine.execVsub w s
  | .vmul w => Sys2Proof.Machine.execVmul w s
  | .vmin w => Sys2Proof.Machine.execVmin w s
  | .vmax w => Sys2Proof.Machine.execVmax w s
  | .vand w => Sys2Proof.Machine.execVand w s
  | .vor w => Sys2Proof.Machine.execVor w s
  | .vxor w => Sys2Proof.Machine.execVxor w s
  | .vshl w => Sys2Proof.Machine.execVshl w s
  | .vshr w => Sys2Proof.Machine.execVshr w s
  | .vsar w => Sys2Proof.Machine.execVsar w s
  | .vdiv w => Sys2Proof.Machine.execVdiv w s
  | .vfma w => Sys2Proof.Machine.execVfma w s
  | .vfms w => Sys2Proof.Machine.execVfms w s
  | .vabs w => Sys2Proof.Machine.execVabs w s
  | .vneg w => Sys2Proof.Machine.execVneg w s
  | .vrcp w => Sys2Proof.Machine.execVrcp w s
  | .vsqrt w => Sys2Proof.Machine.execVsqrt w s
  | .vrsq w => Sys2Proof.Machine.execVrsq w s
  | .vexp2 w => Sys2Proof.Machine.execVexp2 w s
  | .vlog2 w => Sys2Proof.Machine.execVlog2 w s
  | .vtanh w => Sys2Proof.Machine.execVtanh w s
  | .vsig w => Sys2Proof.Machine.execVsig w s
  | .vclz w => Sys2Proof.Machine.execVclz w s
  | .vpopc w => Sys2Proof.Machine.execVpopc w s
  | .vmov w => Sys2Proof.Machine.execVmov w s
  | .vcmp w => Sys2Proof.Machine.execVcmp w s
  | .vsel w => Sys2Proof.Machine.execVsel w s
  | .vcvt w => Sys2Proof.Machine.execVcvt w s
  | .vbscl w => Sys2Proof.Machine.execVbscl w s
  | .vqnt w => Sys2Proof.Machine.execVqnt w s
  | .vdqnt w => Sys2Proof.Machine.execVdqnt w s
  | .vld w => Sys2Proof.Machine.execVld w s
  | .vst w => Sys2Proof.Machine.execVst w s
  | .vgath w => Sys2Proof.Machine.execVgath w s
  | .vscat w => Sys2Proof.Machine.execVscat w s
  | .vperm w => Sys2Proof.Machine.execVperm w s
  | .vrot w => Sys2Proof.Machine.execVrot w s
  | .vbcast w => Sys2Proof.Machine.execVbcast w s
  | .vextr w => Sys2Proof.Machine.execVextr w s
  | .vred w => Sys2Proof.Machine.execVred w s
  | .vscan w => Sys2Proof.Machine.execVscan w s
  | .ldv w => Sys2Proof.Machine.execLdv w s
  | .stv w => Sys2Proof.Machine.execStv w s
  | .reclaim w => Sys2Proof.Machine.execReclaim w s
  | .barinit w => Sys2Proof.Machine.execBarinit w s
  | .barwait w => Sys2Proof.Machine.execBarwait w s
  | .dqpush w => Sys2Proof.Machine.execDqpush w s
  | .dqpop w => Sys2Proof.Machine.execDqpop w s
  | .dqsteal w => Sys2Proof.Machine.execDqsteal w s
  | .tsens w => Sys2Proof.Machine.execTsens w s
  | .enq w cmd => Sys2Proof.Machine.execEnq w cmd s
  | .enqs w => Sys2Proof.Machine.execEnqs w s
  | .tokw w => Sys2Proof.Machine.execTokw w s
  | .toks w => Sys2Proof.Machine.execToks w s
  | .qbind w => Sys2Proof.Machine.execQbind w s
  | .sbar w => Sys2Proof.Machine.execSbar w s
  | .emit w => Sys2Proof.Machine.execEmit w s
  | .emita w => Sys2Proof.Machine.execEmita w s
  | .emite w => Sys2Proof.Machine.execEmite w s
  | .stat w => Sys2Proof.Machine.execStat w s
  | .instw w => Sys2Proof.Machine.execInstw w s
  | .resume w => Sys2Proof.Machine.execResume w s
  | .rgn w => Sys2Proof.Machine.execRgn w s
  | .snap w => Sys2Proof.Machine.execSnap w s
  | .xarm w => Sys2Proof.Machine.execXarm w s
  | .xarmD w => Sys2Proof.Machine.execXarmD w s
  | .xfire w => Sys2Proof.Machine.execXfire w s
  | .xwait w => Sys2Proof.Machine.execXwait w s
  | .xstat w => Sys2Proof.Machine.execXstat w s
  | .ctxnew w => Sys2Proof.Machine.execCtxnew w s
  | .ctxgrant w => Sys2Proof.Machine.execCtxgrant w s
  | .ctxrevoke w => Sys2Proof.Machine.execCtxrevoke w s
  | .ctxrun w => Sys2Proof.Machine.execCtxrun w s
  | .ctxstop w => Sys2Proof.Machine.execCtxstop w s
  | .ctxq w => Sys2Proof.Machine.execCtxq w s
  | .mapRange w => Sys2Proof.Machine.execMapRange w s
  | .unmap w => Sys2Proof.Machine.execUnmap w s
  | .pinP w => Sys2Proof.Machine.execPinP w s
  | .pinU w => Sys2Proof.Machine.execPinU w s
  | .engineNop e c => Sys2Proof.Machine.execEngineNop e c s
  | .wld c => Sys2Proof.Machine.execWld c s
  | .mma c => Sys2Proof.Machine.execMma c s
  | .accLd c => Sys2Proof.Machine.execAccLd c s
  | .accSt c => Sys2Proof.Machine.execAccSt c s
  | .accClr c => Sys2Proof.Machine.execAccClr c s
  | .loadPlane c => Sys2Proof.Machine.execLoadPlane c s
  | .loadsh c => Sys2Proof.Machine.execLoadsh c s
  | .fireRegion e c => Sys2Proof.Machine.execFireRegion e c s
  | .switchPlane e c => Sys2Proof.Machine.execSwitchPlane e c s
  | .abortRegion e c => Sys2Proof.Machine.execAbortRegion e c s
  | .openPort c => Sys2Proof.Machine.execOpenPort c s
  | .closePort c => Sys2Proof.Machine.execClosePort c s
  | .advancePort c => Sys2Proof.Machine.execAdvancePort c s
  | .xcFire c => Sys2Proof.Machine.execXcFire c s
  | .mark c => Sys2Proof.Machine.execMark c s
  | .move m => Sys2Proof.Machine.execMove m s
  | .guardedMove m => Sys2Proof.Machine.execGuardedMove m s
  | .scaleMove m => Sys2Proof.Machine.execScaleMove m s
  | .aluAdd m => Sys2Proof.Machine.execAluAdd m s
  | .aluSub m => Sys2Proof.Machine.execAluSub m s
  | .aluMin m => Sys2Proof.Machine.execAluMin m s
  | .aluMax m => Sys2Proof.Machine.execAluMax m s
  | .aluAnd m => Sys2Proof.Machine.execAluAnd m s
  | .aluOr m => Sys2Proof.Machine.execAluOr m s
  | .aluXor m => Sys2Proof.Machine.execAluXor m s
  | .aluShl m => Sys2Proof.Machine.execAluShl m s
  | .aluShr m => Sys2Proof.Machine.execAluShr m s
  | .aluSar m => Sys2Proof.Machine.execAluSar m s
  | .aluAbs m => Sys2Proof.Machine.execAluAbs m s
  | .aluNeg m => Sys2Proof.Machine.execAluNeg m s
  | .aluCmpeq m => Sys2Proof.Machine.execAluCmpeq m s
  | .aluCmplt m => Sys2Proof.Machine.execAluCmplt m s
  | .aluCmple m => Sys2Proof.Machine.execAluCmple m s
  | .aluSel m => Sys2Proof.Machine.execAluSel m s
  | .aluPass m => Sys2Proof.Machine.execAluPass m s
  | .mulMul m => Sys2Proof.Machine.execMulMul m s
  | .mulMuls m => Sys2Proof.Machine.execMulMuls m s
  | .mulFma m => Sys2Proof.Machine.execMulFma m s
  | .mulDiv m => Sys2Proof.Machine.execMulDiv m s
  | .sfuRcp m => Sys2Proof.Machine.execSfuRcp m s
  | .sfuSqrt m => Sys2Proof.Machine.execSfuSqrt m s
  | .sfuRsq m => Sys2Proof.Machine.execSfuRsq m s
  | .sfuExp2 m => Sys2Proof.Machine.execSfuExp2 m s
  | .sfuLog2 m => Sys2Proof.Machine.execSfuLog2 m s
  | .sfuTanh m => Sys2Proof.Machine.execSfuTanh m s
  | .sfuSig m => Sys2Proof.Machine.execSfuSig m s
  | .sfuLut m => Sys2Proof.Machine.execSfuLut m s
  | .cvtCvt m => Sys2Proof.Machine.execCvtCvt m s
  | .cvtDeq m => Sys2Proof.Machine.execCvtDeq m s
  | .cvtQnt m => Sys2Proof.Machine.execCvtQnt m s
  | .redSum m => Sys2Proof.Machine.execRedSum m s
  | .redMax m => Sys2Proof.Machine.execRedMax m s
  | .redScaleMax m => Sys2Proof.Machine.execRedScaleMax m s
  | .redMin m => Sys2Proof.Machine.execRedMin m s
  | .redCnt m => Sys2Proof.Machine.execRedCnt m s
  | .redSteer m => Sys2Proof.Machine.execRedSteer m s
  | .redMerge m => Sys2Proof.Machine.execRedMerge m s
  | .redAcc m => Sys2Proof.Machine.execRedAcc m s
  | .redFlush m => Sys2Proof.Machine.execRedFlush m s
  | .deferredIntegrityTrap req => Sys2Proof.Machine.execDeferredIntegrityTrap req s
  | .gearTakeEffect tile => Sys2Proof.Machine.execGearTakeEffect tile s
  | .gearTransitionEnd tile => Sys2Proof.Machine.execGearTransitionEnd tile s
  | .versionOverflow tile thr => Sys2Proof.Machine.execVersionOverflow tile thr s
  | .barrierResume tile thr => Sys2Proof.Machine.execBarrierResume tile thr s
  | .parkDrop tile thr => Sys2Proof.Machine.execParkDrop tile thr s
  | .thermalSample slot temp => Sys2Proof.Machine.execThermalSample slot temp s
  | .thermalOverride tile => Sys2Proof.Machine.execThermalOverride tile s
  | .droopTrip tile => Sys2Proof.Machine.execDroopTrip tile s
  | .droopStretchEnd tile => Sys2Proof.Machine.execDroopStretchEnd tile s
  | .droopHalfWidthEnd tile => Sys2Proof.Machine.execDroopHalfWidthEnd tile s
  | .shadowSetSwap tile => Sys2Proof.Machine.execShadowSetSwap tile s
  | .revocationDeadline rev => Sys2Proof.Machine.execRevocationDeadline rev s
  | .slabReady tile => Sys2Proof.Machine.execSlabReady tile s
  | .timingTrap tile => Sys2Proof.Machine.execTimingTrap tile s
  | .staleStampMiss tile => Sys2Proof.Machine.execStaleStampMiss tile s
  | .engineSignal tile eng => Sys2Proof.Machine.execEngineSignal tile eng s
  | .loadEnd tile => Sys2Proof.Machine.execLoadEnd tile s
  | .switchTagArrival tile side => Sys2Proof.Machine.execSwitchTagArrival tile side s
  | .regionRetire tile slot => Sys2Proof.Machine.execRegionRetire tile slot s
  | .regionCompletionStore tile slot => Sys2Proof.Machine.execRegionCompletionStore tile slot s
  | .readPortDeliver tile port => Sys2Proof.Machine.execReadPortDeliver tile port s
  | .writePortConsume tile port => Sys2Proof.Machine.execWritePortConsume tile port s
  | .entryArrival tile elem inp => Sys2Proof.Machine.execEntryArrival tile elem inp s
  | .cairnRecord tile elem => Sys2Proof.Machine.execCairnRecord tile elem s
  | .handlerFire tile elem => Sys2Proof.Machine.execHandlerFire tile elem s
  | .defaultReaction tile elem => Sys2Proof.Machine.execDefaultReaction tile elem s
  | .finishingReaction tile elem => Sys2Proof.Machine.execFinishingReaction tile elem s
  | .reactionEmit tile elem => Sys2Proof.Machine.execReactionEmit tile elem s
  | .switchEntryWrite tile elem out => Sys2Proof.Machine.execSwitchEntryWrite tile elem out s
  | .waitSnapshot tile slot => Sys2Proof.Machine.execWaitSnapshot tile slot s
  | .screeLink what => Sys2Proof.Machine.execScreeLink what s
  | .trapPresent tile set => Sys2Proof.Machine.execTrapPresent tile set s
  | .poolRefill => Sys2Proof.Machine.execPoolRefill s
  | .meterCheck => Sys2Proof.Machine.execMeterCheck s
  | .timeSlice => Sys2Proof.Machine.execTimeSlice s
  | .launchSelection queue => Sys2Proof.Machine.execLaunchSelection queue s
  | .launchExpansion launch => Sys2Proof.Machine.execLaunchExpansion launch s
  | .placement die => Sys2Proof.Machine.execPlacement die s
  | .dispatch tile => Sys2Proof.Machine.execDispatch tile s
  | .placementRetire tile => Sys2Proof.Machine.execPlacementRetire tile s
  | .launchRetire launch => Sys2Proof.Machine.execLaunchRetire launch s
  | .walkComplete walk => Sys2Proof.Machine.execWalkComplete walk s
  | .snapshotComplete graph => Sys2Proof.Machine.execSnapshotComplete graph s
  | .graphRestore graph => Sys2Proof.Machine.execGraphRestore graph s
  | .fireEntryDeliver => Sys2Proof.Machine.execFireEntryDeliver s
  | .transferStart engine slot => Sys2Proof.Machine.execTransferStart engine slot s
  | .transferComplete chan id => Sys2Proof.Machine.execTransferComplete chan id s
  | .copyTransferStop chan id => Sys2Proof.Machine.execCopyTransferStop chan id s
  | .scTokenPass => Sys2Proof.Machine.execScTokenPass s
  | .hbmScrub line => Sys2Proof.Machine.execHbmScrub line s
  | .tileFailure tile => Sys2Proof.Machine.execTileFailure tile s
  | .dieSchedulerFailure die => Sys2Proof.Machine.execDieSchedulerFailure die s
  | .columnControllerFailure slot => Sys2Proof.Machine.execColumnControllerFailure slot s
  | .partitionFullSwap part => Sys2Proof.Machine.execPartitionFullSwap part s
  | .gateRefusal slot => Sys2Proof.Machine.execGateRefusal slot s
  | .dqcfgWrite slot deque value => Sys2Proof.Machine.execDqcfgWrite slot deque value s
  | .enrglRead tile set => Sys2Proof.Machine.execEnrglRead tile set s
  | .pkenlRead tile set => Sys2Proof.Machine.execPkenlRead tile set s
  | .tailWrite queue value => Sys2Proof.Machine.execTailWrite queue value s
  | .queueBaseWrite queue value => Sys2Proof.Machine.execQueueBaseWrite queue value s
  | .registerWrite addr value => Sys2Proof.Machine.execRegisterWrite addr value s
  | .mbLayout => Sys2Proof.Machine.execMbLayout s
  | .layoutPhase2 => Sys2Proof.Machine.execLayoutPhase2 s
  | .mbSetlimit => Sys2Proof.Machine.execMbSetlimit s
  | .mbFeatsel => Sys2Proof.Machine.execMbFeatsel s
  | .mbAttest => Sys2Proof.Machine.execMbAttest s
  | .mbClrenrg => Sys2Proof.Machine.execMbClrenrg s
  | .mbErrlog => Sys2Proof.Machine.execMbErrlog s
  | .mbSwap => Sys2Proof.Machine.execMbSwap s
  | .mbBadop op => Sys2Proof.Machine.execMbBadop op s
  | .mailboxComplete => Sys2Proof.Machine.execMailboxComplete s
  | .packageReset => Sys2Proof.Machine.execPackageReset s
  | .recoveryWrite req => Sys2Proof.Machine.execRecoveryWrite req s
  | .watchdogReset => Sys2Proof.Machine.execWatchdogReset s
  | .linkDown => Sys2Proof.Machine.execLinkDown s
  | .flitReceive port flit => Sys2Proof.Machine.execFlitReceive port flit s
  | .portRetrain port => Sys2Proof.Machine.execPortRetrain port s
  | .credit port chan count => Sys2Proof.Machine.execCredit port chan count s
  | .fabricOpenMessage port chan peer => Sys2Proof.Machine.execFabricOpenMessage port chan peer s
  | .fabricCloseMessage port chan => Sys2Proof.Machine.execFabricCloseMessage port chan s
  | .fabricResetMessage port => Sys2Proof.Machine.execFabricResetMessage port s
  | .fcctlEnable chan value => Sys2Proof.Machine.execFcctlEnable chan value s
  | .fcctlDisable chan value => Sys2Proof.Machine.execFcctlDisable chan value s
  | .appliedAtHome req => Sys2Proof.Machine.execAppliedAtHome req s
  | .memoryResponse req => Sys2Proof.Machine.execMemoryResponse req s
  | .summitAnswer => Sys2Proof.Machine.execSummitAnswer s
  | .hostMemoryAccess access => Sys2Proof.Machine.execHostMemoryAccess access s
  | .linkRetrained => Sys2Proof.Machine.execLinkRetrained s
  | .fabricRetrainEnd port good => Sys2Proof.Machine.execFabricRetrainEnd port good s
  | .sensorFailure slot => Sys2Proof.Machine.execSensorFailure slot s
  | .uncorrectableStateError what => Sys2Proof.Machine.execUncorrectableStateError what s

end Sys2Proof.Machine
end

