-- ==== Sys2Proof/Machine/Issue.lean ====
section
/-! DEFINITION. What acts in a step: the issue of tile-controller words (R131, R139, R169), words that wait, commands at
ring heads, moves, and the turns that no instruction stands for. -/

namespace Sys2Proof.Machine

/-! ### The next word of a thread -/

/-- The instruction of a thread's next word, or the check of R18 that it fails. -/
def threadWord (s : State) (tile set thr : Nat) : Except Malformed Instr :=
  let t := getTile s tile
  let c := tileSet t set
  decodeWord (features s) c.vlen (iword t c (fetchPc (setThread? c thr)))

/-- The operands of an instruction that a word encodes, with its opcode. -/
def wordParts (i : Instr) : Option (Nat × TWord) :=
  match tileParts i with
  | some (opc, _, w, _) => some (opc, w)
  | none => none

/-- The trap record of a word that fails a check of R18 (R18, R245): cause 1 for checks 1 to 3, cause 2 for check 4,
whose record names the field. -/
def malformedRec (thr pc : Nat) (m : Malformed) : TrapRec :=
  { wordRec (if m.check = 4 then 0x02 else 0x01) thr pc 0 0 with chk := m.check, fld := m.field }

/-- A vector-class opcode, which slot V takes (R131). -/
def vectorOpc (opc : Nat) : Bool := 0x200 ≤ opc && opc < 0x340

/-- The opcode of the word at a thread's PC, whatever else the word holds. -/
def rawOpc (s : State) (tile set thr : Nat) : Nat :=
  let t := getTile s tile
  let c := tileSet t set
  ((iword t c (fetchPc (setThread? c thr))).extractLsb' 118 10).toNat

/-! ### Readiness (R131, R139) -/

/-- Whether a register of a class (0 s, 1 p, 2 v, 3 k) and number has a result under way. -/
def regBusy (fl : Flight) (tsc cls n : Nat) : Bool :=
  fl.busy.any fun b => b.cls == cls && b.num == n && busyNow tsc b

/-- Whether an operand names a register with a result under way; a vector operand names a group (R23). -/
def opndBusy (fl : Flight) (tsc c : Nat) : Opnd → Bool
  | .s n => regBusy fl tsc 0 n
  | .p n => regBusy fl tsc 1 n
  | .k n => regBusy fl tsc 3 n
  | .v n => (List.range c).any fun j => regBusy fl tsc 2 (n + j)
  | _ => false

/-- Whether the guard names a predicate with a result under way. -/
def guardBusy (fl : Flight) (tsc : Nat) : Guard → Bool
  | .always => false
  | .whenTrue n => regBusy fl tsc 1 n
  | .whenFalse n => regBusy fl tsc 1 n

/-- Whether a word reads the register that its field D names: MOVH and BFI (R142), ENDL (R149), and a vector word or VCMP whose
mask leaves lanes as they were (R19). DEDUCED for the last (notes/assumptions/24.md). -/
def readsDest (opc : Nat) (w : TWord) : Bool :=
  opc == 0x003 || opc == 0x01D || opc == 0x085 || (vectorOpc opc && w.guard != .always && !modZl w.modf)

/-- Whether every register that a word reads holds the result of a completed word (R131). -/
def regsReady (fl : Flight) (tsc opc : Nat) (w : TWord) : Bool :=
  !guardBusy fl tsc w.guard && (List.range 4).all fun i =>
    (i == 0 && !readsDest opc w) || !opndBusy fl tsc (groupLen w) (wordField w i)

/-- Whether a word that reads a block of `n` words when it issues can issue: nothing that the
reading must follow is still to be applied. -/
def blockReady (s : State) (va n : Nat) : Bool :=
  memoryReady s && (match checkAddress s va (8 * n) true false .block with
    | .ok loc => !blockWaits s loc n
    | _ => true)

/-- Whether an EMIT, EMITA or EMITE can issue (R238). -/
def emitAccepts (s : State) (opc : Nat) (w : TWord) : Bool :=
  match qReg? w.d with
  | none => true
  | some n => emitIllegal s n || emitReady s n
      (if opc == 0x380 then emitItems w s else if opc == 0x381 then [markEntry] else [endEntry])

/-- Whether the unit that a word needs can accept it (R131): the conditions under which its meaning would leave it
unissued. -/
def unitAccepts (opc : Nat) (w : TWord) (s : State) : Bool :=
  if !guardHolds (curThread s) w.guard && !vectorOpc opc then true
  else if (0x100 ≤ opc && opc < 0x198) || (0x300 ≤ opc && opc < 0x304) then memoryReady s
  else
    match opc with
    | 0x088 => (reqsOf s (curAgent s)).isEmpty && memoryReady s
    | 0x3F0 => earlierDone s
    | 0x3F1 => earlierDone s
    | 0x3F2 => earlierDone s
    | 0x3B0 => (curSet s).gearPend.isNone
    | 0x343 => releaseMet s 0
    | 0x34C => !bankBusy s s.focus.tile ((argA w s).toNat % 2 ^ 32)
    | 0x348 => modFn w.modf == 1 || blockReady s ((argB w s).toNat % 2 ^ 56) 8
    | 0x349 => releaseMet s 3
    | 0x3D0 => releaseMet s 3 && blockReady s ((argA w s).toNat % 2 ^ 56) 8
    | 0x3D8 => releaseMet s 3 && blockReady s ((argB w s).toNat % 2 ^ 56) 4
    | 0x3D9 => releaseMet s 3 && blockReady s ((argB w s).toNat % 2 ^ 56) 4
    | _ => if 0x380 ≤ opc && opc < 0x383 then emitAccepts s opc w else !(0x3D0 ≤ opc && opc < 0x3E0) || releaseMet s 3

/-- Whether a thread's PC lies outside its instruction window (R121): nothing issues there. -/
def pcOutside (s : State) (tile set thr : Nat) : Bool := (getSet s tile set).ilen ≤ fetchPc (getThread s tile set thr)

/-- Whether a thread may issue a word into a slot at this step (R131): it is in RUN, no branch, GEAR, wait or parked
access holds it, and its next word belongs to the slot and is ready. A malformed word is ready to trap, and so is a thread
whose PC lies outside its window, in slot S. -/
def threadReady (s : State) (tile set thr : Nat) (vec : Bool) : Bool :=
  let s1 := { s with focus := ⟨tile, set, thr, 0, 0⟩ }
  let th := getThread s tile set thr
  let tsc := tscOf s tile
  th.st == .run && th.fl.notBefore ≤ tsc && !th.fl.gearing && th.fl.asked.isNone && !scLoadPending s1
    && !parkedOn s1 (curAgent s1)
    && (if pcOutside s tile set thr then !vec
      else vectorOpc (rawOpc s tile set thr) == vec && (match threadWord s tile set thr with
        | .error _ => true
        | .ok i =>
          match wordParts i with
          | some (opc, w) => regsReady th.fl tsc opc w && unitAccepts opc w s1
          | none => true))

/-- Whether a slot of a tile may issue at this step: the tile has a step edge and is there, the slot has not issued, and
slot V is not held by a word before (R131, R169). -/
def slotFree (s : State) (tile : Nat) (vec : Bool) : Bool :=
  let t := getTile s tile
  let tsc := tscOf s tile
  edgeNow s tile && !t.removed && s.boot == .running
    && (if vec then t.usedV != some tsc && t.vbusy ≤ tsc else t.usedS != some tsc)

/-- The thread that a slot issues from: the first ready one at or after the slot's pointer (R131). -/
def issuer (s : State) (tile : Nat) (vec : Bool) : Option Nat :=
  let t := getTile s tile
  let p := if vec then t.ptrV else t.ptrS
  ((List.range 4).map fun k => (p + k) % 4).find? fun thr => threadReady s tile t.active thr vec

/-! ### After a word -/

/-- The steps from a word's last step in its slot to its completion (R139, R169). -/
def wordLatency (opc : Nat) (m : BitVec 32) : Nat :=
  let fl := (modTy m).isFl
  match opc with
  | 0x00A => 3
  | 0x00B => 3
  | 0x00C => if modWidth m ≤ 32 then 12 else 20
  | 0x00D => if modWidth m ≤ 32 then 12 else 20
  | 0x200 => if fl then 4 else 2
  | 0x201 => if fl then 4 else 2
  | 0x202 => 4
  | 0x203 => if fl then 4 else 2
  | 0x204 => if fl then 4 else 2
  | 0x20B => 14
  | 0x210 => 5
  | 0x211 => 5
  | 0x218 => if fl then 4 else 2
  | 0x219 => if fl then 4 else 2
  | 0x21A => 14
  | 0x21B => 14
  | 0x21C => 14
  | 0x21D => 18
  | 0x21E => 18
  | 0x21F => 18
  | 0x220 => 18
  | 0x300 => 8
  | 0x302 => 8
  | 0x308 => 3
  | 0x309 => 3
  | 0x30B => 6
  | 0x30C => 6
  | 0x30D => 6
  | _ => if 0x2C0 ≤ opc && opc < 0x300 then 4 else if vectorOpc opc then 2 else 1

/-- The steps that a register of a vector word takes in slot V (R169, R130). -/
def regSteps (t : Tile) (tsc : Nat) : Nat := if halfWidth t tsc then 2 else 1

/-- The steps for which a word holds slot V (R169): one for each register of its group from the one at which it begins, two in
half width. -/
def slotSteps (t : Tile) (tsc : Nat) (w : TWord) (start : Nat) : Nat := Nat.max 1 (groupLen w - start) * regSteps t tsc

/-- The answers of a vector load fall due at a step, if no bank conflict has been met (R169). -/
def loadDue (s : State) (a : Agent) (grp done : Nat) : State :=
  let l := s.reqs.filter fun r => r.grp == grp && r.agent == a && r.op == .load
  let quiet := l.all fun r => r.due.isSome
  if l.isEmpty then s
  else { s with reqs := s.reqs.map fun r => if r.grp == grp && r.agent == a && r.op == .load then { r with due := if quiet then some done else none } else r }

/-- The next register of the vector word in slot V begins where its step has come: half width that has engaged or ended since the
last one changes the steps that the word still holds the slot and the step at which it completes (R169). -/
def slotAdvance (s : State) (tile : Nat) : State :=
  let t := getTile s tile
  let tsc := tscOf s tile
  match t.vrun with
  | none => s
  | some v =>
    if !edgeNow s tile || v.next != tsc then s
    else
      let held := tsc + v.left * regSteps t tsc
      let done := v.done + held - t.vbusy
      let v1 := { v with left := v.left - 1, next := tsc + regSteps t tsc, done := done }
      let s1 := modTile s tile fun x => { x with vbusy := held, vrun := if v1.left = 0 then none else some v1 }
      let s2 := modThread s1 tile v.set v.thr fun th => { th with fl := { th.fl with
        busy := th.fl.busy.map fun b => if b.req.isNone && b.at_ == v.done && v.regs.contains (b.cls, b.num) then { b with at_ := done } else b } }
      let a : Agent := .thread tile v.set v.thr
      { s2 with reqs := s2.reqs.map fun r => if r.grp == v.grp && r.agent == a then { r with due := r.due.map fun _ => done } else r }

/-- The registers of a destination, as class and number. -/
def destRegs (w : TWord) : List (Nat × Nat) :=
  match w.d with
  | .s n => [(0, n)]
  | .p n => [(1, n)]
  | .k n => [(3, n)]
  | .v n => (List.range (groupLen w)).map fun j => (2, n + j)
  | _ => []

/-- Whether a word that ran has issued: its thread has moved on, waits, or is stopped. -/
def hasIssued (th : Thread) (tsc : Nat) : Bool := !(th.st == .run && th.fl.notBefore ≤ tsc && th.fl.asked.isNone)

/-- The entries of a thread's unfinished registers that name one of the given registers. -/
def marksOn (regs : List (Nat × Nat)) (l : List Busy) : List Busy := l.filter fun b => regs.contains (b.cls, b.num)

/-- The answers still to come for registers that a later word has written: they are discarded (R139). -/
def discardAnswers (s : State) (a : Agent) (l : List Busy) : State :=
  let hit (r : Req) : Bool := r.agent == a && l.any fun b =>
    b.req == some r.grp && (match r.dst with | .lane v _ j _ => b.cls == 2 && b.num == v + j | _ => b.cls == 0)
  if l.any fun b => b.req.isSome then { s with reqs := s.reqs.map fun r => if hit r then { r with dead := true } else r } else s

/-- The slot after a word has issued from it (R131, R169): used at this step, its pointer past the thread, slot V held for
the word's steps, which its later registers may still change, and the destination's registers busy until the word completes. Words that a request answers mark their
own registers. A word writes its destination after every earlier word of its thread, whichever completes first: DEDUCED
(notes/assumptions/24.md). `was` is the state in which the word issued. -/
def afterIssue (tile : Nat) (vec : Bool) (thr opc : Nat) (w : TWord) (was s : State) : State :=
  let t := getTile s tile
  let tsc := tscOf s tile
  let th := getThread s tile t.active thr
  if !hasIssued th tsc then s
  else
    let start := startReg was
    let steps := if vec then slotSteps t tsc w start else 1
    let done := tsc + steps - 1 + wordLatency opc w.modf
    let slot (x : Tile) : Tile :=
      if vec then
        { x with usedV := some tsc, ptrV := (thr + 1) % 4, vbusy := tsc + steps
                 vrun := if groupLen w ≤ start + 1 then none
                   else some ⟨t.active, thr, was.serial, groupLen w - start - 1, tsc + regSteps t tsc, done, destRegs w⟩ }
      else { x with usedS := some tsc, ptrS := (thr + 1) % 4 }
    let before := getThread was tile t.active thr
    let dests := if th.st == .run && (vec || guardHolds before w.guard) then destRegs w else []
    let late := marksOn dests before.fl.busy
    let keep (fl : Flight) : List Busy := fl.busy.filter fun b => busyNow tsc b && !late.contains b
    let marks (fl : Flight) : List Busy :=
      if tsc + 1 < done && !(0x300 ≤ opc && opc < 0x304) then keep fl ++ dests.map fun r => ⟨r.1, r.2, done, none⟩ else keep fl
    let a : Agent := .thread tile t.active thr
    let s1 := modThread (modTile s tile slot) tile t.active thr fun x => { x with fl := { x.fl with busy := marks x.fl } }
    discardAnswers (if opc = 0x300 || opc = 0x302 then loadDue s1 a was.serial done else s1) a late

/-! ### Turns -/

/-- What a turn does: an instruction runs, the turn is late with a new state, or the machine stops. -/
inductive TurnDoes where
  | run (s : State) (i : Instr)
  | over (s : State)
  | fault (f : Fault)

/-- Whether an instruction is an event: no word, command or move encodes it. -/
def isEvent (i : Instr) : Bool := (tileParts i).isNone && (cmdParts i).isNone && (moveParts i).isNone

/-- Whether a thread's next word is a wait for tokens, which comes after the signals of its step (R236). -/
def tokenWait (s : State) (tile set thr : Nat) : Bool :=
  !pcOutside s tile set thr && (match threadWord s tile set thr with | .ok (.tokw _) => true | _ => false)

/-- The issue slot of a tile takes its turn (R131): the word of the thread it issues from runs; a malformed one traps, and a PC
outside the instruction window raises the instruction-bound trap with nothing issued (R121). -/
def issueTurn (s0 : State) (tile : Nat) (vec : Bool) : TurnDoes :=
  let s := if vec then slotAdvance s0 tile else s0
  if !slotFree s tile vec then .over s
  else
    match issuer s tile vec with
    | none => .over s
    | some thr =>
      let set := (getTile s tile).active
      let s1 := settleFence { s with focus := ⟨tile, set, thr, 0, 0⟩ }
      if pcOutside s tile set thr then .over (raiseTrap s1 tile set (wordRec 0x03 thr (fetchPc (getThread s tile set thr)) 0 0))
      else
        match threadWord s tile set thr with
        | .ok i => .run s1 i
        | .error m =>
          .over (afterIssue tile vec thr 0 ⟨false, .always, .zero, .zero, .zero, .zero, 0, 0⟩ s1
            (raiseTrap s1 tile set (malformedRec thr (fetchPc (getThread s tile set thr)) m)))

/-- Slot S before the step's waits for tokens: it issues unless its next word is one (R236). -/
def issueEarlyTurn (s : State) (tile : Nat) : TurnDoes :=
  match issuer s tile false with
  | some thr => if tokenWait s tile (getTile s tile).active thr then .over s else issueTurn s tile false
  | none => .over s

/-- A word that waits, or whose answer its thread awaits, is evaluated again (R120). -/
def retryTurn (s : State) (tile thr : Nat) : TurnDoes :=
  let set := (getTile s tile).active
  let th := getThread s tile set thr
  let s1 := { s with focus := ⟨tile, set, thr, 0, 0⟩ }
  if (th.st == .wait || (th.st == .run && th.fl.asked.isSome)) && edgeNow s tile && !(getTile s tile).removed
      && !parkedOn s1 (curAgent s1) then
    match threadWord s tile set thr with
    | .ok i => .run s1 i
    | .error m => .over (raiseTrap s1 tile set (malformedRec thr (fetchPc th) m))
  else .over s

/-- An engine of a tile's active set takes the command at its ring's head (R418, R242). -/
def commandTurn (s : State) (tile eng : Nat) : TurnDoes :=
  let set := (getTile s tile).active
  let s1 := { s with focus := ⟨tile, set, 0, eng, 0⟩ }
  if !edgeNow s tile || (getTile s tile).removed then .over s
  else
    match fetchCommand s1 eng with
    | .none => .over s
    | .cmd i => .run s1 i
    | .fault code => .over (commandFault s1 eng code)
    | .bad =>
      let c := getSet s tile set
      .over (raiseTrap (modEng s1 eng fun x => { x with faulted := true }) tile set
        (unitRec 0x09 1 eng 0 (ringHead c eng) (ringAddr c eng (ringHead c eng)) 0 0))

/-- Whether the command at an engine's ring head has a wait for tokens still to perform (R27, R236). -/
def headWaits (s : State) (tile eng : Nat) : Bool :=
  let set := (getTile s tile).active
  let s1 := { s with focus := ⟨tile, set, 0, eng, 0⟩ }
  match fetchCommand s1 eng with
  | .cmd i => (match cmdParts i with | some (_, _, f) => f.wait.isSome && !(engState (getSet s tile set) eng).waited | none => false)
  | _ => false

/-- An element executes its reaction's next move. -/
def moveTurn (s : State) (tile elem : Nat) : TurnDoes :=
  let s1 := { s with focus := ⟨tile, (getTile s tile).active, 0, 0, elem⟩ }
  if moveReady s1 && !(getTile s tile).removed then
    match decodeMove (imgMove (rxImage s1 (curRx s1)) (curRx s1).idx) with
    | some i => .run s1 i
    | none => .fault .unloadable
  else .over s

/-- A region's segments are linked where the die scheduler has taken all the time it may (R323, R419). -/
def linkDueTurn (s : State) (tile slot : Nat) : State :=
  let c := activeSet (getTile s tile)
  let cs := waitCycles s tile (getTile s tile).active slot
  let es := capacityEdges cs
  if monitorDue s tile slot && (causalityCycle cs).isNone && !es.isEmpty && (es.all fun w => canLink s w)
      && (regionOf c slot).moved + waitTicks c + 4096 ≤ s.dcc then linkRegion s tile slot es
  else s

/-- What a turn does while the package runs. -/
def liveTurn (s : State) (t : Turn) : TurnDoes :=
  match t with
  | .issue tile vec => issueTurn s tile vec
  | .issueEarly tile => issueEarlyTurn s tile
  | .retry tile thr => retryTurn s tile thr
  | .command tile eng => commandTurn s tile eng
  | .commandEarly tile eng => if headWaits s tile eng then .over s else commandTurn s tile eng
  | .meRow tile port => .over (meRowTurn s tile port)
  | .load tile => .over (loadStep s tile)
  | .stage tile elem => .over (stageTurn s tile elem)
  | .move tile elem => moveTurn s tile elem
  | .counter tile elem out => .over (counterTake s tile elem out)
  | .columns => .over (settleColumns s)
  | .linkDue tile slot => .over (linkDueTurn s tile slot)
  | .prefetch tile port item => .over (fetchItem s tile port item)
  | .cross tile key => .over (crossEntry s tile key)
  | .accept req => .over (advanceReq s req)
  | .copyStep chan id => .over (copyStep s chan id)
  | .park tile => .over (schedulerTurn s tile)
  | .ringDrain ctx ring => .over (ringDrain s ctx ring)
  | .fail what => .over (storeError s what)
  | .event i => if isEvent i then .run s i else .over s

/-- What a turn does: in a thermal shutdown nothing but a package reset (R399). -/
def turnDoes (s : State) (t : Turn) : TurnDoes :=
  if s.boot == .shutdown then (if t == .event .packageReset then .run s .packageReset else .over s) else liveTurn s t

/-- The state after a turn's instruction, which ran in state `was`: an issued word takes its slot. -/
def afterTurn (t : Turn) (was : State) (i : Instr) (s : State) : State :=
  let issued (tile : Nat) (vec : Bool) : State :=
    match wordParts i with
    | some (opc, w) => afterIssue tile vec was.focus.thr opc w was s
    | none => s
  match t with
  | .issue tile vec => issued tile vec
  | .issueEarly tile => issued tile false
  | _ => s

/-! ### The agenda of a tick -/

/-- Events that a tick brings itself: no open duration of R419 and nothing outside the package decides when they happen. -/
def forcedEvent (i : Instr) : Bool :=
  match i with
  | .gearTakeEffect _ | .gearTransitionEnd _ | .versionOverflow _ _ | .barrierResume _ _ | .parkDrop _ _ | .thermalSample _ _
  | .thermalOverride _ | .droopStretchEnd _ | .droopHalfWidthEnd _ | .shadowSetSwap _ | .revocationDeadline _ | .slabReady _
  | .timingTrap _ | .staleStampMiss _ | .engineSignal _ _ | .loadEnd _ | .switchTagArrival _ _ | .regionRetire _ _
  | .regionCompletionStore _ _ | .entryArrival _ _ _ | .cairnRecord _ _ | .handlerFire _ _ | .defaultReaction _ _
  | .finishingReaction _ _ | .reactionEmit _ _ | .switchEntryWrite _ _ _ | .waitSnapshot _ _ | .trapPresent _ _ | .poolRefill
  | .meterCheck | .timeSlice | .placementRetire _ | .launchRetire _ | .snapshotComplete _ | .scTokenPass => true
  | _ => false

/-- The turns whose ticks R419 leaves open, or the outside world decides. -/
def openTurn (t : Turn) : Bool :=
  match t with
  | .issue _ _ | .issueEarly _ | .retry _ _ | .command _ _ | .commandEarly _ _ | .meRow _ _ | .load _ | .stage _ _ | .move _ _
  | .counter _ _ _ | .columns | .linkDue _ _ => false
  | .prefetch _ _ _ | .cross _ _ | .accept _ | .copyStep _ _ | .park _ | .ringDrain _ _ | .fail _ => true
  | .event i => !forcedEvent i

/-- The turn of an event. -/
def turnOf (i : Instr) : Turn := .event i

/-- The turns of an event at each of some numbers. -/
def turnsOf (l : List Nat) (f : Nat → Instr) : List Turn := l.map fun k => turnOf (f k)

/-- What the count of ticks brings (R317, R373, R395, R278): the interval's end and start, every 2^20 ticks a scheduling period, every
4,096 ticks the sensors' samples, whose readings are free values. -/
def periodicTurns (s : State) : List Turn :=
  let sample (n : Nat) : Instr := Instr.thermalSample n ((Config.freeWord (s.fresh + n)).setWidth 16)
  List.flatten
    [if s.dcc % 1024 = 0 then [turnOf Instr.meterCheck, turnOf Instr.poolRefill] else [],
     if s.dcc % 2 ^ 20 = 0 then [turnOf Instr.timeSlice] else [],
     if s.dcc % 4096 = 0 then turnsOf (List.range 64) sample else []]

/-- The answers of a tile's own scratchpad that fall due (R139, R169). -/
def dueTurns (s : State) (n : Nat) : List Turn :=
  let ids := (s.reqs.filter fun r => agentTile r.agent == some n && r.due.isSome).map Req.id
  (turnsOf ids Instr.appliedAtHome).append
    (ids.flatMap fun id => [turnOf (Instr.memoryResponse id), turnOf (Instr.deferredIntegrityTrap id)])

/-- An element's step (R66, R72, R78, R223): its stages, the reaction that leaves stage 6, SWITCH entries, the selection of a new
reaction with its moves, and the entries that reach stage 1. -/
def elemTurns (n e : Nat) : List Turn :=
  let eight := List.range 8
  List.flatten
    [[.stage n e, turnOf (Instr.reactionEmit n e)], turnsOf eight (Instr.switchEntryWrite n e),
     [turnOf (Instr.handlerFire n e), turnOf (Instr.defaultReaction n e), turnOf (Instr.finishingReaction n e)],
     List.replicate 16 (.move n e), turnsOf eight (Instr.entryArrival n e), [turnOf (Instr.cairnRecord n e)]]

/-- The matrix engine's rows at a step. -/
def rowTurns (n : Nat) : List Turn := [4, 2, 3, 0, 1].map fun p => .meRow n p

/-- An engine step of a tile: issue before the waits for tokens, the matrix engine's rows, the commands, and the waits for tokens
after the signals of the step, as often as signals of engines can follow one another (R236). -/
def engineTurns (n : Nat) : List Turn :=
  let six := List.range 6
  List.flatten
    [[.issue n true, .issueEarly n], rowTurns n, six.map fun e => .commandEarly n e, six.flatMap fun _ => six.map fun e => .command n e,
     [.issue n false], rowTurns n, [turnOf (Instr.timingTrap n), turnOf (Instr.staleStampMiss n)]]

/-- The start of a tile's step: what its clock, its barriers and its own scratchpad bring (R127, R129, R139, R268). -/
def startTurns (s : State) (n : Nat) : List Turn :=
  List.flatten
    [[turnOf (Instr.gearTransitionEnd n), turnOf (Instr.droopStretchEnd n), turnOf (Instr.droopHalfWidthEnd n)],
     turnsOf (List.range 4) (Instr.barrierResume n), dueTurns s n]

/-- The collar's part of a step (R200, R209, R220, R223, R226). -/
def collarTurns (s : State) (n : Nat) : List Turn :=
  List.flatten
    [(heldElems (activeSet (getTile s n))).flatMap fun e => (List.range 8).map fun o => .counter n e o,
     turnsOf (List.range 4) (Instr.regionRetire n), turnsOf (List.range 4) (Instr.regionCompletionStore n),
     turnsOf (List.range 3) (Instr.engineSignal n), [turnOf (Instr.slabReady n), .load n, turnOf (Instr.loadEnd n)],
     turnsOf (List.range 2) (Instr.switchTagArrival n)]

/-- The end of a tile's step: waiting words, held records, and what takes effect at an instant boundary (R120, R122, R246, R271);
the die scheduler acts while a slice is in hand (R16, R373). -/
def endTurns (s : State) (n : Nat) : List Turn :=
  let four := List.range 4
  List.flatten
    [four.map fun k => .retry n k, turnsOf (List.range 2) (Instr.trapPresent n), turnsOf four (Instr.parkDrop n),
     [turnOf (Instr.gearTakeEffect n), turnOf (Instr.thermalOverride n), turnOf (Instr.shadowSetSwap n), turnOf (Instr.placementRetire n)],
     if (getTile s n).plan.any fun p => s.dcc < p.2 then [.park n] else []]

/-- What every unit of a tile does at a step edge, in the order in which the model has them act
(notes/assumptions/2.md). -/
def tileTurns (s : State) (n : Nat) : List Turn :=
  List.flatten
    [startTurns s n, collarTurns s n, (heldElems (activeSet (getTile s n))).flatMap (elemTurns n),
     turnsOf (List.range 4) (Instr.waitSnapshot n), (List.range 4).map fun k => .linkDue n k, engineTurns n, endTurns s n]

/-- The versions whose STV may have waited too long (R263). -/
def overflowTurns (s : State) : List Turn :=
  s.reqs.filterMap fun r =>
    match r.agent with
    | .thread t _ k => if r.waiting && r.op == .stv then some (turnOf (Instr.versionOverflow t k)) else none
    | _ => none

/-- What the units beyond the tiles do at a tick: versions whose wait has expired and the ends of the columns' ticks (R263, R264),
deadlines, launches and snapshots that are over, the return of graphs that a SNAP took out (R337), full swaps in hand (R386), and the token with the SC accesses at its node (R294). -/
def packageTurns (s : State) : List Turn :=
  let waiting := (s.reqs.filter scArrived).map Req.id
  List.flatten
    [overflowTurns s, [.columns], turnsOf (s.revs.map fun v => v.id) Instr.revocationDeadline,
     turnsOf (s.launches.map Prod.fst) Instr.launchRetire, turnsOf (s.graphs.map Prod.fst) Instr.snapshotComplete,
     turnsOf ((s.graphs.filter fun g => !g.2.sched).map Prod.fst) Instr.graphRestore, turnsOf (s.swapAsks.map fun a => a.part) Instr.partitionFullSwap,
     (List.range 4).flatMap fun _ => turnsOf waiting Instr.appliedAtHome, [turnOf Instr.scTokenPass]]

/-- The tiles that have a step edge at a tick. -/
def edgeTiles (s : State) : List Nat :=
  (s.tiles.filter fun p => p.1 < 256 && !p.2.removed && clockEdge p.2.clk s.dcc).map Prod.fst

/-- The turns of a tick (notes/assumptions/2.md): what the count brings, what R419 leaves open, every tile with a step edge, and the
units beyond the tiles. -/
def tickTurns (s : State) (opened : List Turn) : List Turn :=
  periodicTurns s ++ opened.filter openTurn ++ (edgeTiles s).flatMap (tileTurns s) ++ packageTurns s

/-- A tick begins (R13): the DCC rises, boot goes on, barrier releases settle, and the tick's turns are set. -/
def beginTick (s : State) : State :=
  let s1 := releaseTick (bootStage { s with dcc := s.dcc + 1 })
  { s1 with agenda := tickTurns { s1 with fresh := s1.fresh + 1 } (Config.turns s1.fresh), fresh := s1.fresh + 65 }

end Sys2Proof.Machine
end

