-- ==== Sys2Proof/Machine/Step.lean ====
section
/-! DEFINITION. One step of the machine: the next turn of the tick's agenda, or the next tick. -/

namespace Sys2Proof.Machine

/-- The outcome of an instruction that ran in state `was`, with what its turn does after it. -/
def turnOutcome (t : Turn) (was : State) (i : Instr) (o : Host.Outcome State Fault Refusal) :
    Host.Outcome State Fault Refusal :=
  match o with
  | .next s => .next (afterTurn t was i s)
  | .fault f => .fault f
  | .refused r => .refused r

/-- One turn (R419; notes/assumptions/2.md). -/
def turnStep (s : State) (t : Turn) : Host.Outcome State Fault Refusal :=
  match turnDoes s t with
  | .over s1 => .next s1
  | .fault f => .fault f
  | .run s1 i => turnOutcome t s1 i (exec i s1)

/-- One step: the agenda's next turn, and where none is left the next tick. -/
def step (s : State) : Host.Outcome State Fault Refusal :=
  match s.agenda with
  | [] => .next (beginTick s)
  | t :: rest => turnStep { s with agenda := rest } t

/-- A reaction about to make the move at index 0 of its image. -/
def fetchReaction : Reaction := { noReaction with kind := .handler 0, done := false }

/-- The state in which the next step executes an instruction of the given bits: a move as the next one of element 0 of
tile 0, whose reaction stands before it; a command at the head of the matrix engine's ring, enqueued in ELASTIC mode; a tile-controller word at PC
0 of thread 0, with every feature and the whole register file. The rest of what is set is what the fetch needs. -/
def State.withFetchWord (s : State) (nbits w : Nat) : State :=
  if nbits ≤ 32 then
    let im : Image := ⟨Tab.set [] 16 (BitVec.ofNat 64 w), []⟩
    let s1 := modTile s 0 fun t => { t with active := 0, removed := false, planes := Tab.set t.planes 0 ⟨true, false, Tab.set [] 0 im⟩ }
    { setElem s1 0 0 0 { Elem.reset with rxs := [fetchReaction] } with agenda := [.move 0 0] }
  else if nbits ≤ 64 then
    let s1 := { s with dcc := s.dcc + 1, boot := .running, agenda := [.command 0 0] }
    let s2 := modTile s1 0 fun t => { t with active := 0, removed := false, clk := ⟨0, s.dcc, false, 0⟩ }
    modTile (modSet s2 0 0 fun c =>
      { c with ctx := some 0, splen := 1, ringLsz := Tab.set c.ringLsz 0 5, head := Tab.set c.head 0 0,
               tail := Tab.set c.tail 0 1, stopReq := false, captured := Tab.set c.captured 0 ⟨0, 0, true, false, 0, [], 0⟩ }) 0 fun t => { t with sp := Memory.write t.sp 0 8 w }
  else
    let s1 := { s with dcc := s.dcc + 1, boot := .running, featsel := none, featcap := 0x1FF, agenda := [.issue 0 (vectorOpc (w / 2 ^ 118))] }
    let s2 := modTile s1 0 fun t =>
      { t with active := 0, removed := false, clk := ⟨0, s.dcc, false, 0⟩, usedS := none, usedV := none, vbusy := 0
               istore := Tab.set t.istore 0 (BitVec.ofNat 128 w) }
    modThread (modSet s2 0 0 fun c => { c with ctx := some 0, ilen := 64, ibase := 0, vlen := 640, splen := 1 }) 0 0 0
      fun _ => { Thread.reset with st := .run }

end Sys2Proof.Machine
end

