-- ==== Sys2Proof/Safety.lean ====
section
/-! DEFINITION. What counts as a safe step: one that answers a next state. -/

namespace Sys2Proof

open Sys2Proof.Machine

/-- A state from which the machine takes a step. -/
def goesOn (s : State) : Prop := ∃ t, Sys2Proof.Machine.step s = .next t

/-- A run of n steps that stops nowhere. -/
def runsFor : Nat → State → Prop
  | 0, _ => True
  | n + 1, s => ∃ t, Sys2Proof.Machine.step s = .next t ∧ runsFor n t

end Sys2Proof
end

