-- ==== Sys2Proof/Certificates/Slice0/Obligations.lean ====
section
/-! DEFINITION. The statements for the provers, and the vocabulary in which they are said. -/

namespace Sys2Proof.Claim

open Sys2Proof.Machine

/-! ### The thread that acts -/

/-- The acting thread stands at word `pc`, in RUN, ready `d` steps on; nothing else of the state changes (R120, R139). -/
def thenAt (s : State) (pc d : Nat) : State :=
  modCurThread s fun x =>
    { x with pc := pc, st := .run
             fl := { x.fl with notBefore := tscOf s s.focus.tile + d, walked := [], asked := none, parked := none } }

/-- The acting thread stands at the next word (R139). -/
def thenNext (s : State) : State := thenAt s ((curThread s).pc + 1) 1

/-- The guard lets the word execute (R19), and the thread is not executing a load again (R153). -/
def Runs (w : TWord) (s : State) : Prop := guardHolds (curThread s) w.guard = true ∧ (curThread s).fl.redo = []

/-- The next word lies inside the instruction window (R147). -/
def NextInside (s : State) : Prop := (curThread s).pc + 1 < (curSet s).ilen

/-- The state in which a word has its effect: with the restart snapshot of a restart point taken (R20). -/
abbrev issued (w : TWord) (s : State) : State := markRestart w s

/-! ### Scalar integers (R140, R141) -/

/-- The integer scalar types: the low nine bits of MOD, the width, and whether the type is signed (R140). -/
def intTypes : List (Nat × Nat × Bool) :=
  [(0x107, 64, true), (0x10B, 64, false), (7, 32, true), (8, 16, true), (9, 8, true), (11, 32, false), (12, 16, false), (13, 8, false)]

/-- A word of an integer scalar type without SAT. -/
def Typed (w : TWord) (wd : Nat) (sg : Bool) : Prop := ∃ m, (m, wd, sg) ∈ intTypes ∧ w.modf = BitVec.ofNat 32 m

/-- The same with SAT (R24). -/
def TypedSat (w : TWord) (wd : Nat) (sg : Bool) : Prop := ∃ m, (m, wd, sg) ∈ intTypes ∧ w.modf = BitVec.ofNat 32 (m + 2 ^ 11)

/-- The number that a bit vector stands for. -/
def num (sg : Bool) {n : Nat} (x : BitVec n) : Int := if sg then x.toInt else (x.toNat : Int)

/-- A result of a type in a 64-bit register (R141). -/
def ext (sg : Bool) {n : Nat} (x : BitVec n) : BitVec 64 := if sg then x.signExtend 64 else x.zeroExtend 64

/-- The least and the greatest number of an integer type (R46). -/
def least (sg : Bool) (n : Nat) : Int := if sg then -2 ^ (n - 1) else 0
def greatest (sg : Bool) (n : Nat) : Int := if sg then 2 ^ (n - 1) - 1 else 2 ^ n - 1

/-- A number held to the range of its type (R46, R141). -/
def clamp (sg : Bool) (n : Nat) (t : Int) : Int := if t < least sg n then least sg n else if greatest sg n < t then greatest sg n else t

/-- The arithmetic of R142, on the numbers that the operands stand for. -/
def arithRows (w : TWord) (wd : Nat) : List (Instr × (Int → Int → Int)) :=
  [(.add w, fun a b => a + b), (.sub w, fun a b => a - b), (.mul w, fun a b => a * b), (.mulh w, fun a b => a * b / 2 ^ wd),
   (.min w, fun a b => if a ≤ b then a else b), (.max w, fun a b => if a ≤ b then b else a), (.ext w, fun a _ => a)]

/-- The bitwise operations, shifts and counts of R142, on the low bits of the operands. -/
def bitRows (w : TWord) (wd : Nat) : List (Instr × (BitVec wd → BitVec wd → BitVec wd)) :=
  [(.and w, fun a b => a &&& b), (.or w, fun a b => a ||| b), (.xor w, fun a b => a ^^^ b), (.andn w, fun a b => a &&& ~~~b),
   (.shl w, fun a b => a <<< (b.toNat % wd)), (.shr w, fun a b => a >>> (b.toNat % wd)),
   (.sar w, fun a b => a.sshiftRight (b.toNat % wd)), (.rol w, fun a b => a.rotateLeft (b.toNat % wd)),
   (.clz w, fun a _ => BitVec.ofNat wd ((List.range wd).takeWhile fun i => !a.getMsbD i).length),
   (.ctz w, fun a _ => BitVec.ofNat wd ((List.range wd).takeWhile fun i => !a.getLsbD i).length),
   (.popc w, fun a _ => BitVec.ofNat wd ((List.range wd).countP fun i => a.getLsbD i))]

/-- The quotient of R143. -/
def quotient (sg : Bool) (wd : Nat) (a b : Int) : Int :=
  if b = 0 then (if sg && decide (a < 0) then least sg wd else greatest sg wd)
  else if sg && decide (a = least sg wd) && decide (b = -1) then least sg wd else a.tdiv b

/-- The remainder of R143. -/
def remainder (a b : Int) : Int := if b = 0 then a else a.tmod b

/-- A bit field of R142: the position and the length that B gives. -/
def fieldPos (b : BitVec 64) : Nat := (b.extractLsb' 0 6).toNat
def fieldLen (b : BitVec 64) : Nat := (b.extractLsb' 6 6).toNat + 1

/-- A binary32 NaN (R40). -/
def isNan32 (x : BitVec 32) : Bool := x.extractLsb' 23 8 == 0xFF && x.extractLsb' 0 23 != 0

/-- The place of a binary32 code in the order of the numbers: −0 and +0 together, and every subnormal with them where it
is flushed (R40, R42). -/
def key32 (ftz : Bool) (x : BitVec 32) : Int :=
  if ftz && x.extractLsb' 23 8 == 0 then 0 else if x.msb then -((x.extractLsb' 0 31).toNat : Int) else ((x.extractLsb' 0 31).toNat : Int)

end Sys2Proof.Claim

open Sys2Proof Sys2Proof.Machine Sys2Proof.Claim

/-! ### Scalar words -/

/-- R143: DIV truncates toward zero, REM takes the sign of the dividend, and no case of either traps; SAT is not accepted. -/
def Obligations.DivideAndRemainderNeverTrap : Prop :=
  ∀ w : TWord,
    (∀ (s : State) (wd : Nat) (sg : Bool), Typed w wd sg → Runs w s → NextInside s →
      let a := num sg ((readS (!sg) (curThread s) w.a).setWidth wd)
      let b := num sg ((readS (!sg) (curThread s) w.b).setWidth wd)
      exec (.div w) s = .next (thenNext (writeS (issued w s) w.d (ext sg (BitVec.ofInt wd (quotient sg wd a b))))) ∧
      exec (.rem w) s = .next (thenNext (writeS (issued w s) w.d (ext sg (BitVec.ofInt wd (remainder a b)))))) ∧
    ∀ feat vlen, w.modf.getLsbD 11 = true → WellFormed feat vlen (.div w) = false ∧ WellFormed feat vlen (.rem w) = false

/-- R141, R142: ADD, SUB, MUL, MULH, MIN, MAX and EXT of every integer type write D with the low bits of the exact result,
extended; and the next word follows. R141: with SAT, ADD, SUB and MUL hold the exact result to the range of the type
first. R141, R142: the bitwise operations, the shifts by B modulo the width, and the counts. R142: NOP, MOV, MOVH,
LEA, BFX, BFI and SEL. -/
def Obligations.ScalarWordsWriteTheirResults : Prop :=
  (∀ (w : TWord) (s : State) (wd : Nat) (sg : Bool) (i : Instr) (f : Int → Int → Int),
    Typed w wd sg → (i, f) ∈ arithRows w wd → Runs w s → NextInside s →
    let a := (readS (!sg) (curThread s) w.a).setWidth wd
    let b := (readS (!sg) (curThread s) w.b).setWidth wd
    exec i s = .next (thenNext (writeS (issued w s) w.d (ext sg (BitVec.ofInt wd (f (num sg a) (num sg b))))))) ∧
  (∀ (w : TWord) (s : State) (wd : Nat) (sg : Bool) (i : Instr) (f : Int → Int → Int),
    TypedSat w wd sg → (i, f) ∈ (arithRows w wd).take 3 → Runs w s → NextInside s →
    let a := (readS (!sg) (curThread s) w.a).setWidth wd
    let b := (readS (!sg) (curThread s) w.b).setWidth wd
    exec i s = .next (thenNext (writeS (issued w s) w.d (ext sg (BitVec.ofInt wd (clamp sg wd (f (num sg a) (num sg b)))))))) ∧
  (∀ (w : TWord) (s : State) (wd : Nat) (sg : Bool) (i : Instr) (f : BitVec wd → BitVec wd → BitVec wd),
    Typed w wd sg → (i, f) ∈ bitRows w wd → Runs w s → NextInside s →
    let a := (readS (!sg) (curThread s) w.a).setWidth wd
    let b := (readS (!sg) (curThread s) w.b).setWidth wd
    exec i s = .next (thenNext (writeS (issued w s) w.d (ext sg (f a b))))) ∧
  (∀ (w : TWord) (s : State) (sg : Bool), Runs w s → NextInside s →
    let a := readS (!sg) (curThread s) w.a
    let b := readS (!sg) (curThread s) w.b
    let old := readS false (curThread s) w.d
    let pos := fieldPos b
    let len := fieldLen b
    let done (v : BitVec 64) : Host.Outcome State Fault Refusal := .next (thenNext (writeS (issued w s) w.d v))
    (w.modf = 0 → exec (.nop w) s = .next (thenNext (issued w s))) ∧
    (Typed w 64 sg → exec (.mov w) s = done a) ∧
    (Typed w 64 sg → exec (.sel w) s = done (if (readP (curThread s) w.c).getLsbD 0 then a else b)) ∧
    (Typed w 64 sg → exec (.bfx w) s = done (let f := (a >>> pos).setWidth len; if sg then f.signExtend 64 else f.zeroExtend 64)) ∧
    (Typed w 64 true → sg = true → exec (.movh w) s = done (a.setWidth 32 ++ old.setWidth 32)) ∧
    (Typed w 64 true → sg = true → ∃ v, exec (.bfi w) s = done v ∧
      ∀ j < 64, v.getLsbD j = if pos ≤ j ∧ j < pos + len then a.getLsbD (j - pos) else old.getLsbD j) ∧
    (∀ n < 16, w.modf = BitVec.ofNat 32 (n * 2 ^ 28 + 0x107) → sg = true →
      exec (.lea w) s = done (BitVec.ofNat 64 (a.toNat + b.toNat * 2 ^ n))))

/-- R144: CMP compares as the type says, and writes 32 ones where the condition holds and 0 where it does not. R144: CMP
of F32 orders binary32 codes as numbers, −0 equal to +0 and, under FTZ, every subnormal equal to 0; a NaN makes every
condition false but NE and UN. -/
def Obligations.ComparesWriteThePredicate : Prop :=
  (∀ (w : TWord) (s : State) (wd : Nat) (sg : Bool) (cc m : Nat), (m, wd, sg) ∈ intTypes → cc < 6 →
    w.modf = BitVec.ofNat 32 (cc * 2 ^ 28 + m) → Runs w s → NextInside s →
    let a := num sg ((readS (!sg) (curThread s) w.a).setWidth wd)
    let b := num sg ((readS (!sg) (curThread s) w.b).setWidth wd)
    let holds : Bool := match cc with
      | 0 => a == b | 1 => a != b | 2 => a < b | 3 => a ≤ b | 4 => b < a | _ => b ≤ a
    exec (.cmp w) s = .next (thenNext (writeP (issued w s) w.d (if holds then 0xFFFFFFFF else 0)))) ∧
  (∀ (w : TWord) (s : State) (cc : Nat) (ftz : Bool), cc < 8 →
    w.modf = BitVec.ofNat 32 (cc * 2 ^ 28 + if ftz then 2 ^ 12 else 0) → Runs w s → NextInside s →
    let x := (readS false (curThread s) w.a).setWidth 32
    let y := (readS false (curThread s) w.b).setWidth 32
    let un := isNan32 x || isNan32 y
    let a := key32 ftz x
    let b := key32 ftz y
    let holds : Bool := match cc with
      | 0 => !un && a == b | 1 => un || a != b | 2 => !un && a < b | 3 => !un && a ≤ b
      | 4 => !un && b < a | 5 => !un && b ≤ a | 6 => un | _ => !un
    exec (.cmp w) s = .next (thenNext (writeP (issued w s) w.d (if holds then 0xFFFFFFFF else 0))))

/-- R145: the other predicate instructions. They take MOD = 0, and one whose guard is false leaves D unchanged. -/
def Obligations.PredicateWordsWriteResult : Prop :=
  ∀ (w : TWord),
    (∀ s : State, w.modf = 0 → Runs w s → NextInside s →
      let a := readP (curThread s) w.a
      let b := readP (curThread s) w.b
      let toP (v : BitVec 32) : Host.Outcome State Fault Refusal := .next (thenNext (writeP (issued w s) w.d v))
      let toS (v : BitVec 64) : Host.Outcome State Fault Refusal := .next (thenNext (writeS (issued w s) w.d v))
      exec (.pand w) s = toP (a &&& b) ∧ exec (.por w) s = toP (a ||| b) ∧ exec (.pxor w) s = toP (a ^^^ b) ∧
      exec (.pnot w) s = toP (~~~a) ∧ exec (.pset w) s = toP ((readS false (curThread s) w.a).setWidth 32) ∧
      exec (.pget w) s = toS (a.zeroExtend 64) ∧
      exec (.pcnt w) s = toS (BitVec.ofNat 64 ((List.range 32).countP fun i => a.getLsbD i))) ∧
    ∀ i ∈ [Instr.pand w, .por w, .pxor w, .pnot w, .pset w, .pget w, .pcnt w],
      (∀ feat vlen, WellFormed feat vlen i = true → w.modf = 0) ∧
      ∀ s : State, guardHolds (curThread s) w.guard = false → (curThread s).fl.redo = [] → NextInside s → exec i s = .next (thenNext (issued w s))

/-- R146: BR, BRI and CALL move the PC, CALL after it has written D; the target's word issues two steps later at the
earliest (R139). BR and CALL take a literal, and a branch whose guard is false continues with the next word. -/
def Obligations.BranchesMoveThePc : Prop :=
  ∀ (w : TWord),
    (∀ (s : State) (t : Nat), w.modf = 0 → Runs w s → t < (curSet s).ilen →
      let a := readS false (curThread s) w.a
      let pc := (curThread s).pc
      ((pc : Int) + a.toInt = t → exec (.br w) s = .next (thenAt (issued w s) t 2)) ∧
      (a.toNat = t → exec (.bri w) s = .next (thenAt (issued w s) t 2)) ∧
      ((pc : Int) + a.toInt = t →
        exec (.call w) s = .next (thenAt (writeS (issued w s) w.d (BitVec.ofNat 64 (pc + 1))) t 2))) ∧
    (∀ feat vlen, (WellFormed feat vlen (.br w) = true ∨ WellFormed feat vlen (.call w) = true → ∃ v, w.a = .lit v) ∧
      ∀ i ∈ [Instr.br w, .bri w, .call w], WellFormed feat vlen i = true → w.modf = 0) ∧
    ∀ i ∈ [Instr.br w, .bri w, .call w], ∀ s : State, guardHolds (curThread s) w.guard = false → (curThread s).fl.redo = [] → NextInside s →
      exec i s = .next (thenNext (issued w s))

/-- R148, R149: LOOP, ENDL, KSET and KGET; R150: YIELD, after which the thread is not ready in the next step. -/
def Obligations.LoopWordsKeepTheCounters : Prop :=
  ∀ (w : TWord) (s : State), Runs w s →
    let a := (readS false (curThread s) w.a).toInt
    let k := readK (curThread s) w.d
    let pc := (curThread s).pc
    (∀ off : Nat, 1 ≤ off → off < 2 ^ 15 → w.modf = BitVec.ofNat 32 off →
      (a = 0 → pc + off + 1 < (curSet s).ilen → exec (.loop w) s = .next (thenAt (issued w s) (pc + off + 1) 2)) ∧
      (0 < a → a ≤ 524287 → NextInside s → pc < 2 ^ 13 - 1 → exec (.loop w) s =
        .next (thenNext (writeK (issued w s) w.d (BitVec.ofInt 19 (a - 1) ++ BitVec.ofNat 13 (pc + 1))))) ∧
      ((a < 0 ∨ 524287 < a) → exec (.loop w) s =
        .next (raiseTrap (issued w s) s.focus.tile s.focus.set (wordRec 0x02 s.focus.thr pc 0 0)))) ∧
    (w.modf = 0 →
      (k.extractLsb' 13 19 ≠ 0 → (k.extractLsb' 0 13).toNat < (curSet s).ilen → exec (.endl w) s =
        .next (thenAt (writeK (issued w s) w.d ((k.extractLsb' 13 19 - 1) ++ k.extractLsb' 0 13)) (k.extractLsb' 0 13).toNat 2)) ∧
      (k.extractLsb' 13 19 = 0 → NextInside s → exec (.endl w) s = .next (thenNext (issued w s))) ∧
      (0 ≤ a → a < 2 ^ 32 → NextInside s → exec (.kset w) s = .next (thenNext (writeK (issued w s) w.d (BitVec.ofInt 32 a)))) ∧
      ((a < 0 ∨ 2 ^ 32 ≤ a) → exec (.kset w) s =
        .next (raiseTrap (issued w s) s.focus.tile s.focus.set (wordRec 0x02 s.focus.thr pc 0 0))) ∧
      (NextInside s → exec (.kget w) s =
        .next (thenNext (writeS (issued w s) w.d ((readK (curThread s) w.a).zeroExtend 64))))) ∧
    (NextInside s → exec (.yield w) s = .next (thenAt (issued w s) (pc + 1) 2))

/-! ### Encodings and the step -/

namespace Sys2Proof.Claim

/-- A command without token fields. -/
def bare (arg : BitVec 42) : Cmd := ⟨none, none, arg⟩

/-- A move of the given ports with nothing else set. -/
def plain (src dst : Port) (eob eoh : Bool) (imm : BitVec 8) : Mv := ⟨src, dst, .all, .inForce, eob, eoh, imm⟩

/-- The watts that a layout's partitions are allotted: WATTS of each entry whose SLOTS are not 0 (R384). -/
def watts (lay : Tab (List (BitVec 64))) : Nat :=
  ((List.range 12).map fun p =>
    let e := Tab.get [] lay p
    if e.getD 0 0 = 0 then 0 else ((e.getD 1 0).extractLsb' 0 12).toNat).sum

/-- What holds of the package's power and management state from reset on: the limit stays in its range and no layout in force or
in hand asks for more (R11, R397), a layout job in progress holds the mailbox (R387, R394), only defined features are locked
(R403), the leaf counter stops at 2^20 (R402), and a swap that the host asked for holds the mailbox too (R386). -/
def PackageInv (s : State) : Prop :=
  (1200 ≤ s.limit ∧ s.limit ≤ 2800) ∧ (1200 ≤ s.limitNext ∧ s.limitNext ≤ 2800) ∧
  (watts s.layout ≤ s.limit ∧ watts s.layout ≤ s.limitNext) ∧
  (s.ljState ≠ 0 → s.box.busy = true ∧ s.box.ended = false ∧ watts s.staged ≤ s.limit ∧ watts s.staged ≤ s.limitNext) ∧
  s.ljState ≤ 2 ∧ s.lmsLeaf ≤ 2 ^ 20 ∧ (∀ f, s.featsel = some f → f.toNat < 2 ^ 9) ∧
  (s.swapAsks.filter fun a => a.byHost).length ≤ 1 ∧
  ∀ a ∈ s.swapAsks, a.byHost = true → s.box.busy = true ∧ s.box.ended = false ∧ s.ljState = 0

/-- The canonical form of what the state keeps in lists by key: memories list each byte once, in rising order, and none that reads as 0;
tables list each key once, in rising order. -/
def TablesInv (s : State) : Prop :=
  Memory.wf s.mem = true ∧ (∀ p ∈ s.tiles, Memory.wf p.2.sp = true) ∧ Tab.wf s.places = true ∧ Tab.wf s.launches = true ∧
  Tab.wf s.slots = true ∧ Tab.wf s.partsOut = true ∧ ∀ p ∈ s.ctxs, Tab.wf p.2.shares = true

/-- The scalar words that write a scalar register or nothing (R142, R145, R149). -/
def scalarForms : List (TWord → Instr) :=
  [.nop, .mov, .movh, .lea, .add, .sub, .mul, .mulh, .div, .rem, .min, .max, .and, .or, .xor, .andn, .shl, .shr, .sar, .rol,
   .clz, .ctz, .popc, .ext, .bfx, .bfi, .sel, .pget, .pcnt, .kget]

/-- The scalar words that write a predicate (R144, R145). -/
def predicateForms : List (TWord → Instr) := [.cmp, .pand, .por, .pxor, .pnot, .pset]

/-- The words of control flow (R146, R149, R150). -/
def controlForms : List (TWord → Instr) := [.br, .bri, .call, .loop, .endl, .kset, .halt, .yield]

/-- The other words whose guard is one bit: memory, cluster, system, engine and context words (R19). -/
def unitForms : List (TWord → Instr) :=
  [.ld, .st, .atom, .cas, .fence, .csrr, .csrw, .csrx, .trapWord, .bkpt, .tretRetry, .tretNext, .tretRestart, .timeD, .timeS,
   .gear, .gearq, .sched, .slack, .pwrq, .pwrcap, .ldv, .stv, .reclaim, .barinit, .barwait, .dqpush, .dqpop, .dqsteal, .tsens,
   (fun w => .enq w 0), .enqs, .tokw, .toks, .qbind, .sbar, .emit, .emita, .emite, .stat, .instw, .resume, .rgn, .snap, .xarm, .xarmD,
   .xfire, .xwait, .xstat, .ctxnew, .ctxgrant, .ctxrevoke, .ctxrun, .ctxstop, .ctxq, .mapRange, .unmap, .pinP, .pinU]

/-- The state after the restart snapshot of the acting thread at a word: what R135 says it holds. -/
def Snapshotted (s t : State) : Prop :=
  let p := (curSet t).rpsnap
  p.valid = true ∧ p.thr = s.focus.thr ∧ p.pc = (curThread s).pc ∧ p.dly = (curSet s).dly ∧ p.tok = (curSet s).tok ∧
  (∀ e < 6, Tab.get 0 p.tails e = (Tab.get 0 (curSet s).tail e).toNat) ∧
  (∀ r < 4, Tab.get 0 p.front r = (Tab.get Region.free (curSet s).regions r).front) ∧
  (∀ n < 8, Tab.get 0 p.spos n = portPos (curSet s) n)

end Sys2Proof.Claim

/-- R17, R25, R27, R30, R32: words written out from the encodings decode to the instructions they stand for. The first
word and the command in the second are the spec's own (R149, R357). -/
def Obligations.WordsDecodeToTheirInstructions : Prop :=
  decodeWord 0x1FF 640 0x211F5E1FFFFFFFA00000000500000003 = .ok (.loop ⟨false, .always, .k 0, .lit 5, .zero, .zero, 0, 3⟩) ∧
  decodeWord 0x1FF 640 (0x340#10 ++ 0#1 ++ 31#5 ++ 0#1 ++ 0x3FF#10 ++ 0x3FF#10 ++ 0x3FF#10 ++ 0x3FF#10 ++ 0#2 ++ 5#5 ++ 0x00B8086400000002#64) =
    .ok (.enq ⟨false, .always, .zero, .zero, .zero, .zero, 5, 0⟩ 0x00B8086400000002) ∧
  -- ADD.S32 s3, s1, -1 under !p2
  decodeWord 0x1FF 640 (0x008#10 ++ 0#1 ++ 2#5 ++ 1#1 ++ 0x283#10 ++ 0x281#10 ++ 0x3FF#10 ++ 0x3FF#10 ++ 2#2 ++ 0#5 ++ 0xFFFFFFFF#32 ++ 7#32) =
    .ok (.add ⟨false, .whenFalse 2, .s 3, .s 1, .lit 0xFFFFFFFF, .zero, 0, 7⟩) ∧
  -- VADD.F32 v8, v0, v4 over four registers, a restart point
  decodeWord 0x1FF 640 (0x200#10 ++ 1#1 ++ 31#5 ++ 0#1 ++ 8#10 ++ 0#10 ++ 4#10 ++ 0x3FF#10 ++ 0#2 ++ 3#5 ++ 0#32 ++ 0#32) =
    .ok (.vadd ⟨true, .always, .v 8, .v 0, .v 4, .zero, 3, 0⟩) ∧
  -- a reserved opcode, and a type that ADD does not take
  decodeWord 0x1FF 640 (0x3FF#10 ++ 0#1 ++ 31#5 ++ 0#112) = .error ⟨1, 0⟩ ∧
  decodeWord 0x1FF 640 (0x008#10 ++ 0#1 ++ 31#5 ++ 0#1 ++ 0x283#10 ++ 0x281#10 ++ 0x282#10 ++ 0x3FF#10 ++ 0#2 ++ 0#5 ++ 0#32 ++ 0#32) =
    .error ⟨3, 0⟩ ∧
  -- MARK on XC, and an operation code that XC does not have
  decodeCmd 5 0x00B8086400000002 = some (.mark ⟨none, some ⟨7, 0⟩, 0x06400000002⟩) ∧
  decodeCmd 5 (0#8 ++ 0#8 ++ 3#6 ++ 0#42) = none ∧
  -- IN0 to ALU.T as ADD, ending bundle and handler
  decodeMove (0#5 ++ 17#5 ++ 1#6 ++ 0#2 ++ 0#2 ++ 1#1 ++ 1#1 ++ 0#2 ++ 0#8) = some (.aluAdd (plain (.inp 0) .aluT true true 0)) ∧
  decodeMove (0#5 ++ 17#5 ++ 18#6 ++ 0#16) = none

namespace Sys2Proof.Claim

/-- The state at a slot's turn: the turn is off the agenda, and the word that holds slot V has begun its next register (R169). -/
def atSlot (s : State) (rest : List Turn) (tile : Nat) (vec : Bool) : State :=
  if vec then slotAdvance { s with agenda := rest } tile else { s with agenda := rest }

/-- The state in which a thread's word runs: the thread acts, and a fence of it that is satisfied is over (R158). -/
def atWord (s : State) (tile thr : Nat) : State :=
  settleFence { s with focus := ⟨tile, (getTile s tile).active, thr, 0, 0⟩ }

/-- The set and the thread that a slot issues from. -/
def issueSet (s : State) (tile : Nat) : CtxSet := tileSet (getTile s tile) (getTile s tile).active
def issueThread (s : State) (tile thr : Nat) : Thread := setThread? (issueSet s tile) thr

/-- The word at the PC of a thread of a tile's active set, in the instruction window (R121). -/
def nextWord (s : State) (tile thr : Nat) : Word128 :=
  Tab.get 0 (getTile s tile).istore ((issueSet s tile).ibase + (issueThread s tile thr).pc)

/-- A slot issues from a thread whose PC lies inside its window, and which repeats no load (R121, R131, R153). -/
def Issues (s : State) (tile thr : Nat) (vec : Bool) : Prop :=
  slotFree s tile vec = true ∧ issuer s tile vec = some thr ∧ (issueThread s tile thr).fl.redo = [] ∧
  (issueThread s tile thr).pc < (issueSet s tile).ilen

/-- An instruction runs, and its word has then issued from a slot (R131, R169). -/
def runsAndIssues (s1 : State) (tile thr : Nat) (vec : Bool) (i : Instr) : Host.Outcome State Fault Refusal :=
  match exec i s1 with
  | .next u => .next (match wordParts i with
      | some (opc, w) => afterIssue tile vec thr opc w s1 u
      | none => u)
  | .fault f => .fault f
  | .refused r => .refused r

end Sys2Proof.Claim

/-- R18, R131, R139: where a slot issues from a thread whose next word decodes to an instruction, the step runs that instruction
with that thread acting, and the slot is then taken. The word is the one at the thread's PC in the instruction window. Slot S
issues so in its first turn of a step too, unless the word is a wait for tokens (R236). -/
def Obligations.StepRunsTheDecodedWord : Prop :=
  ∀ (s : State) (tile thr : Nat) (rest : List Turn) (i : Instr), s.boot ≠ .shutdown →
    (∀ vec : Bool, s.agenda = .issue tile vec :: rest →
      let s0 := atSlot s rest tile vec
      Issues s0 tile thr vec → decodeWord (features s0) (issueSet s0 tile).vlen (nextWord s0 tile thr) = .ok i →
      step s = runsAndIssues (atWord s0 tile thr) tile thr vec i) ∧
    (s.agenda = .issueEarly tile :: rest →
      let s0 := atSlot s rest tile false
      Issues s0 tile thr false → decodeWord (features s0) (issueSet s0 tile).vlen (nextWord s0 tile thr) = .ok i →
      (∀ w, i ≠ .tokw w) → step s = runsAndIssues (atWord s0 tile thr) tile thr false i)

/-- R27, R29, R418, R98: the other turns. An engine runs the command at its ring's head, an element the move at its reaction's
index, and an event runs itself; with no turn left the next tick begins. -/
def Obligations.StepRunsCommandsMovesAndEvents : Prop :=
  ∀ (s : State) (rest : List Turn), s.boot ≠ .shutdown →
    let s0 := { s with agenda := rest }
    (∀ tile eng i, s.agenda = .command tile eng :: rest → edgeNow s tile = true → (getTile s tile).removed = false →
      let s1 := { s0 with focus := ⟨tile, (getTile s tile).active, 0, eng, 0⟩ }
      fetchCommand s1 eng = .cmd i → step s = exec i s1) ∧
    (∀ tile eng i, s.agenda = .commandEarly tile eng :: rest → edgeNow s tile = true → (getTile s tile).removed = false →
      headWaits s0 tile eng = false →
      let s1 := { s0 with focus := ⟨tile, (getTile s tile).active, 0, eng, 0⟩ }
      fetchCommand s1 eng = .cmd i → step s = exec i s1) ∧
    (∀ tile elem i, s.agenda = .move tile elem :: rest → (getTile s tile).removed = false →
      let s1 := { s0 with focus := ⟨tile, (getTile s tile).active, 0, 0, elem⟩ }
      moveReady s1 = true → decodeMove (imgMove (rxImage s1 (curRx s1)) (curRx s1).idx) = some i → step s = exec i s1) ∧
    (∀ i, s.agenda = .event i :: rest → isEvent i = true → step s = exec i s0) ∧
    (s.agenda = [] → ∃ t, step s = .next t ∧ t.dcc = s.dcc + 1)

/-- R17, R18, R22: decoding the word of a well-formed tile-controller instruction gives the instruction back, with every operand
at every value that the encoding admits. -/
def Obligations.DecodeReadsBackEncodedWords : Prop :=
  ∀ (feat vlen : Nat) (i : Instr), (tileParts i).isSome = true → WellFormed feat vlen i = true →
    ∃ w, encodeWord i = some w ∧ decodeWord feat vlen w = .ok i

/-- R27 to R33: the same for engine commands and element moves. -/
def Obligations.DecodeReadsBackCommandsAndMoves : Prop :=
  ∀ (feat vlen : Nat) (i : Instr), WellFormed feat vlen i = true →
    ((cmdParts i).isSome = true → ∃ e w, encodeCmd i = some (e, w) ∧ decodeCmd e w = some i) ∧
    ((moveParts i).isSome = true → ∃ w, encodeMove i = some w ∧ decodeMove w = some i)

/-- R18: whatever the decoder accepts passes the checks: every instruction it gives is well formed. -/
def Obligations.DecoderGivesWellFormedWords : Prop :=
  ∀ (feat vlen : Nat) (w : Word128) (i : Instr), decodeWord feat vlen w = .ok i → WellFormed feat vlen i = true

/-! ### Reset and the invariant -/

/-- R5, R120, R125, R126, R244, R397, R403, R407: what reset leaves, where the spec gives the value. -/
def Obligations.ResetValuesAsTheSpecGivesThem : Prop :=
  let s := State.reset
  s.dcc = 0 ∧ s.limit = 2400 ∧ s.ljState = 0 ∧ s.ljSeq = 0 ∧ s.box.busy = false ∧
  (∀ t, clockTsc (getTile s t).clk 0 = 0 ∧ (getTile s t).effL = false ∧ (getTile s t).plown = 0 ∧
    (getTile s t).drpHalf = 0x0040 ∧ (getTile s t).drpStr = 6 ∧ (getTile s t).drpTh = 6 ∧ (getTile s t).drpCnt = 0) ∧
  (∀ t i, let c := getSet s t i
    c.ctx = none ∧ c.vlen = 0 ∧ c.vbase = 0 ∧ c.splen = 0 ∧ c.spbase = 0 ∧ c.acclen = 0 ∧ c.accbase = 0 ∧ c.ilen = 0 ∧ c.ibase = 0 ∧
    c.schbase = 0 ∧ c.dly = 0 ∧ c.elastic = false ∧ c.trap.valid = false ∧ c.trap.vecEn = false ∧ c.trap.hthr = 0 ∧ c.trap.vecPc = 0 ∧
    c.trap.held = [] ∧ c.rpsnap.valid = false) ∧
  (∀ t i n, (getThread s t i n).st = .off ∧ (getThread s t i n).pc = 0 ∧ ∀ k, Tab.get 0 (getThread s t i n).k k = 0) ∧
  (∀ c, Tab.get FabChan.reset s.fabChans c = ⟨false, false, 0, 0, 0, 0, 0, 0, [], 32, none, none⟩)

/-- R11, R384, R387, R394, R397, R402, R403: every step keeps the package's power and management invariant. -/
def Obligations.EveryStepKeepsThePackageInvariant : Prop :=
  ∀ s t : State, PackageInv s → step s = .next t → PackageInv t

/-- The model's own form of memory and tables (notes/assumptions/4.md): every step keeps it. -/
def Obligations.EveryStepKeepsTheTablesInvariant : Prop :=
  ∀ s t : State, TablesInv s → step s = .next t → TablesInv t

/-- Both invariants hold at reset. -/
def Obligations.ResetMeetsTheInvariants : Prop :=
  PackageInv State.reset ∧ TablesInv State.reset

/-! ### The frame of a scalar word -/

/-- R19: a scalar word whose guard does not hold only moves on to the next word; a restart point takes its snapshot. R20,
R135: a restart point takes its snapshot before it has its effect, whatever its guard, and is otherwise the same word. -/
def Obligations.GuardsAndRestartPoints : Prop :=
  (∀ (f : TWord → Instr) (w : TWord) (s : State), f ∈ scalarForms ++ predicateForms ++ controlForms ++ unitForms →
    guardHolds (curThread s) w.guard = false → (curThread s).fl.redo = [] → NextInside s →
    exec (f w) s = .next (thenNext (issued w s))) ∧
  (∀ (f : TWord → Instr) (w : TWord) (s : State), f ∈ scalarForms ++ predicateForms ++ [.br, .bri, .call, .loop, .endl, .kset, .yield] → w.rst = true →
    (curThread s).st = .run → (curThread s).fl = Flight.none →
    ∃ t, exec (f w) s = exec (f { w with rst := false }) t ∧ Snapshotted s t ∧ t.mem = s.mem ∧ t.dcc = s.dcc ∧
      (∀ u i n, getThread t u i n = getThread s u i n))

/-- R18, R245: where the word is malformed, the step takes the trap of its first failing check instead, and the word has
no effect. R121: a PC at or above ILEN raises the instruction-bound trap, and nothing issues. R139, R147: a word that falls through past the end of the instruction window keeps its own effect; the
instruction-bound trap is raised against it. Shown of the arithmetic of R142, of CALL's target and of a fall-through
of NOP. -/
def Obligations.FetchFaultsTrap : Prop :=
  (∀ (s : State) (tile thr : Nat) (vec : Bool) (rest : List Turn) (m : Malformed),
    s.agenda = .issue tile vec :: rest → s.boot ≠ .shutdown →
    let s0 := atSlot s rest tile vec
    let s1 := atWord s0 tile thr
    let pc := (issueThread s0 tile thr).pc
    Issues s0 tile thr vec → decodeWord (features s0) (issueSet s0 tile).vlen (nextWord s0 tile thr) = .error m →
    ∃ w, step s = .next (afterIssue tile vec thr 0 w s1
      (raiseTrap s1 tile s1.focus.set { wordRec (if m.check = 4 then 2 else 1) thr pc 0 0 with chk := m.check, fld := m.field }))) ∧
  (∀ (s : State) (tile thr : Nat) (rest : List Turn), s.agenda = .issue tile false :: rest → s.boot ≠ .shutdown →
    let s0 := atSlot s rest tile false
    let s1 := atWord s0 tile thr
    slotFree s0 tile false = true → issuer s0 tile false = some thr → (issueThread s0 tile thr).fl.redo = [] →
    (issueSet s0 tile).ilen ≤ (issueThread s0 tile thr).pc →
    step s = .next (raiseTrap s1 tile s1.focus.set (wordRec 0x03 thr (issueThread s0 tile thr).pc 0 0))) ∧
  (∀ (w : TWord) (s : State), Runs w s →
    let pc := (curThread s).pc
    let trapped (t : State) : Host.Outcome State Fault Refusal :=
      .next (raiseTrap t s.focus.tile s.focus.set (wordRec 0x03 s.focus.thr pc 0 0))
    ((curSet s).ilen ≤ pc + 1 → w.modf = 0x107 → exec (.add w) s =
      trapped (writeS (issued w s) w.d (readS false (curThread s) w.a + readS false (curThread s) w.b))) ∧
    ((curSet s).ilen ≤ pc + 1 → w.modf = 0 → exec (.nop w) s = trapped (issued w s)) ∧
    (w.modf = 0 → ((pc : Int) + (readS false (curThread s) w.a).toInt < 0 ∨
        ((curSet s).ilen : Int) ≤ (pc : Int) + (readS false (curThread s) w.a).toInt) →
      exec (.call w) s = trapped (writeS (issued w s) w.d (BitVec.ofNat 64 (pc + 1)))) ∧
    (w.modf = 0 → (curSet s).ilen ≤ (readS false (curThread s) w.a).toNat → exec (.bri w) s = trapped (issued w s)))

/-- The frame of the scalar, predicate and control words (R139 to R150): no register but the destination changes, and no memory,
vector register or accumulator; one that goes on to the next word touches no trap register, context or mailbox either. -/
def Obligations.ScalarWordsChangeOnlyTheirDestination : Prop :=
  ∀ (f : TWord → Instr) (w : TWord) (s t : State), Runs w s → exec (f w) s = .next t →
    (f ∈ scalarForms ++ predicateForms ++ [.br, .bri, .call, .loop, .endl, .kset, .yield] →
      (∀ tile set thr n, ¬(tile = s.focus.tile ∧ (set = 0 ↔ s.focus.set = 0) ∧ thr = s.focus.thr ∧ w.d = .s n) →
        Tab.get 0 (getThread t tile set thr).s n = Tab.get 0 (getThread s tile set thr).s n) ∧
      (∀ tile set thr n, ¬(tile = s.focus.tile ∧ (set = 0 ↔ s.focus.set = 0) ∧ thr = s.focus.thr ∧ w.d = .p n) →
        Tab.get 0 (getThread t tile set thr).p n = Tab.get 0 (getThread s tile set thr).p n) ∧
      (∀ tile set thr n, ¬(tile = s.focus.tile ∧ (set = 0 ↔ s.focus.set = 0) ∧ thr = s.focus.thr ∧ w.d = .k n) →
        Tab.get 0 (getThread t tile set thr).k n = Tab.get 0 (getThread s tile set thr).k n) ∧
      (∀ a, Memory.byte t.mem a = Memory.byte s.mem a) ∧
      (∀ tile, (getTile t tile).sp = (getTile s tile).sp ∧ (getTile t tile).vregs = (getTile s tile).vregs ∧
        (getTile t tile).acc = (getTile s tile).acc ∧ (getTile t tile).istore = (getTile s tile).istore) ∧
      t.reqs = s.reqs ∧ t.dcc = s.dcc) ∧
    (f ∈ scalarForms ++ predicateForms → NextInside s →
      (∀ tile set, (getSet t tile set).trap = (getSet s tile set).trap) ∧ t.ctxs = s.ctxs ∧ t.box = s.box ∧
      (curThread t).pc = (curThread s).pc + 1 ∧
      (∀ tile set thr, ¬(tile = s.focus.tile ∧ (set = 0 ↔ s.focus.set = 0) ∧ thr = s.focus.thr) →
        getThread t tile set thr = getThread s tile set thr))

/-! ### Memory words and their requests -/

namespace Sys2Proof.Claim

/-- The forms of scalar access, each with the kind of access that the checks of R152 tell apart: what the word needs of the mapping,
and its operation. -/
def accessForms (w : TWord) : List (Instr × Bool × Bool × AccessKind × ReqOp) :=
  [(.ld w, true, false, ordKind w.modf, .load), (.st w, false, true, ordKind w.modf, .store),
   (.atom w, true, true, .atomic, .atom (w.modf.extractLsb' 28 4).toNat), (.cas w, true, true, .atomic, .cas)]

/-- The address of a scalar access: A + B, and A alone for a CAS, modulo 2^56 (R26, R156). -/
def accessVa (i : Instr) (w : TWord) (s : State) : Nat :=
  match i with
  | .cas _ => (readS false (curThread s) w.a).toNat % 2 ^ 56
  | _ => (readS false (curThread s) w.a + readS false (curThread s) w.b).toNat % 2 ^ 56

/-- The bytes of a scalar access: 1, 2, 4 or 8 (R24 SIZE). -/
def accessBytes (w : TWord) : Nat := 2 ^ (w.modf.extractLsb' 24 2).toNat

/-- No fence of the thread is pending and its word waits for no walk (R152, R158). -/
def MemoryOpen (s : State) : Prop := fenceMet s s.focus.tile s.focus.set s.focus.thr = true ∧ parkedOn s (curAgent s) = false

/-- The trap of the acting thread's word (R139, R245): cause, address and detail. -/
def wordTraps (w : TWord) (s : State) (cause addr : Nat) (det : BitVec 64) : Host.Outcome State Fault Refusal :=
  .next (raiseTrap (issued w s) s.focus.tile s.focus.set (wordRec cause s.focus.thr (curThread s).pc addr det))

/-- A value of `n` bytes in a 64-bit register: sign- or zero-extended (R153). -/
def loaded (sx : Bool) (n v : Nat) : BitVec 64 :=
  if sx then (BitVec.ofNat (8 * n) v).signExtend 64 else (BitVec.ofNat (8 * n) v).zeroExtend 64

/-- What an atomic writes (R156), at the width of the access. -/
def atomNew (fn : Nat) (sx : Bool) {n : Nat} (old c : BitVec n) : BitVec n :=
  match fn with
  | 0 => old + c
  | 1 => if num sx old < num sx c then old else c
  | 2 => if num sx old < num sx c then c else old
  | 3 => old &&& c
  | 4 => old ||| c
  | 5 => old ^^^ c
  | _ => c

/-- A request that its home may serve now, in ordinary memory with a sound line. -/
def Servable (s : State) (r : Req) (pa : Nat) : Prop :=
  findReq s r.id = some r ∧ canApply s r = true ∧ rankMet s r = true ∧ r.loc = .mem pa ∧ isRegister pa = false ∧
  lineBad s (.mem pa) = false ∧ Memory.wf s.mem = true

/-- Where a request stands once it has its value: one that was read ahead of an acquire keeps the value until that is performed
(notes/assumptions/26.md). -/
def valued (r : Req) : ReqStage := if r.ahead = [] then .applied else .early

/-- The answer of a request may come: one whose step the spec fixes comes at it (R139, R169). -/
def Due (s : State) (r : Req) (tile : Nat) : Prop := ∀ d, r.due = some d → d ≤ tscOf s tile

/-- The set handles a cause of the acting thread (R246): an enabled vector, a delegated cause, no record presented or held, and a
handler thread other than the trapped one. -/
def Handled (s : State) (cause : Nat) : Prop :=
  (∃ x, (curSet s).ctx = some x ∧ bit (getCtx s x).dmask.toNat cause = true) ∧ (curSet s).trap.vecEn = true ∧
  (curSet s).trap.valid = false ∧ (curSet s).trap.held = [] ∧ (curSet s).trap.hthr ≠ s.focus.thr

/-- The state of a thread as TRHPC holds it (R120, R244). -/
def stateOfCode : Nat → ThreadState
  | 0 => .off | 1 => .run | 2 => .wait | 3 => .halt | _ => .trap

end Sys2Proof.Claim

/-- R26, R153, R156, R299: a load, store or atomic whose address passes the checks of R152 sends one request of that address, width
and value; it changes no memory and no register, and the next word follows. -/
def Obligations.MemoryWordsSendOneRequest : Prop :=
  ∀ (w : TWord) (s : State) (i : Instr) (nr nw : Bool) (k : AccessKind) (op : ReqOp) (loc : Loc),
    (i, nr, nw, k, op) ∈ accessForms w → Runs w s → NextInside s → MemoryOpen s →
    accessVa i w s % accessBytes w = 0 → checkAddress s (accessVa i w s) (accessBytes w) nr nw k = .ok loc →
    ∃ t r, exec i s = .next t ∧ t.reqs = s.reqs ++ [r] ∧ r.id = s.serial ∧ r.agent = .thread s.focus.tile s.focus.set s.focus.thr ∧
      r.op = op ∧ r.va = accessVa i w s ∧ r.loc = loc ∧ r.size = accessBytes w ∧ r.pc = (curThread s).pc ∧
      (op ≠ .load → r.val = readS false (curThread s) w.c) ∧ (op = .cas → r.cmp = readS false (curThread s) w.b) ∧
      (∀ n, op ≠ .store → w.d = .s n → r.dst = .sreg n) ∧ (op ≠ .store → r.sx = w.modf.getLsbD 26) ∧
      (r.stage = .held ∨ r.stage = .sent) ∧
      t.mem = s.mem ∧ (∀ u, (getTile t u).sp = (getTile s u).sp) ∧
      (curThread t).pc = (curThread s).pc + 1 ∧ (curThread t).s = (curThread s).s ∧ (curThread t).p = (curThread s).p

/-- R26, R152, R284: the checks of a scalar access. A misaligned address traps with cause 4; in the scratchpad aperture an access
past the context's share traps with cause 8 and an SC access with cause 7; a mapping that does not permit the access traps
with cause 6. The record holds the address. -/
def Obligations.ScalarAccessChecksTrap : Prop :=
  ∀ (w : TWord) (s : State) (i : Instr) (nr nw : Bool) (k : AccessKind) (op : ReqOp),
    (i, nr, nw, k, op) ∈ accessForms w → Runs w s → MemoryOpen s →
    let va := accessVa i w s
    let n := accessBytes w
    (va % n ≠ 0 → exec i s = wordTraps w s 0x04 va 0) ∧
    (va % n = 0 → 0xFF000000000000 ≤ va → k ≠ .sc → (curSet s).splen * 2048 < va - 0xFF000000000000 + n →
      exec i s = wordTraps w s 0x08 va 0) ∧
    (va % n = 0 → 0xFF000000000000 ≤ va → k = .sc → exec i s = wordTraps w s 0x07 va 0) ∧
    (∀ pa m, va % n = 0 → va < 0xFF000000000000 → translate s s.focus.tile (curCtx s) (curThread s).fl.walked va = .hit pa m →
      ((nr = true ∧ m.r = false) ∨ (nw = true ∧ m.w = false)) → exec i s = wordTraps w s 0x06 va 0)

/-- R153, R156, R285: a request served at its home. A store writes its bytes and no other byte, one of a stream port the half bytes
that it names (R230); a load reads the bytes and writes
none; an atomic writes the new value and answers with the old one; a CAS writes only where the old value equals its
comparand. -/
def Obligations.HomeServesTheAccess : Prop :=
  ∀ (s : State) (r : Req) (pa : Nat), Servable s r pa → (r.op ∈ [.store, .load, .cas] ∨ ∃ fn < 7, r.op = .atom fn) →
    let old : BitVec (8 * r.size) := BitVec.ofNat _ (Memory.read s.mem pa r.size)
    ∃ t, exec (.appliedAtHome r.id) s = .next t ∧
      (∀ a, a < pa ∨ pa + r.size ≤ a → Memory.byte t.mem a = Memory.byte s.mem a) ∧
      (r.op = .store → findReq t r.id = none ∧
        (r.mask = 0 → Memory.read t.mem pa r.size = r.val.toNat % 2 ^ (8 * r.size)) ∧
        (r.mask ≠ 0 → ∀ j < 2 * r.size, Memory.read t.mem pa r.size / 16 ^ j % 16 =
          (if r.mask.getLsbD j then r.val.toNat else old.toNat) / 16 ^ j % 16)) ∧
      (r.op = .load → t.mem = s.mem ∧ ∃ q, findReq t r.id = some q ∧ q.stage = valued r ∧ q.bad = false ∧ q.res = loaded r.sx r.size old.toNat) ∧
      (∀ fn < 7, r.op = .atom fn →
        Memory.read t.mem pa r.size = (atomNew fn r.sx old (BitVec.ofNat _ r.val.toNat)).toNat ∧
        ∃ q, findReq t r.id = some q ∧ q.stage = valued r ∧ q.res = loaded r.sx r.size old.toNat) ∧
      (r.op = .cas →
        Memory.read t.mem pa r.size =
          (if old = BitVec.ofNat _ r.cmp.toNat then r.val.toNat % 2 ^ (8 * r.size) else old.toNat) ∧
        ∃ q, findReq t r.id = some q ∧ q.stage = valued r ∧ q.res = loaded r.sx r.size old.toNat)

/-- R153: the answer of a scalar load or atomic writes D, unless a later word of the thread has written it (R139), and completes
the request; one whose line failed its check writes no
register and raises the deferred integrity trap, precise to the load. -/
def Obligations.ResponsesWriteOrTrap : Prop :=
  ∀ (s : State) (r : Req) (tile set thr k : Nat), findReq s r.id = some r → r.stage = .applied →
    (r.op = .load ∨ r.op = .cas ∨ ∃ fn, r.op = .atom fn) → r.agent = .thread tile set thr → r.dst = .sreg k → Due s r tile →
    (r.bad = false → ∃ t, exec (.memoryResponse r.id) s = .next t ∧ findReq t r.id = none ∧ t.mem = s.mem ∧
      Tab.get 0 (getThread t tile set thr).s k = (if r.dead then Tab.get 0 (getThread s tile set thr).s k else r.res) ∧
      (∀ n, n ≠ k → Tab.get 0 (getThread t tile set thr).s n = Tab.get 0 (getThread s tile set thr).s n) ∧
      (getThread t tile set thr).pc = (getThread s tile set thr).pc ∧
      (∀ b ∈ (getThread t tile set thr).fl.busy, b.req ≠ some r.id)) ∧
    (r.bad = true → ∃ u, exec (.deferredIntegrityTrap r.id) s =
        .next (raiseTrap u tile set { wordRec 0x09 thr r.pc r.va 0 with late := true }) ∧
      findReq u r.id = none ∧ u.mem = s.mem ∧ (getThread u tile set thr).s = (getThread s tile set thr).s ∧
      (getThread u tile set thr).pc = (getThread s tile set thr).pc)

/-- R158, R150: FENCE completes at once and stands pending over the thread's earlier accesses of its first kinds, and over what its
stream ports hold parked or faulted (R298); while it is pending no memory word of the thread issues, and HALT does not either; HALT ends the thread once nothing of it is
outstanding. -/
def Obligations.FenceHoldsLaterMemoryWords : Prop :=
  ∀ (w : TWord) (s : State), Runs w s →
    (∀ kinds scope : Nat, 0 < kinds → kinds < 16 → scope < 5 → w.modf = BitVec.ofNat 32 (kinds * 2 ^ 20 + scope * 2 ^ 17) →
      NextInside s → MemoryOpen s → ∃ t f, exec (.fence w) s = .next t ∧
        (curThread t).fl.fence = some f ∧ f.kinds = kinds ∧ f.scope = scope ∧ (curThread t).pc = (curThread s).pc + 1 ∧ t.reqs = s.reqs ∧ t.mem = s.mem ∧
        (∀ r ∈ s.reqs, r.agent = curAgent s → reqLoads r.op = true → (kinds.testBit 0 = true ∨ kinds.testBit 1 = true) → r.id ∈ f.ids) ∧
        (∀ r ∈ s.reqs, r.agent = curAgent s → reqStores r.op = true → (kinds.testBit 2 = true ∨ kinds.testBit 3 = true) → r.id ∈ f.ids)) ∧
    (∀ f, (curThread s).fl.fence = some f →
      (f.ports ≠ [] ∨ ∃ id ∈ f.ids, ∃ r, findReq s id = some r ∧ performed (curAgent s) f.scope r = false) →
      exec (.ld w) s = .next s ∧ exec (.st w) s = .next s ∧ exec (.atom w) s = .next s ∧ exec (.cas w) s = .next s ∧
      exec (.fence w) s = .next s ∧ exec (.halt w) s = .next s) ∧
    (MemoryOpen s → (∀ r ∈ s.reqs, r.agent ≠ curAgent s) → ∃ t, exec (.halt w) s = .next t ∧ (curThread t).st = .halt ∧
      (curThread t).pc = (curThread s).pc + 1 ∧ t.mem = s.mem ∧ (curThread t).s = (curThread s).s)

/-! ### System words -/

namespace Sys2Proof.Claim

/-- CSRs by number, with the value that their field maps give (R125, R135, R244). -/
def csrTable (s : State) : List (Nat × BitVec 64) :=
  let t := curTile s
  let c := curSet s
  let th := curThread s
  [(0x000, BitVec.ofNat 64 (th.pc % 2 ^ 13 * 2 ^ 16 + threadCode th.st * 2 ^ 4 + s.focus.thr % 4)),
   (0x008, BitVec.ofNat 64 (c.vlen * 2 ^ 16 + c.vbase)), (0x009, BitVec.ofNat 64 (c.splen * 2 ^ 16 + c.spbase)),
   (0x00A, BitVec.ofNat 64 (c.acclen * 2 ^ 16 + c.accbase)), (0x00B, BitVec.ofNat 64 (c.ilen * 2 ^ 16 + c.ibase)),
   (0x00C, t.plown.zeroExtend 64), (0x010, c.schbase), (0x011, c.dly ++ (if c.elastic then 1#32 else 0#32)),
   (0x019, (Tab.get 0 c.slk 1).zeroExtend 64), (0x021, 0#32 ++ t.drpHalf ++ 0#4 ++ t.drpStr ++ 0#2 ++ t.drpTh),
   (0x022, t.drpCnt.zeroExtend 64), (0x028, c.causewait.zeroExtend 64), (0x040, c.elxen0), (0x041, c.elxen1),
   (0x06A, 0#32 ++ Tab.get 0 c.tail 2 ++ Tab.get 0 c.head 2), (0x102, c.trap.cur.addr.zeroExtend 64), (0x103, c.trap.cur.det0),
   (0x104, c.trap.cur.det1), (0x180, c.pwrCapNext ++ c.share)]

/-- The CSRs of a tile set that a thread writes in full, with the mask of their fields (R124, R125, R244). -/
def csrPlain : List (Nat × BitVec 64) :=
  [(0x012, 0x7), (0x018, 0xFFFF), (0x019, 0xFFFF), (0x01A, 0xFFFF), (0x01B, 0xFFFF), (0x028, 0xFFFF), (0x040, 0xFFFFFFFFFFFFFFFF),
   (0x041, 0xFFFFFFFFFFFFFFFF), (0x108, 0x80031FFF)]

/-- The CSRs that a thread reads only (R124). -/
def csrReadOnly : List Nat := [0x000, 0x001, 0x002, 0x008, 0x009, 0x00A, 0x00B, 0x00C, 0x010, 0x020, 0x030, 0x068, 0x188]

/-- A word of CSR access to a number, whose thread's earlier words have completed (R159). -/
def CsrWord (w : TWord) (s : State) (n : Nat) : Prop :=
  w.modf = BitVec.ofNat 32 n ∧ n < 2 ^ 12 ∧ Runs w s ∧ (curThread s).fl.busy = [] ∧
  (∀ r ∈ s.reqs, r.agent = curAgent s → reqLoads r.op = false) ∧ fenceMet s s.focus.tile s.focus.set s.focus.thr = true

end Sys2Proof.Claim

/-- R125, R135, R159, R244: CSRR writes D with the CSR's value, as its field map lays it out, and changes nothing else.
R5, R124, R159: CSRW of a CSR of the set writes its fields, and what is read back is what was written; CSRX also
writes D with the old value. A reserved bit that is not 0, or a CSR that a thread only reads, traps with no field
changed and no D written. -/
def Obligations.CsrWordsReadAndWriteTheFieldMaps : Prop :=
  (∀ (w : TWord) (s : State) (n : Nat) (v : BitVec 64), (n, v) ∈ csrTable s → CsrWord w s n → NextInside s →
    exec (.csrr w) s = .next (thenNext (writeS (issued w s) w.d v))) ∧
  (∀ (w : TWord) (s : State) (n : Nat), CsrWord w s n →
    let v := readS false (curThread s) w.a
    (∀ m, (n, m) ∈ csrPlain → v &&& ~~~m = 0 → NextInside s →
      (∃ t, exec (.csrw w) s = .next t ∧ csrValue t t.focus.tile t.focus.set t.focus.thr n = some v.toNat ∧
        t.mem = s.mem ∧ (curThread t).s = (curThread s).s ∧ (curThread t).pc = (curThread s).pc + 1) ∧
      (∃ t old, csrValue s s.focus.tile s.focus.set s.focus.thr n = some old ∧ exec (.csrx w) s = .next t ∧
        csrValue t t.focus.tile t.focus.set t.focus.thr n = some v.toNat ∧ (curThread t).pc = (curThread s).pc + 1 ∧
        (∀ k, w.d = .s k → Tab.get 0 (curThread t).s k = BitVec.ofNat 64 old))) ∧
    (∀ m, (n, m) ∈ csrPlain → v &&& ~~~m ≠ 0 → exec (.csrw w) s = wordTraps w s 0x02 0 0 ∧ exec (.csrx w) s = wordTraps w s 0x02 0 0) ∧
    (n ∈ csrReadOnly → exec (.csrw w) s = wordTraps w s 0x02 0 0))

/-- R160, R139: TRAP and BKPT raise their traps, precise to the word: TRAP's record holds its code. -/
def Obligations.SoftwareTrapsRaiseTheirRecords : Prop :=
  ∀ (w : TWord) (s : State), Runs w s →
    (∀ code < 2 ^ 16, w.modf = BitVec.ofNat 32 code → exec (.trapWord w) s = wordTraps w s 0x0A 0 (BitVec.ofNat 64 code)) ∧
    (w.modf = 0 → exec (.bkpt w) s = wordTraps w s 0x0B 0 0)

/-- R246: the entry of a trap that the context handles. The record is presented, the trapped thread is in TRAP at its word, TRHPC
holds the handler thread's state and PC, and that thread runs at TRVEC.PC; no other thread and no memory changes. Shown of
TRAP. -/
def Obligations.TrapEntryPresentsTheRecord : Prop :=
  ∀ (w : TWord) (s : State) (code : Nat), Runs w s → code < 2 ^ 16 → w.modf = BitVec.ofNat 32 code → Handled s 0x0A →
    let h := (curSet s).trap.hthr
    let hs := getThread s s.focus.tile s.focus.set h
    ∃ t, exec (.trapWord w) s = .next t ∧ (curSet t).trap.valid = true ∧ (curSet t).trap.held = [] ∧
      (curSet t).trap.cur = wordRec 0x0A s.focus.thr (curThread s).pc 0 (BitVec.ofNat 64 code) ∧
      (curSet t).trap.hst = threadCode hs.st ∧ (curSet t).trap.hpc = hs.pc ∧
      (curThread t).st = .trap ∧ (curThread t).pc = (curThread s).pc ∧ (curThread t).s = (curThread s).s ∧
      (let ht := getThread t s.focus.tile s.focus.set h; ht.st = .run ∧ ht.pc = (curSet s).trap.vecPc ∧ ht.s = hs.s) ∧
      (∀ tile set n, ¬(tile = s.focus.tile ∧ (set = 0 ↔ s.focus.set = 0) ∧ (n = h ∨ n = s.focus.thr)) →
        getThread t tile set n = getThread s tile set n) ∧
      t.mem = s.mem ∧ t.ctxs = s.ctxs

/-- R161, R247: the return. VALID falls, the handler thread goes back to the state and PC of TRHPC, and the trapped thread
runs at its word again for RETRY and at the word after it for NEXT. Where no record is presented the return raises
illegal-operand. R136: TRET.RESTART where nothing makes it escalate: rings, token counts, stream-port positions and
DLY go back to the snapshot, and its thread runs at its PC. Registers, scratchpad, accumulators and memory are not
rewound. -/
def Obligations.TrapAndRestartReturns : Prop :=
  (∀ (w : TWord) (s : State), Runs w s →
    let tr := (curSet s).trap
    let after (t : State) (pos : Nat) : Prop :=
      (curSet t).trap.valid = false ∧ (curThread t).pc = tr.hpc ∧ (curThread t).st = stateOfCode tr.hst ∧
      (let x := getThread t s.focus.tile s.focus.set tr.cur.thr
       x.st = .run ∧ x.pc = pos ∧ x.s = (getThread s s.focus.tile s.focus.set tr.cur.thr).s) ∧ t.mem = s.mem
    (tr.valid = true → tr.held = [] → tr.cur.src = 0 → tr.cur.thv = true → tr.cur.late = false → tr.cur.cause ≠ 0x12 →
      tr.hthr = s.focus.thr → tr.cur.thr ≠ tr.hthr →
      (getThread s s.focus.tile s.focus.set tr.cur.thr).fl.again = false →
      (∃ t, exec (.tretRetry w) s = .next t ∧ after t tr.cur.pos) ∧
      (tr.cur.pos + 1 < (curSet s).ilen → ∃ t, exec (.tretNext w) s = .next t ∧ after t (tr.cur.pos + 1))) ∧
    (tr.valid = false → exec (.tretRetry w) s = wordTraps w s 0x02 0 0 ∧ exec (.tretNext w) s = wordTraps w s 0x02 0 0 ∧
      exec (.tretRestart w) s = wordTraps w s 0x02 0 0)) ∧
  (∀ (w : TWord) (s : State), Runs w s → w.rst = false →
    let c := curSet s
    c.trap.valid = true → c.trap.held = [] → c.trap.cur.src = 0 → c.trap.hthr = s.focus.thr →
    restartFails (curTile s) c = false → boundSlots (curTile s) c = [] →
    ∃ t, exec (.tretRestart w) s = .next t ∧ (curSet t).trap.valid = false ∧
      (let x := getThread t s.focus.tile s.focus.set c.rpsnap.thr
       x.st = .run ∧ x.pc = c.rpsnap.pc ∧ x.s = (getThread s s.focus.tile s.focus.set c.rpsnap.thr).s) ∧
      (curSet t).tok = c.rpsnap.tok ∧ (curSet t).dly = c.rpsnap.dly ∧
      (∀ e < 6, Tab.get 0 (curSet t).head e = BitVec.ofNat 16 (Tab.get 0 c.rpsnap.tails e) ∧
        Tab.get 0 (curSet t).tail e = BitVec.ofNat 16 (Tab.get 0 c.rpsnap.tails e)) ∧
      (∀ p, (Tab.find? (curSet t).ports p).map (fun x => x.pos) = (Tab.find? c.ports p).map fun _ => Tab.get 0 c.rpsnap.spos p) ∧
      t.mem = s.mem ∧ (curTile t).sp = (curTile s).sp ∧ (curTile t).acc = (curTile s).acc)

/-- R134, R163 to R166: time, gear and power words. -/
def Obligations.TimeGearAndPowerWords : Prop :=
  ∀ (w : TWord) (s : State), Runs w s → NextInside s →
    let a := (readS false (curThread s) w.a).toInt
    let b := (readS false (curThread s) w.b).toInt
    let tsc := tscOf s s.focus.tile
    let done (v : BitVec 64) : Host.Outcome State Fault Refusal := .next (thenNext (writeS (issued w s) w.d v))
    let set (f : CtxSet → CtxSet) : Host.Outcome State Fault Refusal := .next (thenNext (modCurSet (issued w s) f))
    exec (.timeD w) s = done (BitVec.ofNat 64 s.dcc) ∧
    exec (.timeS w) s = done (BitVec.ofNat 64 tsc) ∧
    exec (.pwrq w) s = done (BitVec.ofNat 32 (min (activeSet (curTile s)).charged (2 ^ 32 - 1)) ++ BitVec.ofNat 32 (min (curTile s).pool (2 ^ 32 - 1))) ∧
    (∃ v, exec (.gearq w) s = done v ∧ v.getLsbD 0 = (curSet s).reqL ∧ v.getLsbD 1 = (curTile s).effL ∧ v.getLsbD 3 = (curTile s).therm ∧
      v.getLsbD 4 = (curSet s).gearPend.isSome ∧ v.getLsbD 7 = (curTile s).mtr ∧ v.extractLsb' 8 8 = 0 ∧ v.extractLsb' 48 16 = 0) ∧
    (∀ fn < 2, w.modf = BitVec.ofNat 32 (fn * 2 ^ 28) →
      (0 ≤ a → a < 2 ^ 32 → exec (.sched w) s = set fun c => { c with schbase := BitVec.ofNat 64 (tsc + a.toNat), elastic := fn == 1, dly := 0 }) ∧
      ((a < 0 ∨ 2 ^ 32 ≤ a) → exec (.sched w) s = wordTraps w s 0x02 0 0) ∧
      ((curSet s).gearPend = none → ∃ t, exec (.gear w) s = .next t ∧ (curSet t).gearPend = some (s.focus.thr, tsc, fn == 1) ∧
        (curThread t).fl.gearing = true ∧ (curThread t).st = .run ∧ (curThread t).pc = (curThread s).pc + 1 ∧
        (curTile t).effL = (curTile s).effL) ∧
      ((curSet s).gearPend ≠ none → exec (.gear w) s = .next s)) ∧
    (w.modf = 0 →
      (0 ≤ a → a ≤ 3 → 0 ≤ b → b ≤ 65535 → exec (.slack w) s = set fun c => { c with slk := Tab.set c.slk a.toNat (BitVec.ofInt 16 b) }) ∧
      ((a < 0 ∨ 3 < a ∨ b < 0 ∨ 65535 < b) → exec (.slack w) s = wordTraps w s 0x02 0 0) ∧
      (0 ≤ a → a < 2 ^ 32 → exec (.pwrcap w) s = set fun c => { c with pwrCapNext := BitVec.ofInt 32 a }) ∧
      ((a < 0 ∨ 2 ^ 32 ≤ a) → exec (.pwrcap w) s = wordTraps w s 0x02 0 0))

/-! ### Vector words -/

namespace Sys2Proof.Claim

/-- Whether lane `l` of the acting thread's word is active: the guard is a mask over lanes (R19). -/
def laneOn (w : TWord) (s : State) (l : Nat) : Bool :=
  match w.guard with
  | .always => true
  | .whenTrue n => (Tab.get 0 (curThread s).p n).getLsbD l
  | .whenFalse n => !(Tab.get 0 (curThread s).p n).getLsbD l

/-- Register `n` of the acting set's vector window (R121). -/
def vreg (s : State) (n : Nat) : BitVec 1024 := Tab.get 0 (curTile s).vregs ((curSet s).vbase + n)

/-- Element `e` of register `j` of a source group: of a register, a literal in every element (R21), or 0. -/
def vsrc (wd : Nat) (s : State) (o : Opnd) (j e : Nat) : BitVec wd :=
  match o with
  | .v n => (vreg s (n + j)).extractLsb' (wd * e) wd
  | .lit v => v.setWidth wd
  | _ => 0

/-- Element `x` of a group of 32-bit lanes, or of elements of width `wd`, counted through its registers (R39). -/
def vflat (wd : Nat) (s : State) (o : Opnd) (x : Nat) : BitVec wd := vsrc wd s o (x / (1024 / wd)) (x % (1024 / wd))

/-- The source groups of a word are equal to its destination's or apart from it (R18 check 4). -/
def GroupsApart (w : TWord) : Prop :=
  ∀ o ∈ [w.a, w.b, w.c], match w.d, o with
    | .v n, .v m => n = m ∨ n + groupLen w ≤ m ∨ m + groupLen w ≤ n
    | _, _ => True

/-- The next word of a vector word follows (R139), and it repeats no load. -/
def VRuns (s : State) : Prop := (curThread s).fl.redo = [] ∧ NextInside s

/-- The register at which a group word begins: IDX of VPROG where a TRET.RETRY resumes it, else the first (R171). -/
def vstart (s : State) : Nat := if s.focus.thr ∈ (curSet s).vresume then (curSet s).vprog else 0

/-- What a vector word leaves alone: memory, scratchpad, accumulators, scalar registers, and, but for those of `d`, vector
registers and predicates; the next word follows. -/
def VFrame (w : TWord) (s t : State) : Prop :=
  t.mem = s.mem ∧ t.reqs = s.reqs ∧ (curTile t).sp = (curTile s).sp ∧ (curTile t).acc = (curTile s).acc ∧
  (curThread t).pc = (curThread s).pc + 1 ∧ (curThread t).st = .run ∧
  (∀ k, w.d ≠ .s k → Tab.get 0 (curThread t).s k = Tab.get 0 (curThread s).s k) ∧
  (∀ k, w.d ≠ .p k → Tab.get 0 (curThread t).p k = Tab.get 0 (curThread s).p k) ∧
  (∀ r, (∀ n, w.d = .v n → ¬((curSet s).vbase + n ≤ r ∧ r < (curSet s).vbase + n + groupLen w)) →
    Tab.get 0 (curTile t).vregs r = Tab.get 0 (curTile s).vregs r)

/-- A vector word writes its destination group element by element, from its first register on: an element of an active lane takes
`f`, one of an inactive lane keeps its value, or is zeroed under .Z (R19, R168, R171). -/
def VWrites (w : TWord) (s : State) (i : Instr) (wd : Nat) (f : Nat → Nat → BitVec wd) : Prop :=
  ∃ t, exec i s = .next t ∧ VFrame w s t ∧
    ∀ n, w.d = .v n → ∀ j < groupLen w, ∀ e < 1024 / wd,
      (vreg t (n + j)).extractLsb' (wd * e) wd =
        if vstart s ≤ j ∧ laneOn w s (wd * e / 32) = true then f j e
        else if vstart s ≤ j ∧ w.modf.getLsbD 13 = true then 0 else (vreg s (n + j)).extractLsb' (wd * e) wd

/-- A source element as a group word sees it when it writes register `j`: the registers before `j` have been written (R170). -/
def vseen (wd : Nat) (s t : State) (j : Nat) (o : Opnd) (x : Nat) : BitVec wd :=
  if x / (1024 / wd) < j then vflat wd t o x else vflat wd s o x

/-- A vector word writes its destination register by register: `f` may read what the word has written (R170). -/
def VOrdered (w : TWord) (s : State) (i : Instr) (wd : Nat) (f : State → Nat → Nat → BitVec wd) : Prop :=
  ∃ t, exec i s = .next t ∧ VFrame w s t ∧
    ∀ n, w.d = .v n → ∀ j < groupLen w, ∀ e < 1024 / wd,
      (vreg t (n + j)).extractLsb' (wd * e) wd =
        if vstart s ≤ j ∧ laneOn w s (wd * e / 32) = true then f t j e
        else if vstart s ≤ j ∧ w.modf.getLsbD 13 = true then 0 else (vreg s (n + j)).extractLsb' (wd * e) wd

/-- The integer element types of a vector word: code, width, sign (R173 IN). -/
def vecTypes : List (Nat × Nat × Bool) := [(7, 32, true), (8, 16, true), (9, 8, true), (11, 32, false), (12, 16, false), (13, 8, false)]

/-- MOD of a vector word of a type, with or without .Z and SAT (R24). -/
def vmod (ty : Nat) (z sat : Bool) : BitVec 32 := BitVec.ofNat 32 (ty + (if z then 2 ^ 13 else 0) + if sat then 2 ^ 11 else 0)

/-- The integer arithmetic of R176 that SAT bounds, on the numbers that the elements stand for. -/
def vecSums (w : TWord) : List (Instr × (Int → Int → Int → Int)) :=
  [(.vadd w, fun a b _ => a + b), (.vsub w, fun a b _ => a - b), (.vmul w, fun a b _ => a * b), (.vfma w, fun a b c => a * b + c),
   (.vfms w, fun a b c => a * b - c), (.vabs w, fun a _ _ => if a < 0 then -a else a), (.vneg w, fun a _ _ => -a)]

/-- The other element operations of R176, on the elements' bits. -/
def vecBits (w : TWord) (wd : Nat) (sg : Bool) : List (Instr × (BitVec wd → BitVec wd → BitVec wd)) :=
  [(.vmin w, fun a b => if num sg a ≤ num sg b then a else b), (.vmax w, fun a b => if num sg a ≤ num sg b then b else a),
   (.vand w, fun a b => a &&& b), (.vor w, fun a b => a ||| b), (.vxor w, fun a b => a ^^^ b), (.vmov w, fun a _ => a),
   (.vshl w, fun a b => a <<< (b.toNat % wd)), (.vshr w, fun a b => a >>> (b.toNat % wd)),
   (.vsar w, fun a b => a.sshiftRight (b.toNat % wd)), (.vdiv w, fun a b => BitVec.ofInt wd (quotient sg wd (num sg a) (num sg b))),
   (.vclz w, fun a _ => BitVec.ofNat wd ((List.range wd).takeWhile fun i => !a.getMsbD i).length),
   (.vpopc w, fun a _ => BitVec.ofNat wd ((List.range wd).countP fun i => a.getLsbD i))]

/-- MOD of a floating vector word (R24, R173): F32, F16 or B16, a rounding mode, SAT, FTZ and .Z. -/
def vfmod (ty rm : Nat) (sat ftz z : Bool) : BitVec 32 :=
  BitVec.ofNat 32 (ty + rm * 2 ^ 9 + (if sat then 2 ^ 11 else 0) + (if ftz then 2 ^ 12 else 0) + if z then 2 ^ 13 else 0)

/-- The floating arithmetic of R174 and R176 before its one rounding. -/
def vecReals (w : TWord) (rm : Rm) : List (Instr × (Machine.Num → Machine.Num → Machine.Num → Machine.Num)) :=
  [(.vadd w, fun a b _ => (numAdd rm a b).1), (.vsub w, fun a b _ => (numAdd rm a (numNegate b)).1),
   (.vmul w, fun a b _ => (numMul a b).1), (.vdiv w, fun a b _ => (numDiv a b).1),
   (.vfma w, fun a b c => (numFma rm a b c).1), (.vfms w, fun a b c => (numFma rm a b (numNegate c)).1),
   (.vmin w, fun a b _ => numMinMax false a b), (.vmax w, fun a b _ => numMinMax true a b),
   (.vabs w, fun a _ _ => numAbs a), (.vneg w, fun a _ _ => numNegate a),
   (.vrcp w, fun a _ _ => (numDiv (.real ⟨1, 1⟩) a).1)]

/-- The functions of R177 in F32 with their special cases (R102): operand and result. -/
def vecFunctions (w : TWord) : List (Instr × List (BitVec 32 × BitVec 32)) :=
  [(.vrcp w, [(0, 0x7F800000), (0x80000000, 0xFF800000), (0x7F800000, 0), (0xFF800000, 0x80000000), (0x40000000, 0x3F000000)]),
   (.vsqrt w, [(0, 0), (0x80000000, 0x80000000), (0x7F800000, 0x7F800000), (0xBF800000, 0x7FC00000), (0x40800000, 0x40000000)]),
   (.vrsq w, [(0, 0x7F800000), (0x80000000, 0xFF800000), (0x7F800000, 0), (0xBF800000, 0x7FC00000), (0x40800000, 0x3F000000)]),
   (.vexp2 w, [(0, 0x3F800000), (0xFF800000, 0), (0x7F800000, 0x7F800000), (0x40400000, 0x41000000)]),
   (.vlog2 w, [(0, 0xFF800000), (0x80000000, 0xFF800000), (0x3F800000, 0), (0x7F800000, 0x7F800000), (0xBF800000, 0x7FC00000),
     (0x41000000, 0x40400000)]),
   (.vtanh w, [(0, 0), (0x80000000, 0x80000000), (0x7F800000, 0x3F800000), (0xFF800000, 0xBF800000)]),
   (.vsig w, [(0, 0x3F000000), (0xFF800000, 0), (0x7F800000, 0x3F800000)])]

/-- The value of a rational. -/
def ratio (x : Frac) : ℚ := (x.num : ℚ) / (x.den : ℚ)

end Sys2Proof.Claim

/-- R175, R176: the integer element operations, of every type, with and without SAT and .Z. -/
def Obligations.VectorIntegerElements : Prop :=
  ∀ (w : TWord) (s : State) (ty wd : Nat) (sg z sat : Bool), (ty, wd, sg) ∈ vecTypes → GroupsApart w → VRuns s →
    (∀ (i : Instr) (f : Int → Int → Int → Int), (i, f) ∈ vecSums w → w.modf = vmod ty z sat →
      VWrites w s i wd fun j e =>
        let t := f (num sg (vsrc wd s w.a j e)) (num sg (vsrc wd s w.b j e)) (num sg (vsrc wd s w.c j e))
        BitVec.ofInt wd (if sat then clamp sg wd t else t)) ∧
    (∀ (i : Instr) (f : BitVec wd → BitVec wd → BitVec wd), (i, f) ∈ vecBits w wd sg → w.modf = vmod ty z false →
      VWrites w s i wd fun j e => f (vsrc wd s w.a j e) (vsrc wd s w.b j e))

/-- R42, R62, R174, R176, R177: the floating element operations are the exact result on the decoded operands, rounded once
to the type. R102, R177: the special cases of the functions in F32; NaN gives the canonical NaN. -/
def Obligations.VectorFloatElementsAndFunctions : Prop :=
  (∀ (w : TWord) (s : State) (ty : Ty) (rm : Nat) (sat ftz z : Bool) (i : Instr) (f : Machine.Num → Machine.Num → Machine.Num → Machine.Num),
    ty ∈ [.f32, .f16, .b16] → rm < 4 → w.modf = vfmod ty.code rm sat ftz z → GroupsApart w → VRuns s →
    (i, f) ∈ vecReals w (Rm.ofCode rm) →
    VWrites w s i ty.width fun j e =>
      let x (o : Opnd) : Machine.Num := dec ty ftz (vsrc ty.width s o j e).toNat
      BitVec.ofNat _ (convert .f32 ty (Rm.ofCode rm) sat ftz (f (x w.a) (x w.b) (x w.c))).1) ∧
  (∀ (w : TWord) (s : State) (i : Instr) (tab : List (BitVec 32 × BitVec 32)) (z : Bool), (i, tab) ∈ vecFunctions w →
    w.modf = vfmod 0 0 false false z → GroupsApart w → VRuns s →
    ∃ g : Nat → Nat → BitVec 32, VWrites w s i 32 g ∧
      (∀ x r j e, (x, r) ∈ tab → vsrc 32 s w.a j e = x → g j e = r) ∧
      (∀ j e, isNan32 (vsrc 32 s w.a j e) = true → g j e = 0x7FC00000))

/-- R24, R61, R62: rounding to nearest. Where the result is finite, no finite code of the format has a value nearer to the operand,
and where another is as near the result's code is even. -/
def Obligations.RoundingGivesANearestCode : Prop :=
  ∀ (t : Ty) (x : Frac) (c : Nat), t ∈ [.f32, .f16, .b16, .e4, .e5] → 0 < x.den → x.num ≠ 0 → c < 2 ^ t.width →
    let r := (convert .f32 t .rne true false (.real x)).1
    let value (k : Nat) : ℚ := ratio (numFrac (dec t false k))
    (∃ r' k, convert .f32 t .rne false false (.real x) = (r', k) ∧ (k = .none → r' = r)) ∧ r < 2 ^ t.width ∧
    (numIsFinite (dec t false c) = true → (convert .f32 t .rne false false (.real x)).2 = .none →
      |value r - ratio x| ≤ |value c - ratio x| ∧
      (|value r - ratio x| = |value c - ratio x| → value c ≠ value r → r % 2 = 0))

/-- R178, R179, R188: compare, select, permute, rotate, broadcast and extract. -/
def Obligations.VectorLaneWords : Prop :=
  ∀ (w : TWord) (s : State) (z : Bool), GroupsApart w → VRuns s →
    let c := groupLen w
    (∀ cc ty sg, (ty, 32, sg) ∈ vecTypes → cc < 6 → w.modf = BitVec.ofNat 32 (cc * 2 ^ 28 + (vmod ty z false).toNat) →
      ∃ t, exec (.vcmp w) s = .next t ∧ VFrame w s t ∧ ∀ p, w.d = .p p → ∀ l < 32,
        (Tab.get 0 (curThread t).p p).getLsbD l =
          if laneOn w s l then
            (let a := num sg (vsrc 32 s w.a 0 l)
             let b := num sg (vsrc 32 s w.b 0 l)
             match cc with | 0 => a == b | 1 => a != b | 2 => a < b | 3 => a ≤ b | 4 => b < a | _ => b ≤ a)
          else if z then false else (Tab.get 0 (curThread s).p p).getLsbD l) ∧
    (w.modf = vmod 0 z false →
      VWrites w s (.vsel w) 32 (fun j l => if (readP (curThread s) w.c).getLsbD l then vsrc 32 s w.a j l else vsrc 32 s w.b j l) ∧
      VWrites w s (.vperm w) 32 (fun j l =>
        let n := ((vsrc 32 s w.b j l).setWidth 8).toNat
        if n < 32 * c then vflat 32 s w.a n else 0) ∧
      VWrites w s (.vrot w) 32 (fun j l => vflat 32 s w.a ((32 * j + l + (readS false (curThread s) w.b).toNat) % (32 * c)))) ∧
    (∀ ty ∈ [Ty.f32, Ty.f16, Ty.e4], w.modf = vmod ty.code z false →
      VWrites w s (.vbcast w) ty.width fun _ _ => (readS false (curThread s) w.a).setWidth ty.width) ∧
    (∀ ty sg, (ty, sg) ∈ [(0, false), (7, true), (11, false)] → w.modf = vmod ty false false → guardHolds (curThread s) w.guard = true →
      ∃ t, exec (.vextr w) s = .next t ∧ VFrame w s t ∧ ∀ k, w.d = .s k → Tab.get 0 (curThread t).s k =
        ext sg (vflat 32 s w.a ((readS (ty == 11) (curThread s) w.b).toNat % (32 * c))))

/-- R180, R182, R183: conversion between types, quantisation and dequantisation, element by element and part by part. -/
def Obligations.VectorConversions : Prop :=
  ∀ (w : TWord) (s : State) (z : Bool), GroupsApart w → VRuns s → ∀ n, w.d = .v n → ∀ part < 8,
    let c := groupLen w
    (∀ (dst src : Ty) (rm : Nat), rm < 4 →
      w.modf = BitVec.ofNat 32 (part * 2 ^ 28 + (vfmod dst.code rm false false z).toNat + src.code * 2 ^ 4) →
      part * min dst.width src.width < max dst.width src.width →
      VOrdered w s (.vcvt w) dst.width fun t j q =>
        let e := j * (1024 / dst.width) + q
        let k := 1024 * c / src.width
        let conv (x : Nat) : BitVec dst.width :=
          BitVec.ofNat _ (convert src dst (Rm.ofCode rm) false false (dec src false (vseen src.width s t j w.a x).toNat)).1
        if dst.width < src.width then
          (if part * k ≤ e ∧ e < (part + 1) * k then conv (e - part * k) else (vreg s (n + j)).extractLsb' (dst.width * q) dst.width)
        else conv (part * (1024 * c / dst.width) + e)) ∧
    (∀ (ty : Ty), 1 ≤ ty.code → ty.code ≤ 6 → part * ty.width < 32 →
      (w.modf = BitVec.ofNat 32 (part * 2 ^ 28 + (vmod ty.code z false).toNat) →
        VOrdered w s (.vqnt w) ty.width fun t j q =>
          let e := j * (1024 / ty.width) + q
          if part * (32 * c) ≤ e ∧ e < (part + 1) * (32 * c) then
            (let x := e - part * (32 * c)
             let code := ((vseen 32 s t j w.b x).setWidth 8).toNat
             BitVec.ofNat _ (if code = 0xFF then canonNan ty else if code = 0 then 0
               else (convert .f32 ty .rne true false (numDiv (dec .f32 false (vseen 32 s t j w.a x).toNat) (.real (scaleValue code))).1).1))
          else (vreg s (n + j)).extractLsb' (ty.width * q) ty.width) ∧
      (w.modf = BitVec.ofNat 32 (part * 2 ^ 28 + (if z then 2 ^ 13 else 0) + ty.code * 2 ^ 4) →
        VOrdered w s (.vdqnt w) 32 fun t j l =>
          BitVec.ofNat _ (f32Rne false (sv ty (vseen ty.width s t j w.a (32 * c * part + 32 * j + l)).toNat
            ((vsrc 32 s w.b j l).setWidth 8).toNat)))) ∧
    (∀ (ty : Ty) (rm : Nat), 1 ≤ ty.code → ty.code ≤ 6 → rm < 4 → w.modf = vfmod ty.code rm false false z →
      ∃ code : Nat → Nat, VWrites w s (.vbscl w) 32 (fun j _ => BitVec.ofNat 32 (code j)) ∧
        (∀ j, code j < 256) ∧
        (∀ j, (∀ l < 32, laneOn w s l = true → vsrc 32 s w.a j l = 0) → code j = 0x7C))

/-- R184 to R187: the vector memory words. Every active lane is checked before anything is sent; then each sends one request of its
own address, in flat order. With no lane active nothing is sent and nothing faults. A lane whose address is misaligned traps the
word, which then has no effect. -/
def Obligations.VectorMemoryWordsSendTheirLanes : Prop :=
  ∀ (w : TWord) (s : State) (i : Instr) (load strip : Bool), (i, load, strip) ∈ [(.vld w, true, true), (.vst w, false, true), (.vgath w, true, false), (.vscat w, false, false)] →
    VRuns s → MemoryOpen s →
    let f := accessBytes w
    let c := groupLen w
    let base := (readS false (curThread s) w.a).toNat
    let va (x : Nat) : Nat := if strip then (base + (readS false (curThread s) w.b).toNat + f * x) % 2 ^ 56
      else (((base : Int) + (vflat 32 s w.b x).toInt) % 2 ^ 56).toNat
    let lanes := (List.range (32 * c)).filter fun x => decide (vstart s ≤ x / 32) && laneOn w s (x % 32)
    ((∀ x ∈ lanes, va x % f = 0 ∧ ∃ loc, checkAddress s (va x) f load (!load) .plain = .ok loc) →
      ∃ t rs, exec i s = .next t ∧ t.reqs = s.reqs ++ rs ∧ rs.map (fun r => r.va) = lanes.map va ∧
        (∀ r ∈ rs, r.agent = curAgent s ∧ r.size = f ∧ r.op = if load then .load else .store) ∧
        (load = false → rs.map (fun r => r.val.toNat) = lanes.map fun x => (vflat 32 s w.c x).toNat) ∧
        t.mem = s.mem ∧ (curThread t).pc = (curThread s).pc + 1 ∧ (curThread t).s = (curThread s).s ∧
        (lanes ≠ [] → (curTile t).vregs = (curTile s).vregs)) ∧
    (∀ x xs, lanes = x :: xs → va x % f ≠ 0 → exec i s = wordTraps w s 0x04 (va x) 0)

/-- R189: reductions and scans over the active lanes, in flat order; an F32 sum is exact and rounded once, with +0 for each inactive lane. -/
def Obligations.VectorReductionsAndScans : Prop :=
  ∀ (w : TWord) (s : State) (z : Bool) (ty : Nat) (sg : Bool) (fn : Nat), GroupsApart w → VRuns s → (ty, sg) ∈ [(7, true), (11, false)] →
    fn < 6 → (fn < 3 ∨ ty = 11) →
    let on (k : Nat) : List (BitVec 32) := ((List.range k).filter fun x => laneOn w s (x % 32)).map fun x => vflat 32 s w.a x
    let nums (k : Nat) : List Int := (on k).map fun x => num sg x
    let red (k : Nat) : Int := match fn with
      | 0 => (nums k).sum
      | 1 => (nums k).foldl min (greatest sg 32)
      | 2 => (nums k).foldl max (least sg 32)
      | 3 => num false ((on k).foldl (fun a b => a &&& b) 0xFFFFFFFF)
      | 4 => num false ((on k).foldl (fun a b => a ||| b) 0)
      | _ => num false ((on k).foldl (fun a b => a ^^^ b) 0)
    (w.modf = BitVec.ofNat 32 (fn * 2 ^ 28 + ty) → ∃ t, exec (.vred w) s = .next t ∧ VFrame w s t ∧
      ∀ k, w.d = .s k → Tab.get 0 (curThread t).s k = BitVec.ofInt 64 (red (32 * groupLen w))) ∧
    (w.modf = BitVec.ofNat 32 (fn * 2 ^ 28 + (vmod ty z false).toNat) →
      VWrites w s (.vscan w) 32 fun j l => BitVec.ofInt 32 (red (32 * j + l + 1))) ∧
    (∀ rm < 4, w.modf = vfmod 0 rm false false false → ∃ t, exec (.vred w) s = .next t ∧ VFrame w s t ∧
      ∀ k, w.d = .s k → Tab.get 0 (curThread t).s k = BitVec.ofNat 64 (convert .f32 .f32 (Rm.ofCode rm) false false
        (numSum (Rm.ofCode rm) ((List.range (32 * groupLen w)).map fun x =>
          dec .f32 false (if laneOn w s (x % 32) then (vflat 32 s w.a x).toNat else 0))).1).1)

/-! ### Cluster words and the column controller -/

namespace Sys2Proof.Claim

/-- The versioned words (R263): the operation, what the word needs of the mapping (read, write), and whether its thread waits (R120). -/
def versionedForms (w : TWord) : List (Instr × ReqOp × Bool × Bool × Bool) :=
  [(.ldv w, .ldv, true, false, true), (.stv w, .stv, false, true, true), (.reclaim w, .reclaim, false, true, false)]

/-- The deque words (R275): the operation, the value that the word sends, and whether its thread waits. -/
def dequeForms (w : TWord) (b : BitVec 64) : List (Instr × ReqOp × BitVec 64 × Bool) :=
  [(.dqpush w, .push, b, true), (.dqpop w, .pop, 0, false), (.dqsteal w, .steal, 0, false)]

/-- The words that a controller's answer completes, and whether the answer is written to D. -/
def answeredForms (w : TWord) : List (Instr × Bool) :=
  [(.ldv w, true), (.stv w, true), (.reclaim w, false), (.barinit w, false), (.dqpush w, false), (.dqpop w, true), (.dqsteal w, true)]

/-- The acting thread has sent one request and stands at its word for the answer, in WAIT where `waits` (R120). -/
def Asks (s : State) (waits : Bool) (op : ReqOp) (loc : Loc) (v : BitVec 64) (o : Host.Outcome State Fault Refusal) : Prop :=
  ∃ t r, o = .next t ∧ t.reqs = s.reqs ++ [r] ∧ r.id = s.serial ∧ r.agent = .thread s.focus.tile s.focus.set s.focus.thr ∧
    r.op = op ∧ r.loc = loc ∧ r.val = v ∧ (r.stage = .held ∨ r.stage = .sent) ∧ t.mem = s.mem ∧
    (curThread t).fl.asked = some s.serial ∧ (curThread t).pc = (curThread s).pc ∧ (curThread t).s = (curThread s).s ∧
    (curThread t).st = if waits then .wait else (curThread s).st

/-- The registers through which the objects of a column controller are addressed (R260): BARSTn and DQCFGn. -/
def barrierAddr (slot n : Nat) : Loc := .mem (0x000300000000 + slot * 0x10000 + 0x100 + 8 * n)
def dequeAddr (slot n : Nat) : Loc := .mem (0x000300000000 + slot * 0x10000 + 0x200 + 16 * n)

/-- A request that its controller may serve now (R264). -/
def Served (s : State) (r : Req) : Prop := findReq s r.id = some r ∧ canApply s r = true ∧ rankMet s r = true

/-- A request is answered with a value, or with a trap. -/
def AnsweredBy (t : State) (id : Nat) (v : BitVec 64) : Prop := ∃ q, findReq t id = some q ∧ q.stage = .applied ∧ q.waiting = false ∧ q.res = v
def TrappedBy (t : State) (id cause : Nat) (det : BitVec 64) : Prop := ∃ q, findReq t id = some q ∧ q.stage = .applied ∧ q.trap = some (cause, det)

/-- The barrier, the deque and the versioned word of a place. -/
def barrierAt (s : State) (slot n : Nat) : Barrier := Tab.get Barrier.reset (Tab.get Column.reset s.columns slot).bars n
def dequeAt (s : State) (slot n : Nat) : Deque := Tab.get Deque.reset (Tab.get Column.reset s.columns slot).deques n
def versionedAt (s : State) (pa : Nat) : VWord := Tab.get VWord.reset s.vwords pa

end Sys2Proof.Claim

/-- R261, R263, R267, R268, R275, R278: a word that a column controller serves sends one request and awaits its answer (that RECLAIM,
DQPOP and DQSTEAL leave their thread in RUN meanwhile is the model's choice, notes/assumptions/16.md); the answer is written to D and the
next word follows. TSENS reads the latest sample. -/
def Obligations.ClusterWordsAskTheirController : Prop :=
  ∀ (w : TWord) (s : State), Runs w s →
    let a := (readS false (curThread s) w.a).toNat
    let b := readS false (curThread s) w.b
    ((curThread s).fl.asked = none →
      (∀ i op nr nw waits loc, (i, op, nr, nw, waits) ∈ versionedForms w → MemoryOpen s → (op = .stv ∨ b.toNat < 2 ^ 16) →
        a % 2 ^ 56 % 8 = 0 → checkAddress s (a % 2 ^ 56) 8 nr nw .versioned = .ok loc → Asks s waits op loc b (exec i s)) ∧
      (∀ i op nr nw waits, (i, op, nr, nw, waits) ∈ versionedForms w → op ≠ .stv → 2 ^ 16 ≤ b.toNat → exec i s = wordTraps w s 0x02 0 0) ∧
      (∀ i op v waits, (i, op, v, waits) ∈ dequeForms w b →
        (a < 1024 → (op = .push → b ≠ BitVec.allOnes 64) → Asks s waits op (dequeAddr (a / 16) (a % 16)) v (exec i s)) ∧
        (1024 ≤ a → exec i s = wordTraps w s 0x02 0 0)) ∧
      (b = BitVec.allOnes 64 → exec (.dqpush w) s = wordTraps w s 0x02 0 0) ∧
      (∀ fn < 8, w.modf = BitVec.ofNat 32 (fn * 2 ^ 28) → a < 1024 → b.toNat ≤ 1024 → (bit (features s) 0 = true ∨ fn < 2) →
        (∃ p ∈ (getCtx s (curCtx s)).shares, tileSlot p.1 = a / 16) →
        Asks s true .barinit (barrierAddr (a / 16) (a % 16)) (BitVec.ofNat 64 (b.toNat + fn * 2 ^ 16)) (exec (.barinit w) s)) ∧
      ((curThread s).fl.arrived = none → a < 1024 →
        ∃ v, Asks s true .barrier (barrierAddr (a / 16) (a % 16)) v (exec (.barwait w) s)) ∧
      (1024 ≤ a → exec (.barinit w) s = wordTraps w s 0x02 0 0 ∧
        ((curThread s).fl.arrived = none → exec (.barwait w) s = wordTraps w s 0x02 0 0))) ∧
    (∀ i wr r, (i, wr) ∈ answeredForms w → NextInside s → (curThread s).fl.asked = some r.id → findReq s r.id = some r →
      r.stage = .applied → r.waiting = false → r.bad = false → r.trap = none →
      ∃ t, exec i s = .next t ∧ findReq t r.id = none ∧ t.mem = s.mem ∧ (curThread t).fl.asked = none ∧ (curThread t).st = .run ∧
        (curThread t).pc = (curThread s).pc + 1 ∧
        ∀ k, Tab.get 0 (curThread t).s k = if wr = true ∧ w.d = .s k then r.res else Tab.get 0 (curThread s).s k) ∧
    (∀ slot, (slot = a ∨ a = 2 ^ 64 - 1 ∧ slot = tileSlot s.focus.tile) → slot < 64 →
      ((getCtx s (curCtx s)).part = 15 ∨ slotPart s slot = some (getCtx s (curCtx s)).part) → NextInside s →
      let c := Tab.get Column.reset s.columns slot
      ∃ v : BitVec 64, exec (.tsens w) s = .next (thenNext (writeS (issued w s) w.d v)) ∧ v.extractLsb' 0 16 = c.temp ∧
        v.getLsbD 16 = decide (380 < c.temp.toInt) ∧ v.getLsbD 17 = c.crit ∧ v.getLsbD 18 = decide (460 ≤ c.temp.toInt) ∧
        v.getLsbD 19 = c.fail ∧ v.extractLsb' 32 8 = BitVec.ofNat 8 slot ∧ v.extractLsb' 20 12 = 0 ∧ v.extractLsb' 40 24 = 0) ∧
    (64 ≤ a → a ≠ 2 ^ 64 - 1 → exec (.tsens w) s = wordTraps w s 0x02 0 0)

/-- R262 to R264, R267, R268, R274, R275: what a column controller does with the requests: versions are created, read and retired
in their window of four; a barrier is bound, and an arrival counted, whose release comes 8, 24 or 96 ticks after the last by how far the
farthest participant stands; a deque is a stack for its pushes and pops and gives steals its
oldest entry. -/
def Obligations.ControllerServesItsObjects : Prop :=
  ∀ (s : State) (r : Req), Served s r →
    (∀ pa, r.loc = .mem pa → (versionedAt s pa).poisoned = false → (∀ e ∈ s.reqs, e.waiting = false) →
      let v := versionedAt s pa
      let n := r.val.toNat % 2 ^ 16
      let d := (v.newest.toNat + 2 ^ 16 - n) % 2 ^ 16
      (r.op = .ldv → ∃ t, exec (.appliedAtHome r.id) s = .next t ∧ t.vwords = s.vwords ∧ t.mem = s.mem ∧
        (d < v.nlive → AnsweredBy t r.id (Tab.get 0 v.vals n)) ∧
        (v.nlive ≤ d → d < 2 ^ 15 → TrappedBy t r.id 0x20 (BitVec.ofNat 64 (n * 2 ^ 16 + 2))) ∧
        (v.nlive ≤ d → 2 ^ 15 ≤ d → ∃ q, findReq t r.id = some q ∧ q.waiting = true)) ∧
      (r.op = .stv → ∃ t, exec (.appliedAtHome r.id) s = .next t ∧ t.mem = s.mem ∧
        (v.nlive < 4 → AnsweredBy t r.id ((v.newest + 1).zeroExtend 64) ∧ (versionedAt t pa).newest = v.newest + 1 ∧
          (versionedAt t pa).nlive = v.nlive + 1 ∧ Tab.get 0 (versionedAt t pa).vals (v.newest + 1).toNat = r.val) ∧
        (4 ≤ v.nlive → t.vwords = s.vwords ∧ ∃ q, findReq t r.id = some q ∧ q.waiting = true)) ∧
      (r.op = .reclaim → ∃ t, exec (.appliedAtHome r.id) s = .next t ∧ t.mem = s.mem ∧ (versionedAt t pa).newest = v.newest ∧
        (2 ^ 15 ≤ d → TrappedBy t r.id 0x20 (BitVec.ofNat 64 (n * 2 ^ 16 + 3)) ∧ t.vwords = s.vwords) ∧
        (d < 2 ^ 15 → AnsweredBy t r.id 0 ∧ (versionedAt t pa).nlive = if d < v.nlive then d else v.nlive))) ∧
    (∀ slot < 64, ∀ n < 16, r.loc = dequeAddr slot n →
      let d := dequeAt s slot n
      d.failed = false → d.en = true → d.ctx = reqCtx s r →
      (r.op = .push → d.q.length < 64 + 64 * d.segs →
        ∃ t, exec (.appliedAtHome r.id) s = .next t ∧ (dequeAt t slot n).q = r.val :: d.q ∧ AnsweredBy t r.id 0) ∧
      (∀ x l, r.op = .pop → d.q = x :: l →
        ∃ t q, exec (.appliedAtHome r.id) s = .next t ∧ (dequeAt t slot n).q = l ∧ findReq t r.id = some q ∧ q.stage = .applied ∧ q.res = x) ∧
      (∀ x l, r.op = .steal → d.q = l ++ [x] →
        ∃ t q, exec (.appliedAtHome r.id) s = .next t ∧ (dequeAt t slot n).q = l ∧ findReq t r.id = some q ∧ q.stage = .applied ∧ q.res = x) ∧
      (r.op = .pop ∨ r.op = .steal → d.q = [] →
        ∃ t q, exec (.appliedAtHome r.id) s = .next t ∧ dequeAt t slot n = d ∧ findReq t r.id = some q ∧ q.stage = .applied ∧
          q.res = BitVec.allOnes 64)) ∧
    (∀ slot < 64, ∀ n < 16, r.loc = barrierAddr slot n →
      let b := barrierAt s slot n
      (r.op = .barinit → (b.bnd = true → b.ctx = reqCtx s r ∧ b.arr = 0) →
        ∃ t, exec (.appliedAtHome r.id) s = .next t ∧ AnsweredBy t r.id 0 ∧
          (let c := barrierAt t slot n
           if r.val.toNat % 2 ^ 16 = 0 then c.bnd = false
           else c.bnd = true ∧ c.ctx = reqCtx s r ∧ c.cnt = r.val.toNat % 2 ^ 16 ∧ c.arr = 0 ∧ c.gen = 0 ∧
             c.ls = r.val.getLsbD 16 ∧ c.pk = r.val.getLsbD 17 ∧ c.gu = r.val.getLsbD 18)) ∧
      (∀ tile set thr, r.op = .barrier → r.agent = .thread tile set thr → b.failed = false → b.bnd = true → b.ctx = reqCtx s r →
        ∃ t, exec (.appliedAtHome r.id) s = .next t ∧ findReq t r.id = none ∧
          (getThread t tile set thr).fl.arrived = some (slot, n, b.epoch * 2 ^ 16 + b.gen.toNat) ∧
          (let c := barrierAt t slot n
           let lat := max b.lat (if tileSlot tile = slot then 8 else if tileDie tile = slot / 16 then 24 else 96)
           if b.arr + 1 = b.cnt then c.gen = b.gen + 1 ∧ c.arr = 0 ∧ c.lat = 0 ∧ ∃ x, t.releases = s.releases ++ [x] ∧ x.tick = s.dcc ∧
             x.gen = b.epoch * 2 ^ 16 + b.gen.toNat ∧ x.parts = b.parts ++ [(tile, set, thr)] ∧ x.lat = lat
           else c.gen = b.gen ∧ c.arr = b.arr + 1 ∧ c.lat = lat ∧ t.releases = s.releases)) ∧
      (∀ tile set thr, r.op = .barrier → r.agent = .thread tile set thr → b.failed = false → (b.bnd = false ∨ b.ctx ≠ reqCtx s r) →
        ∃ t, exec (.appliedAtHome r.id) s = .next t ∧ barrierAt t slot n = b ∧ TrappedBy t r.id 0x06 0))

namespace Sys2Proof.Claim

/-- After a tick a tile has no step edge for `off` ticks, and then one a tick in gear H, one every fourth in gear L (R127). -/
def NextEdges (t : State) (tile tick off : Nat) (gearL : Bool) : Prop :=
  ∀ k, 0 < k → clockEdge (getTile t tile).clk (tick + k) = (decide (off < k) && (!gearL || decide ((tick + k) % 4 = 0)))

end Sys2Proof.Claim

/-- R263, R268, R269, R271: a participant whose resume edge has come goes on at its next word; a parked waiter's tile drops to gear L for
sixteen ticks without an edge; an STV that waited VERSWAIT ticks takes the version trap and writes nothing. -/
def Obligations.ClusterEventsResumeDropAndTrap : Prop :=
  ∀ (s : State) (tile thr : Nat),
    let x := getTile s tile
    let set := x.active
    let th := getThread s tile set thr
    (∀ a rel, th.fl.arrived = some a → th.st = .wait → th.fl.redo = [] → th.pc + 1 < (getSet s tile set).ilen →
      releaseOf s a = some rel → rel.set_ = true → (tile, set, thr) ∈ rel.parts → edgeNow s tile = true →
      (∀ u ∈ rel.ups, u.1 ≠ (tile, set, thr)) →
      (if rel.ls = true ∧ (tile, set, thr) ∉ rel.away then rel.meet else rel.tick + rel.lat) ≤ s.dcc →
      ∃ t, exec (.barrierResume tile thr) s = .next t ∧
        (let y := getThread t tile set thr
         y.st = .run ∧ y.pc = th.pc + 1 ∧ y.fl.arrived = none ∧ y.fl.notBefore = tscOf s tile ∧ y.s = th.s) ∧ t.mem = s.mem) ∧
    (∀ a, th.fl.arrived = some a → releaseOf s a = none → (barrierAt s a.1 a.2.1).pk = true → th.st = .wait → x.effL = false →
      edgeNow s tile = true → th.fl.waitFrom + 256 ≤ s.dcc → (∀ n < 4, n ≠ thr → (getThread s tile set n).st ≠ .run) →
      meTargetsMet x (getSet s tile set) (tscOf s tile) = true → setBoundary (getSet s tile set) = true → swapDue x = false →
      ∃ t, exec (.parkDrop tile thr) s = .next t ∧ (getTile t tile).effL = true ∧ (getSet t tile set).reqL = (getSet s tile set).reqL ∧
        tscOf t tile = tscOf s tile ∧ NextEdges t tile s.dcc (16 + 4 * stretchNow x s.dcc) true ∧ t.mem = s.mem) ∧
    (∀ id r pa slot, th.fl.asked = some id → findReq s id = some r → r.op = .stv → r.waiting = true → th.st = .wait →
      r.loc = .mem pa → columnOf pa = some slot →
      r.since + Nat.max 64 (Tab.get Column.reset s.columns slot).verswait.toNat ≤ s.dcc →
      exec (.versionOverflow tile thr) s = .next (raiseTrap (dropReq s r.id) tile set
        (wordRec 0x20 thr th.pc r.va (BitVec.ofNat 64 ((versionedAt s pa).newest.toNat * 2 ^ 16 + 1)))))

/-! ### Gears, droop, temperature and power -/

/-- R127 to R129, R164, R278, R280, R399: a GEAR takes effect with its transition; a transition ends at the first edge in the new gear; the
thermal override follows its column; a trip removes the next DRPSTR edges, and those behind a transition that began at its edge, and puts
DRPHALF steps of half width behind them; a sample replaces the last, one below 100 °C ends the override, and one at 115 °C shuts the
package down. -/
def Obligations.GearsDroopAndTemperature : Prop :=
  ∀ (s : State) (tile : Nat),
    let x := getTile s tile
    let c := getSet s tile x.active
    let tsc := tscOf s tile
    let shifts (t : State) (g : Bool) : Prop :=
      (getTile t tile).effL = g ∧ (getTile t tile).trans = some tsc ∧ tscOf t tile = tsc ∧
      NextEdges t tile s.dcc (if g then 16 + 4 * stretchNow x s.dcc else 48 + stretchNow x s.dcc) g
    (∀ thr s0 g, c.gearPend = some (thr, s0, g) → edgeNow s tile = true → x.removed = false → swapDue x = false → meTargetsMet x c s0 = true →
      setBoundary c = true → ∃ t, exec (.gearTakeEffect tile) s = .next t ∧ (getSet t tile x.active).gearPend = none ∧
        (getSet t tile x.active).reqL = g ∧ t.mem = s.mem ∧
        (if x.therm = true ∨ g = x.effL then (getTile t tile).effL = x.effL ∧ (getTile t tile).clk = x.clk ∧
            (∀ n, (getThread t tile x.active n).fl.gearing = false)
          else shifts t g)) ∧
    (∀ t0, x.trans = some t0 → t0 < tsc → edgeNow s tile = true → ∃ t, exec (.gearTransitionEnd tile) s = .next t ∧ (getTile t tile).trans = none ∧
      (c.gearPend = none → ∀ n, (getThread t tile x.active n).fl.gearing = false) ∧ (getTile t tile).clk = x.clk) ∧
    (let hot := (Tab.get Column.reset s.columns (tileSlot tile)).crit
     edgeNow s tile = true → x.removed = false → setBoundary c = true → x.swapReady = false → x.therm = false → (hot = true ∨ x.cool = true) →
      ∃ t, exec (.thermalOverride tile) s = .next t ∧ (getTile t tile).therm = hot ∧ (getTile t tile).cool = false ∧
        (getSet t tile x.active).reqL = c.reqL ∧
        (let g := hot || c.reqL
         if g = x.effL then (getTile t tile).clk = x.clk ∧ (getTile t tile).effL = x.effL else shifts t g)) ∧
    (x.drpTh ≠ 0 → x.removed = false → x.tripAt ≠ s.dcc → edgeNow s tile = true →
      let n := max 1 x.drpStr.toNat
      let from_ := max s.dcc x.clk.since
      ∃ t, exec (.droopTrip tile) s = .next t ∧ tscOf t tile = tsc ∧
        (getTile t tile).drpCnt = (if x.drpCnt = BitVec.allOnes 32 then x.drpCnt else x.drpCnt + 1) ∧
        (x.clk.gearL = false → ∀ d, s.dcc < d → clockEdge (getTile t tile).clk d = decide (from_ + n < d)) ∧
        (x.clk.gearL = true → ∀ d, s.dcc < d → clockEdge (getTile t tile).clk d = (decide ((from_ / 4 + n) * 4 < d) && decide (d % 4 = 0))) ∧
        (x.half = none → (getTile t tile).half = some (tsc + 1, tsc + x.drpHalf.toNat)) ∧ t.mem = s.mem) ∧
    (∀ trip n, x.stretch = some (trip, n) → edgeNow s tile = true → trip < tsc →
      exec (.droopStretchEnd tile) s = .next (setTile s tile { x with stretch := none })) ∧
    (∀ a b, x.half = some (a, b) → b < tsc → exec (.droopHalfWidthEnd tile) s = .next (setTile s tile { x with half := none })) ∧
    (∀ slot < 64, ∀ temp : BitVec 16,
      let o := Tab.get Column.reset s.columns slot
      (s.dcc % 4096 = 0 → o.sampled ≠ s.dcc → o.fail = false → o.removed = false →
        ∃ t, exec (.thermalSample slot temp) s = .next t ∧ t.mem = s.mem ∧
          (∀ k, getTile t k = if k < 256 ∧ tileSlot k = slot ∧ (Tab.get Column.reset t.columns slot).crit = false ∧ (getTile s k).therm = true
            then { getTile s k with therm := false, cool := true } else getTile s k) ∧
          (let n := Tab.get Column.reset t.columns slot
           n.temp = temp ∧ n.bars = o.bars ∧ n.deques = o.deques ∧
           n.crit = (if 420 < temp.toInt then true else if temp.toInt < 400 then false else o.crit)) ∧
          t.boot = if 460 ≤ temp.toInt then .shutdown else s.boot) ∧
      (∃ t, exec (.sensorFailure slot) s = .next t ∧
        (let n := Tab.get Column.reset t.columns slot
         n.fail = true ∧ n.crit = true ∧ n.temp = 0x7FFF ∧ n.bars = o.bars) ∧
        ∀ other, other ≠ slot → Tab.get Column.reset t.columns other = Tab.get Column.reset s.columns other))

/-- R317, R395 to R398: at an interval start a set's share is set and its charges are 0; a meter engages its throttle above 64 intervals'
allotment and releases it below 15/16 of that, and the limit staged by SETLIMIT comes into force; a read of ENRGL or PKENL latches
the high half. -/
def Obligations.IntervalEndsRefillAndMeter : Prop :=
  ∀ (s : State),
    (s.dcc % 1024 = 0 → ∃ t, exec .poolRefill s = .next t ∧ t.mem = s.mem ∧
      ∀ n < 256, (Tab.find? s.tiles n).isSome = true → (getTile s n).poolAt ≠ s.dcc →
        let y := getTile t n
        y.set0.charged = 0 ∧ y.set1.charged = 0 ∧ y.set0.pwrCap = (getTile s n).set0.pwrCapNext ∧ y.pool = y.set0.share.toNat + y.set1.share.toNat ∧
        (∀ x, y.set0.ctx = some x → y.set0.share = BitVec.ofNat 32 (tileShare s x n)) ∧ (y.set0.ctx = none → y.set0.share = 0) ∧
        y.set0.threads = (getTile s n).set0.threads ∧ y.sp = (getTile s n).sp) ∧
    (s.dcc % 1024 = 0 → ∃ t, exec .meterCheck s = .next t ∧ t.limit = s.limitNext ∧ t.mem = s.mem ∧
      (∀ n < 256, (getTile t n).mtr = ((meterOf t packageMeter).hot ||
        (match slotPart s (tileSlot n) with | some p => (meterOf t p).hot | none => false))) ∧
      (∀ p < 12, layoutEntry s p ≠ [] → ∃ e ≥ (meterOf s p).now, (meterOf t p).past = (e :: (meterOf s p).past).take 64 ∧ (meterOf t p).now = 0 ∧
        (let e64 := (meterOf t p).past.sum
         let allot := 64 * layoutWatts (layoutEntry s p) * 16000
         (allot < e64 → (meterOf t p).hot = true) ∧ (16 * e64 < 15 * allot → (meterOf t p).hot = false) ∧
         (e64 ≤ allot → 15 * allot ≤ 16 * e64 → (meterOf t p).hot = (meterOf s p).hot)))) ∧
    (∀ tile set, ∃ t, exec (.enrglRead tile set) s = .next t ∧ t.mem = s.mem ∧
      (getSet t tile set).enrgH = BitVec.ofNat 32 (tileEnergy s tile / 2 ^ 32) ∧ (getSet t tile set).threads = (getSet s tile set).threads) ∧
    (∀ tile set, ∃ t, exec (.pkenlRead tile set) s = .next t ∧ t.mem = s.mem ∧
      (getSet t tile set).pkenH = BitVec.ofNat 32 ((meterOf s packageMeter).accum / 2 ^ 32) ∧
      (getSet t tile set).threads = (getSet s tile set).threads)

/-! ### Rings, tokens, stream registers and regions, as threads use them -/

namespace Sys2Proof.Claim

/-- No access of the acting thread is outstanding and nothing in flight happens before it, so that a release waits for nothing (R289). -/
def NothingBefore (s : State) : Prop :=
  (∀ r ∈ s.reqs, r.agent ≠ .thread s.focus.tile s.focus.set s.focus.thr) ∧ Tab.get [] s.known (curKey s) = []

/-- The acting thread waits at its word (R120); registers and memory stand. -/
def WaitsHere (s : State) (o : Host.Outcome State Fault Refusal) : Prop :=
  ∃ t, o = .next t ∧ (curThread t).st = .wait ∧ (curThread t).pc = (curThread s).pc ∧ (curThread t).s = (curThread s).s ∧ t.mem = s.mem

/-- The word is complete and the next one follows; no scalar register changes. -/
def GoesOn (s t : State) : Prop :=
  (curThread t).st = .run ∧ (curThread t).pc = (curThread s).pc + 1 ∧ (curThread t).s = (curThread s).s ∧ t.mem = s.mem

/-- The emitting words with the kind and payload of each entry (R238). -/
def emitForms (w : TWord) (v : BitVec 1024) : List (Instr × Nat × List (BitVec 3 × BitVec 512)) :=
  [(.emit w, 0, [(1, v.setWidth 512), (1, (v >>> 512).setWidth 512)]), (.emit w, 1, [(1, v.setWidth 512)]),
   (.emit w, 2, [(1, (v >>> 512).setWidth 512)]), (.emita w, 0, [(0, 0)]), (.emite w, 0, [(2, 0)])]

/-- The words of 64 bits at a physical address. -/
def blockWords (s : State) (pa n : Nat) : List (BitVec 64) :=
  (List.range n).map fun i => BitVec.ofNat 64 (Memory.read s.mem (pa + 8 * i) 8)

/-- No access to a block of words is under way (R152, R155, R285). -/
def BlockStill (s : State) (pa n : Nat) : Prop :=
  ∀ r ∈ s.reqs, r.stage = .applied ∨ overlaps r.loc r.size (.mem pa) (8 * n) = false

end Sys2Proof.Claim

/-- R233 to R235: ENQ and ENQS put the command word at TAIL of the engine's ring and wait while it is full; a word that the checks of
R234 refuse raises illegal-operand. TOKW takes tokens and waits for them; TOKS adds them, to at most 15. SBAR sets the class of the
masked banks. -/
def Obligations.RingAndTokenWords : Prop :=
  ∀ (w : TWord) (s : State), Runs w s →
    let c := curSet s
    let a := (readS false (curThread s) w.a).toNat
    (∀ (cmd : Word64) (i : Instr), (i = .enq w cmd ∨ i = .enqs w ∧ cmd = readS false (curThread s) w.a) →
      let e := (w.x.extractLsb' 0 3).toNat
      (e < 6 → enqueueOk s e cmd = true → ringCount c e < ringSize c e → NextInside s →
        ∃ t, exec i s = .next t ∧ GoesOn s t ∧ ringTail (curSet t) e = (ringTail c e + 1) % 2 ^ 16 ∧
          Tab.get 0 (curSet t).head e = Tab.get 0 c.head e ∧
          (Memory.wf (curTile s).sp = true → Memory.read (curTile t).sp (spPhys c (ringAddr c e (ringTail c e))) 8 = cmd.toNat) ∧
          (∀ k, (k < spPhys c (ringAddr c e (ringTail c e)) ∨ spPhys c (ringAddr c e (ringTail c e)) + 8 ≤ k) →
            Memory.byte (curTile t).sp k = Memory.byte (curTile s).sp k)) ∧
      (e < 6 → enqueueOk s e cmd = true → ringSize c e ≤ ringCount c e → WaitsHere s (exec i s)) ∧
      ((6 ≤ e ∨ enqueueOk s e cmd = false) → exec i s = wordTraps w s 0x02 0 0)) ∧
    (∀ q < 16, w.modf = BitVec.ofNat 32 (q * 2 ^ 28) →
      let n := Tab.get 0 c.tok q
      (1 ≤ a → a ≤ 15 → (Tab.get 0xFF c.tqcfg q).extractLsb' 0 4 = 8 →
        (a ≤ n → NextInside s → ∃ t, exec (.tokw w) s = .next t ∧ GoesOn s t ∧
          ∀ p, Tab.get 0 (curSet t).tok p = if p = q then n - a else Tab.get 0 c.tok p) ∧
        (n < a → WaitsHere s (exec (.tokw w) s))) ∧
      (1 ≤ a → a ≤ 15 → (Tab.get 0xFF c.tqcfg q).extractLsb' 4 4 = 8 → NothingBefore s → NextInside s →
        ∃ t, exec (.toks w) s = .next t ∧ GoesOn s t ∧
          ∀ p, Tab.get 0 (curSet t).tok p = if p = q then Nat.min 15 (n + a) else Tab.get 0 c.tok p) ∧
      ((a = 0 ∨ 15 < a) → exec (.tokw w) s = wordTraps w s 0x02 0 0 ∧ exec (.toks w) s = wordTraps w s 0x02 0 0) ∧
      ((Tab.get 0xFF c.tqcfg q).extractLsb' 0 4 ≠ 8 → exec (.tokw w) s = wordTraps w s 0x02 0 0) ∧
      ((Tab.get 0xFF c.tqcfg q).extractLsb' 4 4 ≠ 8 → exec (.toks w) s = wordTraps w s 0x02 0 0)) ∧
    (a < 2 ^ 34 → (∀ r ∈ s.reqs, r.stage = .applied ∨ ∃ pa, r.loc = .mem pa) → NextInside s →
      ∃ t, exec (.sbar w) s = .next t ∧ GoesOn s t ∧
        ∀ b < 32, Tab.get 0 (curSet t).bankCls b = if a.testBit b then a / 2 ^ 32 else Tab.get 0 c.bankCls b) ∧
    (2 ^ 34 ≤ a → exec (.sbar w) s = wordTraps w s 0x02 0 0)

/-- R118, R237 to R240, R325: QBIND binds a stream register to a slot that does not run, or unbinds it; EMIT, EMITA and EMITE append
their entries to the channel of its source; STAT and RGN give their fields; INSTW waits for the frontier; RESUME with SKIP leaves the rest
of a reaction; SNAP arms a snapshot of the graph. -/
def Obligations.StreamRegisterAndRegionWords : Prop :=
  ∀ (w : TWord) (s : State), Runs w s → NextInside s →
    let c := curSet s
    let a := (readS false (curThread s) w.a).toNat
    let b := (readS false (curThread s) w.b).toNat
    let bound (q : QReg) (n : Nat) : Host.Outcome State Fault Refusal :=
      .next (thenNext (modCurSet (issued w s) fun x => { x with qregs := Tab.set x.qregs n q }))
    (∀ n, w.d = .q n →
      (a = 2 ^ 64 - 1 → exec (.qbind w) s = bound ⟨none, false, 0⟩ n) ∧
      (a < 4 → (regionOf c a).st ≠ .running → exec (.qbind w) s = bound ⟨some a, false, 0⟩ n) ∧
      ((4 ≤ a ∧ a ≠ 2 ^ 64 - 1 ∨ a < 4 ∧ (regionOf c a).st = .running) → exec (.qbind w) s = wordTraps w s 0x02 0 0) ∧
      (let v := readV (curTile s) c 32 w.a 0
       let q := Tab.get QReg.reset c.qregs n
       ∀ i fn es, (i, fn, es) ∈ emitForms w v → w.modf = BitVec.ofNat 32 (fn * 2 ^ 28) →
        (∀ slot key, q.slot = some slot → q.ended = false → transferFeeds s s.focus.tile s.focus.set n = false →
          ((regionOf c slot).st = .running ∨ (regionOf c slot).st = .stopped) → NothingBefore s →
          qChannel (curTile s) c s.focus.set n = some key → graphOf s s.focus.tile s.focus.set = none →
          es.length ≤ chanFree (chanOf (curTile s) key) →
          ∃ t, exec i s = .next t ∧ GoesOn s t ∧
            (chanOf (curTile t) key).q.map (fun e => (e.kind, e.payload)) = (chanOf (curTile s) key).q.map (fun e => (e.kind, e.payload)) ++ es ∧
            (∀ e ∈ (chanOf (curTile t) key).q.drop (chanOf (curTile s) key).q.length, e = mkEntry e.kind.toNat e.payload) ∧
            (let r := Tab.get QReg.reset (curSet t).qregs n
             r.slot = q.slot ∧ r.next = q.next + es.length ∧ (r.ended = true ↔ ∃ p, (2, p) ∈ es))) ∧
        ((q.slot = none ∨ ∃ slot, q.slot = some slot ∧ q.ended = true ∧ (regionOf c slot).st ≠ .free) → exec i s = wordTraps w s 0x02 0 0) ∧
        (∀ slot, q.slot = some slot → transferFeeds s s.focus.tile s.focus.set n = false → (regionOf c slot).st = .free →
          exec i s = .next s))) ∧
    (∀ n, w.a = .q n →
      let q := Tab.get QReg.reset c.qregs n
      ∃ v : BitVec 64, exec (.stat w) s = .next (thenNext (writeS (issued w s) w.d v)) ∧ v.extractLsb' 0 32 = BitVec.ofNat 32 q.next ∧
        v.getLsbD 38 = q.ended ∧ v.getLsbD 39 = q.slot.isSome ∧ v.extractLsb' 40 2 = BitVec.ofNat 2 (q.slot.getD 0) ∧ v.extractLsb' 42 22 = 0 ∧
        (∀ key, qChannel (curTile s) c s.focus.set n = some key →
          v.extractLsb' 32 6 = BitVec.ofNat 6 (chanFree (chanOf (curTile s) key)))) ∧
    (a < 4 →
      let g := regionOf c a
      let passed := (g.front % 2 ^ 32 + 2 ^ 32 - b % 2 ^ 32) % 2 ^ 32 < 2 ^ 31
      (g.st = .free ∨ g.st ≠ .stopped ∧ passed → exec (.instw w) s = .next (thenNext (issued w s))) ∧
      (g.st = .stopped ∨ g.st ≠ .free ∧ ¬passed → WaitsHere s (exec (.instw w) s)) ∧
      ∃ v : BitVec 64, exec (.rgn w) s = .next (thenNext (writeS (issued w s) w.d v)) ∧ v.extractLsb' 0 32 = BitVec.ofNat 32 g.front ∧
        v.extractLsb' 32 2 = (match g.st with | .free => 0 | .running => 1 | .stopped => 2 | .retiring => 3) ∧
        v.getLsbD 34 = g.ens ∧ v.getLsbD 35 = g.exs ∧ v.extractLsb' 36 1 = BitVec.ofNat 1 g.pe ∧ v.extractLsb' 37 1 = BitVec.ofNat 1 g.px ∧
        v.getLsbD 38 = g.swe.isSome ∧ v.getLsbD 39 = g.swx.isSome ∧ v.extractLsb' 46 18 = 0 ∧
        (∀ e, (regionElems g).find? (fun x => (elemOfSet c x).fault.isSome) = some e → v.getLsbD 45 = true ∧ v.extractLsb' 40 5 = BitVec.ofNat 5 e) ∧
        ((∀ e ∈ regionElems g, (elemOfSet c e).fault = none) → v.extractLsb' 40 6 = 0)) ∧
    (4 ≤ a → exec (.instw w) s = wordTraps w s 0x02 0 0 ∧ exec (.rgn w) s = wordTraps w s 0x02 0 0) ∧
    (a < 128 → (slotOfElem c (a % 32)).isSome = true → ∀ f, (elemOfSet c (a % 32)).fault = some f → f.stg1 = false → f.w0.getLsbD 43 = false →
      (a / 32 = 2 → ∀ rx, runningRx (elemOfSet c (a % 32)) = some rx → ∃ t, exec (.resume w) s = .next t ∧ GoesOn s t ∧
        (let e := elemOfSet (curSet t) (a % 32)
         e.fault = none ∧ e.ports = (elemOfSet c (a % 32)).ports ∧ e.rxs.length = (elemOfSet c (a % 32)).rxs.length ∧
         ∃ y ∈ e.rxs, y.done = true ∧ y.outs = [] ∧ y.inst = rx.inst)) ∧
      (a / 32 = 3 → exec (.resume w) s = wordTraps w s 0x02 0 0)) ∧
    ((128 ≤ a ∨ slotOfElem c (a % 32) = none ∨ (elemOfSet c (a % 32)).fault = none) → exec (.resume w) s = wordTraps w s 0x02 0 0) ∧
    (a / 4 % 2 ^ 30 = 0 → (regionOf c (a % 4)).st = .running → canArm s (graphAt s s.focus.tile s.focus.set) (a / 2 ^ 32) = true →
      ∃ t, exec (.snap w) s = .next t ∧ GoesOn s t ∧ (curSet t).snapBusy = true ∧ (curSet t).snapDone = false ∧ (curSet t).snapK = a / 2 ^ 32 ∧
        (curSet t).snapId = ((getCtx s (curCtx s)).snapId + 1) % 2 ^ 16 ∧
        ∃ g, Tab.find? t.graphs s.serial = some g ∧ g.tiles = graphAt s s.focus.tile s.focus.set ∧ g.k = a / 2 ^ 32)

/-- R346, R355, R356: XARM stores the checked template in the lowest free slot of its channel's engine, and XARM.D frees the slots of a
line and channel; XFIRE sends an entry and waits until every slot has taken it; XWAIT waits for the watermark; XSTAT gives its view. -/
def Obligations.CopyWords : Prop :=
  ∀ (w : TWord) (s : State), Runs w s →
    let a := (readS false (curThread s) w.a).toNat
    let b := (readS false (curThread s) w.b).toNat
    let ctx := curCtx s
    (∀ pa k, a < 512 → ownsLine s ctx a = true → MemoryOpen s → b % 2 ^ 56 % 64 = 0 → checkAddress s (b % 2 ^ 56) 64 true false .block = .ok (.mem pa) →
      BlockStill s pa 8 → (∀ i < 8, lineBad s (.mem (pa + 8 * i)) = false) →
      let words := blockWords s pa 8
      let e := tplChan words / 16
      (templateOk s ctx words = true → k < 64 → Tab.find? s.slots (e * 64 + k) = none → (∀ j < k, (Tab.find? s.slots (e * 64 + j)).isSome = true) →
        NextInside s → ∃ t, exec (.xarm w) s = .next t ∧ GoesOn s t ∧
          Tab.find? t.slots (e * 64 + k) = some ⟨words, a, ctx, s.focus.tile, s.focus.set, []⟩ ∧
          ∀ n, n ≠ e * 64 + k → Tab.find? t.slots n = Tab.find? s.slots n) ∧
      (templateOk s ctx words = false → ∃ u, exec (.xarm w) s = .next (raiseTrap u s.focus.tile s.focus.set
          (wordRec 0x02 s.focus.thr (curThread s).pc 0 0)) ∧ u.slots = s.slots)) ∧
    (a < 512 → b < 1024 → ownsLine s ctx a = true → ownsChan s ctx b = true → NextInside s → ∃ t, exec (.xarmD w) s = .next t ∧ GoesOn s t ∧
      t.copies = s.copies ∧ t.slots = s.slots.filter fun x => !(x.2.ctx == ctx && x.2.line == a && tplChan x.2.words == b)) ∧
    ((curThread s).fl.asked = none → a / 2 ^ 9 % 2 ^ 23 = 0 → ownsLine s ctx (a % 512) = true → NothingBefore s →
      WaitsHere s (exec (.xfire w) s) ∧ ∃ t, exec (.xfire w) s = .next t ∧ (curThread t).fl.asked = some s.serial ∧
        t.fires = s.fires ++ [⟨s.serial, a % 512, BitVec.ofNat 32 (a / 2 ^ 32)⟩]) ∧
    (∀ id, (curThread s).fl.asked = some id →
      ((∀ x ∈ s.fires, x.id ≠ id) → NextInside s → exec (.xfire w) s = .next (thenNext (issued w s))) ∧
      ((∃ x ∈ s.fires, x.id = id) → WaitsHere s (exec (.xfire w) s))) ∧
    (a < 1024 → b < 2 ^ 32 → ownsChan s ctx a = true →
      let ahead := ((Tab.get CopyChan.reset s.copies a).wm - BitVec.ofNat 32 b).toNat
      (ahead < 2 ^ 31 → NextInside s → exec (.xwait w) s = .next (thenNext (issued w s))) ∧
      (2 ^ 31 ≤ ahead → WaitsHere s (exec (.xwait w) s))) ∧
    (a < 2 ^ 13 → a / 2 ^ 10 % 4 = 0 → ownsChan s ctx (a % 1024) = true → NextInside s →
      let c := Tab.get CopyChan.reset s.copies (a % 1024)
      ∃ v : BitVec 64, exec (.xstat w) s = .next (thenNext (writeS (issued w s) w.d v)) ∧
        (a.testBit 12 = false → v = c.next ++ c.wm) ∧
        (a.testBit 12 = true → v.extractLsb' 32 24 = 0 ∧ v.extractLsb' 56 3 = BitVec.ofNat 3 c.runs.length ∧
          (∀ r reason addr, c.runs.find? (fun x => x.stop.isSome) = some r → r.stop = some (reason, addr) →
            v.getLsbD 63 = true ∧ v.extractLsb' 59 4 = BitVec.ofNat 4 reason ∧ v.extractLsb' 0 32 = r.id) ∧
          ((∀ r ∈ c.runs, r.stop = none) → v.getLsbD 63 = false ∧ v.extractLsb' 0 32 = 0))) ∧
    (1024 ≤ a → exec (.xarm w) s = wordTraps w s 0x02 0 0 ∧ exec (.xarmD w) s = wordTraps w s 0x02 0 0 ∧ exec (.xwait w) s = wordTraps w s 0x02 0 0)

/-! ### Contexts and Summit -/

namespace Sys2Proof.Claim

/-- The context instructions without a block, by Summit's number of each. -/
def plainContextForms (w : TWord) : List (Instr × Nat) :=
  [(.ctxgrant w, 1), (.ctxrevoke w, 2), (.ctxrun w, 3), (.ctxstop w, 4), (.ctxq w, 5), (.pinP w, 8), (.pinU w, 9)]

/-- Those that read a block: the number, the operand that addresses the block, its alignment and its words (R370, R374). -/
def blockContextForms (w : TWord) (a b : Nat) : List (Instr × Nat × Nat × Nat × Nat) :=
  [(.ctxnew w, 0, a, 64, 8), (.mapRange w, 6, b, 32, 4), (.unmap w, 7, b, 32, 4)]

/-- What Summit is asked. -/
def AsksSummit (s : State) (op : Nat) (a b : BitVec 64) (block : List (BitVec 64)) (o : Host.Outcome State Fault Refusal) : Prop :=
  ∃ t r, o = .next t ∧ t.summit = s.summit ++ [r] ∧ r.id = s.serial ∧ r.op = op ∧ r.ctx = curCtx s ∧ r.a = a ∧ r.b = b ∧ r.block = block ∧
    r.tile = s.focus.tile ∧ r.set = s.focus.set ∧ r.thr = s.focus.thr ∧
    r.applied = false ∧ r.ready = false ∧ (curThread t).st = .wait ∧ (curThread t).fl.asked = some s.serial ∧
    (curThread t).pc = (curThread s).pc ∧ (curThread t).s = (curThread s).s ∧ t.mem = s.mem ∧ t.ctxs = s.ctxs

/-- Summit holds one request, as it was sent. -/
def SummitHolds (s : State) (r : SummitReq) : Prop :=
  s.summit = [r] ∧ r.applied = false ∧ r.ready = false ∧ r.reason = 0 ∧ r.value = 0 ∧ r.waits = []

/-- Summit's answer: the request is ready with a reason and a value. -/
def Decided (t : State) (r : SummitReq) (reason : Nat) (v : BitVec 64) : Prop :=
  t.summit = [{ r with applied := true, ready := true, reason := reason, value := v }]

/-- A live child of a context that is not lost. -/
def ChildOf (s : State) (ctx child : Nat) : Prop :=
  child < 1024 ∧ ∃ c, Tab.find? s.ctxs child = some c ∧ c.depth ≠ 0 ∧ c.parent = ctx ∧ c.st ≠ .lost

end Sys2Proof.Claim

/-- R368 to R370, R372, R374, R377 to R379: a context instruction passes its operands, and the block that it reads, to Summit and waits; a
refusal raises illegal-operand with its reason in DET0, another answer goes to D. -/
def Obligations.ContextWordsAskSummit : Prop :=
  ∀ (w : TWord) (s : State), Runs w s →
    let a := readS false (curThread s) w.a
    let b := readS false (curThread s) w.b
    ((curThread s).fl.asked = none → NothingBefore s →
      (∀ i op, (i, op) ∈ plainContextForms w → AsksSummit s op a b [] (exec i s)) ∧
      (∀ i op v align n pa, (i, op, v, align, n) ∈ blockContextForms w a.toNat b.toNat → MemoryOpen s → v % 2 ^ 56 % align = 0 →
        checkAddress s (v % 2 ^ 56) (8 * n) true false .block = .ok (.mem pa) → BlockStill s pa n → (∀ k < n, lineBad s (.mem (pa + 8 * k)) = false) →
        AsksSummit s op a b (blockWords s pa n) (exec i s)) ∧
      (∀ i op v align n, (i, op, v, align, n) ∈ blockContextForms w a.toNat b.toNat → MemoryOpen s → v % 2 ^ 56 % align ≠ 0 →
        exec i s = wordTraps w s 0x04 (v % 2 ^ 56) 0)) ∧
    (∀ i id r, ((∃ op, (i, op) ∈ plainContextForms w) ∨ ∃ op v align n, (i, op, v, align, n) ∈ blockContextForms w a.toNat b.toNat) →
      (curThread s).fl.asked = some id → s.summit.find? (fun x => x.id == id && x.ready) = some r →
      (r.reason = 0 → NextInside s → ∃ t, exec i s = .next t ∧ (∀ x ∈ t.summit, x.id ≠ id) ∧ (curThread t).st = .run ∧
        (curThread t).pc = (curThread s).pc + 1 ∧ t.mem = s.mem ∧
        ∀ k, Tab.get 0 (curThread t).s k = if w.d = .s k then r.value else Tab.get 0 (curThread s).s k) ∧
      (r.reason ≠ 0 → ∃ u, exec i s = .next (raiseTrap u s.focus.tile s.focus.set
        (wordRec 0x02 s.focus.thr (curThread s).pc 0 (BitVec.ofNat 64 r.reason))) ∧ (curThread u).s = (curThread s).s ∧ u.mem = s.mem)) ∧
    (∀ i id, ((∃ op, (i, op) ∈ plainContextForms w) ∨ ∃ op v align n, (i, op, v, align, n) ∈ blockContextForms w a.toNat b.toNat) →
      (curThread s).fl.asked = some id → (∀ x ∈ s.summit, x.id = id → x.ready = false) → WaitsHere s (exec i s))

/-- R367, R370, R372, R378, R379: what Summit decides. CTXNEW makes a stopped child with the lowest free number from 13 on; CTXGRANT moves an
amount or an object from the issuer to a child and refuses what the issuer has not left; CTXRUN and CTXSTOP set the child's state; CTXQ
answers with a word of the descriptor. -/
def Obligations.SummitDecidesContextRequests : Prop :=
  ∀ (s : State) (r : SummitReq) (child : Nat), SummitHolds s r → s.revs = [] →
    (r.op = 0 → r.a.toNat < 2 ^ 56 → (getCtx s r.ctx).depth ≠ 8 → ((getCtx s r.ctx).depth = 0 ∨ bit (features s) 6 = true) →
      creationOk r.block = true → (r.block.getD 0 0).toNat % 8 ≤ (getCtx s r.ctx).pceil → (∀ d < 4, (r.block.getD (2 + d) 0).toNat % 2 ^ 16 = 0) →
      ∀ n, 13 ≤ n → n < 1024 → Tab.find? s.ctxs n = none → (∀ m, 13 ≤ m → m < n → (Tab.find? s.ctxs m).isSome = true) →
      ∃ t, exec .summitAnswer s = .next t ∧ Decided t r 0 (BitVec.ofNat 64 n) ∧
        (∀ m, m ≠ n → Tab.find? t.ctxs m = Tab.find? s.ctxs m) ∧
        ∃ c, Tab.find? t.ctxs n = some c ∧ c.st = .stopped ∧ c.parent = r.ctx ∧ c.depth = (getCtx s r.ctx).depth + 1 ∧
          c.part = (getCtx s r.ctx).part ∧ c.dmask = r.block.getD 1 0 ∧ c.pwr = 0 ∧ c.frm = 0 ∧ c.slt = 0 ∧ c.ts = 0 ∧ c.shares = [] ∧ c.maps = []) ∧
    (ChildOf s r.ctx child →
      (∀ kind ∈ [1, 3, 7, 8], r.op = 1 → r.a = BitVec.ofNat 64 (child + kind * 2 ^ 16) →
        (qtyUsed (getCtx s r.ctx) kind + r.b.toNat ≤ qtyOf (getCtx s r.ctx) kind →
          ∃ t, exec .summitAnswer s = .next t ∧ Decided t r 0 0 ∧ qtyUsed (getCtx t r.ctx) kind = qtyUsed (getCtx s r.ctx) kind + r.b.toNat ∧
            qtyOf (getCtx t child) kind = qtyOf (getCtx s child) kind + r.b.toNat) ∧
        (0 < r.b.toNat → qtyOf (getCtx s r.ctx) kind < qtyUsed (getCtx s r.ctx) kind + r.b.toNat →
          ∃ t, exec .summitAnswer s = .next t ∧ Decided t r 4 0 ∧ t.ctxs = s.ctxs)) ∧
      (∀ kind ∈ [2, 4, 5, 6, 9], r.op = 1 → r.a = BitVec.ofNat 64 (child + kind * 2 ^ 16) →
        (r.b.toNat < objectCount kind → holder s kind r.b.toNat = r.ctx →
          ∃ t, exec .summitAnswer s = .next t ∧ Decided t r 0 0 ∧ holder t kind r.b.toNat = child ∧
            ∀ n, n ≠ r.b.toNat → holder t kind n = holder s kind n) ∧
        ((objectCount kind ≤ r.b.toNat ∨ holder s kind r.b.toNat ≠ r.ctx) →
          ∃ t, exec .summitAnswer s = .next t ∧ Decided t r 4 0 ∧ holder t kind r.b.toNat = holder s kind r.b.toNat)) ∧
      (r.op = 3 → r.a = BitVec.ofNat 64 child → (getCtx s child).st ≠ .trapped →
        ∃ t, exec .summitAnswer s = .next t ∧ Decided t r 0 0 ∧ (getCtx t child).st = .running) ∧
      (r.op = 4 → r.a = BitVec.ofNat 64 child →
        ∃ t, exec .summitAnswer s = .next t ∧ (getCtx t child).st = (if (getCtx s child).st = .running then .stopped else (getCtx s child).st) ∧
          t.summit = [{ r with applied := true }])) ∧
    ((r.op = 1 ∨ r.op = 3 ∨ r.op = 4) → r.a = BitVec.ofNat 64 child → child < 1024 → Tab.find? s.ctxs child = none →
      ∃ t, exec .summitAnswer s = .next t ∧ Decided t r 1 0 ∧ t.ctxs = s.ctxs) ∧
    (∀ word < 16, r.op = 5 → child < 1024 → r.a = BitVec.ofNat 64 (child + word * 2 ^ 16) → inSubtree s r.ctx child = true →
      let c := getCtx s child
      ∃ t v, exec .summitAnswer s = .next t ∧ Decided t r 0 v ∧ t.ctxs = s.ctxs ∧ (word = 1 → v = c.dmask) ∧ (word = 2 → v = c.troot) ∧
        (word = 8 → v = BitVec.ofNat 32 c.pwru ++ BitVec.ofNat 32 c.pwr) ∧ (word = 9 → v = BitVec.ofNat 32 c.frmu ++ BitVec.ofNat 32 c.frm))

/-! ### Engine commands -/

namespace Sys2Proof.Claim

/-- An engine may carry out the command at its ring's head (R27, R295, R418): what its ENQ released, and what its engine's waits have
acquired, is performed at the scope, and its wait has been performed or its tokens are there. -/
def CommandMay (s : State) (e : Nat) (c : Cmd) (scope : Nat) : Prop :=
  let x := curSet s
  let cap := capturedAt x e (ringHead x e)
  (∀ id ∈ cap.stores ++ (engState x e).knows, performedId s (.thread s.focus.tile s.focus.set cap.thr) scope id = true) ∧
  ((engState x e).waited = true ∨ ∀ r, c.wait = some r → r.less1.toNat + 1 ≤ Tab.get 0 x.tok r.queue.toNat)

/-- The tokens of a queue after a command's wait, and after its signal (R27, R200, R235). -/
def afterWait (s : State) (e : Nat) (c : Cmd) (q : Nat) : Nat :=
  match c.wait with
  | some r => if r.queue.toNat = q ∧ (engState (curSet s) e).waited = false then Tab.get 0 (curSet s).tok q - (r.less1.toNat + 1) else Tab.get 0 (curSet s).tok q
  | none => Tab.get 0 (curSet s).tok q
def afterSignal (c : Cmd) (q n : Nat) : Nat :=
  match c.sig with
  | some r => if r.queue.toNat = q then Nat.min 15 (n + (r.less1.toNat + 1)) else n
  | none => n

/-- The engine has gone past its command: HEAD has advanced, the wait is performed, and the signal raised where `signals`. -/
def Passed (s t : State) (e : Nat) (c : Cmd) (signals : Bool) : Prop :=
  ringHead (curSet t) e = (ringHead (curSet s) e + 1) % 2 ^ 16 ∧ ringTail (curSet t) e = ringTail (curSet s) e ∧ t.mem = s.mem ∧
  ∀ q, Tab.get 0 (curSet t).tok q = if signals then afterSignal c q (afterWait s e c q) else afterWait s e c q

/-- A field of a command's argument (R28). -/
def field (c : Cmd) (hi lo : Nat) : Nat := (c.arg.extractLsb' lo (hi + 1 - lo)).toNat

/-- The target of the command at the head of the matrix engine's ring (R132): the schedule base captured for it and the stamp of its
word. -/
def targetOf (s : State) : Nat :=
  let x := curSet s
  ((capturedAt x 0 (ringHead x 0)).base + ((shareWord (curTile s) x (ringAddr x 0 (ringHead x 0))).extractLsb' 26 16).toNat) % 2 ^ 64

/-- The commands of the matrix engine, by operation. -/
def matrixForms (c : Cmd) : List (Instr × Nat) := [(.wld c, 1), (.mma c, 2), (.accLd c, 3), (.accSt c, 4), (.accClr c, 5)]

end Sys2Proof.Claim

/-- R219 to R224, R231, R346, R357, R418: the commands of the engines beside the matrix engine: each takes its tokens, has its effect once its checks
pass, and lets the ring go on; a check that fails leaves the command at the head and raises a command fault with its code. -/
def Obligations.EngineCommandsTakeEffect : Prop :=
  ∀ (c : Cmd) (s : State),
    let x := curSet s
    (∀ e ∈ [Engine.ce, .cx, .cl, .sp, .xc], CommandMay s (engineNum e) c (if e = .xc then 3 else 0) →
      ∃ t, exec (.engineNop e c) s = .next t ∧ Passed s t (engineNum e) c true) ∧
    (CommandMay s 5 c 3 → (engState x 5).sent = none → (∀ q, ∀ l ∈ Tab.get [] x.tokIds q, ∀ i ∈ l, findReq s i = none) →
      ∃ t, exec (.xcFire c) s = .next t ∧
        t.fires = (if ∃ p ∈ s.slots, p.2.line = field c 41 33 then s.fires ++ [⟨s.serial, field c 41 33, BitVec.ofNat 32 (field c 31 0)⟩] else s.fires) ∧
        (engState (curSet t) 5).sent = some s.serial ∧ ringHead (curSet t) 5 = ringHead x 5 ∧ ∀ q, Tab.get 0 (curSet t).tok q = afterWait s 5 c q) ∧
    (∀ id, (engState x 5).sent = some id → (∀ f ∈ s.fires, f.id ≠ id) →
      ∃ t, exec (.xcFire c) s = .next t ∧ t.fires = s.fires ∧ ringHead (curSet t) 5 = (ringHead x 5 + 1) % 2 ^ 16 ∧
        ∀ q, Tab.get 0 (curSet t).tok q = afterSignal c q (Tab.get 0 x.tok q)) ∧
    (CommandMay s 5 c 3 → ((Tab.get CopyChan.reset s.copies (field c 41 32)).wm - BitVec.ofNat 32 (field c 31 0)).toNat < 2 ^ 31 →
      ∃ t, exec (.mark c) s = .next t ∧ Passed s t 5 c true ∧ t.copies = s.copies) ∧
    (let p := field c 41 39
     let spb := (List.range 8).map fun i => shareWord (curTile s) x (field c 38 24 * 64 + 8 * i)
     (CommandMay s 4 c (Nat.min 4 (spbScope spb)) → openCheck c s = none →
      ∃ t y, exec (.openPort c) s = .next t ∧ Passed s t 4 c true ∧ Tab.find? (curSet t).ports p = some y ∧ y.spb = spb ∧ y.pos = 0 ∧
        y.closing = false ∧ y.ended = false ∧ ∀ n, n ≠ p →
          (Tab.find? (curSet t).ports n).map (fun z => { z with ixFrom := 0 }) = (Tab.find? x.ports n).map fun z => { z with ixFrom := 0 }) ∧
     (∀ code, CommandMay s 4 c (Nat.min 4 (spbScope spb)) → openCheck c s = some code → exec (.openPort c) s = .next (commandFault s 4 code)) ∧
     (∀ y, Tab.find? x.ports p = some y → CommandMay s 4 c (Nat.min 4 (spbScope y.spb)) →
      (∃ t z, exec (.closePort c) s = .next t ∧ Passed s t 4 c false ∧ Tab.find? (curSet t).ports p = some z ∧ z.closing = true ∧ z.pos = y.pos ∧ z.sigs = y.sigs ++ c.sig.toList) ∧
      (∃ t z, exec (.advancePort c) s = .next t ∧ Passed s t 4 c true ∧ Tab.find? (curSet t).ports p = some z ∧ z.pos = y.pos + field c 38 7 ∧
        z.closing = y.closing)) ∧
     (Tab.find? x.ports p = none → CommandMay s 4 c 0 → exec (.closePort c) s = .next (commandFault s 4 10) ∧ exec (.advancePort c) s = .next (commandFault s 4 10))) ∧
    (let side := field c 41 41
     x.load = none → CommandMay s 3 c 0 → ∀ i pl, (i = .loadPlane c ∧ pl = field c 40 40 ∨ i = .loadsh c ∧ pl = shadowPlane x side) →
      (loadCheck side pl (field c 16 0) s = none → ∃ t l, exec i s = .next t ∧ Passed s t 3 c false ∧ (curSet t).load = some l ∧ l.side = side ∧ l.pl = pl ∧
        l.dir = field c 16 0 ∧ l.sig = c.sig ∧ l.issue = tscOf s s.focus.tile ∧ l.words = 0 ∧ l.bad = none ∧
        (Tab.get Plane.empty (curTile t).planes (side * 2 + pl)).valid = false) ∧
      (∀ code, loadCheck side pl (field c 16 0) s = some code → exec i s = .next (commandFault s 3 code))) ∧
    (∀ e ∈ [Engine.ce, .cx], CommandMay s (engineNum e) c 0 →
      let slot := field c 41 40
      let side := engineNum e - 1
      (fireCheck (fireArg e c) s = none → ∃ t, exec (.fireRegion e c) s = .next t ∧ Passed s t (engineNum e) c false ∧
        (let g := regionOf (curSet t) slot
         g.st = .running ∧ g.front = 0 ∧ g.ends = [] ∧ g.sig = c.sig ∧ g.ens = (fireArg e c).ens ∧ g.exs = (fireArg e c).exs ∧
         g.pe = (fireArg e c).pe ∧ g.px = (fireArg e c).px) ∧
        (∀ n ∈ fireElems (fireArg e c), let y := elemOfSet (curSet t) n
          y.inst = 0 ∧ y.emitted = 0 ∧ y.finished = false ∧ y.rxs = [] ∧ y.fault = none) ∧
        (∀ n, n ∉ fireElems (fireArg e c) → elemOfSet (curSet t) n = elemOfSet x n)) ∧
      (∀ code, fireCheck (fireArg e c) s = some code → exec (.fireRegion e c) s = .next (commandFault s (engineNum e) code)) ∧
      (pendOf (regionOf x slot) side = none → switchCheck side slot (field c 7 7) s = none → ∃ t y, exec (.switchPlane e c) s = .next t ∧
        ringHead (curSet t) (engineNum e) = ringHead x (engineNum e) ∧ pendOf (regionOf (curSet t) slot) side = some y ∧ y.tag = field c 39 8 ∧
        y.plane = field c 7 7 ∧ y.reached = false ∧ y.issue = tscOf s s.focus.tile ∧ (regionOf (curSet t) slot).pe = (regionOf x slot).pe ∧
        (regionOf (curSet t) slot).px = (regionOf x slot).px) ∧
      ((regionOf x slot).abort = none → (regionOf x slot).st = .free → ∃ t, exec (.abortRegion e c) s = .next t ∧ Passed s t (engineNum e) c true) ∧
      ((regionOf x slot).abort = none → (regionOf x slot).st ≠ .free → ∃ t, exec (.abortRegion e c) s = .next t ∧
        ((regionOf (curSet t) slot).st = .stopped ∨ (regionOf (curSet t) slot).st = .free) ∧
        ∀ n ∈ regionElems (regionOf x slot), (elemOfSet (curSet t) n).rxs = [] ∧ (elemOfSet (curSet t) n).fault = none))

/-- R132, R198, R200, R209, R211: a command of the matrix engine whose checks pass issues in STRICT mode at the step of its target and in ELASTIC mode from
target + DLY on, takes its port with its rows before it, and lets the ring go on; a failing check raises its code and nothing is written, and so does a
record whose line fails its check (R208), or a feed that has ended (R197).
A NOP issues and signals at once. -/
def Obligations.MatrixCommandsIssueAtTheirTarget : Prop :=
  ∀ (c : Cmd) (s0 : State),
    (∀ i eop, (i, eop) ∈ matrixForms c →
      let s := feedAdvance s0 s0.focus.tile s0.focus.set (feedGroup eop) 8
      let x := curSet s
      let cap := capturedAt x 0 (ringHead x 0)
      let tsc := tscOf s s.focus.tile
      let target := targetOf s
      let come := if cap.retry then True else if cap.elastic then target + x.dly.toNat ≤ tsc else tsc = target
      let over_ := readsFeed eop (cmdShape s c) && feedOver (curTile s) x s.focus.set (feedGroup eop)
      CommandMay s 0 c 0 →
      (∀ a, recordBad s c = some a → exec i s0 = .next (headIntegrity s a)) ∧
      (recordBad s c = none → meCheck eop c s = none → come → over_ = true → exec i s0 = .next (commandFault s 0 9)) ∧
      (recordBad s c = none → meCheck eop c s = none → issueReason eop c s = none → over_ = false → come →
        ∃ t r, exec i s0 = .next t ∧ Passed s t 0 c false ∧ meRunOn (curSet t).me (mePort eop) = some r ∧ r.eop = eop ∧ r.arg = c.arg ∧ r.sig = c.sig ∧
          r.row = 0 ∧ r.issue = tsc ∧ r.target = target ∧ r.total = meTotal eop (cmdShape s c) ∧ r.strict = !cap.elastic ∧
          (eop = 2 → r.slab = (if x.me.fresh then x.me.shadow else x.me.active)) ∧ (curTile t).acc = (curTile s).acc) ∧
      (∀ code, recordBad s c = none → meCheck eop c s = some code → exec i s0 = .next (commandFault s 0 code)) ∧
      (recordBad s c = none → meCheck eop c s = none → cap.elastic = false → cap.retry = false → tsc ≠ target → exec i s0 = .next s)) ∧
    (let x := curSet s0
     let cap := capturedAt x 0 (ringHead x 0)
     CommandMay s0 0 c 0 → cap.elastic = false → cap.retry = false → tscOf s0 s0.focus.tile = targetOf s0 →
      ∃ t, exec (.engineNop .me c) s0 = .next t ∧ Passed s0 t 0 c true)

/-! ### Element moves -/

namespace Sys2Proof.Claim

/-- The ports that a move may read (R31). -/
def isSource : Port → Bool
  | .inp _ | .aluR | .mulR | .sfuR | .cvtR | .redR | .konst | .zero | .dline => true
  | _ => false

/-- The acting element may execute a move, and the bundle is open: its sources are what `before` holds (R68). -/
def Moves (m : Mv) (s : State) : Prop :=
  moveReady s = true ∧ (curRx s).opnds = true ∧ isSource m.src = true ∧ m.eob = false

/-- The value of a move's source (R31, R68, R76, R83): a delay line's item is the one that emerges once the reactions ahead have shifted the
line. -/
def srcValue (s : State) (m : Mv) : BitVec 512 :=
  let rx := curRx s
  match m.src with
  | .inp n => if rx.stat.getD n false then Tab.get 0 rx.items n else 0
  | .aluR => Tab.get 0 rx.before 1
  | .mulR => Tab.get 0 rx.before 3
  | .sfuR => Tab.get 0 rx.before 4
  | .cvtR => Tab.get 0 rx.before 5
  | .redR => Tab.get 0 rx.before 7
  | .konst => imgConst (rxImage s rx) (m.imm.toNat % 8)
  | .dline =>
    let d := m.imm.toNat % 4
    let ahead := (curElem s).rxs.takeWhile fun r => r.inst != rx.inst
    let entered (r : Reaction) : LineEntry := ((Tab.find? r.lines d).map fun v => (⟨1, v, []⟩ : LineEntry)).getD ⟨0, 0, []⟩
    match (lineOf (curElem s) d ++ ahead.map entered)[ahead.length]? with
    | some l => if l.kind = 1 then l.item else 0
    | none => 0
  | _ => 0

/-- Lane `l` of a port's value, and of what a move carries: one lane in all of them under broadcast (R97). -/
def lane (v : BitVec 512) (l : Nat) : BitVec 32 := v.extractLsb' (32 * l) 32
def srcLane (s : State) (m : Mv) (l : Nat) : BitVec 32 := lane (srcValue s m) (if m.lane = .bcast then m.imm.toNat % 16 else l)

/-- Whether a move writes, or its operation computes, lane `l` (R97). -/
def laneSel (m : Mv) (l : Nat) : Bool :=
  match m.lane with
  | .lo => l < 8
  | .hi => 8 ≤ l
  | _ => true

/-- A port of the acting element: operands 0, 2 and 6, results 1, 3, 4, 5 and 7. -/
def port (s : State) (k : Nat) : BitVec 512 := Tab.get 0 (curElem s).ports k

/-- The reaction has gone past a move within its bundle; nothing but the acting element has changed. -/
def MovedOn (s t : State) : Prop :=
  (curRx t).idx = (curRx s).idx + 1 ∧ (curRx t).mov = (curRx s).mov + 1 ∧ (curRx t).bundle = (curRx s).bundle ∧ (curRx t).done = false ∧
  (curRx t).inst = (curRx s).inst ∧ (curRx t).before = (curRx s).before ∧ (curElem t).lines = (curElem s).lines ∧
  (curElem t).fault = (curElem s).fault ∧ t.mem = s.mem ∧ (curTile t).sp = (curTile s).sp ∧
  ∀ e, e ≠ s.focus.elem → elemOfSet (curSet t) e = elemOfSet (curSet s) e

/-- A trigger writes its result port element by element of width `wd`: element base + l of a lane that it computes takes `f l`, with the
condition that this lane signals; the others keep their values (R97, R104, R113). -/
def Computes (m : Mv) (s : State) (i : Instr) (key wd base : Nat) (f : Nat → BitVec wd × Cnd) : Prop :=
  ∃ t r, exec i s = .next t ∧ MovedOn s t ∧ (curRx t).trigs = (curRx s).trigs ++ [r] ∧ r.alw = 0 ∧ r.mov = (curRx s).mov ∧
    (∀ k, k ≠ key → port t k = port s k) ∧
    (∀ e < 512 / wd, (port t key).extractLsb' (wd * e) wd =
      if base ≤ e ∧ e < base + 16 ∧ laneSel m (e - base) = true then (f (e - base)).1 else (port s key).extractLsb' (wd * e) wd) ∧
    ∀ l < 16,
      let cnd (k : Cnd) : Bool := laneSel m l && (f l).2 == k
      r.nar.getLsbD l = cnd .nar ∧ r.inv.getLsbD l = cnd .inv ∧ r.dz.getLsbD l = cnd .dz ∧ r.ovf.getLsbD l = cnd .ovf

/-- A reduction writes one result to all sixteen lanes, and its condition belongs to all of them (R106, R113). -/
def Reduces (s : State) (i : Instr) (r : BitVec 32 × Cnd) : Prop :=
  ∃ t q, exec i s = .next t ∧ MovedOn s t ∧ (curRx t).trigs = (curRx s).trigs ++ [q] ∧ q.alw = 0 ∧
    (∀ k, k ≠ 7 → port t k = port s k) ∧ (∀ l < 16, lane (port t 7) l = r.1) ∧
    q.nar = (if r.2 = .nar then 0xFFFF else 0) ∧ q.inv = (if r.2 = .inv then 0xFFFF else 0) ∧
    q.dz = (if r.2 = .dz then 0xFFFF else 0) ∧ q.ovf = (if r.2 = .ovf then 0xFFFF else 0)

/-- A trigger signals a fault that has no enable (R59, R96, R109); no port changes. -/
def Signals (s : State) (i : Instr) (cause : Nat) : Prop :=
  ∃ t r, exec i s = .next t ∧ MovedOn s t ∧ (curRx t).trigs = (curRx s).trigs ++ [r] ∧ r.alw = cause ∧ ∀ k l, l < 16 → lane (port t k) l = lane (port s k) l

/-- The operation type of a trigger (R96): TOV, else the type in force of its source input, else F32. -/
def OpType (s : State) (m : Mv) (ty : Ty) : Prop :=
  match m.tov with
  | .f32 => ty = .f32
  | .s32 => ty = .s32
  | .z32 => ty = .z32
  | .inForce => (∃ n, m.src = .inp n ∧ (Tab.get InState.reset (curRx s).ins n).ty = ty.code) ∨ (∀ n, m.src ≠ .inp n) ∧ ty = .f32

/-- An F32 word, a NaN made canonical (R41). -/
def canonical (x : BitVec 32) : BitVec 32 := if isNan32 x then 0x7FC00000 else x

/-- A result of R99 in F32: rounded once with saturation; a condition of the operation goes before one of the rounding. -/
def rounded (x : Machine.Num × Cnd) : BitVec 32 × Cnd :=
  let y := convert .f32 .f32 .rne true false x.1
  (BitVec.ofNat 32 y.1, if x.2 = .none then y.2 else x.2)

/-- An exact integer bounded to 32 bits, with OVF where it lies outside (R99). -/
def bounded (sg : Bool) (t : Int) : BitVec 32 × Cnd :=
  (BitVec.ofInt 32 (clamp sg 32 t), if least sg 32 ≤ t ∧ t ≤ greatest sg 32 then .none else .ovf)

/-- The arithmetic triggers (R100, R101, R107): operand port, result port, and the F32 operation on operand, trigger value and
constant. -/
def floatTriggers (m : Mv) : List (Instr × Nat × Nat × (Machine.Num → Machine.Num → Machine.Num → Machine.Num × Cnd)) :=
  [(.aluAdd m, 0, 1, fun a b _ => numAdd .rne a b), (.aluSub m, 0, 1, fun a b _ => numAdd .rne a (numNegate b)),
   (.aluMin m, 0, 1, fun a b _ => (numMinMax false a b, .none)), (.aluMax m, 0, 1, fun a b _ => (numMinMax true a b, .none)),
   (.aluAbs m, 0, 1, fun _ b _ => (numAbs b, .none)), (.aluNeg m, 0, 1, fun _ b _ => (numNegate b, .none)),
   (.mulMul m, 2, 3, fun a b _ => numMul a b), (.mulFma m, 2, 3, fun a b k => numFma .rne b a k), (.mulDiv m, 2, 3, fun a b _ => numDiv a b),
   (.redAcc m, 7, 7, fun a b _ => numAdd .rne a b)]

/-- Their integer operations, but for DIV. -/
def intTriggers (m : Mv) : List (Instr × Nat × Nat × (Int → Int → Int → Int)) :=
  [(.aluAdd m, 0, 1, fun a b _ => a + b), (.aluSub m, 0, 1, fun a b _ => a - b), (.aluMin m, 0, 1, fun a b _ => min a b),
   (.aluMax m, 0, 1, fun a b _ => max a b), (.aluAbs m, 0, 1, fun _ b _ => |b|), (.aluNeg m, 0, 1, fun _ b _ => -b),
   (.mulMul m, 2, 3, fun a b _ => a * b), (.mulFma m, 2, 3, fun a b k => b * a + k), (.redAcc m, 7, 7, fun a b _ => a + b)]

/-- The comparisons (R100). -/
def compareTriggers (m : Mv) : List (Instr × Cond) := [(.aluCmpeq m, .eq), (.aluCmplt m, .lt), (.aluCmple m, .le)]

/-- The triggers on raw lanes (R100, R107, R108): operand port, result port, and the operation on operand, trigger value and constant. -/
def rawTriggers (m : Mv) : List (Instr × Nat × Nat × (BitVec 32 → BitVec 32 → BitVec 32 → BitVec 32)) :=
  [(.aluAnd m, 0, 1, fun a b _ => a &&& b), (.aluOr m, 0, 1, fun a b _ => a ||| b), (.aluXor m, 0, 1, fun a b _ => a ^^^ b),
   (.aluShl m, 0, 1, fun a b _ => a <<< (b.toNat % 32)), (.aluShr m, 0, 1, fun a b _ => a >>> (b.toNat % 32)),
   (.aluSar m, 0, 1, fun a b _ => a.sshiftRight (b.toNat % 32)), (.aluSel m, 0, 1, fun a b k => if b ≠ 0 then a else k),
   (.aluPass m, 0, 1, fun _ b _ => b), (.redSteer m, 7, 7, fun _ b _ => if b ≠ 0 then 0xFFFFFFFF else 0), (.redFlush m, 7, 7, fun _ b _ => b)]

/-- The special cases of the functions (R102), with their conditions. -/
def sfuTriggers (m : Mv) : List (Instr × List (BitVec 32 × BitVec 32 × Cnd)) :=
  [(.sfuRcp m, [(0, 0x7F800000, .dz), (0x80000000, 0xFF800000, .dz), (0x7F800000, 0, .none), (0xFF800000, 0x80000000, .none), (0x40000000, 0x3F000000, .none)]),
   (.sfuSqrt m, [(0x80000000, 0x80000000, .none), (0x7F800000, 0x7F800000, .none), (0xBF800000, 0x7FC00000, .inv), (0x40800000, 0x40000000, .none)]),
   (.sfuRsq m, [(0, 0x7F800000, .dz), (0x80000000, 0xFF800000, .dz), (0x7F800000, 0, .none), (0xBF800000, 0x7FC00000, .inv), (0x40800000, 0x3F000000, .none)]),
   (.sfuExp2 m, [(0xFF800000, 0, .none), (0x7F800000, 0x7F800000, .none), (0x40400000, 0x41000000, .none), (0x43800000, 0x7F7FFFFF, .ovf)]),
   (.sfuLog2 m, [(0, 0xFF800000, .dz), (0x80000000, 0xFF800000, .dz), (0xBF800000, 0x7FC00000, .inv), (0x7F800000, 0x7F800000, .none), (0x3F800000, 0, .none)]),
   (.sfuTanh m, [(0, 0, .none), (0x80000000, 0x80000000, .none), (0x7F800000, 0x3F800000, .none), (0xFF800000, 0xBF800000, .none)]),
   (.sfuSig m, [(0xFF800000, 0, .none), (0x7F800000, 0x3F800000, .none), (0, 0x3F000000, .none)])]

/-- The moves and triggers, as constructors. -/
def moveForms : List (Mv → Instr) :=
  [.move, .guardedMove, .scaleMove, .aluAdd, .aluSub, .aluMin, .aluMax, .aluAnd, .aluOr, .aluXor, .aluShl, .aluShr, .aluSar, .aluAbs, .aluNeg,
   .aluCmpeq, .aluCmplt, .aluCmple, .aluSel, .aluPass, .mulMul, .mulMuls, .mulFma, .mulDiv, .sfuRcp, .sfuSqrt, .sfuRsq, .sfuExp2, .sfuLog2, .sfuTanh,
   .sfuSig, .sfuLut, .cvtCvt, .cvtDeq, .cvtQnt, .redSum, .redMax, .redScaleMax, .redMin, .redCnt, .redSteer, .redMerge, .redAcc, .redFlush]

/-- The cause that a trigger of a bundle faults with under an element's enables, NAR, OVF, INV and DZ in bits 3 to 0 (R113, R114). -/
def causeOf (en : Nat) (r : TrigRec) : Nat :=
  if r.alw ≠ 0 then r.alw else if en.testBit 3 && r.nar != 0 then 4 else if en.testBit 1 && r.inv != 0 then 2
  else if en.testBit 0 && r.dz != 0 then 1 else if en.testBit 2 && r.ovf != 0 then 3 else 0

/-- The enables of element `e` in ELXEN0 and ELXEN1 of a set (R114). -/
def enables (c : CtxSet) (e : Nat) : Nat := ((if e < 16 then c.elxen0 else c.elxen1).extractLsb' (4 * (e % 16)) 4).toNat

/-- The active set of a tile. -/
def actSet (s : State) (tile : Nat) : CtxSet := getSet s tile (getTile s tile).active

/-- The tile acts at this tick: it is in service and a step edge falls on it. -/
def Acts (s : State) (tile : Nat) : Prop := edgeNow s tile = true ∧ (getTile s tile).removed = false

/-- The reactions of an element before and after an event that changes its running reaction alone. -/
def RunningChanged (x y : Elem) (rel : Reaction → Reaction → Prop) : Prop :=
  ∃ pre r q post, x.rxs = pre ++ r :: post ∧ y.rxs = pre ++ q :: post ∧ (∀ z ∈ pre, z.done = true) ∧ r.done = false ∧ rel r q

end Sys2Proof.Claim

/-- R30, R68, R97, R98, R113, R115, R116: a move carries its source to an output, a delay line or an operand port; a guarded move writes when its
guard passes; a scale move gives an output its SCALE payload. The first move of a bundle opens it: sources are the ports as they stand, and
operand ports are written first. The last move ends the bundle with what its triggers signalled. When the reaction comes to the stage of the
bundle, the first trigger with an enabled condition faults and younger reactions are squashed; a bundle without one is passed. -/
def Obligations.MovesAndBundlesOfAReaction : Prop :=
  ∀ (m : Mv) (s : State),
    (Moves m s →
      let passes : Bool := (lane (Tab.get 0 (curRx s).before 7) 0 != 0) == m.imm.getLsbD 6
      (∀ i, (i = .move m ∨ i = .guardedMove m ∧ (m.imm.getLsbD 7 = false ∨ passes = true)) → ∃ t, exec i s = .next t ∧ MovedOn s t ∧
        (curRx t).trigs = (curRx s).trigs ∧ (curRx t).scales = (curRx s).scales ∧
        (∀ o, m.dst = .out o → (∀ l < 16, lane (Tab.get 0 (curRx t).outs o) l = if laneSel m l then srcLane s m l else 0) ∧
          (∀ x, x ≠ o → Tab.get 0 (curRx t).outs x = Tab.get 0 (curRx s).outs x) ∧ (curElem t).ports = (curElem s).ports) ∧
        (m.dst = .dline → ∀ l < 16, lane (Tab.get 0 (curRx t).lines (m.imm.toNat % 4)) l = if laneSel m l then srcLane s m l else 0) ∧
        (∀ p k, (p, k) ∈ [(Port.aluO, 0), (.mulO, 2), (.redO, 6)] → m.dst = p →
          (∀ l < 16, lane (port t k) l = if laneSel m l then srcLane s m l else lane (port s k) l) ∧
          (∀ x, x ≠ k → port t x = port s x) ∧ (curRx t).outs = (curRx s).outs)) ∧
      (∀ i, (i = .guardedMove m ∨ i = .scaleMove m) → m.imm.getLsbD 7 = true → passes = false → ∃ t, exec i s = .next t ∧ MovedOn s t ∧
        (curRx t).outs = (curRx s).outs ∧ (curRx t).scales = (curRx s).scales ∧ (curElem t).ports = (curElem s).ports) ∧
      (∀ o, m.dst = .out o → (m.imm.getLsbD 7 = false ∨ passes = true) → ∃ t, exec (.scaleMove m) s = .next t ∧ MovedOn s t ∧
        (curRx t).outs = (curRx s).outs ∧ (curElem t).ports = (curElem s).ports ∧
        Tab.get 0 (curRx t).scales o = (srcValue s m).extractLsb' 0 64 ∧
        ∀ x, x ≠ o → Tab.get 0 (curRx t).scales x = Tab.get 0 (curRx s).scales x)) ∧
    (∀ i ∈ moveForms, moveReady s = true → (curRx s).opnds = false → ∃ b, exec (i m) s = exec (i m) b ∧ moveReady b = true ∧
      (curRx b).opnds = true ∧ (curRx b).before = (curElem s).ports ∧ (curRx b).idx = (curRx s).idx ∧ (curRx b).items = (curRx s).items ∧
      (curRx b).stat = (curRx s).stat ∧
      ∀ k,
        let ws := (bundleMoves (rxImage s (curRx s)) (curRx s).idx 4).filter fun x => operandKey x.dst == some k
        (ws = [] → port b k = port s k) ∧
        (∀ n, ws = [n] → isSource n.src = true → ∀ l < 16, lane (port b k) l = if laneSel n l then srcLane b n l else lane (port s k) l)) ∧
    (∀ i ∈ moveForms, moveReady s = true → m.eob = true → ∃ t u, exec (i { m with eob := false }) s = .next t ∧ exec (i m) s = .next u ∧
      (curElem u).ports = (curElem t).ports ∧ (curElem u).fault = (curElem s).fault ∧
      RunningChanged (curElem t) (curElem u) fun r q =>
        q.trigs = [] ∧ q.opnds = false ∧ q.mov = 0 ∧ q.bundle = (curRx s).bundle + 1 ∧ q.idx = (curRx s).idx + 1 ∧ q.done = m.eoh ∧
        q.outs = r.outs ∧ q.exd = r.exd ∧ q.inst = r.inst ∧
        ∃ k, q.ends = r.ends ++ [k] ∧ k.trigs = r.trigs ∧ k.ports = (curElem t).ports ∧ k.outs = r.outs ∧ k.idx = (curRx s).idx ∧
          k.mov = (curRx s).mov) ∧
    (∀ tile e rest r ys k, s.boot ≠ .shutdown → s.agenda = .stage tile e :: rest → Acts s tile → e < 32 →
      let set := (getTile s tile).active
      let x := elemOfSet (actSet s tile) e
      let en := enables (actSet s tile) e
      x.rxs = r :: ys → x.fault = none → r.half = false → r.since < tscOf s tile → r.exd < 4 → r.stage = r.exd + 2 → r.ends[r.exd]? = some k →
      ((k.trigs.find? fun q => causeOf en q != 0) = none → ys = [] → ∃ t, step s = .next t ∧
        (let y := elemOfSet (getSet t tile set) e
         y.rxs = [{ r with exd := r.exd + 1, stage := r.stage + 1, since := tscOf s tile }] ∧ y.fault = none ∧ y.ports = x.ports)) ∧
      (∀ q, (k.trigs.find? fun q => causeOf en q != 0) = some q → ∃ u f, step s = .next (raiseTrap u tile set
          (unitRec 0x14 2 0 ((slotOfElem (actSet s tile) e).getD 0) 0 0 f.w0 f.w1)) ∧
        (let y := elemOfSet (getSet u tile set) e
         y.fault = some f ∧ y.ports = k.ports ∧ y.inst = (ys.head?.map Reaction.inst).getD x.inst ∧
         ∃ z, y.rxs = [z] ∧ z.inst = r.inst ∧ z.bundle = r.exd ∧ z.done = false ∧ z.outs = k.outs ∧ z.trigs.head? = some q) ∧
        f.w0.extractLsb' 60 4 = BitVec.ofNat 4 (causeOf en q) ∧ f.w0.extractLsb' 55 5 = BitVec.ofNat 5 e ∧
        f.w0.extractLsb' 50 2 = BitVec.ofNat 2 r.exd ∧ f.w0.extractLsb' 48 2 = BitVec.ofNat 2 q.mov ∧
        f.w0.extractLsb' 40 3 = BitVec.ofNat 3 q.unit ∧ f.w0.extractLsb' 34 6 = BitVec.ofNat 6 q.fop ∧ f.w0.getLsbD 44 = false ∧
        f.w1 = BitVec.ofNat 64 (r.inst % 2 ^ 32)))

/-- R31, R96, R97, R99 to R109: what the triggers compute, lane by lane: the ALU, the multiplier, the special functions, the table, the
conversions, and the reduction unit with its steer, merge, accumulate and flush. -/
def Obligations.TriggersComputeOnTheirLanes : Prop :=
  ∀ (m : Mv) (s : State), Moves m s →
    let im := rxImage s (curRx s)
    let kon (l : Nat) : BitVec 32 := lane (imgConst im (m.imm.toNat % 8)) l
    let fl (x : BitVec 32) : Machine.Num := dec .f32 false x.toNat
    let imm := m.imm.toNat
    let sel := (List.range 16).filter fun l => laneSel m l
    (∀ i o r f, (i, o, r, f) ∈ floatTriggers m → (i = .mulFma m → m.lane ≠ .bcast) → OpType s m .f32 →
      Computes m s i r 32 0 fun l => rounded (f (fl (lane (port s o) l)) (fl (srcLane s m l)) (fl (kon l)))) ∧
    (∀ ty sg, (ty, sg) ∈ [(Ty.s32, true), (.z32, false)] → OpType s m ty →
      (∀ i o r f, (i, o, r, f) ∈ intTriggers m → (i = .mulFma m → m.lane ≠ .bcast) →
        Computes m s i r 32 0 fun l => bounded sg (f (num sg (lane (port s o) l)) (num sg (srcLane s m l)) (num sg (kon l)))) ∧
      (Computes m s (.mulDiv m) 3 32 0 fun l =>
        let a := num sg (lane (port s 2) l)
        let b := num sg (srcLane s m l)
        if b = 0 then (BitVec.ofInt 32 (if 0 ≤ a then greatest sg 32 else least sg 32), .dz) else bounded sg (Int.tdiv a b)) ∧
      (∀ i c, (i, c) ∈ compareTriggers m → Computes m s i 1 32 0 fun l =>
        (if intCond c (num sg (lane (port s 0) l)) (num sg (srcLane s m l)) then 0xFFFFFFFF else 0, .none)) ∧
      Reduces s (.redSum m) (bounded sg (sel.map fun l => num sg (srcLane s m l)).sum) ∧
      Reduces s (.redMin m) (BitVec.ofInt 32 ((sel.map fun l => num sg (srcLane s m l)).foldl min (greatest sg 32)), .none) ∧
      Reduces s (.redMax m) (BitVec.ofInt 32 ((sel.map fun l => num sg (srcLane s m l)).foldl max (least sg 32)), .none)) ∧
    (OpType s m .f32 →
      (∀ i c, (i, c) ∈ compareTriggers m → Computes m s i 1 32 0 fun l =>
        (if numCond c (fl (lane (port s 0) l)) (fl (srcLane s m l)) then 0xFFFFFFFF else 0, .none)) ∧
      (∀ i tab, (i, tab) ∈ sfuTriggers m → ∃ g : Nat → BitVec 32 × Cnd, Computes m s i 4 32 0 g ∧
        (∀ x r c l, (x, r, c) ∈ tab → l < 16 → srcLane s m l = x → g l = (r, c)) ∧
        ∀ l < 16, isNan32 (srcLane s m l) = true → g l = (0x7FC00000, .none)) ∧
      (m.lane ≠ .bcast → ∃ g : Nat → BitVec 32, Computes m s (.sfuLut m) 4 32 0 (fun l => (g l, .none)) ∧
        let y (n : Nat) : BitVec 32 := Tab.get 0 (Tab.get ⟨[], none⟩ (curTile s).luts (lutMap im (imm % 4))).entries n
        (∀ l < 16, isNan32 (srcLane s m l) = true → g l = 0x7FC00000) ∧
        ∀ x n, (x, n) ∈ [((0xFF800000 : BitVec 32), 0), (0x7F800000, 255), (0xC1000000, 0), (0, 128), (0x3F800000, 144), (0x41000000, 255)] →
          ∀ l < 16, srcLane s m l = x → g l = canonical (y n)) ∧
      (∀ n, m.src = .inp n → ∀ v, v = Tab.get InState.reset (curRx s).ins n →
        (v.sm = 0 → Computes m s (.mulMuls m) 3 32 0 fun l => (canonical (srcLane s m l), .none)) ∧
        (v.sm ≠ 0 → v.latched = true → Computes m s (.mulMuls m) 3 32 0 fun l => rounded (sv .f32 (srcLane s m l).toNat (v.codes.extractLsb' 0 8).toNat, .none)) ∧
        (v.sm ≠ 0 → v.latched = false → Signals s (.mulMuls m) 6 ∧ Signals s (.cvtDeq m) 6)) ∧
      (∀ ty : Ty, 1 ≤ ty.code → ty.code ≤ 6 → ∀ p < 8, m.lane ≠ .bcast → imm = ty.code + p * 16 → p * ty.width < 32 →
        Computes m s (.cvtQnt m) 5 ty.width (16 * p) fun l =>
          let code := ((Tab.get 0 (curRx s).before 7).extractLsb' (8 * ((16 * p + l) / 32)) 8).toNat
          if code = 0xFF then (BitVec.ofNat _ (canonNan ty), .none) else if code = 0 then (0, .none)
          else (let y := convert .f32 ty .rne true false (numDiv (fl (srcLane s m l)) (.real (scaleValue code))).1
                (BitVec.ofNat _ y.1, y.2))) ∧
      Reduces s (.redSum m) (rounded (numSum .rne (sel.map fun l => fl (srcLane s m l)))) ∧
      (∀ i hi, (i, hi) ∈ [(Instr.redMin m, false), (.redMax m, true)] → ∃ r, Reduces s i (r, .none) ∧
        ((∃ l ∈ sel, isNan32 (srcLane s m l) = true) → r = 0x7FC00000) ∧
        ((∀ l ∈ sel, isNan32 (srcLane s m l) = false) → (∃ l ∈ sel, r = srcLane s m l) ∧
          ∀ l ∈ sel, if hi then numCond .le (fl (srcLane s m l)) (fl r) = true else numCond .le (fl r) (fl (srcLane s m l)) = true)) ∧
      (∀ ty : Ty, 1 ≤ ty.code → ty.code ≤ 6 → ∀ j < 8, m.lane ≠ .bcast → imm = ty.code + j * 16 → ∃ t code, exec (.redScaleMax m) s = .next t ∧ MovedOn s t ∧
        (∀ k, k ≠ 7 → port t k = port s k) ∧
        (∀ e < 64, (port t 7).extractLsb' (8 * e) 8 = if e = j then BitVec.ofNat 8 code else (port s 7).extractLsb' (8 * e) 8) ∧
        ((∀ l ∈ sel, ∀ x, fl (srcLane s m l) ≠ .real x) → code = 0x7C) ∧
        (∀ k ∈ sel, ∀ x, fl (srcLane s m k) = .real x → (∀ l ∈ sel, ∀ y, fl (srcLane s m l) = .real y → |ratio y| ≤ |ratio x|) →
          code = encScale (.real (fracDiv (fracAbs x) (maxF ty))) .rup))) ∧
    (∀ ty : Ty, ty ∉ [.f32, .s32, .z32] → OpType s m ty → ∀ i ∈ moveForms.drop 3,
      i m ∉ (rawTriggers m).map (fun x => x.1) ++ [.cvtCvt m, .cvtDeq m, .redCnt m, .redMerge m, .mulMuls m] → Signals s (i m) 7) ∧
    (∀ i o r f, (i, o, r, f) ∈ rawTriggers m → (i = .aluSel m → m.lane ≠ .bcast) →
      Computes m s i r 32 0 fun l => (f (lane (port s o) l) (srcLane s m l) (kon l), .none)) ∧
    (∀ src dst : Ty, OpType s m src → ∀ p < 8, m.lane ≠ .bcast → imm = dst.code + p * 16 →
      ((src.width = 32 ∨ p * src.width < 32) → (dst.width = 32 ∨ p * dst.width < 32) →
        Computes m s (.cvtCvt m) 5 dst.width (if dst.width = 32 then 0 else 16 * p) fun l =>
          let v := dec src false (if src.width = 32 then (srcLane s m l).toNat else ((srcValue s m).extractLsb' (src.width * (16 * p + l)) src.width).toNat)
          let y := convert src dst .rne true false v
          (BitVec.ofNat _ y.1, if v = .nar then .nar else y.2)) ∧
      (src.width ≠ 32 ∧ 32 ≤ p * src.width ∨ dst.width ≠ 32 ∧ 32 ≤ p * dst.width → Signals s (.cvtCvt m) 7)) ∧
    (∀ n (src : Ty) p v, m.src = .inp n → v = Tab.get InState.reset (curRx s).ins n → v.ty = src.code → p < 8 → m.lane ≠ .bcast → imm = p * 16 →
      (src.width = 32 ∨ p * src.width < 32) → (v.sm = 0 ∨ v.latched = true) →
      Computes m s (.cvtDeq m) 5 32 0 fun l =>
        let e := (if src.width = 32 then 0 else 16 * p) + l
        let x := ((srcValue s m).extractLsb' (src.width * e) src.width).toNat
        let y := convert src .f32 .rne true false (if v.sm = 0 then dec src false x else sv src x (v.codes.extractLsb' (8 * (e / 32)) 8).toNat)
        (BitVec.ofNat _ y.1, if dec src false x = .nar then .nar else y.2)) ∧
    Reduces s (.redCnt m) (BitVec.ofNat 32 (sel.countP fun l => srcLane s m l != 0), .none) ∧
    (m.lane ≠ .bcast →
      let key := chanKey s.focus.set s.focus.elem (imm % 8)
      let q := (chanOf (curTile s) key).held ++ (if (curRx s).stat.getD (imm % 8) false then [Tab.get 0 (curRx s).items (imm % 8)] else [])
      let ctl := srcLane s m 0
      (∀ v rest, (ctl = 0 ∧ v = port s 7 ∧ rest = q ∨ ctl = 1 ∧ v = port s 6 ∧ rest = q ∨ ctl = 2 ∧ q = v :: rest) →
        ∃ t, exec (.redMerge m) s = .next t ∧ MovedOn s t ∧ (chanOf (curTile t) key).held = rest ∧ (curRx t).merge = none ∧
          ((curRx s).merge = some (imm % 8) → (chanOf (curTile t) key).kept = (chanOf (curTile s) key).kept - 1) ∧ (∀ k, k ≠ 7 → port t k = port s k) ∧
          ∀ l < 16, lane (port t 7) l = if laneSel m l then lane v l else lane (port s 7) l) ∧
      (ctl.toNat > 2 ∨ ctl = 2 ∧ q = [] → Signals s (.redMerge m) 8 ∧ ∃ t, exec (.redMerge m) s = .next t ∧ (curTile t).chans = (curTile s).chans))

/-! ### The matrix engine's rows, slabs, signals and misses -/

namespace Sys2Proof.Claim

/-- The tokens of queue `q` once a signal has been raised (R200, R235). -/
def signalled (sig : Option TokenRef) (q n : Nat) : Nat :=
  match sig with
  | some g => if g.queue.toNat = q then Nat.min 15 (n + (g.less1.toNat + 1)) else n
  | none => n

/-- Every token queue of a set holds what it held, with a signal raised. -/
def SignalRaised (c d : CtxSet) (sig : Option TokenRef) : Prop := ∀ q, Tab.get 0 d.tok q = signalled sig q (Tab.get 0 c.tok q)

/-- A miss of the matrix engine is raised (R211, R212): the engine is stopped, and thread RPSNAP0.THR takes the cause with its detail; without
a snapshot the cause is 0x12. -/
def MissRaised (s : State) (tile cause pos target row reason : Nat) (o : Host.Outcome State Fault Refusal) : Prop :=
  let set := (getTile s tile).active
  let c := actSet s tile
  ∃ u r, o = .next (raiseTrap u tile set r) ∧ (engState (getSet u tile set) 0).faulted = true ∧ (getSet u tile set).threads = c.threads ∧
    r.cause = (if c.rpsnap.valid then cause else 0x12) ∧ r.src = 1 ∧ r.unit = 0 ∧ r.pos = pos ∧ r.det1 = 0 ∧
    (c.rpsnap.valid = true → r.thr = c.rpsnap.thr) ∧ r.det0.extractLsb' 32 32 = BitVec.ofNat 32 target ∧
    r.det0.extractLsb' 20 11 = BitVec.ofNat 11 row ∧ r.det0.extractLsb' 4 16 = BitVec.ofNat 16 pos ∧ r.det0.extractLsb' 0 4 = BitVec.ofNat 4 reason ∧
    r.det0.getLsbD 31 = false

/-- The only command that the matrix engine of a set has between issue and its last write stands on a port: 0 west, 2 drain, 3 clear. -/
def Alone (m : MeState) (port : Nat) (r : MeRun) : Prop :=
  m.west = (if port = 0 then some r else none) ∧ m.load = none ∧ m.drain = (if port = 2 then some r else none) ∧
  m.clear = (if port = 3 then some r else none) ∧ m.done = [] ∧ m.back = [] ∧ m.again = []

/-- The accumulator words of `n` columns from a row and column of a set on take what `f` gives for each; the others keep theirs. -/
def AccWords (s t : State) (tile : Nat) (c : CtxSet) (row col n : Nat) (f : Nat → BitVec 32 → BitVec 32) : Prop :=
  ∀ k, let first := accKey c row col
    Tab.get 0 (getTile t tile).acc k =
      if first ≤ k ∧ k < first + n then f (k - first) (Tab.get 0 (getTile s tile).acc k) else Tab.get 0 (getTile s tile).acc k

end Sys2Proof.Claim

/-- R197 to R201, R204, R207 to R209, R211, R212: the rows of a command enter one a step. A clear's row zeroes its words at once; an integer
MMA's row holds its exact products and reaches the accumulator 137 or 138 steps later; a drain's row is read, and stored or delivered 8 or 2
steps later. A slab that has loaded stands in the shadow registers; a command leaves its port after its last row; signals come at their
points; a STRICT command that cannot issue, or whose row cannot enter, raises a schedule miss, and one that came late a stale-stamp miss. -/
def Obligations.MatrixRowsSlabsSignalsAndMisses : Prop :=
  ∀ (s : State) (tile : Nat),
    let set := (getTile s tile).active
    let c := actSet s tile
    let tsc := tscOf s tile
    let due (r : MeRun) : Prop := Acts s tile ∧ r.due ≤ tsc ∧ r.row < r.total ∧ r.outs = [] ∧ canCharge s tile (nextQuanta (getTile s tile) r) = true
    let entered (t : State) (r : MeRun) : Prop := (getTile t tile).pool = (getTile s tile).pool - nextQuanta (getTile s tile) r
    (∀ rest r, s.boot ≠ .shutdown → s.agenda = .meRow tile 3 :: rest → c.me.clear = some r → r.eop = 5 → due r → accessBlocked c.me tsc r r.row = false →
      ∃ t q, step s = .next t ∧ entered t r ∧ AccWords s t tile c (meAccb r.arg + r.row) (runShape r).acol (runShape r).n (fun _ _ => 0) ∧
        (getSet t tile set).me.clear = some q ∧ q.row = r.row + 1 ∧ q.due = tsc + 1 ∧ q.acc = r.row + 1 ∧ q.last = tsc) ∧
    (∀ rest r b ty, s.boot ≠ .shutdown → s.agenda = .meRow tile 0 :: rest → c.me.west = some r → r.eop = 2 → due r →
      rowBad (getTile s tile) c r = none → r.slab = some b → b.k = (runShape r).k →
      (runShape r).src = true → Ty.ofCode (runShape r).ta = some ty → ty ∈ [.s8, .s4] → Ty.ofCode (runShape r).tb = some ty →
      ∃ t q, step s = .next t ∧ entered t r ∧ (getTile t tile).acc = (getTile s tile).acc ∧ (getSet t tile set).me.west = some q ∧
        q.row = r.row + 1 ∧ q.due = tsc + 1 ∧
        (let h := runShape r
         let lag := (if ty = .s8 then 137 else 138) + if h.sma ≠ 0 ∨ h.smb ≠ 0 then 2 else 0
         let x (k : Nat) : Int := (BitVec.ofNat ty.width ((rowOfA s (getTile s tile) c set h r.row).1.getD k 0)).toInt
         let y (k j : Nat) : Int := (BitVec.ofNat ty.width (Tab.get 0 b.elems (k * 128 + j))).toInt
         let sum (j : Nat) : Int := ((List.range h.k).map fun k => (if r.arg.getLsbD 0 then -x k else x k) * (if r.arg.getLsbD 1 then -y k j else y k j)).sum
         q.rows = r.rows ++ [⟨r.row, tsc + lag, (List.range h.n).map sum⟩])) ∧
    (∀ rest r x xs, s.boot ≠ .shutdown → s.agenda = .meRow tile 4 :: rest → Acts s tile → Alone c.me 0 r → r.eop = 2 ∨ r.eop = 3 → r.rows = x :: xs →
      r.outs = [] → r.held = false →
      (tsc < x.at_ → ∃ t, step s = .next t ∧ (getTile t tile).acc = (getTile s tile).acc ∧ (getSet t tile set).me = c.me) ∧
      (x.at_ ≤ tsc → accRowBad (getTile s tile) c r x.row = false → ∃ t q, step s = .next t ∧ (getSet t tile set).me.west = some q ∧ q.rows = xs ∧
        q.row = r.row ∧ q.acc = x.row + 1 ∧ q.last = tsc ∧
        (let row := meAccb r.arg + x.row
         Tab.get 0 (getSet t tile set).me.touch row =
           (if Tab.get 0 c.me.touch row ≠ 0 then Tab.get 0 c.me.touch row else if r.arg.getLsbD 2 then 1 else 2) ∧
         AccWords s t tile c row (runShape r).acol (runShape r).n fun j old =>
           let v := x.vals.getD j 0
           if runInts r then
             (let total := (if r.arg.getLsbD 2 then 0 else old.toInt) + v
              BitVec.ofInt 32 (if r.arg.getLsbD 4 then clamp true 32 total else total))
           else if r.arg.getLsbD 2 then BitVec.ofNat 32 v.toNat
           else BitVec.ofNat 32 (f32Rne (r.arg.getLsbD 4) (numAdd .rne (dec .f32 false v.toNat) (dec .f32 false old.toNat)).1)))) ∧
    (∀ rest r, s.boot ≠ .shutdown → s.agenda = .meRow tile 2 :: rest → c.me.drain = some r → r.eop = 4 → due r → accessBlocked c.me tsc r r.row = false →
      rowBad (getTile s tile) c r = none → (runShape r).src = true ∨ drainConfigured (getTile s tile) c r = true →
      ∃ t q, step s = .next t ∧ entered t r ∧ (getTile t tile).acc = (getTile s tile).acc ∧ (getSet t tile set).me.drain = some q ∧ q.row = r.row + 1 ∧
        (let h := runShape r
         q.outs.head? = some ⟨r.row, tsc + (if h.src then 8 else 2), (List.range h.n).map fun j => (accWord (getTile s tile) c (meAccb r.arg + r.row) (h.acol + j) : Int)⟩)) ∧
    (∀ r, c.me.load = some r →
      let h := runShape r
      let units := (h.k * h.n * codeWidth h.tb + 2047) / 2048
      let ready := if h.src then Nat.max (r.ent + 9) (r.issue + 8 + units) else Nat.max (r.ent + 2) (r.issue + units)
      (edgeNow s tile = true → r.total ≤ r.row → ready ≤ tsc → ∃ t, exec (.slabReady tile) s = .next t ∧
        (let d := getSet t tile set
         d.me.load = none ∧ d.me.shadow = r.slab ∧ d.me.fresh = true ∧ d.me.active = c.me.active ∧ SignalRaised c d r.sig)) ∧
      ((r.row < r.total ∨ tsc < ready) → exec (.slabReady tile) s = .next s)) ∧
    (∀ r, c.me.west = some r → c.me.back = [] → r.row = r.total → r.ent < tsc → ∃ t, exec (.engineSignal tile 0) s = .next t ∧ (getSet t tile set).me.west = none) ∧
    (∀ r g, c.me.done = [r] → c.me.west = none → c.me.load = none → c.me.drain = none → c.me.clear = none → c.me.back = [] → c.me.again = [] → r.sig = some g →
      r.row = r.total →
      let over_ : Prop := r.eop = 1 ∨ r.rows = [] ∧ (∀ x ∈ r.outs, (runShape r).m ≤ x.row) ∧ r.last < tsc
      ((if r.arg.getLsbD 3 then over_ else r.ent < tsc) → ∃ t, exec (.engineSignal tile 0) s = .next t ∧ SignalRaised c (getSet t tile set) r.sig ∧
        (over_ → r.outs = [] → (getSet t tile set).me.done = []) ∧ (¬ over_ ∨ r.outs ≠ [] → (getSet t tile set).me.done = [{ r with sig := none }])) ∧
      (r.arg.getLsbD 3 = true → ¬ over_ → ∃ t, exec (.engineSignal tile 0) s = .next t ∧ (getSet t tile set).tok = c.tok ∧ (getSet t tile set).me.done = [r])) ∧
    (∀ side < 2, ∀ slot p, sideRegion c side = some slot → pendOf (regionOf c slot) side = some p → p.reached = true →
      (∀ j < 16, let e := elemOfSet c (16 * side + j)
        e.finished = true ∨ e.swTag = none ∨ e.swOwed = [] ∧ ∃ f pl, e.swTag = some (f, pl) ∧ f ≤ e.emitted) →
      ∃ t, exec (.engineSignal tile (side + 1)) s = .next t ∧
        (let d := getSet t tile set
         SignalRaised c d p.sig ∧ pendOf (regionOf d slot) side = none ∧ (if side = 0 then (regionOf d slot).pe else (regionOf d slot).px) = p.plane ∧
         ∀ j < 16, (elemOfSet d (16 * side + j)).swTag = none)) ∧
    (Acts s tile → (engState c 0).faulted = false →
      (∀ r, c.me.west = some r → r.strict = true → r.loose = false → 0 < r.row → r.row < r.total → r.due ≤ tsc → r.outs = [] → (runShape r).src = true →
        canCharge s tile (nextQuanta (getTile s tile) r) = false → MissRaised s tile 0x10 r.pos r.target r.row 8 (exec (.timingTrap tile) s)) ∧
      (let s0 : State := { s with focus := ⟨tile, set, 0, 0, 0⟩ }
       let cap := capturedAt c 0 (ringHead c 0)
       let target := targetOf s0
       let since := Nat.max (engState c 0).free (cap.at_ + 1)
       ∀ eop cmd, meHead s0 = some (eop, cmd) → cap.elastic = false → cap.retry = false →
        (∀ x, c.me.west = none → c.me.drain = none → c.me.clear = none → since ≤ target → target = tsc → headOrdered s0 0 0 = true →
          issueReason eop cmd s0 = some x → MissRaised s tile 0x10 (ringHead c 0) target 0 x (exec (.timingTrap tile) s)) ∧
        (target < since → target < tsc → MissRaised s tile 0x11 (ringHead c 0) target 0 1 (exec (.staleStampMiss tile) s))))

/-! ### Elements -/

namespace Sys2Proof.Claim

/-- What a reaction writes to an output, kind and payload of each entry (R70, R78, R80, R98): the SCALE of a scale move, then END, a data item
or an absence mark. -/
def reactionEntries (rx : Reaction) (o : Nat) : List (BitVec 3 × BitVec 512) :=
  let side : List (BitVec 3 × BitVec 512) := match Tab.find? rx.scales o with | some p => [(5, p.setWidth 512)] | none => []
  let inst : BitVec 3 × BitVec 512 :=
    if rx.kind = .finishing then (2, 0) else match Tab.find? rx.outs o with | some v => (1, v) | none => (0, 0)
  side ++ [inst]

/-- Kind and payload of the entries of a channel. -/
def entries (c : Chan) : List (BitVec 3 × BitVec 512) := c.q.map fun e => (e.kind, e.payload)

/-- A channel's entry that stands at stage 1 of an input whose status is not known: it has been there since an earlier step (R66, R71). -/
def AtInput (s : State) (tile elem inp : Nat) (x : Entry) (rest : List Entry) : Prop :=
  let set := (getTile s tile).active
  let ch := chanOf (getTile s tile) (chanKey set elem inp)
  let v := inState (elemOfSet (actSet s tile) elem) inp
  mayArrive s tile set elem inp = true ∧ inDly (imageNow s tile set elem) inp = false ∧ v.seen = false ∧ v.taken = none ∧
  ch.q = x :: rest ∧ (arrivedIn s.dcc ch).head? = some x

/-- A reaction begins (R75, R76, R82): it stands in stage 2, its element's instant rises, each entry at stage 1 leaves its channel and each
other is to be drained; END does not leave. -/
def ReactionBegins (s t : State) (tile elem : Nat) (kind : RxKind) (done : Bool) : Prop :=
  let set := (getTile s tile).active
  let im := imageNow s tile set elem
  let e := elemOfSet (actSet s tile) elem
  let d := elemOfSet (getSet t tile set) elem
  ∃ rx, d.rxs = e.rxs ++ [rx] ∧ rx.kind = kind ∧ rx.inst = e.inst ∧ rx.done = done ∧ rx.bundle = 0 ∧ rx.stage = 2 ∧ rx.since = tscOf s tile ∧
    rx.half = halfWidth (getTile s tile) (tscOf s tile) ∧ d.inst = e.inst + 1 ∧ d.ports = e.ports ∧
    (∀ i < 8, rx.stat.getD i false = (inStatus (getTile s tile) set elem im e i == 1)) ∧
    ∀ i ∈ connected im, inDly im i = false →
      let v := inState e i
      let q := (chanOf (getTile s tile) (chanKey set elem i)).q
      let q' := (chanOf (getTile t tile) (chanKey set elem i)).q
      let w := inState d i
      if v.ended then q' = q
      else if (v.seen = true ∨ v.taken.isSome = true) ∧ v.drain = 0 then
        (q.head?.map Entry.kind = some 2 → q' = q) ∧
        (q.head?.map Entry.kind ≠ some 2 → q' = q.tail ∧ w.seen = false ∧ w.taken = none ∧ w.cnt = v.cnt + 1 ∧
          ∀ x, q.head? = some x → rx.stat.getD i false = true → Tab.get 0 rx.items i = x.payload)
      else q' = q ∧ w.drain = v.drain + 1

/-- A stage-1 fault of an input: its cause, and INST is the instant of the entry (R71, R115). -/
def Stage1Faults (s : State) (tile elem inp cause inst : Nat) : Prop :=
  let set := (getTile s tile).active
  ∃ u f, exec (.entryArrival tile elem inp) s = .next (raiseTrap u tile set (unitRec 0x14 2 0 ((slotOfElem (actSet s tile) elem).getD 0) 0 0 f.w0 f.w1)) ∧
    (elemOfSet (getSet u tile set) elem).fault = some f ∧ f.stg1 = true ∧ f.inp = inp ∧ f.w0.extractLsb' 60 4 = BitVec.ofNat 4 cause ∧
    f.w0.extractLsb' 55 5 = BitVec.ofNat 5 elem ∧ f.w0.extractLsb' 45 3 = BitVec.ofNat 3 inp ∧ f.w0.getLsbD 44 = true ∧
    f.w1 = BitVec.ofNat 64 (inst % 2 ^ 32) ∧ chanOf (getTile u tile) (chanKey set elem inp) = chanOf (getTile s tile) (chanKey set elem inp)

end Sys2Proof.Claim

/-- R56 to R59, R66, R71, R72, R75 to R80, R98, R110, R115, R223, R326: stage 1 takes what stands at an input, and its status reaches stage 2; the
highest-ranked possible handler fires, the default reaction runs where every handler is contradicted, and the finishing reaction once every
input has ended; the oldest reaction emits its entries from stage 6; owed SWITCH entries and the records of a snapshot are written. -/
def Obligations.ElementEventsFollowTheSelectionRule : Prop :=
  ∀ (s : State) (tile elem : Nat),
    let set := (getTile s tile).active
    let c := actSet s tile
    let e := elemOfSet c elem
    let im := imageNow s tile set elem
    let st := inStatus (getTile s tile) set elem im e
    let tsc := tscOf s tile
    (∀ inp x rest, AtInput s tile elem inp x rest →
      let v := inState e inp
      let key := chanKey set elem inp
      (v.ended = false → entryGood x = true → (x.kind = 4 → headerOk (x.payload.toNat % 2 ^ 64) = true) → (x.kind = 5 → v.sm ≠ 0) →
        ∃ t, exec (.entryArrival tile elem inp) s = .next t ∧ t.mem = s.mem ∧
          (let w := inState (elemOfSet (getSet t tile set) elem) inp
           let q := (chanOf (getTile t tile) key).q
           (x.kind.toNat < 2 ∧ v.drain = 0 ∨ x.kind = 2 → w = { v with taken := some (if halfWidth (getTile s tile) tsc then tsc + 2 else tsc + 1) } ∧ q = x :: rest) ∧
           (x.kind.toNat < 2 → 0 < v.drain → w.drain = v.drain - 1 ∧ w.seen = false ∧ w.taken = none ∧ w.cnt = v.cnt + 1 ∧ q = rest) ∧
           (x.kind = 4 → w.ty = (x.payload.extractLsb' 60 4).toNat ∧ w.sm = (x.payload.extractLsb' 58 2).toNat ∧ w.len = (x.payload.extractLsb' 32 16).toNat ∧
             w.seen = false ∧ w.cnt = v.cnt ∧ q = rest) ∧
           (x.kind = 5 → w = { v with codes := x.payload.setWidth 64, latched := true } ∧ q = rest) ∧
           (x.kind = 6 → w = v ∧ q = x :: rest ∧ inp ∈ (elemOfSet (getSet t tile set) elem).cairnIn) ∧
           (x.kind = 7 → w = v ∧ q = rest))) ∧
      (e.fault = none → v.ended = false → entryGood x = false → Stage1Faults s tile elem inp 5 v.cnt) ∧
      (e.fault = none → v.ended = false → entryGood x = true → (x.kind = 4 ∧ headerOk (x.payload.toNat % 2 ^ 64) = false ∨ x.kind = 5 ∧ v.sm = 0) →
        Stage1Faults s tile elem inp 6 v.cnt) ∧
      (∀ y, e.fault = none → v.ended = true → (arrivedIn s.dcc (chanOf (getTile s tile) key))[1]? = some y → (entryGood y = false ∨ y.kind.toNat < 4) →
        Stage1Faults s tile elem inp 5 (v.cnt + 1))) ∧
    (∀ rest, s.boot ≠ .shutdown → s.agenda = .stage tile elem :: rest → Acts s tile → e.rxs = [] → ∃ t, step s = .next t ∧
      ∀ i ∈ connected im,
        let v := inState e i
        let w := inState (elemOfSet (getSet t tile set) elem) i
        (v.taken = none → w = v) ∧
        ∀ n, v.taken = some n →
          w = if tsc < n then v
            else if (headEntry (getTile s tile) set elem im e i).map Entry.kind = some 2 then { v with taken := none, drain := 0, ended := true }
            else { v with taken := none, seen := true }) ∧
    (maySelect s tile set elem = true → planeBad s tile set elem = false →
      (∀ h, topHandler im st = some h →
        let cost := if e.paid = some e.inst then 0 else hCost im h (getTile s tile).effL
        (allEnded im e = false → mayDrain im e = true → satisfied im st h = true → roomFor s tile set elem im (some h) = true → canCharge s tile cost = true →
          ∃ t, exec (.handlerFire tile elem) s = .next t ∧ ReactionBegins s t tile elem (.handler h) false ∧ (getTile t tile).pool = (getTile s tile).pool - cost) ∧
        ((satisfied im st h = false ∨ roomFor s tile set elem im (some h) = false ∨ canCharge s tile cost = false) → exec (.handlerFire tile elem) s = .next s)) ∧
      (allEnded im e = false → (∀ i ∈ connected im, st i ≠ 0) → topHandler im st = none → roomFor s tile set elem im none = true →
        ∃ t, exec (.defaultReaction tile elem) s = .next t ∧ ReactionBegins s t tile elem .dflt true ∧ (getTile t tile).pool = (getTile s tile).pool) ∧
      (allEnded im e = true → roomFor s tile set elem im none = true →
        ((∀ i < 8, (chanOf (getTile s tile) (chanKey set elem i)).held = []) →
          ∃ t, exec (.finishingReaction tile elem) s = .next t ∧ ReactionBegins s t tile elem .finishing true) ∧
        (∀ i < 8, (chanOf (getTile s tile) (chanKey set elem i)).held ≠ [] → (∀ j < i, (chanOf (getTile s tile) (chanKey set elem j)).held = []) →
          ∃ u f, exec (.finishingReaction tile elem) s = .next (raiseTrap u tile set (unitRec 0x14 2 0 ((slotOfElem (getSet u tile set) elem).getD 0) 0 0 f.w0 f.w1)) ∧
            (elemOfSet (getSet u tile set) elem).fault = some f ∧ f.w0.extractLsb' 60 4 = 8 ∧ f.w0.getLsbD 43 = true ∧ f.w0.extractLsb' 45 3 = BitVec.ofNat 3 i))) ∧
    (∀ rx younger, e.rxs = rx :: younger → rx.done = true → rx.stage = 6 → 4 ≤ rx.exd → rx.since + (if rx.half then 1 else 0) ≤ tsc →
      (reactionFault e = false ∨ younger ≠ []) → Acts s tile → e.swTag = none →
      let im := imageOf (getTile s tile) elem rx.plane
      (∀ o ∈ outputs im, (reactionEntries rx o).length ≤ outFree s tile set im elem o) →
      ∃ t, exec (.reactionEmit tile elem) s = .next t ∧ t.mem = s.mem ∧
        (let d := elemOfSet (getSet t tile set) elem
         d.rxs = younger ∧ d.emitted = rx.inst + 1 ∧ d.finished = (rx.kind == .finishing) ∧ d.ports = e.ports) ∧
        ∀ o ∈ outputs im, ∀ u key, outTarget s tile set im elem o = some (u, key) →
          (∀ x ∈ outputs im, x ≠ o → outTarget s tile set im elem x ≠ some (u, key)) →
          entries (chanOf (getTile t u) key) = entries (chanOf (getTile s u) key) ++ reactionEntries rx o) ∧
    (∀ rx younger, e.rxs = rx :: younger → (rx.done = false ∨ rx.stage < 6) → exec (.reactionEmit tile elem) s = .next s) ∧
    (∀ out p f pl, (e.swOwed.find? fun x => x.1 == out) = some p → e.swTag = some (f, pl) → edgeNow s tile = true → f ≤ e.emitted →
      let im := imageOf (getTile s tile) elem (planeOf c elem)
      1 ≤ outFree s tile set im elem out →
      ∃ t, exec (.switchEntryWrite tile elem out) s = .next t ∧ (elemOfSet (getSet t tile set) elem).swOwed = e.swOwed.erase p ∧
        ∀ u key, outTarget s tile set im elem out = some (u, key) →
          entries (chanOf (getTile t u) key) = entries (chanOf (getTile s u) key) ++ [(7, p.2.setWidth 512)]) ∧
    (∀ n g, graphOf s tile set = some (n, g) → recordReady s tile set elem g = true →
      ∃ t, exec (.cairnRecord tile elem) s = .next t ∧
        (∃ x, Tab.find? t.graphs n = some x ∧ tile * 32 + elem ∈ x.elems) ∧
        (∀ i ∈ connected im, (chanOf (getTile t tile) (chanKey set elem i)).shut = true) ∧
        ∀ o ∈ cairnOuts s tile set elem im, ∀ u key, outTarget s tile set im elem o = some (u, key) →
          (∀ x ∈ cairnOuts s tile set elem im, x ≠ o → outTarget s tile set im elem x ≠ some (u, key)) →
          (∀ i ∈ connected im, (u, key) ≠ (tile, chanKey set elem i)) →
          ∃ w : BitVec 64, entries (chanOf (getTile t u) key) = entries (chanOf (getTile s u) key) ++ [(6, w.setWidth 512)] ∧
            w.extractLsb' 32 32 = BitVec.ofNat 32 g.k ∧ w.extractLsb' 16 16 = BitVec.ofNat 16 g.ident)

/-! ### Regions, ports, loads, monitors, swaps and snapshots -/

namespace Sys2Proof.Claim

/-- A trap of a unit is raised in the active set of a tile. -/
def UnitTraps (u : State) (tile set cause unit slot pos : Nat) (o : Host.Outcome State Fault Refusal) : Prop :=
  ∃ r, o = .next (raiseTrap u tile set r) ∧ r.cause = cause ∧ r.unit = unit ∧ r.slot = slot ∧ r.pos = pos

/-- What a port's source or sink channel has gained at its end. -/
def Appended (s t : State) (tile key : Nat) (es : List (BitVec 3 × BitVec 512)) : Prop :=
  entries (chanOf (getTile t tile) key) = entries (chanOf (getTile s tile) key) ++ es

end Sys2Proof.Claim

/-- R81, R87, R91 to R95, R119, R122, R220, R223, R226, R229 to R231, R246, R247, R274, R323, R324, R326, R329, R390: a load that passes its checks makes
its plane valid, and one that fails raises a configuration fault; a SWITCH's tag reaches its side, or is late; a region retires once its sinks
have ended, and its completion store, fire entry and signal follow; ports deliver and take entries; the monitor stops a region on a cycle of
waits, or its capacity cycle is resolved with a scree segment; held records are presented; sets are exchanged; snapshots complete and graphs
return. -/
def Obligations.RegionAndTileEventsTakeEffect : Prop :=
  ∀ (s : State) (tile : Nat),
    let t0 := getTile s tile
    let set := t0.active
    let c := actSet s tile
    let tsc := tscOf s tile
    (Acts s tile →
      (∀ l, c.load = some l →
        let k := l.side * 2 + l.pl
        let stop := l.issue + (8 * l.words + 511) / 512 + 16
        (l.bad = none → loadRead l = true → stop ≤ tsc → ∃ t p, exec (.loadEnd tile) s = .next t ∧ Tab.find? (getTile t tile).planes k = some p ∧
          p.valid = true ∧ p.bad = false ∧ (∀ j < 16, Tab.get ⟨[], []⟩ p.imgs j = loadImage l j) ∧
          (∀ n < 16, (Tab.get (0 : BitVec 64) l.dirw 16).getLsbD n = true →
            (Tab.get ⟨[], none⟩ (getTile t tile).luts n) = ⟨Tab.get [] l.luts n, some set⟩) ∧
          (getSet t tile set).load = none ∧ SignalRaised c (getSet t tile set) l.sig) ∧
        (l.bad = none → (loadRead l = false ∨ tsc < stop) → exec (.loadEnd tile) s = .next s) ∧
        (∀ f off, l.bad = some (f, off) → ∃ u r, exec (.loadEnd tile) s = .next (raiseTrap u tile set r) ∧ r.cause = 0x17 ∧ r.src = 1 ∧ r.unit = 3 ∧ r.pos = l.pos ∧
          r.addr.toNat = off % 2 ^ 56 ∧ r.det0 = f ∧ (getSet u tile set).load = none ∧ SignalRaised c (getSet u tile set) l.sig ∧ (getTile u tile).planes = t0.planes)) ∧
      (∀ side < 2, ∀ slot p, sideRegion c side = some slot → pendOf (regionOf c slot) side = some p → p.reached = false →
        p.issue + 2 ≤ tsc →
        ((∀ j < 16, pastTag (elemOfSet c (16 * side + j)) p.tag = false) → ∃ t, exec (.switchTagArrival tile side) s = .next t ∧
          (let d := getSet t tile set
           ringHead d (side + 1) = (ringHead c (side + 1) + 1) % 2 ^ 16 ∧ pendOf (regionOf d slot) side = some { p with reached := true } ∧
           ∀ j < 16, (elemOfSet c (16 * side + j)).finished = false → ∃ f, (elemOfSet d (16 * side + j)).swTag = some (f, p.plane) ∧
             (elemOfSet c (16 * side + j)).inst ≤ f ∧ f % 2 ^ 32 = (p.tag + 1) % 2 ^ 32 ∧ f < (elemOfSet c (16 * side + j)).inst + 2 ^ 32)) ∧
        ((∃ j < 16, pastTag (elemOfSet c (16 * side + j)) p.tag = true) → ∃ u, exec (.switchTagArrival tile side) s = .next (commandFault u (side + 1) 5) ∧
          pendOf (regionOf (getSet u tile set) slot) side = none)) ∧
      (∀ slot < 4, let g := regionOf c slot
        (g.abort = none → g.st = .running → g.sinks ≠ [] → (∀ k ∈ g.sinks, k.1 ∈ g.ends) → ∃ t, exec (.regionRetire tile slot) s = .next t ∧
          (regionOf (getSet t tile set) slot).st = .retiring ∧ ∀ n, n ≠ slot → regionOf (getSet t tile set) n = regionOf c n) ∧
        (g.abort = none → (∃ k ∈ g.sinks, k.1 ∉ g.ends) → exec (.regionRetire tile slot) s = .next s) ∧
        (g.st = .retiring → g.noStore = false → parkedOn s (.region tile set slot) = false → recordStands c (fun r => r.src == 3 && r.slot == slot) = false →
          (∀ pa m, g.stored = none → regionWritesDone s tile set slot g.cscope = true → g.caddr.toNat % 8 = 0 → g.caddr.toNat < apertureBase →
            translate s tile (c.ctx.getD 0) [] g.caddr.toNat = .hit pa m → m.w = true → kindOk .plain 8 (placeOf pa) m = true →
            ∃ t q, exec (.regionCompletionStore tile slot) s = .next t ∧ t.reqs = s.reqs ++ [q] ∧ q.id = s.serial ∧ q.op = .store ∧ q.loc = .mem pa ∧
              q.size = 8 ∧ q.val = g.cval ∧ q.scope = g.cscope ∧ q.rel = true ∧ q.agent = .region tile set slot ∧
              (regionOf (getSet t tile set) slot).stored = some s.serial) ∧
          (g.stored = none → regionWritesDone s tile set slot g.cscope = false → exec (.regionCompletionStore tile slot) s = .next s) ∧
          (∀ id, g.stored = some id → performedId s (.region tile set slot) g.cscope id = true →
            (g.flv = true → g.sent = none → performedId s (.region tile set slot) 3 id = true →
              (∀ i ∈ regionStores s tile set slot, performedId s (.region tile set slot) 3 i = true) →
              ∃ t, exec (.regionCompletionStore tile slot) s = .next t ∧ t.fires = s.fires ++ [⟨s.serial, g.fl.toNat, g.cval.setWidth 32⟩] ∧
                (regionOf (getSet t tile set) slot).sent = some s.serial) ∧
            ((g.flv = false ∧ g.sent = none ∨ ∃ n, g.sent = some n ∧ ∀ f ∈ s.fires, f.id ≠ n) → g.swe = none → g.swx = none → ∃ t, exec (.regionCompletionStore tile slot) s = .next t ∧
              (let x := regionOf (getSet t tile set) slot
               x.st = .free ∧ x.front = g.front ∧ x.pe = g.pe ∧ x.px = g.px ∧ SignalRaised c (getSet t tile set) g.sig))))) ∧
      (∀ port < 4, ∀ x e i, portIn c port = some x → sourceReader t0 c (16 + port) = some (e, i) →
        let key := chanKey set e i
        elemRuns c e = true → x.ended = false → x.closing = false → indexesOther c port = false → chanFree (chanOf t0 key) ≠ 0 → graphOf s tile set = none →
        spbSpace x.spb ≠ 2 →
        (∀ codes v, spbSmode x.spb = 0 → x.pos < portItems x.spb → Tab.find? x.ahead (2 * x.pos + 1) = some codes → Tab.find? x.ahead (2 * x.pos) = some v →
          ∃ t y, exec (.readPortDeliver tile port) s = .next t ∧ Appended s t tile key [(1, v)] ∧ portIn (getSet t tile set) port = some y ∧ y.pos = x.pos + 1) ∧
        (portItems x.spb ≤ x.pos → ∃ t y, exec (.readPortDeliver tile port) s = .next t ∧ Appended s t tile key [(2, 0)] ∧
          portIn (getSet t tile set) port = some y ∧ y.ended = true ∧ y.pos = x.pos) ∧
        (x.pos < portItems x.spb → Tab.find? x.ahead (2 * x.pos + 1) = none → exec (.readPortDeliver tile port) s = .next s)) ∧
      (∀ port x e o h rest, 4 ≤ port → portIn c port = some x → sinkFeeder t0 c (port - 4) = some (e, o) →
        let key := sinkKey set e o
        elemRuns c e = true → x.ended = false → x.owed = [] → portActs s tile set port x = true → spbSpace x.spb ≠ 2 → (chanOf t0 key).q = h :: rest →
        entryGood h = true →
        (h.kind = 0 → ∃ t y, exec (.writePortConsume tile port) s = .next t ∧ (chanOf (getTile t tile) key).q = rest ∧
          portIn (getSet t tile set) port = some y ∧ y.pos = (if spbAskip x.spb then x.pos else x.pos + 1) ∧ t.reqs = s.reqs) ∧
        (h.kind = 2 → ∃ t y, exec (.writePortConsume tile port) s = .next t ∧ (chanOf (getTile t tile) key).q = rest ∧
          portIn (getSet t tile set) port = some y ∧ y.ended = true ∧ t.reqs = s.reqs ∧
          ∀ slot, slotOfElem c e = some slot → key ∈ (regionOf (getSet t tile set) slot).ends) ∧
        (∀ es, h.kind = 1 → elemLocs s tile set (spbSpace x.spb) (spbWidth x.spb) (portElems x (sinkType c e key) h.payload) = .ok es →
          ∃ t y rs, exec (.writePortConsume tile port) s = .next t ∧ (chanOf (getTile t tile) key).q = rest ∧
            portIn (getSet t tile set) port = some y ∧ y.pos = x.pos + 1 ∧ t.reqs = s.reqs ++ rs ∧
            (∀ r ∈ rs, r.agent = .port tile set port ∧ r.op = .store ∧ r.scope = spbScope x.spb ∧ ∃ b ∈ es, r.loc ∈ b.2))) ∧
      (∀ r rest ctx, c.trap.held = r :: rest → c.ctx = some ctx → c.trap.valid = false → handles s c ctx r = true → c.trap.left < tsc →
        ∃ t, exec (.trapPresent tile set) s = .next t ∧
          (let d := getSet t tile set
           d.trap.valid = true ∧ d.trap.cur = r ∧ d.trap.held = rest ∧ (setThread? d c.trap.hthr).st = .run ∧
           (setThread? d c.trap.hthr).pc = c.trap.vecPc ∧ d.trap.hpc = (setThread? c c.trap.hthr).pc))) ∧
    (∀ slot, monitorDue s tile slot = true →
      let cs := waitCycles s tile set slot
      (cs = [] → ∃ t, exec (.waitSnapshot tile slot) s = .next t ∧ (regionOf (getSet t tile set) slot).moved = s.dcc ∧
        (regionOf (getSet t tile set) slot).st = .running) ∧
      (∀ w n, causalityCycle cs = some (w, n) → ∃ u r, exec (.waitSnapshot tile slot) s = .next (raiseTrap u tile set r) ∧ r.cause = 0x15 ∧ r.slot = slot ∧
        r.det0 = BitVec.ofNat 64 (2048 * (w.tile % 64) + 8 * w.elem + w.inp) ∧ (regionOf (getSet u tile set) slot).st = .stopped) ∧
      (∀ w, causalityCycle cs = none → (capacityEdges cs).find? (fun w => !canLink s w) = some w →
        ∃ u r, exec (.waitSnapshot tile slot) s = .next (raiseTrap u tile set r) ∧ r.cause = 0x16 ∧ r.slot = slot ∧
          r.det0 = BitVec.ofNat 64 (2048 * (w.tile % 64) + 8 * w.elem + w.inp) ∧ (regionOf (getSet u tile set) slot).st = .stopped) ∧
      (∀ w, causalityCycle cs = none → capacityEdges cs = [w] → canLink s w = true → w.tile = tile → w.set = set → slotOfElem c w.elem = some slot →
        ∃ t, exec (.screeLink (.channel tile w.elem w.inp)) s = .next t ∧
          (chanOf (getTile t tile) (chanKey set w.elem w.inp)).segs = (chanOf t0 (chanKey set w.elem w.inp)).segs + 1 ∧
          Tab.get 0 (getCtx t (c.ctx.getD 0)).scrnUsed (tileDie tile) = Tab.get 0 (getCtx s (c.ctx.getD 0)).scrnUsed (tileDie tile) + 1 ∧
          (regionOf (getSet t tile set) slot).moved = s.dcc)) ∧
    (∀ slot n r, (s.reqs.find? fun r => r.op == .push && r.waiting && dequeOfLoc r.loc == (slot, n)) = some r →
      let d := dequeOf s slot n
      d.failed = false → d.en = true → d.ctx = reqCtx s r →
      (dequeRoom d ≤ d.q.length → d.segs < 8 → screeLeft s d.ctx (slot / 16) = true → ∃ t, exec (.screeLink (.deque slot n)) s = .next t ∧
        (dequeOf t slot n).segs = d.segs + 1 ∧ (dequeOf t slot n).q = r.val :: d.q) ∧
      (d.q.length < dequeRoom d → ∃ t, exec (.screeLink (.deque slot n)) s = .next t ∧ (dequeOf t slot n).segs = d.segs ∧ (dequeOf t slot n).q = r.val :: d.q)) ∧
    (∀ ctx ring e, recordWaits s ctx ring = true → ringEntry s ctx ring = some e → ringRoom e = false →
      let x := ringOver s ctx ring
      x.q.length = 64 * x.segs → x.segs < 8 → screeLeft s ctx (leadDie s ctx) = true →
      ∃ t, exec (.screeLink (.ring ctx ring)) s = .next t ∧ (ringOver t ctx ring).segs = x.segs + 1 ∧ (ringOver t ctx ring).q = x.q) ∧
    (tile < 256 → t0.removed = false →
      let other := tileSet t0 (otherSet set)
      (other.ctx.isSome = true → other.stopReq = false → t0.swapReady = true → leaveReady s tile = true →
        (∀ x, c.ctx = some x → (getCtx s x).saveBad = []) →
        ∃ t, exec (.shadowSetSwap tile) s = .next t ∧ (getTile t tile).active = otherSet set ∧ (getTile t tile).swapReady = false ∧ tscOf t tile = tsc ∧
          edgeNow t tile = false ∧ (getSet t tile (otherSet set)).ctx = other.ctx ∧ (getSet t tile set).ctx = c.ctx) ∧
      (∀ x, other.ctx = some x → other.stopReq = true → s.revs = [] → (getCtx s x).saveBad = [] →
        ∃ t v, exec (.shadowSetSwap tile) s = .next t ∧ t.saved = s.saved ++ [v] ∧ v.ctx = x ∧ v.tile = tile ∧ v.graph = none ∧
          (getSet t tile (otherSet set)).ctx = none ∧ (getTile t v.held).set0.threads = other.threads) ∧
      (∀ graph g, Tab.find? s.graphs graph = some g → g.tiles = [(tile, otherSet set)] → tileRecorded s g (tile, otherSet set) = true → s.revs = [] →
        (∀ x, other.ctx = some x → (getCtx s x).saveBad = []) → other.ctx.isSome = true →
        ∃ t v, exec (.snapshotComplete graph) s = .next t ∧ t.saved = s.saved ++ [v] ∧ some v.ctx = other.ctx ∧ v.tile = tile ∧ v.graph = some graph ∧
          (getSet t tile (otherSet set)).ctx = none ∧ ∃ x, Tab.find? t.graphs graph = some x ∧ x.tiles = [])) ∧
    (∀ graph g v die d, Tab.find? s.graphs graph = some g → g.tiles = [] → graphSaved s graph = [v] → ctxRuns s g.ctx = true → restoreDue s graph g = true →
      graphPlan s graph g = some (die, d, [tile]) → (tileSet t0 (otherSet set)).ctx = none → (bringIn s v tile (otherSet set)).isSome = true →
      ∃ t, exec (.graphRestore graph) s = .next t ∧ t.saved = (s.saved.filter fun x => x.held != v.held) ∧
        (getSet t tile (otherSet set)).ctx = (getTile s v.held).set0.ctx ∧ (getSet t tile (otherSet set)).snapDone = true ∧
        (getSet t tile (otherSet set)).snapBusy = false)

/-! ### Launches, placements, walks and revocations -/

namespace Sys2Proof.Claim

/-- The product of the counts of the C and D levels of a loop table (R308, R309): the placements that it spans. -/
def placementsOf (es : List (BitVec 64)) : Nat :=
  ((es.filter fun e => e.extractLsb' 62 2 == 1).map fun e => (e.extractLsb' 0 32).toNat).prod *
    ((es.filter fun e => e.extractLsb' 62 2 == 2).map fun e => (e.extractLsb' 0 32).toNat).prod

/-- A launch as the state holds it. -/
def LaunchIs (s : State) (id : Nat) (l : Launch) : Prop := Tab.find? s.launches id = some l

/-- A launch has failed for the first time: its status, and its indices that had not started are discarded (R316). -/
def LaunchFails (t : State) (l : Launch) (status : Nat) : Prop :=
  ∃ x, LaunchIs t l.id x ∧ x.status = (if l.status = 0 then status else l.status) ∧ x.waiting = []

end Sys2Proof.Claim

/-- R303 to R316, R373, R390: every 2^20 ticks each tile's contending contexts have slices of the period, in an order that is open; a
lead selects the record that comes next, and its launch is expanded from its loop table and count; its placements take free tiles, are
dispatched into an empty set, retire when the set's work has ended, and the launch retires with its counter and completion record. -/
def Obligations.LaunchesRunThroughTheirLife : Prop :=
  ∀ s : State,
    (s.dcc % 2 ^ 20 = 0 → ∃ t, exec .timeSlice s = .next t ∧ ∀ n < 256, (Tab.find? s.tiles n).isSome = true →
      (getTile t n).set0 = (getTile s n).set0 ∧ (getTile t n).set1 = (getTile s n).set1 ∧
      ((contenders s n).length < 2 → (getTile t n).plan = []) ∧
      (2 ≤ (contenders s n).length → ∃ order : List Nat, order.Perm (contenders s n) ∧
        (getTile t n).plan = slicesFrom s.dcc ((order.map fun c => (c, ownTicks s (contenders s n) c)).filter fun p => p.2 != 0))) ∧
    (s.dcc % 2 ^ 20 ≠ 0 → exec .timeSlice s = .next s) ∧
    (∀ queue n ws, nextRecord s (leadDie s (queueTag s queue)) = some (queue, n, ws) → s.boot = .running → leadDie s (queueTag s queue) ∉ s.dieOut →
      (queueOf s queue).taken = [] →
      ∃ t l, exec (.launchSelection queue) s = .next t ∧ LaunchIs t s.serial l ∧ l.ctx = queueTag s queue ∧ l.queue = queue ∧ l.words = ws ∧
        l.signalled = false ∧ l.recorded = false ∧ l.status = (if malformedRecord s (queueTag s queue) ws then 4 else 0) ∧
        l.expanded = malformedRecord s (queueTag s queue) ws ∧
        (n = (queueOf s queue).head.toNat → (queueOf t queue).head = (queueOf s queue).head + 1 ∧ (queueOf t queue).taken = []) ∧
        (n ≠ (queueOf s queue).head.toNat → (queueOf t queue).head = (queueOf s queue).head ∧ (queueOf t queue).taken = [n])) ∧
    (∀ id l, LaunchIs s id l → l.id = id → l.expanded = false → ctxRuns s l.ctx = true → starvedAt (expandAddrs s l) s l.ctx = none →
      (loopTable s l.ctx l.words = none → ∃ t, exec (.launchExpansion id) s = .next t ∧ ∃ x, LaunchIs t id x ∧ x.expanded = true ∧ x.status = 3) ∧
      (∀ es v, readLoops s l.ctx l.words = some (es, v) →
        let all := placementsOf es
        let expands (x : Launch) (p : Nat) : Prop := x.expanded = true ∧ x.dies = ctxDies v l.ctx ∧ x.total = p ∧ x.waiting = List.range p ∧ x.disc = all - p
        (ctxDies v l.ctx = [] → ∃ t x, exec (.launchExpansion id) s = .next t ∧ LaunchIs t id x ∧ x.expanded = true ∧ x.status = 8 ∧ x.disc = all) ∧
        (ctxDies v l.ctx ≠ [] → recIcv l.words = false → ∃ t x, exec (.launchExpansion id) s = .next t ∧ LaunchIs t id x ∧ x.status = l.status ∧
          expands x (Nat.min all (recMaxp l.words))) ∧
        (∀ bs u, ctxDies v l.ctx ≠ [] → recIcv l.words = true → sysBytes 4 v l.ctx (recIcnt l.words) = some (bs, u) →
          ∃ t x, exec (.launchExpansion id) s = .next t ∧ LaunchIs t id x ∧ x.status = l.status ∧
            expands x (Nat.min all (Nat.min (recMaxp l.words) (leNat bs)))) ∧
        (ctxDies v l.ctx ≠ [] → recIcv l.words = true → sysBytes 4 v l.ctx (recIcnt l.words) = none →
          ∃ t x, exec (.launchExpansion id) s = .next t ∧ LaunchIs t id x ∧ x.expanded = true ∧ x.status = 5 ∧ x.disc = all))) ∧
    (∀ die l p rest tile, die ∉ s.dieOut → s.boot = .running → waitingOn s die = (l, p) :: rest → chooseTile s l.ctx die = some tile →
      tile ∉ reservedTiles s ∧ l.dies[p / l.nc % l.dies.length]? = some die ∧ ∃ t q, exec (.placement die) s = .next t ∧ Tab.find? t.places s.serial = some q ∧ q.launch = l.id ∧ q.ctx = l.ctx ∧ q.p = p ∧ q.tile = tile ∧
        q.set = none ∧ q.going = false ∧ tileDie tile = die ∧ tileFree s l.ctx tile = true ∧ (∃ sh, (tile, sh) ∈ (getCtx s l.ctx).shares) ∧
        (∀ x, LaunchIs s l.id x → ∃ y, LaunchIs t l.id y ∧ y.live = x.live + 1 ∧ p ∉ y.waiting ∧ ∀ i, i ≠ p → (i ∈ y.waiting ↔ i ∈ x.waiting))) ∧
    (∀ tile id p l i, toDispatch s tile = some (id, p) → LaunchIs s p.launch l → emptySet (getTile s tile) = some i → p.tile = tile →
      (l.id = p.launch → loadKernel s l p = none → starvedAt (loadAddrs s l) s l.ctx = none → ∃ t, exec (.dispatch tile) s = .next t ∧ LaunchFails t l 3) ∧
      (∀ x u c, loadKernel s l p = some (x, u) → placeWindows (freshSet l.ctx id x.kd) (tileSet (getTile u tile) (otherSet i)) = some c →
        (∀ k ∈ planesHeld (getTile u tile) (otherSet i), bit (kdPlreq x.kd) k = false) →
        ∃ t q, exec (.dispatch tile) s = .next t ∧ Tab.find? t.places id = some q ∧ q.set = some i ∧ q.going = true ∧
          (let d := getSet t tile i
           d.ctx = some l.ctx ∧ d.place = some id ∧ d.vlen = kdVlen x.kd ∧ d.splen = kdSplen x.kd ∧ d.acclen = kdAcclen x.kd ∧ d.ilen = kdIlen x.kd ∧
           (∀ n < 4, kdHas x.kd n = true → (setThread? d n).st = .run ∧ (setThread? d n).pc = kdEnt x.kd n ∧
             Tab.get 0 (setThread? d n).s 60 = BitVec.ofNat 64 p.p ∧ Tab.get 0 (setThread? d n).s 61 = BitVec.ofNat 64 (p.p % l.nc) ∧
             Tab.get 0 (setThread? d n).s 62 = BitVec.ofNat 64 (p.p / l.nc) ∧ Tab.get 0 (setThread? d n).s 63 = BitVec.ofNat 64 (recLid l.words)) ∧
           (∀ n < 4, kdHas x.kd n = false → setThread? d n = Thread.reset)))) ∧
    (∀ tile i id p l, i < 2 → placeOn s tile i = some id → setDone s tile i = true → (i = 1 → placeOn s tile 0 = none ∨ setDone s tile 0 = false) →
      Tab.wf s.places = true → Tab.find? s.places id = some p → LaunchIs s p.launch l →
      ∃ t x, exec (.placementRetire tile) s = .next t ∧ Tab.find? t.places id = none ∧ LaunchIs t p.launch x ∧ x.done = l.done + 1 ∧ x.live = l.live - 1 ∧
        (getSet t tile i).ctx = none) ∧
    (∀ id l, LaunchIs s id l → l.id = id → l.expanded = true → l.waiting = [] → l.live = 0 → l.signalled = false → l.recorded = false →
      ∃ t, exec (.launchRetire id) s = .next t ∧
        (recSv l.words = true → l.status ≠ 4 →
          Tab.get 0 t.counters (recScnt l.words) = Tab.get 0 s.counters (recScnt l.words) + 1) ∧
        (recSv l.words = false → t.counters = s.counters) ∧
        (ownsRing s l.ctx (recEvr l.words) = false → Tab.wf s.launches = true → Tab.find? t.launches id = none) ∧
        (∀ e, ownsRing s l.ctx (recEvr l.words) = true → ringEntry s l.ctx (recEvr l.words) = some e →
          let x := ringOver s l.ctx (recEvr l.words)
          (x.q ≠ [] → x.q.length < 64 * x.segs → (ringOver t l.ctx (recEvr l.words)).q = x.q ++
            [[BitVec.ofNat 8 l.status ++ 0#14 ++ BitVec.ofNat 10 l.ctx ++ BitVec.ofNat 32 (recLid l.words), BitVec.ofNat 64 s.dcc,
              BitVec.ofNat 32 l.disc ++ BitVec.ofNat 32 l.done, BitVec.ofNat 8 l.cause ++ 0#8 ++ BitVec.ofNat 8 l.tile ++ 0#40]]) ∧
          (ringRoom e = false → x.q.length = 64 * x.segs → (ringOver t l.ctx (recEvr l.words)) = x ∧ ∃ y, LaunchIs t id y ∧ y.recorded = false ∧ y.signalled = true)))

/-- R320, R321, R381, R382: a walk that ends wakes the accesses that parked on it, and an exhausted pool is told once; at its deadline a
revocation takes its object, quantity or tile, and a whole subtree runs no more. -/
def Obligations.WalksEndAndRevocationsFallDue : Prop :=
  ∀ s : State,
    (∀ walk w, (s.walks.find? fun w => w.id == walk) = some w →
      (let key := w.ctx * 2 ^ 40 + w.page
       let found := mappingOf s w.ctx (w.page * 65536) = none ∨ (touch 9 s w.ctx (w.page * 65536) false false).isSome = true
       (found → ∃ t, exec (.walkComplete walk) s = .next t ∧ (∀ x ∈ t.walks, x.id ≠ walk) ∧
        (∀ a ∈ w.who, ∀ u, agentUnit a = some u → (u, key) ∈ t.tlb) ∧
        ∀ tile set thr, Agent.thread tile set thr ∈ w.who → key ∈ (getThread t tile set thr).fl.walked) ∧
       (¬found → w.told = true → exec (.walkComplete walk) s = .next s) ∧
       (∀ m, mappingOf s w.ctx (w.page * 65536) = some m → ¬found → w.told = false →
        let owner := (demandKey w.ctx m (w.page * 65536)).1
        reachesRoot s 9 owner 0x24 = true → rootHasFrame s = true → owner ≠ 0 → ∃ t, exec (.walkComplete walk) s = .next t ∧
          (getCtx t 0).frmu = (getCtx s 0).frmu + 1 ∧ (getCtx t owner).frm = (getCtx s owner).frm + 1 ∧ t.walks = s.walks))) ∧
    (∀ rev v, (s.revs.find? fun v => v.id == rev) = some v →
      (s.dcc < v.dl → exec (.revocationDeadline rev) s = .next s) ∧
      (v.dl ≤ s.dcc → v.due = false →
        let cs := subtree s v.child
        (v.kind ∈ [2, 4, 5, 6, 9] → ∃ t, exec (.revocationDeadline rev) s = .next t ∧ holder t v.kind v.b.toNat = v.issuer ∧ (∀ x ∈ t.revs, x.id ≠ rev) ∧
          (∀ n, n ≠ v.b.toNat → holder t v.kind n = holder s v.kind n) ∧
          ((∀ x ∈ s.revs, x.id ≠ rev → x.child ≠ v.child) → (getCtx t v.child).revk = false ∧ (getCtx t v.child).revdl = 0)) ∧
        (v.kind = 5 → ∃ t, exec (.revocationDeadline rev) s = .next t ∧ (Tab.get CopyChan.reset t.copies v.b.toNat).wm = (Tab.get CopyChan.reset s.copies v.b.toNat).next ∧
          (∀ x ∈ t.slots, tplChan x.2.words ≠ v.b.toNat) ∧ ∀ r ∈ (Tab.get CopyChan.reset t.copies v.b.toNat).runs, r.ended = true ∧ r.status = 2) ∧
        (v.kind ∈ [7, 8] → kidsOf s v.child = [] → v.issuer ≠ v.child → v.b.toNat ≤ qtyOf (getCtx s v.child) v.kind - qtyUsed (getCtx s v.child) v.kind →
          ∃ t, exec (.revocationDeadline rev) s = .next t ∧ qtyOf (getCtx t v.child) v.kind = qtyOf (getCtx s v.child) v.kind - v.b.toNat ∧
            qtyUsed (getCtx t v.issuer) v.kind = qtyUsed (getCtx s v.issuer) v.kind - v.b.toNat) ∧
        (v.kind = 0 → ∃ t, exec (.revocationDeadline rev) s = .next t ∧
          ∀ x ∈ cs, Tab.wf (getCtx s x).shares = true → Tab.find? (getCtx t x).shares (v.b.toNat % 256) = none) ∧
        (v.kind = 15 → ∀ tile i x, tile < 256 → i < 2 → x ∈ cs → (getSet s tile i).ctx = some x →
          ∃ t, exec (.revocationDeadline rev) s = .next t ∧ (getCtx t x).st = .stopped ∧ (getSet t tile i).stopReq = true)))

/-! ### Copies, the serialising token, failures and partition swaps -/

namespace Sys2Proof.Claim

/-- Every slot armed on an entry's line has room for it in its start queue of four (R346). -/
def Deliverable (s : State) (e : FireEntry) : Prop := ∀ x ∈ s.slots, x.2.line = e.line → x.2.q.length < 4

/-- A slot can take its next entry (R347): its channel runs fewer than four transfers and none of them is stopped. -/
def CanStart (s : State) (x : ArmedSlot) : Prop :=
  x.q ≠ [] ∧ (copyOf s (tplChan x.words)).runs.length < 4 ∧ ∀ r ∈ (copyOf s (tplChan x.words)).runs, r.stop = none

/-- A node of the token's ring that is out of service: the controller of a removed slot (R294). -/
def outNode (s : State) (n : Nat) : Bool := n % 48 < 16 && (Tab.get Column.reset s.columns (n / 48 * 16 + n % 48)).removed

/-- The placements of some tiles are gone, and the launches of those that were under way have failed TILEFAIL (R330). -/
def TilesFailed (s t : State) (hit : Nat → Prop) : Prop :=
  (∀ id p, Tab.find? t.places id = some p → ¬hit p.tile) ∧
  ∀ id p l, Tab.find? s.places id = some p → hit p.tile → Tab.find? s.launches p.launch = some l → l.status = 0 →
    ∃ x, Tab.find? t.launches p.launch = some x ∧ x.status = 7 ∧ hit x.tile ∧ x.waiting = []

/-- The operations of some kinds that waited at an object have answered with a failing state. -/
def WaitersFailed (s t : State) (ops : List ReqOp) (pa : Nat) : Prop :=
  ∀ r ∈ s.reqs, r.waiting = true → r.op ∈ ops → locPa r.loc = pa → { r with stage := .applied, waiting := false, bad := true } ∈ t.reqs

end Sys2Proof.Claim

/-- R294, R343, R346, R347, R354, R359, R360: an entry on a fire line reaches every slot armed on it; a slot starts a transfer with the
channel's NEXT; a transfer that has ended completes and WM passes the IDs that have completed; a stopped one is reported to its armer; the
serialising token goes to the next node in service; a scrubbed line keeps its bytes. Which entry goes first is the router's, a free value
(log entry 3). -/
def Obligations.FireEntriesAndTransfersProceed : Prop :=
  ∀ s : State,
    ((∃ e ∈ s.fires, Deliverable s e) → ∃ e ∈ s.fires, Deliverable s e ∧ ∃ t, exec .fireEntryDeliver s = .next t ∧
      t.fires = s.fires.filter (fun x => x.id != e.id) ∧
      ∀ k x, Tab.find? s.slots k = some x → Tab.find? t.slots k = some (if x.line = e.line then { x with q := x.q ++ [e.arg] } else x)) ∧
    ((∀ e ∈ s.fires, ¬Deliverable s e) → exec .fireEntryDeliver s = .next s) ∧
    (∀ engine slot x arg rest, slot < 64 → Tab.wf s.slots = true → Tab.find? s.slots (engine * 64 + slot) = some x → x.q = arg :: rest → CanStart s x →
      (∀ k y, k < slot → Tab.find? s.slots (engine * 64 + k) = some y → ¬CanStart s y) → s.boot = .running → Tab.find? s.partsOut (partOf s x.ctx) = none →
      let c := copyOf s (tplChan x.words)
      ∃ t r, exec (.transferStart engine slot) s = .next t ∧ (copyOf t (tplChan x.words)).next = c.next + 1 ∧
        (copyOf t (tplChan x.words)).runs = c.runs ++ [r] ∧ r.id = c.next ∧ r.words = x.words ∧ r.arg = arg ∧ r.ctx = x.ctx ∧ r.tile = x.tile ∧
        r.ended = false ∧ r.stop = none ∧ r.bytes = 0 ∧ r.status = 0 ∧ Tab.find? t.slots (engine * 64 + slot) = some { x with q := rest }) ∧
    (∀ engine slot x, slot < 64 → Tab.wf s.slots = true → Tab.find? s.slots (engine * 64 + slot) = some x → ¬CanStart s x →
      exec (.transferStart engine slot) s = .next s) ∧
    (∀ chan id r, findTransfer s chan id = some r → r.ended = true → r.stop = none → parkedOn s (.copy chan id.toNat) = false →
      (∀ q ∈ s.reqs, q.agent ≠ .copy chan id.toNat) → tplCrv r.words = false ∨ r.record.isSome = true →
      let c := copyOf s chan
      ∃ t, exec (.transferComplete chan id) s = .next t ∧ (copyOf t chan).runs = c.runs.filter (fun x => x.id != id) ∧
        (c.wm = id → c.ends = [] → (copyOf t chan).wm = id + 1 ∧ (copyOf t chan).ends = []) ∧
        (c.wm = id → c.ends = [id + 1] → (copyOf t chan).wm = id + 2 ∧ (copyOf t chan).ends = []) ∧
        (c.wm ≠ id → (id - c.wm).toNat < 2 ^ 31 → c.wm ∉ c.ends → (copyOf t chan).wm = c.wm ∧ (copyOf t chan).ends = c.ends ++ [id]) ∧
        ∀ n f, Tab.find? s.fabChans n = some f → f.copy = some (chan * 2 ^ 32 + id.toNat) → Tab.find? t.fabChans n = some { f with copy := none }) ∧
    (∀ chan id r, findTransfer s chan id = some r → r.ended = false ∨ (∃ q ∈ s.reqs, q.agent = .copy chan id.toNat) →
      exec (.transferComplete chan id) s = .next s) ∧
    (∀ chan id r reason addr u j, findTransfer s chan id = some r → r.stop = some (reason, addr) →
      (r.told = true → exec (.copyTransferStop chan id) s = .next s) ∧
      (r.told = false → whereSet s r.tile r.ctx = some (u, j) → ∃ v q, exec (.copyTransferStop chan id) s = .next (raiseTrap v u j q) ∧
        (∃ x, findTransfer v chan id = some x ∧ x.told = true ∧ x.stop = r.stop) ∧ q.cause = 0x13 ∧ q.unit = 5 ∧ q.addr = BitVec.ofNat 56 addr ∧
        (chan < 1024 → reason < 2 ^ 16 → q.det0 = (0#6 ++ BitVec.ofNat 10 chan ++ id ++ BitVec.ofNat 16 reason)))) ∧
    (s.dcc < s.scAt ∨ (scPending s s.scToken = true ∧ s.scDone < 4) → exec .scTokenPass s = .next s) ∧
    (s.scAt ≤ s.dcc → (scPending s s.scToken = false ∨ 4 ≤ s.scDone) → ∃ t k, exec .scTokenPass s = .next t ∧ t.scDone = 0 ∧ 1 ≤ k ∧ t.scToken = (s.scToken + k) % 192 ∧
      t.scAt = s.dcc + (if t.scToken / 48 = s.scToken / 48 then 1 else 8) ∧ outNode s t.scToken = false ∧ ∀ j, 1 ≤ j → j < k → outNode s ((s.scToken + j) % 192) = true) ∧
    (∀ line stack chan, placeOf (line * 64) = .hbm stack chan → exec (.hbmScrub line) s = .next { s with scrubbed := line })

/-- R8, R280, R294, R330, R385, R386: a tile, a die or a column that fails is taken out of placement, its placements end and their launches
fail TILEFAIL; the token's ring closes around a lost controller; state that an error strikes fails for those that wait on it; a packet at a
gate that must not pass is dropped and counted; a partition with full swap is moved out and in. -/
def Obligations.FailuresAndPartitionSwaps : Prop :=
  ∀ s : State,
    (∀ tile < 256, (getTile s tile).removed = false → Tab.wf s.places = true → ∃ t, exec (.tileFailure tile) s = .next t ∧
      (getTile t tile).removed = true ∧ TilesFailed s t (fun n => n = tile)) ∧
    (∀ die < 4, die ∉ s.dieOut → Tab.wf s.places = true → ∃ t, exec (.dieSchedulerFailure die) s = .next t ∧ t.dieOut = s.dieOut ++ [die] ∧
      TilesFailed s t (fun n => n / 64 = die) ∧
      ∀ id l, Tab.find? s.launches id = some l → l.status = 0 → (∃ p ∈ l.waiting, handedTo l p = some die) →
        ∃ x, Tab.find? t.launches id = some x ∧ x.status = 7 ∧ x.waiting = []) ∧
    (∀ slot < 64, (Tab.get Column.reset s.columns slot).removed = false → Tab.wf s.places = true → ∃ t, exec (.columnControllerFailure slot) s = .next t ∧
      (Tab.get Column.reset t.columns slot).removed = true ∧ TilesFailed s t (fun n => n ∈ slotTiles slot) ∧
      (s.scToken ≠ slot / 16 * 48 + slot % 16 → t.scToken = s.scToken ∧ t.scDone = s.scDone) ∧
      (s.scToken = slot / 16 * 48 + slot % 16 → t.scToken ≠ s.scToken ∧ t.scDone = 0) ∧
      ∀ r ∈ scOfSlot s slot, r ∉ t.reqs) ∧
    (∀ slot, slot < 64 → ∃ t, exec (.gateRefusal slot) s = .next t ∧ t.gateBad = s.gateBad + 1 ∧ t.box.told = s.box.told + 1 ∧ t.mem = s.mem ∧
      t.tiles = s.tiles ∧ t.reqs = s.reqs) ∧
    (∀ addr, let pa := addr / 8 * 8
      ∃ t, exec (.uncorrectableStateError (.versioned addr)) s = .next t ∧ t.uncorrected = s.uncorrected + 1 ∧ (vwordOf t pa).poisoned = true ∧
        WaitersFailed s t [.ldv, .stv, .reclaim] pa ∧ ∀ n, n ≠ pa → vwordOf t n = vwordOf s n) ∧
    (∀ slot n, n < 16 → ∃ t, exec (.uncorrectableStateError (.deque slot n)) s = .next t ∧ t.uncorrected = s.uncorrected + 1 ∧
      (dequeOf t slot n).q = [] ∧ (dequeOf t slot n).segs = 0 ∧ (dequeOf t slot n).failed = true ∧ WaitersFailed s t [.push, .pop, .steal] (locPa (dequeLoc slot n))) ∧
    (∀ slot n, n < 16 → let b := barrierOf s slot n
      ((∀ p ∈ b.parts, (getThread s p.1 p.2.1 p.2.2).st ≠ .wait) → ∃ t, exec (.uncorrectableStateError (.barrier slot n)) s = .next t ∧
        t.uncorrected = s.uncorrected + 1 ∧ (barrierOf t slot n).bnd = false ∧ (barrierOf t slot n).parts = [] ∧ (barrierOf t slot n).failed = true) ∧
      (∀ p, b.parts = [p] → (getThread s p.1 p.2.1 p.2.2).st = .wait → ∃ u r, exec (.uncorrectableStateError (.barrier slot n)) s = .next (raiseTrap u p.1 p.2.1 r) ∧
        (barrierOf u slot n).bnd = false ∧ (barrierOf u slot n).failed = true ∧ r.cause = 9 ∧ r.thv = true ∧ r.thr = p.2.2 ∧ r.addr = 0)) ∧
    (∀ part, part < 12 → entFsw (layoutEntry s part) = true → s.boot = .running →
      (∀ a, s.swapAsks.find? (fun x => x.part == part) = some a →
        (a.out = true → (∀ n ∈ partTiles s part, (getTile s n).removed = true ∨ tileHalted (getTile s n) = true) →
          ∃ t v, exec (.partitionFullSwap part) s = .next t ∧ Tab.find? t.partsOut part = some v ∧ v.byHost = a.byHost ∧ v.tiles.map Prod.fst = partTiles s part ∧
            a ∉ t.swapAsks ∧ (a.byHost = true → t.box.ended = true ∧ t.box.stat = 0) ∧
            ∀ n ∈ partTiles s part, (getSet t n 0).ctx = none ∧ (getSet t n 1).ctx = none) ∧
        (∀ v, a.out = false → Tab.find? s.partsOut part = some v → slotSharers s part ≠ [] → exec (.partitionFullSwap part) s = .next s) ∧
        (∀ v, a.out = false → Tab.find? s.partsOut part = some v → slotSharers s part = [] → Tab.wf s.partsOut = true → v.part = part →
          ∃ t, exec (.partitionFullSwap part) s = .next t ∧ Tab.find? t.partsOut part = none ∧ a ∉ t.swapAsks ∧
            (a.byHost = true → t.box.ended = true ∧ t.box.stat = 0) ∧
            ((v.tiles.map Prod.fst ++ v.tiles.map Prod.snd).Nodup → ∀ x ∈ v.tiles, (getSet t x.1 0).ctx = (getSet s x.2 0).ctx ∧
              (getSet t x.1 1).ctx = (getSet s x.2 1).ctx))) ∧
      ((∀ x ∈ s.swapAsks, x.part ≠ part) →
        (∀ v, Tab.find? s.partsOut part = some v → v.byHost = true → exec (.partitionFullSwap part) s = .next s) ∧
        (∀ v, Tab.find? s.partsOut part = some v → v.byHost = false → slotSharers s part = [] →
          exec (.partitionFullSwap part) s = .next { s with swapAsks := s.swapAsks ++ [⟨part, false, false⟩] }) ∧
        (∀ q v, Tab.find? s.partsOut part = none → q < 12 → q ≠ part → entFsw (layoutEntry s q) = true → entSlots (layoutEntry s part) &&& entSlots (layoutEntry s q) ≠ 0 →
          Tab.find? s.partsOut q = some v → v.byHost = false → exec (.partitionFullSwap part) s = .next { s with swapAsks := s.swapAsks ++ [⟨part, true, false⟩] }))) ∧
    (∀ part, entFsw (layoutEntry s part) = false → exec (.partitionFullSwap part) s = .next s)

/-! ### Registers, the host, the mailbox and boot -/

namespace Sys2Proof.Claim

/-- A byte of device memory as stored by a write of `n` bytes of a number at an address (R1). -/
def Written (s t : State) (a n v : Nat) : Prop :=
  (∀ i < n, Memory.byte t.mem (a + i) = BitVec.ofNat 8 (v / 256 ^ i)) ∧ ∀ x, x < a ∨ a + n ≤ x → Memory.byte t.mem x = Memory.byte s.mem x

/-- A command of the mailbox has been performed with a status. -/
def Performed (t : State) (op stat : Nat) : Prop := t.box.busy = true ∧ t.box.ended = true ∧ t.box.op = op ∧ t.box.stat = stat

/-- The package is as a package reset leaves it; what is not the package's own goes on (log entry 33). -/
def PackageReset (s t : State) : Prop :=
  t.boot = State.reset.boot ∧ t.tiles = State.reset.tiles ∧ t.ctxs = State.reset.ctxs ∧ t.columns = State.reset.columns ∧ t.copies = State.reset.copies ∧
    t.slots = State.reset.slots ∧ t.box = State.reset.box ∧ t.layout = State.reset.layout ∧ t.reqs = State.reset.reqs ∧ t.dcc = State.reset.dcc ∧
    t.featsel = State.reset.featsel ∧ t.fabPorts = State.reset.fabPorts ∧ t.ljSeq = State.reset.ljSeq ∧ t.lmsLeaf = s.lmsLeaf ∧ t.flash = s.flash

/-- The layout that was staged is in force (R384, R387): the partitions of its entries stand, with their allotments. -/
def LayoutApplied (s t : State) : Prop :=
  t.layout = s.staged ∧ t.staged = [] ∧ t.ljState = 0 ∧ t.ljSeq = s.ljSeq + 1 ∧ t.committed = true ∧ t.boot = .running ∧
  (∀ p < 12, entSlots (Tab.get [] s.staged p) ≠ 0 → isLive t (p + 1) = true ∧ (getCtx t (p + 1)).pwr = layoutWatts (Tab.get [] s.staged p) * 16000 ∧
    (getCtx t (p + 1)).frm = entFrames (Tab.get [] s.staged p) ∧ (getCtx t (p + 1)).pceil = entPceil (Tab.get [] s.staged p)) ∧
  ∀ v < 128, (∀ p < 12, entSlots (Tab.get [] s.staged p) ≠ 0 → v < entVf0 (Tab.get [] s.staged p) ∨
    entVf0 (Tab.get [] s.staged p) + entNvf (Tab.get [] s.staged p) ≤ v) → Tab.get 0 t.vfOwner v = 0

end Sys2Proof.Claim

/-- R5, R259, R260, R388, R389, R392, R393: a register takes a write under its access codes; TAIL is clipped to the queue's limit; DQCFG
empties its deque; the host reads and writes device memory and registers while the link is up; notify writes wait for a link that is down. -/
def Obligations.RegisterWritesAndHostAccesses : Prop :=
  ∀ s : State,
    (s.boot = .running →
      (∀ q (v : BitVec 64), let k := queueOf s q
        let lsz := (v.extractLsb' 60 4).toNat
        (hostReaches s q = true → k.en = false → lsz ≠ 1 → lsz ≠ 2 → ∃ t, exec (.queueBaseWrite q v) s = .next t ∧ queueOf t q = { k with lsz := lsz, base := v.setWidth 56 } ∧
          ∀ n, n ≠ q → queueOf t n = queueOf s n) ∧
        (hostReaches s q = false ∨ k.en = true ∨ lsz = 1 ∨ lsz = 2 → exec (.queueBaseWrite q v) s = .next s)) ∧
      (∀ q (v : BitVec 32), let k := queueOf s q
        (3 ≤ k.lsz → queueLimit s q ≤ 2 ^ k.lsz) ∧ (k.lsz < 3 → queueLimit s q = 0) ∧
        (hostReaches s q = false → exec (.tailWrite q v) s = .next s) ∧
        (hostReaches s q = true → (v - k.head).toNat ≤ queueLimit s q → ∃ t, exec (.tailWrite q v) s = .next t ∧ queueOf t q = { k with tail := v }) ∧
        (hostReaches s q = true → queueLimit s q < (v - k.head).toNat → ∃ t, exec (.tailWrite q v) s = .next t ∧
          queueOf t q = { k with tail := k.head + BitVec.ofNat 32 (queueLimit s q), ovf := k.ovf + 1 })) ∧
      (∀ slot n (v : BitVec 64), let ctx := (v.extractLsb' 0 10).toNat
        let pushes := s.reqs.filter (fun r => r.op == .push && r.waiting && dequeOfLoc r.loc == (slot, n))
        ∃ t, exec (.dqcfgWrite slot n v) s = .next t ∧ (dequeOf t slot n).en = v.getLsbD 16 ∧
          (dequeOf t slot n).ctx = ctx ∧ (dequeOf t slot n).segs = 0 ∧ (pushes = [] → (dequeOf t slot n).q = []) ∧
          (∀ r, pushes = [r] → v.getLsbD 16 = true → reqCtx s r = ctx → (dequeOf t slot n).q = [r.val]) ∧
          (∀ r, pushes = [r] → v.getLsbD 16 = false ∨ reqCtx s r ≠ ctx → (dequeOf t slot n).q = [] ∧ ∃ x ∈ t.reqs, x.id = r.id ∧ x.trap = some (0x06, 0)) ∧
          (∀ m, m ≠ n → dequeOf t slot m = dequeOf s slot m) ∧ ∀ m, barrierOf t slot m = barrierOf s slot m) ∧
      (s.linkUp = true →
        (∀ addr n, isRegister addr = false → addr / 64 ∉ s.memBad → exec (.hostMemoryAccess (.load addr n)) s =
          .next { s with hostRead := BitVec.ofNat 64 (Memory.read s.mem addr n), hostPoison := false }) ∧
        (∀ addr n, isRegister addr = false → addr / 64 ∈ s.memBad → exec (.hostMemoryAccess (.load addr n)) s =
          .next { s with hostPoison := true, uncorrected := s.uncorrected + 1 }) ∧
        (∀ addr n, isRegister addr = true → exec (.hostMemoryAccess (.load addr n)) s =
          .next { s with hostRead := if hostMay s addr then regRead s addr else 0, hostPoison := false }) ∧
        (∀ addr n (v : BitVec 64), isRegister addr = false → addr / 64 ∉ s.memBad → Memory.wf s.mem = true → ∃ t, exec (.hostMemoryAccess (.store addr n v)) s = .next t ∧
          Written s t addr n v.toNat ∧ t.tiles = s.tiles) ∧
        (∀ addr n (v : BitVec 64), isRegister addr = false → addr / 64 ∈ s.memBad → exec (.hostMemoryAccess (.store addr n v)) s = .next s) ∧
        (∀ addr n (v : BitVec 64) q, placeOf addr = .queue q 16 → hostReaches s q = true → inSubtree s 0 (queueTag s q) = true → (v.setWidth 32 - (queueOf s q).head).toNat ≤ queueLimit s q →
          ∃ t, exec (.hostMemoryAccess (.store addr n v)) s = .next t ∧ (queueOf t q).tail = v.setWidth 32))) ∧
    ((s.boot ≠ .running ∨ s.linkUp = false) → ∀ a, exec (.hostMemoryAccess a) s = .next s) ∧
    ((s.boot = .running ∨ s.boot = .waiting) → s.linkUp = true → ∀ addr (v : BitVec 64),
      (addr ∈ [0x008, 0x010, 0x018, 0x020] → ∃ t, exec (.registerWrite addr v) s = .next t ∧ boxArg t ((addr - 8) / 8) = v) ∧
      (∀ slot, placeOf addr = .control slot 8 → ∃ t, exec (.registerWrite addr v) s = .next t ∧
        (Tab.get Column.reset t.columns slot).verswait = v.setWidth 32) ∧
      (∀ slot off, placeOf addr = .control slot off → off ≠ 8 → off < 0x200 → exec (.registerWrite addr v) s = .next s) ∧
      (∀ q, placeOf addr = .queue q 8 → hostReaches s q = true → inSubtree s 0 (queueTag s q) = true → ∃ t, exec (.registerWrite addr v) s = .next t ∧
        queueOf t q = { queueOf s q with en := v.getLsbD 16 })) ∧
    (s.linkUp = true → exec .linkRetrained s = .next s ∧ ∃ t, exec .linkDown s = .next t ∧ t.linkUp = false ∧ t.box.told = s.box.told + 1 ∧ t.mem = s.mem) ∧
    (s.linkUp = false → exec .linkDown s = .next s ∧ ∃ t, exec .linkRetrained s = .next t ∧ t.linkUp = true ∧ t.notifies = [] ∧
      (s.notifies = [] → t.mem = s.mem) ∧
      (∀ l pa v, s.notifies = l ++ [(pa, v)] → Memory.wf s.mem = true → Memory.read t.mem pa 4 = v.toNat) ∧
      (∀ a, (∀ n ∈ s.notifies, a < n.1 ∨ n.1 + 4 ≤ a) → Memory.wf s.mem = true → Memory.byte t.mem a = Memory.byte s.mem a))

/-- R11, R384, R386, R387, R394, R397, R398, R400 to R403: a command of the mailbox is performed with its status, and ignored while another is in
progress; a layout is checked, committed and applied; a watchdog reset runs phase 2 again or rolls phase 1 back; a package reset leaves the
package as at reset; recovery takes an image or a reset. -/
def Obligations.MailboxCommandsAndBoot : Prop :=
  ∀ s : State,
    (∀ i ∈ [Instr.mbLayout, .mbSetlimit, .mbFeatsel, .mbAttest, .mbClrenrg, .mbErrlog, .mbSwap, .mbBadop 0], s.box.busy = true → exec i s = .next s) ∧
    (s.box.busy = true → s.box.ended = true → ∃ t, exec .mailboxComplete s = .next t ∧ t.box.busy = false ∧ t.box.stat = s.box.stat ∧ t.box.res = s.box.res ∧
      t.box.told = s.box.told + 1) ∧
    (s.box.busy = false ∨ s.box.ended = false → exec .mailboxComplete s = .next s) ∧
    (s.box.busy = false → s.boot = .waiting ∨ s.boot = .running →
      (let lay := readLayout s (boxArg s 0).toNat
       (layoutRefused s lay = true → ∃ t, exec .mbLayout s = .next t ∧ Performed t 1 1 ∧ t.staged = s.staged ∧ t.ljState = s.ljState) ∧
       (layoutRefused s lay = false → ∃ t, exec .mbLayout s = .next t ∧ t.box.busy = true ∧ t.box.ended = false ∧ t.staged = lay ∧ t.ljState = 1 ∧ t.layout = s.layout) ∧
       (∀ p q, p < q → q < 12 → entSlots (Tab.get [] lay p) &&& entSlots (Tab.get [] lay q) ≠ 0 → entFsw (Tab.get [] lay p) = false →
         entFsw (Tab.get [] lay q) = false → layoutRefused s lay = true) ∧
       (s.limit < ((layoutParts lay).map fun p => layoutWatts (Tab.get [] lay p)).sum → layoutRefused s lay = true)) ∧
      (let w := (boxArg s 0).toNat % 4096
       (w < 1200 ∨ 2800 < w ∨ w < ((layoutParts s.layout).map fun p => layoutWatts (Tab.get [] s.layout p)).sum →
         ∃ t, exec .mbSetlimit s = .next t ∧ Performed t 2 1 ∧ t.limitNext = s.limitNext) ∧
       (1200 ≤ w → w ≤ 2800 → ((layoutParts s.layout).map fun p => layoutWatts (Tab.get [] s.layout p)).sum ≤ w →
         ∃ t, exec .mbSetlimit s = .next t ∧ Performed t 2 0 ∧ t.limitNext = w ∧ t.limit = s.limit)) ∧
      (let f : BitVec 128 := boxArg s 1 ++ boxArg s 0
       (s.featsel.isSome = true ∨ s.committed = true → ∃ t, exec .mbFeatsel s = .next t ∧ Performed t 3 3 ∧ t.featsel = s.featsel) ∧
       (s.featsel = none → s.committed = false → (f >>> 9 ≠ 0 → ∃ t, exec .mbFeatsel s = .next t ∧ Performed t 3 1 ∧ t.featsel = none) ∧
         (f >>> 9 = 0 → ∃ t, exec .mbFeatsel s = .next t ∧ Performed t 3 0 ∧ t.featsel = some f))) ∧
      (2 ^ 20 ≤ s.lmsLeaf → ∃ t, exec .mbAttest s = .next t ∧ Performed t 4 4 ∧ t.mem = s.mem ∧ t.lmsLeaf = s.lmsLeaf) ∧
      (s.lmsLeaf < 2 ^ 20 → Memory.wf s.mem = true → ∃ t, exec .mbAttest s = .next t ∧ Performed t 4 0 ∧ t.lmsLeaf = s.lmsLeaf + 1 ∧
        ∀ a < hostBase + (boxArg s 1).toNat, Memory.byte t.mem a = Memory.byte s.mem a) ∧
      (let n := (boxArg s 0).toNat
       (n < 12 ∨ n = 15 → ∃ t, exec .mbClrenrg s = .next t ∧ Performed t 5 0 ∧ (meterOf t n).accum = 0 ∧ ∀ m, m ≠ n → meterOf t m = meterOf s m) ∧
       (12 ≤ n → n ≠ 15 → ∃ t, exec .mbClrenrg s = .next t ∧ Performed t 5 1 ∧ t.meters = s.meters)) ∧
      (∃ t, exec .mbErrlog s = .next t ∧ Performed t 6 0 ∧ Tab.get 0 t.box.res 1 = BitVec.ofNat 64 s.uncorrected ∧
        Tab.get 0 t.box.res 2 = BitVec.ofNat 64 s.gateBad ∧ Tab.get 0 t.box.res 3 = s.rootEvent) ∧
      (let p := (boxArg s 0).toNat
       let out := (boxArg s 1).getLsbD 0
       (12 ≤ p ∨ entFsw (layoutEntry s p) = false ∨ isLive s (p + 1) = false → ∃ t, exec .mbSwap s = .next t ∧ Performed t 7 1 ∧ t.swapAsks = s.swapAsks) ∧
       (p < 12 → entFsw (layoutEntry s p) = true → isLive s (p + 1) = true → (out = false → ∀ q ∈ slotSharers s p, entFsw (layoutEntry s q) = true) →
         ((Tab.find? s.partsOut p).isSome = out → ∃ t, exec .mbSwap s = .next t ∧ Performed t 7 0 ∧ t.swapAsks = s.swapAsks) ∧
         ((Tab.find? s.partsOut p).isSome ≠ out → ∃ t, exec .mbSwap s = .next t ∧ t.box.busy = true ∧ t.box.ended = false ∧ ⟨p, out, true⟩ ∈ t.swapAsks ∧
           (out = false → ∀ q ∈ slotSharers s p, ⟨q, true, false⟩ ∈ t.swapAsks)))) ∧
      (∀ op : BitVec 8, op.toNat < 1 ∨ 7 < op.toNat → ∃ t, exec (.mbBadop op) s = .next t ∧ Performed t op.toNat 2)) ∧
    (s.ljState = 2 → ∃ t, exec .layoutPhase2 s = .next t ∧ t.box.ended = true ∧ LayoutApplied s t) ∧
    (s.ljState = 1 → (∀ p < 12, isLive s (p + 1) = false ∨ partChanges s.layout s.staged p = false ∨ partIdle s p = true) →
      exec .layoutPhase2 s = .next { s with ljState := 2 }) ∧
    (∀ p < 12, s.ljState = 1 → isLive s (p + 1) = true → partChanges s.layout s.staged p = true → partIdle s p = false → exec .layoutPhase2 s = .next s) ∧
    (s.ljState = 2 → ∃ t, exec .watchdogReset s = .next t ∧ LayoutApplied s t ∧ t.box.told = s.box.told + 1) ∧
    (s.ljState = 1 → ∃ t, exec .watchdogReset s = .next t ∧ t.staged = [] ∧ t.ljState = 0 ∧ t.layout = s.layout ∧ t.box.ended = true ∧ t.box.stat = 1 ∧
      t.box.told = s.box.told + 1) ∧
    (∃ t, exec .packageReset s = .next t ∧ PackageReset s t) ∧
    (s.boot = .recovery → (∀ i, exec (.recoveryWrite (.write i)) s = .next { s with flash := some i }) ∧
      ∃ t, exec (.recoveryWrite .reset) s = .next t ∧ PackageReset s t) ∧
    (s.boot ≠ .recovery → ∀ r, exec (.recoveryWrite r) s = .next s)

/-! ### The fabric -/

namespace Sys2Proof.Claim

/-- Bytes of a flit from byte a on (R405). -/
def flitBytes (f : Flit) (a n : Nat) : BitVec (8 * n) := f.extractLsb' (8 * a) (8 * n)

/-- Whether an ACK covers a flit (R406): its SEQ is not after the ACK. -/
def Covered (ack : BitVec 12) (f : Flit) : Bool := (ack - f.extractLsb' 32 12).toNat < 2048

/-- A channel that an event stops with a reason, if it waits or is open (R415). -/
def stoppedWith (reason : Nat) (c : FabChan) : FabChan := if c.st = 1 ∨ c.st = 2 then { c with st := 3, reason := reason } else c

/-- The channels of a port are stopped with a reason, and no other changes. -/
def PortStopped (s t : State) (port reason : Nat) : Prop :=
  ∀ n c, Tab.find? s.fabChans n = some c → Tab.find? t.fabChans n = some (if n % 48 / 8 = port then stoppedWith reason c else c)

/-- A message has been sent about a channel (R405, R406): a link-control flit stands last in the replay buffer of its port. -/
def MessageSent (s t : State) (n port msg : Nat) (rch : BitVec 16) : Prop :=
  (portOfFab s port).down = false → ∃ f : Flit, (portOfFab t port).replay.getLast? = some (f, none) ∧ (portOfFab t port).seq = (portOfFab s port).seq + 1 ∧
    f.extractLsb' 0 16 = rch ∧ f.extractLsb' 16 3 = 3 ∧ f.extractLsb' 32 12 = (portOfFab s port).seq ∧ f.extractLsb' 48 12 = (portOfFab s port).expect - 1 ∧
    f.extractLsb' 64 16 = BitVec.ofNat 16 n ∧ f.extractLsb' 88 8 = BitVec.ofNat 8 msg

end Sys2Proof.Claim

/-- R405 to R408, R411, R412, R415: a flit in order with a good LCRC is taken, its ACK frees the flits that it covers and counts their entries,
and what it carries is delivered; ports retrain and fail; credits, open, close and reset messages act on the channel they name; FCCTL opens and
closes a channel. -/
def Obligations.FabricPortsAndChannels : Prop :=
  ∀ (s : State) (port : Nat), port < 6 →
    let p := portOfFab s port
    (∀ flit : Flit, let ch := (flit.extractLsb' 0 16).toNat
      let good : Prop := (Config.linkCrc (leBytes (flit.toNat % 2 ^ 608) 76)).toNat = (flit.extractLsb' 608 32).toNat ∧ flit.extractLsb' 32 12 = p.expect
      let ack := flit.extractLsb' 48 12
      (p.down = true ∨ p.training = true ∨ ¬good → exec (.flitReceive port flit) s = .next s) ∧
      (p.down = false → p.training = false → good → ∃ t, exec (.flitReceive port flit) s = .next t ∧ (portOfFab t port).expect = p.expect + 1 ∧
        (portOfFab t port).replay = p.replay.filter (fun x => !Covered ack x.1) ∧
        (∀ n, (fabOf t n).ackd = (fabOf s n).ackd + BitVec.ofNat 32 ((p.replay.filter fun x => Covered ack x.1 && x.2 == some n).length)) ∧
        (∀ v : BitVec 512, flit.extractLsb' 16 3 = 1 → flit.extractLsb' 64 512 = v → ch < 3072 → ch % 48 / 8 = port → (fabOf s ch).st = 2 → (fabOf s ch).dir = true →
          (fabOf s ch).buf.length < 32 → (fabOf t ch).buf = (fabOf s ch).buf ++ [mkEntry 1 v] ∧ (fabOf t ch).recv = (fabOf s ch).recv + 1) ∧
        (flit.extractLsb' 16 3 = 1 → ch < 3072 → ch % 48 / 8 = port → ((fabOf s ch).st ≠ 2 ∨ (fabOf s ch).dir = false) → (fabOf t ch).buf = (fabOf s ch).buf ∧
          (fabOf t ch).recv = (fabOf s ch).recv))) ∧
    (p.down = false → p.replay ≠ [] → ∃ t, exec (.portRetrain port) s = .next t ∧ portOfFab t port = { p with training := true }) ∧
    (p.replay = [] → exec (.portRetrain port) s = .next s) ∧
    (p.training = true →
      (∃ t, exec (.fabricRetrainEnd port true) s = .next t ∧ portOfFab t port = { p with training := false, fails := 0 }) ∧
      (p.fails < 2 → ∃ t, exec (.fabricRetrainEnd port false) s = .next t ∧ portOfFab t port = { p with fails := p.fails + 1 }) ∧
      (2 ≤ p.fails → ∃ t, exec (.fabricRetrainEnd port false) s = .next t ∧ portOfFab t port = { p with fails := 3, training := false, down := true } ∧
        PortStopped s t port 2)) ∧
    (∃ t, exec (.fabricResetMessage port) s = .next t ∧ PortStopped s t port 3) ∧
    (∀ n, n < 3072 → n % 48 / 8 = port → let c := fabOf s n
      (∀ count, (c.en = true → c.dir = false → ∃ t, exec (.credit port n count) s = .next t ∧ fabOf t n = { c with credit := Nat.min 32 (c.credit + count) }) ∧
        (c.en = false ∨ c.dir = true → exec (.credit port n count) s = .next s)) ∧
      (∃ t, exec (.fabricCloseMessage port n) s = .next t ∧ fabOf t n = stoppedWith 3 c) ∧
      (∀ peer : PeerEnd,
        (c.st = 1 → peer.enabled = true → peer.rch = n → peer.receive ≠ c.dir → ∃ t, exec (.fabricOpenMessage port n peer) s = .next t ∧ fabOf t n = { c with st := 2 }) ∧
        (c.st = 1 → peer.enabled = true → (peer.rch ≠ n ∨ peer.receive = c.dir) → ∃ t, exec (.fabricOpenMessage port n peer) s = .next t ∧
          fabOf t n = { c with st := 3, reason := 4 }) ∧
        (c.st ≠ 1 ∨ peer.enabled = false → exec (.fabricOpenMessage port n peer) s = .next s)) ∧
      (∀ v : BitVec 64,
        (v.getLsbD 63 = true → c.en = true → exec (.fcctlEnable n v) s = .next s) ∧
        (v.getLsbD 63 = true → c.en = false → ∃ t, exec (.fcctlEnable n v) s = .next t ∧
          fabOf t n = { c with en := true, dir := v.getLsbD 62, rch := v.extractLsb' 32 16, st := 1, reason := 0 } ∧ MessageSent s t n port 1 (v.extractLsb' 32 16)) ∧
        (v.getLsbD 63 = false → c.en = false → ∃ t, exec (.fcctlDisable n v) s = .next t ∧ fabOf t n = { c with dir := v.getLsbD 62, rch := v.extractLsb' 32 16 }) ∧
        (v.getLsbD 63 = false → c.en = true → ∃ t, exec (.fcctlDisable n v) s = .next t ∧
          fabOf t n = { c with en := false, st := 0, reason := 0, sent := 0, ackd := 0, recv := 0, buf := [], credit := 32, port := none, copy := none } ∧
          MessageSent s t n port 2 c.rch ∧ ∀ f ∈ (portOfFab t port).replay, f.2 ≠ some n)))
end

