-- ==== Sys2Proof/Laws/Tab.lean ====
section
/-! SUPPORT. Laws of sparse tables and of byte memories: a read after a write, and that memory operations keep the
canonical form. -/

namespace Sys2Proof.Machine

/-! ### Tables -/

@[simp] theorem Tab.find?_set_same {α : Type} (t : Tab α) (n : Nat) (v : α) : Tab.find? (Tab.set t n v) n = some v := by
  induction t with
  | nil => simp [Tab.set, Tab.find?]
  | cons p t ih =>
    simp only [Tab.set]
    split
    · simp [Tab.find?]
    · split
      · simp [Tab.find?]
      · simp [Tab.find?, *]

theorem Tab.find?_set_other {α : Type} (t : Tab α) {n m : Nat} (v : α) (h : m ≠ n) :
    Tab.find? (Tab.set t n v) m = Tab.find? t m := by
  induction t with
  | nil => simp [Tab.set, Tab.find?, h]
  | cons p t ih =>
    simp only [Tab.set]
    split
    · simp [Tab.find?, h]
    · split
      · rename_i h2; subst h2; simp [Tab.find?, h]
      · simp [Tab.find?, ih]

@[simp] theorem Tab.get_set_same {α : Type} (d : α) (t : Tab α) (n : Nat) (v : α) : Tab.get d (Tab.set t n v) n = v := by
  simp [Tab.get]

theorem Tab.get_set_other {α : Type} (d : α) (t : Tab α) {n m : Nat} (v : α) (h : m ≠ n) :
    Tab.get d (Tab.set t n v) m = Tab.get d t m := by
  simp [Tab.get, Tab.find?_set_other t v h]

@[simp] theorem Tab.set_set {α : Type} (t : Tab α) (n : Nat) (v w : α) : Tab.set (Tab.set t n v) n w = Tab.set t n w := by
  induction t with
  | nil => simp [Tab.set]
  | cons p t ih =>
    simp only [Tab.set]
    split
    · simp [Tab.set]
    · split
      · simp [Tab.set]
      · simp [Tab.set, *]

theorem Tab.get_set {α : Type} (d : α) (t : Tab α) (n m : Nat) (v : α) :
    Tab.get d (Tab.set t n v) m = if m = n then v else Tab.get d t m := by
  split
  · subst_vars; simp
  · rename_i h; exact Tab.get_set_other d t v h

@[simp] theorem Tab.get_nil {α : Type} (d : α) (n : Nat) : Tab.get d ([] : Tab α) n = d := rfl

theorem Tab.risingFrom_mono {α : Type} {t : Tab α} {a b : Nat} (h : Tab.risingFrom b t = true) (hab : a ≤ b) :
    Tab.risingFrom a t = true := by
  cases t with
  | nil => rfl
  | cons p t => simp [Tab.risingFrom] at *; exact ⟨by omega, h.2⟩

theorem Tab.risingFrom_set {α : Type} (t : Tab α) {a n : Nat} (v : α) (h : Tab.risingFrom a t = true) (hn : a ≤ n) :
    Tab.risingFrom a (Tab.set t n v) = true := by
  induction t generalizing a with
  | nil => simp [Tab.set, Tab.risingFrom, hn]
  | cons p t ih =>
    obtain ⟨k, w⟩ := p
    simp [Tab.risingFrom] at h
    simp only [Tab.set]
    split
    · simp [Tab.risingFrom, hn, h.2]; omega
    · split
      · subst_vars; simp [Tab.risingFrom, h]
      · simp [Tab.risingFrom, h.1]; exact ih h.2 (by omega)

/-- Setting a key keeps a table's canonical form. -/
theorem Tab.wf_set {α : Type} {t : Tab α} (n : Nat) (v : α) (h : Tab.wf t = true) : Tab.wf (Tab.set t n v) = true :=
  Tab.risingFrom_set t v h (Nat.zero_le _)

/-! ### Memories -/

theorem Memory.wfFrom_mono {m : Memory} {a b : Nat} (h : Memory.wfFrom b m = true) (hab : a ≤ b) : Memory.wfFrom a m = true := by
  cases m with
  | nil => rfl
  | cons c t => simp [Memory.wfFrom] at *; exact ⟨⟨by omega, h.1.2⟩, h.2⟩

theorem Memory.wfFrom_setByte (m : Memory) {a n : Nat} (v : Byte) (h : Memory.wfFrom a m = true) (hn : a ≤ n) :
    Memory.wfFrom a (Memory.setByte m n v) = true := by
  induction m generalizing a with
  | nil => simp only [Memory.setByte]; split <;> simp [Memory.wfFrom, *]
  | cons c t ih =>
    obtain ⟨k, w⟩ := c
    have h0 := h
    simp [Memory.wfFrom] at h
    simp only [Memory.setByte]
    split
    · split
      · exact h0
      · simp [Memory.wfFrom, *]
    · split
      · subst_vars
        split
        · exact Memory.wfFrom_mono h.2 (by omega)
        · simp [Memory.wfFrom, *]
      · simp [Memory.wfFrom, h.1]; exact ih h.2 (by omega)

/-- Writing a byte keeps a memory's canonical form. -/
theorem Memory.wf_setByte {m : Memory} (n : Nat) (v : Byte) (h : Memory.wf m = true) : Memory.wf (Memory.setByte m n v) = true :=
  Memory.wfFrom_setByte m v h (Nat.zero_le _)

/-- Writing bytes keeps a memory's canonical form. -/
theorem Memory.wf_setBytes {m : Memory} (l : List Byte) (a : Nat) (h : Memory.wf m = true) :
    Memory.wf (Memory.setBytes m a l) = true := by
  induction l generalizing m a with
  | nil => exact h
  | cons v t ih => exact ih (a + 1) (Memory.wf_setByte a v h)

/-- Writing a number keeps a memory's canonical form. -/
theorem Memory.wf_write {m : Memory} (a n v : Nat) (h : Memory.wf m = true) : Memory.wf (Memory.write m a n v) = true :=
  Memory.wf_setBytes _ a h

theorem Memory.wfFrom_filter (m : Memory) (p : Host.Cell → Bool) {a : Nat} (h : Memory.wfFrom a m = true) :
    Memory.wfFrom a (m.filter p) = true := by
  induction m generalizing a with
  | nil => rfl
  | cons c t ih =>
    obtain ⟨k, w⟩ := c
    simp [Memory.wfFrom] at h
    simp only [List.filter]
    split
    · simp [Memory.wfFrom, h.1, ih h.2]
    · exact Memory.wfFrom_mono (ih h.2) (by omega)

/-- Leaving cells out keeps a memory's canonical form. -/
theorem Memory.wf_filter {m : Memory} (p : Host.Cell → Bool) (h : Memory.wf m = true) : Memory.wf (m.filter p) = true :=
  Memory.wfFrom_filter m p h

/-- Clearing a range keeps a memory's canonical form. -/
theorem Memory.wf_clear {m : Memory} (a n : Nat) (h : Memory.wf m = true) : Memory.wf (Memory.clear m a n) = true :=
  Memory.wf_filter _ h

/-- A byte at another address stands. -/
theorem Memory.byte_setByte_other (m : Memory) {a b : Nat} (v : Byte) (h : b ≠ a) :
    Memory.byte (Memory.setByte m a v) b = Memory.byte m b := by
  induction m with
  | nil => simp only [Memory.setByte]; split <;> simp [Memory.byte, h]
  | cons c t ih =>
    obtain ⟨k, w⟩ := c
    simp only [Memory.setByte]
    split
    · split <;> simp [Memory.byte, h]
    · split
      · subst_vars; split <;> simp [Memory.byte, h]
      · simp [Memory.byte, ih]

theorem Memory.byte_below {m : Memory} {a b : Nat} (h : Memory.wfFrom a m = true) (hb : b < a) :
    Memory.byte m b = Memory.unwritten := by
  induction m generalizing a with
  | nil => rfl
  | cons c t ih =>
    obtain ⟨k, w⟩ := c
    simp [Memory.wfFrom] at h
    have : b ≠ k := by omega
    simp [Memory.byte, this]
    exact ih h.2 (by omega)

/-- A byte that was written reads as what was written. -/
theorem Memory.byte_setByte_same {m : Memory} (a : Nat) (v : Byte) (h : Memory.wf m = true) :
    Memory.byte (Memory.setByte m a v) a = v := by
  have gen : ∀ (m : Memory) (lo : Nat), Memory.wfFrom lo m = true → Memory.byte (Memory.setByte m a v) a = v := by
    intro m
    induction m with
    | nil => intro lo _; simp only [Memory.setByte]; split <;> simp [Memory.byte, *]
    | cons c t ih =>
      intro lo h
      obtain ⟨k, w⟩ := c
      simp [Memory.wfFrom] at h
      simp only [Memory.setByte]
      split
      · split
        · have hk : a ≠ k := by omega
          simp [Memory.byte, hk]
          rw [Memory.byte_below h.2 (by omega)]; simp [*]
        · simp [Memory.byte]
      · split
        · subst_vars
          split
          · rw [Memory.byte_below h.2 (by omega)]; simp [*]
          · simp [Memory.byte]
        · rename_i h1 h2
          simp [Memory.byte, h2, ih (k + 1) h.2]
  exact gen m 0 h

/-- Bytes outside a written range stand. -/
theorem Memory.byte_setBytes_other (m : Memory) (l : List Byte) (a : Nat) {b : Nat} (h : b < a ∨ a + l.length ≤ b) :
    Memory.byte (Memory.setBytes m a l) b = Memory.byte m b := by
  induction l generalizing m a with
  | nil => rfl
  | cons v t ih =>
    simp at h
    simp only [Memory.setBytes]
    rw [ih _ (a + 1) (by omega), Memory.byte_setByte_other _ _ (by omega)]

@[simp] theorem leBytes_length (v n : Nat) : (leBytes v n).length = n := by
  induction n generalizing v with
  | zero => rfl
  | succ n ih => simp [leBytes, ih]

/-- Bytes outside a written number stand. -/
theorem Memory.byte_write_other (m : Memory) (a n v : Nat) {b : Nat} (h : b < a ∨ a + n ≤ b) :
    Memory.byte (Memory.write m a n v) b = Memory.byte m b :=
  Memory.byte_setBytes_other m _ a (by simpa using h)

/-- The number that the bytes of a number spell. -/
theorem leNat_leBytes (v n : Nat) : leNat (leBytes v n) = v % 256 ^ n := by
  induction n generalizing v with
  | zero => simp [leBytes, leNat, Nat.mod_one]
  | succ n ih =>
    rw [leBytes, leNat, ih, BitVec.toNat_ofNat]
    have h : 256 ^ (n + 1) = 256 * 256 ^ n := Nat.pow_succ' ..
    rw [h, Nat.mod_mul]

theorem Memory.bytes_setByte_below (m : Memory) (a : Nat) (v : Byte) (n : Nat) (b : Nat) (h : a < b) :
    Memory.bytes (Memory.setByte m a v) b n = Memory.bytes m b n := by
  induction n generalizing b with
  | zero => rfl
  | succ n ih => simp [Memory.bytes, ih (b + 1) (by omega), Memory.byte_setByte_other m v (show b ≠ a by omega)]

/-- Bytes that were written read as what was written. -/
theorem Memory.bytes_setBytes_same {m : Memory} (l : List Byte) (a : Nat) (h : Memory.wf m = true) :
    Memory.bytes (Memory.setBytes m a l) a l.length = l := by
  induction l generalizing m a with
  | nil => rfl
  | cons v t ih =>
    simp only [List.length_cons, Memory.bytes, Memory.setBytes]
    rw [ih (a + 1) (Memory.wf_setByte a v h), Memory.byte_setBytes_other _ _ _ (by omega), Memory.byte_setByte_same a v h]

/-- A number that was written reads as what was written. -/
theorem Memory.read_write_same {m : Memory} (a n v : Nat) (h : Memory.wf m = true) :
    Memory.read (Memory.write m a n v) a n = v % 256 ^ n := by
  have := Memory.bytes_setBytes_same (leBytes v n) a h
  rw [leBytes_length] at this
  simp [Memory.read, Memory.write, this, leNat_leBytes]

end Sys2Proof.Machine
end

