-- ==== Sys2Proof/Laws/State.lean ====
section
/-! SUPPORT. The state record under its named updates: one lemma per field per update, and what the readers of tiles, sets and
threads find after one. -/

namespace Sys2Proof.Machine

/-! ### setTile -/

@[simp] theorem setTile_dcc (s : State) (t : Nat) (v : Tile) : (setTile s t v).dcc = s.dcc := rfl
@[simp] theorem setTile_agenda (s : State) (t : Nat) (v : Tile) : (setTile s t v).agenda = s.agenda := rfl
@[simp] theorem setTile_focus (s : State) (t : Nat) (v : Tile) : (setTile s t v).focus = s.focus := rfl
@[simp] theorem setTile_fresh (s : State) (t : Nat) (v : Tile) : (setTile s t v).fresh = s.fresh := rfl
@[simp] theorem setTile_serial (s : State) (t : Nat) (v : Tile) : (setTile s t v).serial = s.serial := rfl
@[simp] theorem setTile_columns (s : State) (t : Nat) (v : Tile) : (setTile s t v).columns = s.columns := rfl
@[simp] theorem setTile_vwords (s : State) (t : Nat) (v : Tile) : (setTile s t v).vwords = s.vwords := rfl
@[simp] theorem setTile_releases (s : State) (t : Nat) (v : Tile) : (setTile s t v).releases = s.releases := rfl
@[simp] theorem setTile_mem (s : State) (t : Nat) (v : Tile) : (setTile s t v).mem = s.mem := rfl
@[simp] theorem setTile_memBad (s : State) (t : Nat) (v : Tile) : (setTile s t v).memBad = s.memBad := rfl
@[simp] theorem setTile_reqs (s : State) (t : Nat) (v : Tile) : (setTile s t v).reqs = s.reqs := rfl
@[simp] theorem setTile_sync (s : State) (t : Nat) (v : Tile) : (setTile s t v).sync = s.sync := rfl
@[simp] theorem setTile_known (s : State) (t : Nat) (v : Tile) : (setTile s t v).known = s.known := rfl
@[simp] theorem setTile_seen (s : State) (t : Nat) (v : Tile) : (setTile s t v).seen = s.seen := rfl
@[simp] theorem setTile_fenced (s : State) (t : Nat) (v : Tile) : (setTile s t v).fenced = s.fenced := rfl
@[simp] theorem setTile_ranks (s : State) (t : Nat) (v : Tile) : (setTile s t v).ranks = s.ranks := rfl
@[simp] theorem setTile_scToken (s : State) (t : Nat) (v : Tile) : (setTile s t v).scToken = s.scToken := rfl
@[simp] theorem setTile_scDone (s : State) (t : Nat) (v : Tile) : (setTile s t v).scDone = s.scDone := rfl
@[simp] theorem setTile_scAt (s : State) (t : Nat) (v : Tile) : (setTile s t v).scAt = s.scAt := rfl
@[simp] theorem setTile_walks (s : State) (t : Nat) (v : Tile) : (setTile s t v).walks = s.walks := rfl
@[simp] theorem setTile_tlb (s : State) (t : Nat) (v : Tile) : (setTile s t v).tlb = s.tlb := rfl
@[simp] theorem setTile_dieOut (s : State) (t : Nat) (v : Tile) : (setTile s t v).dieOut = s.dieOut := rfl
@[simp] theorem setTile_ctxs (s : State) (t : Nat) (v : Tile) : (setTile s t v).ctxs = s.ctxs := rfl
@[simp] theorem setTile_summit (s : State) (t : Nat) (v : Tile) : (setTile s t v).summit = s.summit := rfl
@[simp] theorem setTile_revs (s : State) (t : Nat) (v : Tile) : (setTile s t v).revs = s.revs := rfl
@[simp] theorem setTile_queueOwner (s : State) (t : Nat) (v : Tile) : (setTile s t v).queueOwner = s.queueOwner := rfl
@[simp] theorem setTile_counters (s : State) (t : Nat) (v : Tile) : (setTile s t v).counters = s.counters := rfl
@[simp] theorem setTile_counterOwner (s : State) (t : Nat) (v : Tile) : (setTile s t v).counterOwner = s.counterOwner := rfl
@[simp] theorem setTile_queues (s : State) (t : Nat) (v : Tile) : (setTile s t v).queues = s.queues := rfl
@[simp] theorem setTile_lastQueue (s : State) (t : Nat) (v : Tile) : (setTile s t v).lastQueue = s.lastQueue := rfl
@[simp] theorem setTile_rings (s : State) (t : Nat) (v : Tile) : (setTile s t v).rings = s.rings := rfl
@[simp] theorem setTile_launches (s : State) (t : Nat) (v : Tile) : (setTile s t v).launches = s.launches := rfl
@[simp] theorem setTile_places (s : State) (t : Nat) (v : Tile) : (setTile s t v).places = s.places := rfl
@[simp] theorem setTile_saved (s : State) (t : Nat) (v : Tile) : (setTile s t v).saved = s.saved := rfl
@[simp] theorem setTile_graphs (s : State) (t : Nat) (v : Tile) : (setTile s t v).graphs = s.graphs := rfl
@[simp] theorem setTile_chanOwner (s : State) (t : Nat) (v : Tile) : (setTile s t v).chanOwner = s.chanOwner := rfl
@[simp] theorem setTile_fireOwner (s : State) (t : Nat) (v : Tile) : (setTile s t v).fireOwner = s.fireOwner := rfl
@[simp] theorem setTile_vfOwner (s : State) (t : Nat) (v : Tile) : (setTile s t v).vfOwner = s.vfOwner := rfl
@[simp] theorem setTile_copies (s : State) (t : Nat) (v : Tile) : (setTile s t v).copies = s.copies := rfl
@[simp] theorem setTile_slots (s : State) (t : Nat) (v : Tile) : (setTile s t v).slots = s.slots := rfl
@[simp] theorem setTile_fires (s : State) (t : Nat) (v : Tile) : (setTile s t v).fires = s.fires := rfl
@[simp] theorem setTile_fabChans (s : State) (t : Nat) (v : Tile) : (setTile s t v).fabChans = s.fabChans := rfl
@[simp] theorem setTile_fabPorts (s : State) (t : Nat) (v : Tile) : (setTile s t v).fabPorts = s.fabPorts := rfl
@[simp] theorem setTile_linkUp (s : State) (t : Nat) (v : Tile) : (setTile s t v).linkUp = s.linkUp := rfl
@[simp] theorem setTile_notifies (s : State) (t : Nat) (v : Tile) : (setTile s t v).notifies = s.notifies := rfl
@[simp] theorem setTile_box (s : State) (t : Nat) (v : Tile) : (setTile s t v).box = s.box := rfl
@[simp] theorem setTile_ljSeq (s : State) (t : Nat) (v : Tile) : (setTile s t v).ljSeq = s.ljSeq := rfl
@[simp] theorem setTile_ljState (s : State) (t : Nat) (v : Tile) : (setTile s t v).ljState = s.ljState := rfl
@[simp] theorem setTile_layout (s : State) (t : Nat) (v : Tile) : (setTile s t v).layout = s.layout := rfl
@[simp] theorem setTile_staged (s : State) (t : Nat) (v : Tile) : (setTile s t v).staged = s.staged := rfl
@[simp] theorem setTile_committed (s : State) (t : Nat) (v : Tile) : (setTile s t v).committed = s.committed := rfl
@[simp] theorem setTile_partsOut (s : State) (t : Nat) (v : Tile) : (setTile s t v).partsOut = s.partsOut := rfl
@[simp] theorem setTile_swapAsks (s : State) (t : Nat) (v : Tile) : (setTile s t v).swapAsks = s.swapAsks := rfl
@[simp] theorem setTile_boot (s : State) (t : Nat) (v : Tile) : (setTile s t v).boot = s.boot := rfl
@[simp] theorem setTile_flash (s : State) (t : Nat) (v : Tile) : (setTile s t v).flash = s.flash := rfl
@[simp] theorem setTile_fwVersion (s : State) (t : Nat) (v : Tile) : (setTile s t v).fwVersion = s.fwVersion := rfl
@[simp] theorem setTile_fwDigest (s : State) (t : Nat) (v : Tile) : (setTile s t v).fwDigest = s.fwDigest := rfl
@[simp] theorem setTile_featcap (s : State) (t : Nat) (v : Tile) : (setTile s t v).featcap = s.featcap := rfl
@[simp] theorem setTile_featsel (s : State) (t : Nat) (v : Tile) : (setTile s t v).featsel = s.featsel := rfl
@[simp] theorem setTile_lmsLeaf (s : State) (t : Nat) (v : Tile) : (setTile s t v).lmsLeaf = s.lmsLeaf := rfl
@[simp] theorem setTile_limit (s : State) (t : Nat) (v : Tile) : (setTile s t v).limit = s.limit := rfl
@[simp] theorem setTile_limitNext (s : State) (t : Nat) (v : Tile) : (setTile s t v).limitNext = s.limitNext := rfl
@[simp] theorem setTile_meters (s : State) (t : Nat) (v : Tile) : (setTile s t v).meters = s.meters := rfl
@[simp] theorem setTile_scrubbed (s : State) (t : Nat) (v : Tile) : (setTile s t v).scrubbed = s.scrubbed := rfl
@[simp] theorem setTile_uncorrected (s : State) (t : Nat) (v : Tile) : (setTile s t v).uncorrected = s.uncorrected := rfl
@[simp] theorem setTile_gateBad (s : State) (t : Nat) (v : Tile) : (setTile s t v).gateBad = s.gateBad := rfl
@[simp] theorem setTile_rootEvent (s : State) (t : Nat) (v : Tile) : (setTile s t v).rootEvent = s.rootEvent := rfl
@[simp] theorem setTile_hostRead (s : State) (t : Nat) (v : Tile) : (setTile s t v).hostRead = s.hostRead := rfl
@[simp] theorem setTile_hostPoison (s : State) (t : Nat) (v : Tile) : (setTile s t v).hostPoison = s.hostPoison := rfl

/-! ### modTile -/

@[simp] theorem modTile_dcc (s : State) (t : Nat) (f : Tile → Tile) : (modTile s t f).dcc = s.dcc := rfl
@[simp] theorem modTile_agenda (s : State) (t : Nat) (f : Tile → Tile) : (modTile s t f).agenda = s.agenda := rfl
@[simp] theorem modTile_focus (s : State) (t : Nat) (f : Tile → Tile) : (modTile s t f).focus = s.focus := rfl
@[simp] theorem modTile_fresh (s : State) (t : Nat) (f : Tile → Tile) : (modTile s t f).fresh = s.fresh := rfl
@[simp] theorem modTile_serial (s : State) (t : Nat) (f : Tile → Tile) : (modTile s t f).serial = s.serial := rfl
@[simp] theorem modTile_columns (s : State) (t : Nat) (f : Tile → Tile) : (modTile s t f).columns = s.columns := rfl
@[simp] theorem modTile_vwords (s : State) (t : Nat) (f : Tile → Tile) : (modTile s t f).vwords = s.vwords := rfl
@[simp] theorem modTile_releases (s : State) (t : Nat) (f : Tile → Tile) : (modTile s t f).releases = s.releases := rfl
@[simp] theorem modTile_mem (s : State) (t : Nat) (f : Tile → Tile) : (modTile s t f).mem = s.mem := rfl
@[simp] theorem modTile_memBad (s : State) (t : Nat) (f : Tile → Tile) : (modTile s t f).memBad = s.memBad := rfl
@[simp] theorem modTile_reqs (s : State) (t : Nat) (f : Tile → Tile) : (modTile s t f).reqs = s.reqs := rfl
@[simp] theorem modTile_sync (s : State) (t : Nat) (f : Tile → Tile) : (modTile s t f).sync = s.sync := rfl
@[simp] theorem modTile_known (s : State) (t : Nat) (f : Tile → Tile) : (modTile s t f).known = s.known := rfl
@[simp] theorem modTile_seen (s : State) (t : Nat) (f : Tile → Tile) : (modTile s t f).seen = s.seen := rfl
@[simp] theorem modTile_fenced (s : State) (t : Nat) (f : Tile → Tile) : (modTile s t f).fenced = s.fenced := rfl
@[simp] theorem modTile_ranks (s : State) (t : Nat) (f : Tile → Tile) : (modTile s t f).ranks = s.ranks := rfl
@[simp] theorem modTile_scToken (s : State) (t : Nat) (f : Tile → Tile) : (modTile s t f).scToken = s.scToken := rfl
@[simp] theorem modTile_scDone (s : State) (t : Nat) (f : Tile → Tile) : (modTile s t f).scDone = s.scDone := rfl
@[simp] theorem modTile_scAt (s : State) (t : Nat) (f : Tile → Tile) : (modTile s t f).scAt = s.scAt := rfl
@[simp] theorem modTile_walks (s : State) (t : Nat) (f : Tile → Tile) : (modTile s t f).walks = s.walks := rfl
@[simp] theorem modTile_tlb (s : State) (t : Nat) (f : Tile → Tile) : (modTile s t f).tlb = s.tlb := rfl
@[simp] theorem modTile_dieOut (s : State) (t : Nat) (f : Tile → Tile) : (modTile s t f).dieOut = s.dieOut := rfl
@[simp] theorem modTile_ctxs (s : State) (t : Nat) (f : Tile → Tile) : (modTile s t f).ctxs = s.ctxs := rfl
@[simp] theorem modTile_summit (s : State) (t : Nat) (f : Tile → Tile) : (modTile s t f).summit = s.summit := rfl
@[simp] theorem modTile_revs (s : State) (t : Nat) (f : Tile → Tile) : (modTile s t f).revs = s.revs := rfl
@[simp] theorem modTile_queueOwner (s : State) (t : Nat) (f : Tile → Tile) : (modTile s t f).queueOwner = s.queueOwner := rfl
@[simp] theorem modTile_counters (s : State) (t : Nat) (f : Tile → Tile) : (modTile s t f).counters = s.counters := rfl
@[simp] theorem modTile_counterOwner (s : State) (t : Nat) (f : Tile → Tile) : (modTile s t f).counterOwner = s.counterOwner := rfl
@[simp] theorem modTile_queues (s : State) (t : Nat) (f : Tile → Tile) : (modTile s t f).queues = s.queues := rfl
@[simp] theorem modTile_lastQueue (s : State) (t : Nat) (f : Tile → Tile) : (modTile s t f).lastQueue = s.lastQueue := rfl
@[simp] theorem modTile_rings (s : State) (t : Nat) (f : Tile → Tile) : (modTile s t f).rings = s.rings := rfl
@[simp] theorem modTile_launches (s : State) (t : Nat) (f : Tile → Tile) : (modTile s t f).launches = s.launches := rfl
@[simp] theorem modTile_places (s : State) (t : Nat) (f : Tile → Tile) : (modTile s t f).places = s.places := rfl
@[simp] theorem modTile_saved (s : State) (t : Nat) (f : Tile → Tile) : (modTile s t f).saved = s.saved := rfl
@[simp] theorem modTile_graphs (s : State) (t : Nat) (f : Tile → Tile) : (modTile s t f).graphs = s.graphs := rfl
@[simp] theorem modTile_chanOwner (s : State) (t : Nat) (f : Tile → Tile) : (modTile s t f).chanOwner = s.chanOwner := rfl
@[simp] theorem modTile_fireOwner (s : State) (t : Nat) (f : Tile → Tile) : (modTile s t f).fireOwner = s.fireOwner := rfl
@[simp] theorem modTile_vfOwner (s : State) (t : Nat) (f : Tile → Tile) : (modTile s t f).vfOwner = s.vfOwner := rfl
@[simp] theorem modTile_copies (s : State) (t : Nat) (f : Tile → Tile) : (modTile s t f).copies = s.copies := rfl
@[simp] theorem modTile_slots (s : State) (t : Nat) (f : Tile → Tile) : (modTile s t f).slots = s.slots := rfl
@[simp] theorem modTile_fires (s : State) (t : Nat) (f : Tile → Tile) : (modTile s t f).fires = s.fires := rfl
@[simp] theorem modTile_fabChans (s : State) (t : Nat) (f : Tile → Tile) : (modTile s t f).fabChans = s.fabChans := rfl
@[simp] theorem modTile_fabPorts (s : State) (t : Nat) (f : Tile → Tile) : (modTile s t f).fabPorts = s.fabPorts := rfl
@[simp] theorem modTile_linkUp (s : State) (t : Nat) (f : Tile → Tile) : (modTile s t f).linkUp = s.linkUp := rfl
@[simp] theorem modTile_notifies (s : State) (t : Nat) (f : Tile → Tile) : (modTile s t f).notifies = s.notifies := rfl
@[simp] theorem modTile_box (s : State) (t : Nat) (f : Tile → Tile) : (modTile s t f).box = s.box := rfl
@[simp] theorem modTile_ljSeq (s : State) (t : Nat) (f : Tile → Tile) : (modTile s t f).ljSeq = s.ljSeq := rfl
@[simp] theorem modTile_ljState (s : State) (t : Nat) (f : Tile → Tile) : (modTile s t f).ljState = s.ljState := rfl
@[simp] theorem modTile_layout (s : State) (t : Nat) (f : Tile → Tile) : (modTile s t f).layout = s.layout := rfl
@[simp] theorem modTile_staged (s : State) (t : Nat) (f : Tile → Tile) : (modTile s t f).staged = s.staged := rfl
@[simp] theorem modTile_committed (s : State) (t : Nat) (f : Tile → Tile) : (modTile s t f).committed = s.committed := rfl
@[simp] theorem modTile_partsOut (s : State) (t : Nat) (f : Tile → Tile) : (modTile s t f).partsOut = s.partsOut := rfl
@[simp] theorem modTile_swapAsks (s : State) (t : Nat) (f : Tile → Tile) : (modTile s t f).swapAsks = s.swapAsks := rfl
@[simp] theorem modTile_boot (s : State) (t : Nat) (f : Tile → Tile) : (modTile s t f).boot = s.boot := rfl
@[simp] theorem modTile_flash (s : State) (t : Nat) (f : Tile → Tile) : (modTile s t f).flash = s.flash := rfl
@[simp] theorem modTile_fwVersion (s : State) (t : Nat) (f : Tile → Tile) : (modTile s t f).fwVersion = s.fwVersion := rfl
@[simp] theorem modTile_fwDigest (s : State) (t : Nat) (f : Tile → Tile) : (modTile s t f).fwDigest = s.fwDigest := rfl
@[simp] theorem modTile_featcap (s : State) (t : Nat) (f : Tile → Tile) : (modTile s t f).featcap = s.featcap := rfl
@[simp] theorem modTile_featsel (s : State) (t : Nat) (f : Tile → Tile) : (modTile s t f).featsel = s.featsel := rfl
@[simp] theorem modTile_lmsLeaf (s : State) (t : Nat) (f : Tile → Tile) : (modTile s t f).lmsLeaf = s.lmsLeaf := rfl
@[simp] theorem modTile_limit (s : State) (t : Nat) (f : Tile → Tile) : (modTile s t f).limit = s.limit := rfl
@[simp] theorem modTile_limitNext (s : State) (t : Nat) (f : Tile → Tile) : (modTile s t f).limitNext = s.limitNext := rfl
@[simp] theorem modTile_meters (s : State) (t : Nat) (f : Tile → Tile) : (modTile s t f).meters = s.meters := rfl
@[simp] theorem modTile_scrubbed (s : State) (t : Nat) (f : Tile → Tile) : (modTile s t f).scrubbed = s.scrubbed := rfl
@[simp] theorem modTile_uncorrected (s : State) (t : Nat) (f : Tile → Tile) : (modTile s t f).uncorrected = s.uncorrected := rfl
@[simp] theorem modTile_gateBad (s : State) (t : Nat) (f : Tile → Tile) : (modTile s t f).gateBad = s.gateBad := rfl
@[simp] theorem modTile_rootEvent (s : State) (t : Nat) (f : Tile → Tile) : (modTile s t f).rootEvent = s.rootEvent := rfl
@[simp] theorem modTile_hostRead (s : State) (t : Nat) (f : Tile → Tile) : (modTile s t f).hostRead = s.hostRead := rfl
@[simp] theorem modTile_hostPoison (s : State) (t : Nat) (f : Tile → Tile) : (modTile s t f).hostPoison = s.hostPoison := rfl

/-! ### setSet -/

@[simp] theorem setSet_dcc (s : State) (t i : Nat) (c : CtxSet) : (setSet s t i c).dcc = s.dcc := rfl
@[simp] theorem setSet_agenda (s : State) (t i : Nat) (c : CtxSet) : (setSet s t i c).agenda = s.agenda := rfl
@[simp] theorem setSet_focus (s : State) (t i : Nat) (c : CtxSet) : (setSet s t i c).focus = s.focus := rfl
@[simp] theorem setSet_fresh (s : State) (t i : Nat) (c : CtxSet) : (setSet s t i c).fresh = s.fresh := rfl
@[simp] theorem setSet_serial (s : State) (t i : Nat) (c : CtxSet) : (setSet s t i c).serial = s.serial := rfl
@[simp] theorem setSet_columns (s : State) (t i : Nat) (c : CtxSet) : (setSet s t i c).columns = s.columns := rfl
@[simp] theorem setSet_vwords (s : State) (t i : Nat) (c : CtxSet) : (setSet s t i c).vwords = s.vwords := rfl
@[simp] theorem setSet_releases (s : State) (t i : Nat) (c : CtxSet) : (setSet s t i c).releases = s.releases := rfl
@[simp] theorem setSet_mem (s : State) (t i : Nat) (c : CtxSet) : (setSet s t i c).mem = s.mem := rfl
@[simp] theorem setSet_memBad (s : State) (t i : Nat) (c : CtxSet) : (setSet s t i c).memBad = s.memBad := rfl
@[simp] theorem setSet_reqs (s : State) (t i : Nat) (c : CtxSet) : (setSet s t i c).reqs = s.reqs := rfl
@[simp] theorem setSet_sync (s : State) (t i : Nat) (c : CtxSet) : (setSet s t i c).sync = s.sync := rfl
@[simp] theorem setSet_known (s : State) (t i : Nat) (c : CtxSet) : (setSet s t i c).known = s.known := rfl
@[simp] theorem setSet_seen (s : State) (t i : Nat) (c : CtxSet) : (setSet s t i c).seen = s.seen := rfl
@[simp] theorem setSet_fenced (s : State) (t i : Nat) (c : CtxSet) : (setSet s t i c).fenced = s.fenced := rfl
@[simp] theorem setSet_ranks (s : State) (t i : Nat) (c : CtxSet) : (setSet s t i c).ranks = s.ranks := rfl
@[simp] theorem setSet_scToken (s : State) (t i : Nat) (c : CtxSet) : (setSet s t i c).scToken = s.scToken := rfl
@[simp] theorem setSet_scDone (s : State) (t i : Nat) (c : CtxSet) : (setSet s t i c).scDone = s.scDone := rfl
@[simp] theorem setSet_scAt (s : State) (t i : Nat) (c : CtxSet) : (setSet s t i c).scAt = s.scAt := rfl
@[simp] theorem setSet_walks (s : State) (t i : Nat) (c : CtxSet) : (setSet s t i c).walks = s.walks := rfl
@[simp] theorem setSet_tlb (s : State) (t i : Nat) (c : CtxSet) : (setSet s t i c).tlb = s.tlb := rfl
@[simp] theorem setSet_dieOut (s : State) (t i : Nat) (c : CtxSet) : (setSet s t i c).dieOut = s.dieOut := rfl
@[simp] theorem setSet_ctxs (s : State) (t i : Nat) (c : CtxSet) : (setSet s t i c).ctxs = s.ctxs := rfl
@[simp] theorem setSet_summit (s : State) (t i : Nat) (c : CtxSet) : (setSet s t i c).summit = s.summit := rfl
@[simp] theorem setSet_revs (s : State) (t i : Nat) (c : CtxSet) : (setSet s t i c).revs = s.revs := rfl
@[simp] theorem setSet_queueOwner (s : State) (t i : Nat) (c : CtxSet) : (setSet s t i c).queueOwner = s.queueOwner := rfl
@[simp] theorem setSet_counters (s : State) (t i : Nat) (c : CtxSet) : (setSet s t i c).counters = s.counters := rfl
@[simp] theorem setSet_counterOwner (s : State) (t i : Nat) (c : CtxSet) : (setSet s t i c).counterOwner = s.counterOwner := rfl
@[simp] theorem setSet_queues (s : State) (t i : Nat) (c : CtxSet) : (setSet s t i c).queues = s.queues := rfl
@[simp] theorem setSet_lastQueue (s : State) (t i : Nat) (c : CtxSet) : (setSet s t i c).lastQueue = s.lastQueue := rfl
@[simp] theorem setSet_rings (s : State) (t i : Nat) (c : CtxSet) : (setSet s t i c).rings = s.rings := rfl
@[simp] theorem setSet_launches (s : State) (t i : Nat) (c : CtxSet) : (setSet s t i c).launches = s.launches := rfl
@[simp] theorem setSet_places (s : State) (t i : Nat) (c : CtxSet) : (setSet s t i c).places = s.places := rfl
@[simp] theorem setSet_saved (s : State) (t i : Nat) (c : CtxSet) : (setSet s t i c).saved = s.saved := rfl
@[simp] theorem setSet_graphs (s : State) (t i : Nat) (c : CtxSet) : (setSet s t i c).graphs = s.graphs := rfl
@[simp] theorem setSet_chanOwner (s : State) (t i : Nat) (c : CtxSet) : (setSet s t i c).chanOwner = s.chanOwner := rfl
@[simp] theorem setSet_fireOwner (s : State) (t i : Nat) (c : CtxSet) : (setSet s t i c).fireOwner = s.fireOwner := rfl
@[simp] theorem setSet_vfOwner (s : State) (t i : Nat) (c : CtxSet) : (setSet s t i c).vfOwner = s.vfOwner := rfl
@[simp] theorem setSet_copies (s : State) (t i : Nat) (c : CtxSet) : (setSet s t i c).copies = s.copies := rfl
@[simp] theorem setSet_slots (s : State) (t i : Nat) (c : CtxSet) : (setSet s t i c).slots = s.slots := rfl
@[simp] theorem setSet_fires (s : State) (t i : Nat) (c : CtxSet) : (setSet s t i c).fires = s.fires := rfl
@[simp] theorem setSet_fabChans (s : State) (t i : Nat) (c : CtxSet) : (setSet s t i c).fabChans = s.fabChans := rfl
@[simp] theorem setSet_fabPorts (s : State) (t i : Nat) (c : CtxSet) : (setSet s t i c).fabPorts = s.fabPorts := rfl
@[simp] theorem setSet_linkUp (s : State) (t i : Nat) (c : CtxSet) : (setSet s t i c).linkUp = s.linkUp := rfl
@[simp] theorem setSet_notifies (s : State) (t i : Nat) (c : CtxSet) : (setSet s t i c).notifies = s.notifies := rfl
@[simp] theorem setSet_box (s : State) (t i : Nat) (c : CtxSet) : (setSet s t i c).box = s.box := rfl
@[simp] theorem setSet_ljSeq (s : State) (t i : Nat) (c : CtxSet) : (setSet s t i c).ljSeq = s.ljSeq := rfl
@[simp] theorem setSet_ljState (s : State) (t i : Nat) (c : CtxSet) : (setSet s t i c).ljState = s.ljState := rfl
@[simp] theorem setSet_layout (s : State) (t i : Nat) (c : CtxSet) : (setSet s t i c).layout = s.layout := rfl
@[simp] theorem setSet_staged (s : State) (t i : Nat) (c : CtxSet) : (setSet s t i c).staged = s.staged := rfl
@[simp] theorem setSet_committed (s : State) (t i : Nat) (c : CtxSet) : (setSet s t i c).committed = s.committed := rfl
@[simp] theorem setSet_partsOut (s : State) (t i : Nat) (c : CtxSet) : (setSet s t i c).partsOut = s.partsOut := rfl
@[simp] theorem setSet_swapAsks (s : State) (t i : Nat) (c : CtxSet) : (setSet s t i c).swapAsks = s.swapAsks := rfl
@[simp] theorem setSet_boot (s : State) (t i : Nat) (c : CtxSet) : (setSet s t i c).boot = s.boot := rfl
@[simp] theorem setSet_flash (s : State) (t i : Nat) (c : CtxSet) : (setSet s t i c).flash = s.flash := rfl
@[simp] theorem setSet_fwVersion (s : State) (t i : Nat) (c : CtxSet) : (setSet s t i c).fwVersion = s.fwVersion := rfl
@[simp] theorem setSet_fwDigest (s : State) (t i : Nat) (c : CtxSet) : (setSet s t i c).fwDigest = s.fwDigest := rfl
@[simp] theorem setSet_featcap (s : State) (t i : Nat) (c : CtxSet) : (setSet s t i c).featcap = s.featcap := rfl
@[simp] theorem setSet_featsel (s : State) (t i : Nat) (c : CtxSet) : (setSet s t i c).featsel = s.featsel := rfl
@[simp] theorem setSet_lmsLeaf (s : State) (t i : Nat) (c : CtxSet) : (setSet s t i c).lmsLeaf = s.lmsLeaf := rfl
@[simp] theorem setSet_limit (s : State) (t i : Nat) (c : CtxSet) : (setSet s t i c).limit = s.limit := rfl
@[simp] theorem setSet_limitNext (s : State) (t i : Nat) (c : CtxSet) : (setSet s t i c).limitNext = s.limitNext := rfl
@[simp] theorem setSet_meters (s : State) (t i : Nat) (c : CtxSet) : (setSet s t i c).meters = s.meters := rfl
@[simp] theorem setSet_scrubbed (s : State) (t i : Nat) (c : CtxSet) : (setSet s t i c).scrubbed = s.scrubbed := rfl
@[simp] theorem setSet_uncorrected (s : State) (t i : Nat) (c : CtxSet) : (setSet s t i c).uncorrected = s.uncorrected := rfl
@[simp] theorem setSet_gateBad (s : State) (t i : Nat) (c : CtxSet) : (setSet s t i c).gateBad = s.gateBad := rfl
@[simp] theorem setSet_rootEvent (s : State) (t i : Nat) (c : CtxSet) : (setSet s t i c).rootEvent = s.rootEvent := rfl
@[simp] theorem setSet_hostRead (s : State) (t i : Nat) (c : CtxSet) : (setSet s t i c).hostRead = s.hostRead := rfl
@[simp] theorem setSet_hostPoison (s : State) (t i : Nat) (c : CtxSet) : (setSet s t i c).hostPoison = s.hostPoison := rfl

/-! ### modSet -/

@[simp] theorem modSet_dcc (s : State) (t i : Nat) (f : CtxSet → CtxSet) : (modSet s t i f).dcc = s.dcc := rfl
@[simp] theorem modSet_agenda (s : State) (t i : Nat) (f : CtxSet → CtxSet) : (modSet s t i f).agenda = s.agenda := rfl
@[simp] theorem modSet_focus (s : State) (t i : Nat) (f : CtxSet → CtxSet) : (modSet s t i f).focus = s.focus := rfl
@[simp] theorem modSet_fresh (s : State) (t i : Nat) (f : CtxSet → CtxSet) : (modSet s t i f).fresh = s.fresh := rfl
@[simp] theorem modSet_serial (s : State) (t i : Nat) (f : CtxSet → CtxSet) : (modSet s t i f).serial = s.serial := rfl
@[simp] theorem modSet_columns (s : State) (t i : Nat) (f : CtxSet → CtxSet) : (modSet s t i f).columns = s.columns := rfl
@[simp] theorem modSet_vwords (s : State) (t i : Nat) (f : CtxSet → CtxSet) : (modSet s t i f).vwords = s.vwords := rfl
@[simp] theorem modSet_releases (s : State) (t i : Nat) (f : CtxSet → CtxSet) : (modSet s t i f).releases = s.releases := rfl
@[simp] theorem modSet_mem (s : State) (t i : Nat) (f : CtxSet → CtxSet) : (modSet s t i f).mem = s.mem := rfl
@[simp] theorem modSet_memBad (s : State) (t i : Nat) (f : CtxSet → CtxSet) : (modSet s t i f).memBad = s.memBad := rfl
@[simp] theorem modSet_reqs (s : State) (t i : Nat) (f : CtxSet → CtxSet) : (modSet s t i f).reqs = s.reqs := rfl
@[simp] theorem modSet_sync (s : State) (t i : Nat) (f : CtxSet → CtxSet) : (modSet s t i f).sync = s.sync := rfl
@[simp] theorem modSet_known (s : State) (t i : Nat) (f : CtxSet → CtxSet) : (modSet s t i f).known = s.known := rfl
@[simp] theorem modSet_seen (s : State) (t i : Nat) (f : CtxSet → CtxSet) : (modSet s t i f).seen = s.seen := rfl
@[simp] theorem modSet_fenced (s : State) (t i : Nat) (f : CtxSet → CtxSet) : (modSet s t i f).fenced = s.fenced := rfl
@[simp] theorem modSet_ranks (s : State) (t i : Nat) (f : CtxSet → CtxSet) : (modSet s t i f).ranks = s.ranks := rfl
@[simp] theorem modSet_scToken (s : State) (t i : Nat) (f : CtxSet → CtxSet) : (modSet s t i f).scToken = s.scToken := rfl
@[simp] theorem modSet_scDone (s : State) (t i : Nat) (f : CtxSet → CtxSet) : (modSet s t i f).scDone = s.scDone := rfl
@[simp] theorem modSet_scAt (s : State) (t i : Nat) (f : CtxSet → CtxSet) : (modSet s t i f).scAt = s.scAt := rfl
@[simp] theorem modSet_walks (s : State) (t i : Nat) (f : CtxSet → CtxSet) : (modSet s t i f).walks = s.walks := rfl
@[simp] theorem modSet_tlb (s : State) (t i : Nat) (f : CtxSet → CtxSet) : (modSet s t i f).tlb = s.tlb := rfl
@[simp] theorem modSet_dieOut (s : State) (t i : Nat) (f : CtxSet → CtxSet) : (modSet s t i f).dieOut = s.dieOut := rfl
@[simp] theorem modSet_ctxs (s : State) (t i : Nat) (f : CtxSet → CtxSet) : (modSet s t i f).ctxs = s.ctxs := rfl
@[simp] theorem modSet_summit (s : State) (t i : Nat) (f : CtxSet → CtxSet) : (modSet s t i f).summit = s.summit := rfl
@[simp] theorem modSet_revs (s : State) (t i : Nat) (f : CtxSet → CtxSet) : (modSet s t i f).revs = s.revs := rfl
@[simp] theorem modSet_queueOwner (s : State) (t i : Nat) (f : CtxSet → CtxSet) : (modSet s t i f).queueOwner = s.queueOwner := rfl
@[simp] theorem modSet_counters (s : State) (t i : Nat) (f : CtxSet → CtxSet) : (modSet s t i f).counters = s.counters := rfl
@[simp] theorem modSet_counterOwner (s : State) (t i : Nat) (f : CtxSet → CtxSet) : (modSet s t i f).counterOwner = s.counterOwner := rfl
@[simp] theorem modSet_queues (s : State) (t i : Nat) (f : CtxSet → CtxSet) : (modSet s t i f).queues = s.queues := rfl
@[simp] theorem modSet_lastQueue (s : State) (t i : Nat) (f : CtxSet → CtxSet) : (modSet s t i f).lastQueue = s.lastQueue := rfl
@[simp] theorem modSet_rings (s : State) (t i : Nat) (f : CtxSet → CtxSet) : (modSet s t i f).rings = s.rings := rfl
@[simp] theorem modSet_launches (s : State) (t i : Nat) (f : CtxSet → CtxSet) : (modSet s t i f).launches = s.launches := rfl
@[simp] theorem modSet_places (s : State) (t i : Nat) (f : CtxSet → CtxSet) : (modSet s t i f).places = s.places := rfl
@[simp] theorem modSet_saved (s : State) (t i : Nat) (f : CtxSet → CtxSet) : (modSet s t i f).saved = s.saved := rfl
@[simp] theorem modSet_graphs (s : State) (t i : Nat) (f : CtxSet → CtxSet) : (modSet s t i f).graphs = s.graphs := rfl
@[simp] theorem modSet_chanOwner (s : State) (t i : Nat) (f : CtxSet → CtxSet) : (modSet s t i f).chanOwner = s.chanOwner := rfl
@[simp] theorem modSet_fireOwner (s : State) (t i : Nat) (f : CtxSet → CtxSet) : (modSet s t i f).fireOwner = s.fireOwner := rfl
@[simp] theorem modSet_vfOwner (s : State) (t i : Nat) (f : CtxSet → CtxSet) : (modSet s t i f).vfOwner = s.vfOwner := rfl
@[simp] theorem modSet_copies (s : State) (t i : Nat) (f : CtxSet → CtxSet) : (modSet s t i f).copies = s.copies := rfl
@[simp] theorem modSet_slots (s : State) (t i : Nat) (f : CtxSet → CtxSet) : (modSet s t i f).slots = s.slots := rfl
@[simp] theorem modSet_fires (s : State) (t i : Nat) (f : CtxSet → CtxSet) : (modSet s t i f).fires = s.fires := rfl
@[simp] theorem modSet_fabChans (s : State) (t i : Nat) (f : CtxSet → CtxSet) : (modSet s t i f).fabChans = s.fabChans := rfl
@[simp] theorem modSet_fabPorts (s : State) (t i : Nat) (f : CtxSet → CtxSet) : (modSet s t i f).fabPorts = s.fabPorts := rfl
@[simp] theorem modSet_linkUp (s : State) (t i : Nat) (f : CtxSet → CtxSet) : (modSet s t i f).linkUp = s.linkUp := rfl
@[simp] theorem modSet_notifies (s : State) (t i : Nat) (f : CtxSet → CtxSet) : (modSet s t i f).notifies = s.notifies := rfl
@[simp] theorem modSet_box (s : State) (t i : Nat) (f : CtxSet → CtxSet) : (modSet s t i f).box = s.box := rfl
@[simp] theorem modSet_ljSeq (s : State) (t i : Nat) (f : CtxSet → CtxSet) : (modSet s t i f).ljSeq = s.ljSeq := rfl
@[simp] theorem modSet_ljState (s : State) (t i : Nat) (f : CtxSet → CtxSet) : (modSet s t i f).ljState = s.ljState := rfl
@[simp] theorem modSet_layout (s : State) (t i : Nat) (f : CtxSet → CtxSet) : (modSet s t i f).layout = s.layout := rfl
@[simp] theorem modSet_staged (s : State) (t i : Nat) (f : CtxSet → CtxSet) : (modSet s t i f).staged = s.staged := rfl
@[simp] theorem modSet_committed (s : State) (t i : Nat) (f : CtxSet → CtxSet) : (modSet s t i f).committed = s.committed := rfl
@[simp] theorem modSet_partsOut (s : State) (t i : Nat) (f : CtxSet → CtxSet) : (modSet s t i f).partsOut = s.partsOut := rfl
@[simp] theorem modSet_swapAsks (s : State) (t i : Nat) (f : CtxSet → CtxSet) : (modSet s t i f).swapAsks = s.swapAsks := rfl
@[simp] theorem modSet_boot (s : State) (t i : Nat) (f : CtxSet → CtxSet) : (modSet s t i f).boot = s.boot := rfl
@[simp] theorem modSet_flash (s : State) (t i : Nat) (f : CtxSet → CtxSet) : (modSet s t i f).flash = s.flash := rfl
@[simp] theorem modSet_fwVersion (s : State) (t i : Nat) (f : CtxSet → CtxSet) : (modSet s t i f).fwVersion = s.fwVersion := rfl
@[simp] theorem modSet_fwDigest (s : State) (t i : Nat) (f : CtxSet → CtxSet) : (modSet s t i f).fwDigest = s.fwDigest := rfl
@[simp] theorem modSet_featcap (s : State) (t i : Nat) (f : CtxSet → CtxSet) : (modSet s t i f).featcap = s.featcap := rfl
@[simp] theorem modSet_featsel (s : State) (t i : Nat) (f : CtxSet → CtxSet) : (modSet s t i f).featsel = s.featsel := rfl
@[simp] theorem modSet_lmsLeaf (s : State) (t i : Nat) (f : CtxSet → CtxSet) : (modSet s t i f).lmsLeaf = s.lmsLeaf := rfl
@[simp] theorem modSet_limit (s : State) (t i : Nat) (f : CtxSet → CtxSet) : (modSet s t i f).limit = s.limit := rfl
@[simp] theorem modSet_limitNext (s : State) (t i : Nat) (f : CtxSet → CtxSet) : (modSet s t i f).limitNext = s.limitNext := rfl
@[simp] theorem modSet_meters (s : State) (t i : Nat) (f : CtxSet → CtxSet) : (modSet s t i f).meters = s.meters := rfl
@[simp] theorem modSet_scrubbed (s : State) (t i : Nat) (f : CtxSet → CtxSet) : (modSet s t i f).scrubbed = s.scrubbed := rfl
@[simp] theorem modSet_uncorrected (s : State) (t i : Nat) (f : CtxSet → CtxSet) : (modSet s t i f).uncorrected = s.uncorrected := rfl
@[simp] theorem modSet_gateBad (s : State) (t i : Nat) (f : CtxSet → CtxSet) : (modSet s t i f).gateBad = s.gateBad := rfl
@[simp] theorem modSet_rootEvent (s : State) (t i : Nat) (f : CtxSet → CtxSet) : (modSet s t i f).rootEvent = s.rootEvent := rfl
@[simp] theorem modSet_hostRead (s : State) (t i : Nat) (f : CtxSet → CtxSet) : (modSet s t i f).hostRead = s.hostRead := rfl
@[simp] theorem modSet_hostPoison (s : State) (t i : Nat) (f : CtxSet → CtxSet) : (modSet s t i f).hostPoison = s.hostPoison := rfl

/-! ### modThread -/

@[simp] theorem modThread_dcc (s : State) (t i n : Nat) (f : Thread → Thread) : (modThread s t i n f).dcc = s.dcc := rfl
@[simp] theorem modThread_agenda (s : State) (t i n : Nat) (f : Thread → Thread) : (modThread s t i n f).agenda = s.agenda := rfl
@[simp] theorem modThread_focus (s : State) (t i n : Nat) (f : Thread → Thread) : (modThread s t i n f).focus = s.focus := rfl
@[simp] theorem modThread_fresh (s : State) (t i n : Nat) (f : Thread → Thread) : (modThread s t i n f).fresh = s.fresh := rfl
@[simp] theorem modThread_serial (s : State) (t i n : Nat) (f : Thread → Thread) : (modThread s t i n f).serial = s.serial := rfl
@[simp] theorem modThread_columns (s : State) (t i n : Nat) (f : Thread → Thread) : (modThread s t i n f).columns = s.columns := rfl
@[simp] theorem modThread_vwords (s : State) (t i n : Nat) (f : Thread → Thread) : (modThread s t i n f).vwords = s.vwords := rfl
@[simp] theorem modThread_releases (s : State) (t i n : Nat) (f : Thread → Thread) : (modThread s t i n f).releases = s.releases := rfl
@[simp] theorem modThread_mem (s : State) (t i n : Nat) (f : Thread → Thread) : (modThread s t i n f).mem = s.mem := rfl
@[simp] theorem modThread_memBad (s : State) (t i n : Nat) (f : Thread → Thread) : (modThread s t i n f).memBad = s.memBad := rfl
@[simp] theorem modThread_reqs (s : State) (t i n : Nat) (f : Thread → Thread) : (modThread s t i n f).reqs = s.reqs := rfl
@[simp] theorem modThread_sync (s : State) (t i n : Nat) (f : Thread → Thread) : (modThread s t i n f).sync = s.sync := rfl
@[simp] theorem modThread_known (s : State) (t i n : Nat) (f : Thread → Thread) : (modThread s t i n f).known = s.known := rfl
@[simp] theorem modThread_seen (s : State) (t i n : Nat) (f : Thread → Thread) : (modThread s t i n f).seen = s.seen := rfl
@[simp] theorem modThread_fenced (s : State) (t i n : Nat) (f : Thread → Thread) : (modThread s t i n f).fenced = s.fenced := rfl
@[simp] theorem modThread_ranks (s : State) (t i n : Nat) (f : Thread → Thread) : (modThread s t i n f).ranks = s.ranks := rfl
@[simp] theorem modThread_scToken (s : State) (t i n : Nat) (f : Thread → Thread) : (modThread s t i n f).scToken = s.scToken := rfl
@[simp] theorem modThread_scDone (s : State) (t i n : Nat) (f : Thread → Thread) : (modThread s t i n f).scDone = s.scDone := rfl
@[simp] theorem modThread_scAt (s : State) (t i n : Nat) (f : Thread → Thread) : (modThread s t i n f).scAt = s.scAt := rfl
@[simp] theorem modThread_walks (s : State) (t i n : Nat) (f : Thread → Thread) : (modThread s t i n f).walks = s.walks := rfl
@[simp] theorem modThread_tlb (s : State) (t i n : Nat) (f : Thread → Thread) : (modThread s t i n f).tlb = s.tlb := rfl
@[simp] theorem modThread_dieOut (s : State) (t i n : Nat) (f : Thread → Thread) : (modThread s t i n f).dieOut = s.dieOut := rfl
@[simp] theorem modThread_ctxs (s : State) (t i n : Nat) (f : Thread → Thread) : (modThread s t i n f).ctxs = s.ctxs := rfl
@[simp] theorem modThread_summit (s : State) (t i n : Nat) (f : Thread → Thread) : (modThread s t i n f).summit = s.summit := rfl
@[simp] theorem modThread_revs (s : State) (t i n : Nat) (f : Thread → Thread) : (modThread s t i n f).revs = s.revs := rfl
@[simp] theorem modThread_queueOwner (s : State) (t i n : Nat) (f : Thread → Thread) : (modThread s t i n f).queueOwner = s.queueOwner := rfl
@[simp] theorem modThread_counters (s : State) (t i n : Nat) (f : Thread → Thread) : (modThread s t i n f).counters = s.counters := rfl
@[simp] theorem modThread_counterOwner (s : State) (t i n : Nat) (f : Thread → Thread) : (modThread s t i n f).counterOwner = s.counterOwner := rfl
@[simp] theorem modThread_queues (s : State) (t i n : Nat) (f : Thread → Thread) : (modThread s t i n f).queues = s.queues := rfl
@[simp] theorem modThread_lastQueue (s : State) (t i n : Nat) (f : Thread → Thread) : (modThread s t i n f).lastQueue = s.lastQueue := rfl
@[simp] theorem modThread_rings (s : State) (t i n : Nat) (f : Thread → Thread) : (modThread s t i n f).rings = s.rings := rfl
@[simp] theorem modThread_launches (s : State) (t i n : Nat) (f : Thread → Thread) : (modThread s t i n f).launches = s.launches := rfl
@[simp] theorem modThread_places (s : State) (t i n : Nat) (f : Thread → Thread) : (modThread s t i n f).places = s.places := rfl
@[simp] theorem modThread_saved (s : State) (t i n : Nat) (f : Thread → Thread) : (modThread s t i n f).saved = s.saved := rfl
@[simp] theorem modThread_graphs (s : State) (t i n : Nat) (f : Thread → Thread) : (modThread s t i n f).graphs = s.graphs := rfl
@[simp] theorem modThread_chanOwner (s : State) (t i n : Nat) (f : Thread → Thread) : (modThread s t i n f).chanOwner = s.chanOwner := rfl
@[simp] theorem modThread_fireOwner (s : State) (t i n : Nat) (f : Thread → Thread) : (modThread s t i n f).fireOwner = s.fireOwner := rfl
@[simp] theorem modThread_vfOwner (s : State) (t i n : Nat) (f : Thread → Thread) : (modThread s t i n f).vfOwner = s.vfOwner := rfl
@[simp] theorem modThread_copies (s : State) (t i n : Nat) (f : Thread → Thread) : (modThread s t i n f).copies = s.copies := rfl
@[simp] theorem modThread_slots (s : State) (t i n : Nat) (f : Thread → Thread) : (modThread s t i n f).slots = s.slots := rfl
@[simp] theorem modThread_fires (s : State) (t i n : Nat) (f : Thread → Thread) : (modThread s t i n f).fires = s.fires := rfl
@[simp] theorem modThread_fabChans (s : State) (t i n : Nat) (f : Thread → Thread) : (modThread s t i n f).fabChans = s.fabChans := rfl
@[simp] theorem modThread_fabPorts (s : State) (t i n : Nat) (f : Thread → Thread) : (modThread s t i n f).fabPorts = s.fabPorts := rfl
@[simp] theorem modThread_linkUp (s : State) (t i n : Nat) (f : Thread → Thread) : (modThread s t i n f).linkUp = s.linkUp := rfl
@[simp] theorem modThread_notifies (s : State) (t i n : Nat) (f : Thread → Thread) : (modThread s t i n f).notifies = s.notifies := rfl
@[simp] theorem modThread_box (s : State) (t i n : Nat) (f : Thread → Thread) : (modThread s t i n f).box = s.box := rfl
@[simp] theorem modThread_ljSeq (s : State) (t i n : Nat) (f : Thread → Thread) : (modThread s t i n f).ljSeq = s.ljSeq := rfl
@[simp] theorem modThread_ljState (s : State) (t i n : Nat) (f : Thread → Thread) : (modThread s t i n f).ljState = s.ljState := rfl
@[simp] theorem modThread_layout (s : State) (t i n : Nat) (f : Thread → Thread) : (modThread s t i n f).layout = s.layout := rfl
@[simp] theorem modThread_staged (s : State) (t i n : Nat) (f : Thread → Thread) : (modThread s t i n f).staged = s.staged := rfl
@[simp] theorem modThread_committed (s : State) (t i n : Nat) (f : Thread → Thread) : (modThread s t i n f).committed = s.committed := rfl
@[simp] theorem modThread_partsOut (s : State) (t i n : Nat) (f : Thread → Thread) : (modThread s t i n f).partsOut = s.partsOut := rfl
@[simp] theorem modThread_swapAsks (s : State) (t i n : Nat) (f : Thread → Thread) : (modThread s t i n f).swapAsks = s.swapAsks := rfl
@[simp] theorem modThread_boot (s : State) (t i n : Nat) (f : Thread → Thread) : (modThread s t i n f).boot = s.boot := rfl
@[simp] theorem modThread_flash (s : State) (t i n : Nat) (f : Thread → Thread) : (modThread s t i n f).flash = s.flash := rfl
@[simp] theorem modThread_fwVersion (s : State) (t i n : Nat) (f : Thread → Thread) : (modThread s t i n f).fwVersion = s.fwVersion := rfl
@[simp] theorem modThread_fwDigest (s : State) (t i n : Nat) (f : Thread → Thread) : (modThread s t i n f).fwDigest = s.fwDigest := rfl
@[simp] theorem modThread_featcap (s : State) (t i n : Nat) (f : Thread → Thread) : (modThread s t i n f).featcap = s.featcap := rfl
@[simp] theorem modThread_featsel (s : State) (t i n : Nat) (f : Thread → Thread) : (modThread s t i n f).featsel = s.featsel := rfl
@[simp] theorem modThread_lmsLeaf (s : State) (t i n : Nat) (f : Thread → Thread) : (modThread s t i n f).lmsLeaf = s.lmsLeaf := rfl
@[simp] theorem modThread_limit (s : State) (t i n : Nat) (f : Thread → Thread) : (modThread s t i n f).limit = s.limit := rfl
@[simp] theorem modThread_limitNext (s : State) (t i n : Nat) (f : Thread → Thread) : (modThread s t i n f).limitNext = s.limitNext := rfl
@[simp] theorem modThread_meters (s : State) (t i n : Nat) (f : Thread → Thread) : (modThread s t i n f).meters = s.meters := rfl
@[simp] theorem modThread_scrubbed (s : State) (t i n : Nat) (f : Thread → Thread) : (modThread s t i n f).scrubbed = s.scrubbed := rfl
@[simp] theorem modThread_uncorrected (s : State) (t i n : Nat) (f : Thread → Thread) : (modThread s t i n f).uncorrected = s.uncorrected := rfl
@[simp] theorem modThread_gateBad (s : State) (t i n : Nat) (f : Thread → Thread) : (modThread s t i n f).gateBad = s.gateBad := rfl
@[simp] theorem modThread_rootEvent (s : State) (t i n : Nat) (f : Thread → Thread) : (modThread s t i n f).rootEvent = s.rootEvent := rfl
@[simp] theorem modThread_hostRead (s : State) (t i n : Nat) (f : Thread → Thread) : (modThread s t i n f).hostRead = s.hostRead := rfl
@[simp] theorem modThread_hostPoison (s : State) (t i n : Nat) (f : Thread → Thread) : (modThread s t i n f).hostPoison = s.hostPoison := rfl

/-! ### modCurTile -/

@[simp] theorem modCurTile_dcc (s : State) (f : Tile → Tile) : (modCurTile s f).dcc = s.dcc := rfl
@[simp] theorem modCurTile_agenda (s : State) (f : Tile → Tile) : (modCurTile s f).agenda = s.agenda := rfl
@[simp] theorem modCurTile_focus (s : State) (f : Tile → Tile) : (modCurTile s f).focus = s.focus := rfl
@[simp] theorem modCurTile_fresh (s : State) (f : Tile → Tile) : (modCurTile s f).fresh = s.fresh := rfl
@[simp] theorem modCurTile_serial (s : State) (f : Tile → Tile) : (modCurTile s f).serial = s.serial := rfl
@[simp] theorem modCurTile_columns (s : State) (f : Tile → Tile) : (modCurTile s f).columns = s.columns := rfl
@[simp] theorem modCurTile_vwords (s : State) (f : Tile → Tile) : (modCurTile s f).vwords = s.vwords := rfl
@[simp] theorem modCurTile_releases (s : State) (f : Tile → Tile) : (modCurTile s f).releases = s.releases := rfl
@[simp] theorem modCurTile_mem (s : State) (f : Tile → Tile) : (modCurTile s f).mem = s.mem := rfl
@[simp] theorem modCurTile_memBad (s : State) (f : Tile → Tile) : (modCurTile s f).memBad = s.memBad := rfl
@[simp] theorem modCurTile_reqs (s : State) (f : Tile → Tile) : (modCurTile s f).reqs = s.reqs := rfl
@[simp] theorem modCurTile_sync (s : State) (f : Tile → Tile) : (modCurTile s f).sync = s.sync := rfl
@[simp] theorem modCurTile_known (s : State) (f : Tile → Tile) : (modCurTile s f).known = s.known := rfl
@[simp] theorem modCurTile_seen (s : State) (f : Tile → Tile) : (modCurTile s f).seen = s.seen := rfl
@[simp] theorem modCurTile_fenced (s : State) (f : Tile → Tile) : (modCurTile s f).fenced = s.fenced := rfl
@[simp] theorem modCurTile_ranks (s : State) (f : Tile → Tile) : (modCurTile s f).ranks = s.ranks := rfl
@[simp] theorem modCurTile_scToken (s : State) (f : Tile → Tile) : (modCurTile s f).scToken = s.scToken := rfl
@[simp] theorem modCurTile_scDone (s : State) (f : Tile → Tile) : (modCurTile s f).scDone = s.scDone := rfl
@[simp] theorem modCurTile_scAt (s : State) (f : Tile → Tile) : (modCurTile s f).scAt = s.scAt := rfl
@[simp] theorem modCurTile_walks (s : State) (f : Tile → Tile) : (modCurTile s f).walks = s.walks := rfl
@[simp] theorem modCurTile_tlb (s : State) (f : Tile → Tile) : (modCurTile s f).tlb = s.tlb := rfl
@[simp] theorem modCurTile_dieOut (s : State) (f : Tile → Tile) : (modCurTile s f).dieOut = s.dieOut := rfl
@[simp] theorem modCurTile_ctxs (s : State) (f : Tile → Tile) : (modCurTile s f).ctxs = s.ctxs := rfl
@[simp] theorem modCurTile_summit (s : State) (f : Tile → Tile) : (modCurTile s f).summit = s.summit := rfl
@[simp] theorem modCurTile_revs (s : State) (f : Tile → Tile) : (modCurTile s f).revs = s.revs := rfl
@[simp] theorem modCurTile_queueOwner (s : State) (f : Tile → Tile) : (modCurTile s f).queueOwner = s.queueOwner := rfl
@[simp] theorem modCurTile_counters (s : State) (f : Tile → Tile) : (modCurTile s f).counters = s.counters := rfl
@[simp] theorem modCurTile_counterOwner (s : State) (f : Tile → Tile) : (modCurTile s f).counterOwner = s.counterOwner := rfl
@[simp] theorem modCurTile_queues (s : State) (f : Tile → Tile) : (modCurTile s f).queues = s.queues := rfl
@[simp] theorem modCurTile_lastQueue (s : State) (f : Tile → Tile) : (modCurTile s f).lastQueue = s.lastQueue := rfl
@[simp] theorem modCurTile_rings (s : State) (f : Tile → Tile) : (modCurTile s f).rings = s.rings := rfl
@[simp] theorem modCurTile_launches (s : State) (f : Tile → Tile) : (modCurTile s f).launches = s.launches := rfl
@[simp] theorem modCurTile_places (s : State) (f : Tile → Tile) : (modCurTile s f).places = s.places := rfl
@[simp] theorem modCurTile_saved (s : State) (f : Tile → Tile) : (modCurTile s f).saved = s.saved := rfl
@[simp] theorem modCurTile_graphs (s : State) (f : Tile → Tile) : (modCurTile s f).graphs = s.graphs := rfl
@[simp] theorem modCurTile_chanOwner (s : State) (f : Tile → Tile) : (modCurTile s f).chanOwner = s.chanOwner := rfl
@[simp] theorem modCurTile_fireOwner (s : State) (f : Tile → Tile) : (modCurTile s f).fireOwner = s.fireOwner := rfl
@[simp] theorem modCurTile_vfOwner (s : State) (f : Tile → Tile) : (modCurTile s f).vfOwner = s.vfOwner := rfl
@[simp] theorem modCurTile_copies (s : State) (f : Tile → Tile) : (modCurTile s f).copies = s.copies := rfl
@[simp] theorem modCurTile_slots (s : State) (f : Tile → Tile) : (modCurTile s f).slots = s.slots := rfl
@[simp] theorem modCurTile_fires (s : State) (f : Tile → Tile) : (modCurTile s f).fires = s.fires := rfl
@[simp] theorem modCurTile_fabChans (s : State) (f : Tile → Tile) : (modCurTile s f).fabChans = s.fabChans := rfl
@[simp] theorem modCurTile_fabPorts (s : State) (f : Tile → Tile) : (modCurTile s f).fabPorts = s.fabPorts := rfl
@[simp] theorem modCurTile_linkUp (s : State) (f : Tile → Tile) : (modCurTile s f).linkUp = s.linkUp := rfl
@[simp] theorem modCurTile_notifies (s : State) (f : Tile → Tile) : (modCurTile s f).notifies = s.notifies := rfl
@[simp] theorem modCurTile_box (s : State) (f : Tile → Tile) : (modCurTile s f).box = s.box := rfl
@[simp] theorem modCurTile_ljSeq (s : State) (f : Tile → Tile) : (modCurTile s f).ljSeq = s.ljSeq := rfl
@[simp] theorem modCurTile_ljState (s : State) (f : Tile → Tile) : (modCurTile s f).ljState = s.ljState := rfl
@[simp] theorem modCurTile_layout (s : State) (f : Tile → Tile) : (modCurTile s f).layout = s.layout := rfl
@[simp] theorem modCurTile_staged (s : State) (f : Tile → Tile) : (modCurTile s f).staged = s.staged := rfl
@[simp] theorem modCurTile_committed (s : State) (f : Tile → Tile) : (modCurTile s f).committed = s.committed := rfl
@[simp] theorem modCurTile_partsOut (s : State) (f : Tile → Tile) : (modCurTile s f).partsOut = s.partsOut := rfl
@[simp] theorem modCurTile_swapAsks (s : State) (f : Tile → Tile) : (modCurTile s f).swapAsks = s.swapAsks := rfl
@[simp] theorem modCurTile_boot (s : State) (f : Tile → Tile) : (modCurTile s f).boot = s.boot := rfl
@[simp] theorem modCurTile_flash (s : State) (f : Tile → Tile) : (modCurTile s f).flash = s.flash := rfl
@[simp] theorem modCurTile_fwVersion (s : State) (f : Tile → Tile) : (modCurTile s f).fwVersion = s.fwVersion := rfl
@[simp] theorem modCurTile_fwDigest (s : State) (f : Tile → Tile) : (modCurTile s f).fwDigest = s.fwDigest := rfl
@[simp] theorem modCurTile_featcap (s : State) (f : Tile → Tile) : (modCurTile s f).featcap = s.featcap := rfl
@[simp] theorem modCurTile_featsel (s : State) (f : Tile → Tile) : (modCurTile s f).featsel = s.featsel := rfl
@[simp] theorem modCurTile_lmsLeaf (s : State) (f : Tile → Tile) : (modCurTile s f).lmsLeaf = s.lmsLeaf := rfl
@[simp] theorem modCurTile_limit (s : State) (f : Tile → Tile) : (modCurTile s f).limit = s.limit := rfl
@[simp] theorem modCurTile_limitNext (s : State) (f : Tile → Tile) : (modCurTile s f).limitNext = s.limitNext := rfl
@[simp] theorem modCurTile_meters (s : State) (f : Tile → Tile) : (modCurTile s f).meters = s.meters := rfl
@[simp] theorem modCurTile_scrubbed (s : State) (f : Tile → Tile) : (modCurTile s f).scrubbed = s.scrubbed := rfl
@[simp] theorem modCurTile_uncorrected (s : State) (f : Tile → Tile) : (modCurTile s f).uncorrected = s.uncorrected := rfl
@[simp] theorem modCurTile_gateBad (s : State) (f : Tile → Tile) : (modCurTile s f).gateBad = s.gateBad := rfl
@[simp] theorem modCurTile_rootEvent (s : State) (f : Tile → Tile) : (modCurTile s f).rootEvent = s.rootEvent := rfl
@[simp] theorem modCurTile_hostRead (s : State) (f : Tile → Tile) : (modCurTile s f).hostRead = s.hostRead := rfl
@[simp] theorem modCurTile_hostPoison (s : State) (f : Tile → Tile) : (modCurTile s f).hostPoison = s.hostPoison := rfl

/-! ### modCurSet -/

@[simp] theorem modCurSet_dcc (s : State) (f : CtxSet → CtxSet) : (modCurSet s f).dcc = s.dcc := rfl
@[simp] theorem modCurSet_agenda (s : State) (f : CtxSet → CtxSet) : (modCurSet s f).agenda = s.agenda := rfl
@[simp] theorem modCurSet_focus (s : State) (f : CtxSet → CtxSet) : (modCurSet s f).focus = s.focus := rfl
@[simp] theorem modCurSet_fresh (s : State) (f : CtxSet → CtxSet) : (modCurSet s f).fresh = s.fresh := rfl
@[simp] theorem modCurSet_serial (s : State) (f : CtxSet → CtxSet) : (modCurSet s f).serial = s.serial := rfl
@[simp] theorem modCurSet_columns (s : State) (f : CtxSet → CtxSet) : (modCurSet s f).columns = s.columns := rfl
@[simp] theorem modCurSet_vwords (s : State) (f : CtxSet → CtxSet) : (modCurSet s f).vwords = s.vwords := rfl
@[simp] theorem modCurSet_releases (s : State) (f : CtxSet → CtxSet) : (modCurSet s f).releases = s.releases := rfl
@[simp] theorem modCurSet_mem (s : State) (f : CtxSet → CtxSet) : (modCurSet s f).mem = s.mem := rfl
@[simp] theorem modCurSet_memBad (s : State) (f : CtxSet → CtxSet) : (modCurSet s f).memBad = s.memBad := rfl
@[simp] theorem modCurSet_reqs (s : State) (f : CtxSet → CtxSet) : (modCurSet s f).reqs = s.reqs := rfl
@[simp] theorem modCurSet_sync (s : State) (f : CtxSet → CtxSet) : (modCurSet s f).sync = s.sync := rfl
@[simp] theorem modCurSet_known (s : State) (f : CtxSet → CtxSet) : (modCurSet s f).known = s.known := rfl
@[simp] theorem modCurSet_seen (s : State) (f : CtxSet → CtxSet) : (modCurSet s f).seen = s.seen := rfl
@[simp] theorem modCurSet_fenced (s : State) (f : CtxSet → CtxSet) : (modCurSet s f).fenced = s.fenced := rfl
@[simp] theorem modCurSet_ranks (s : State) (f : CtxSet → CtxSet) : (modCurSet s f).ranks = s.ranks := rfl
@[simp] theorem modCurSet_scToken (s : State) (f : CtxSet → CtxSet) : (modCurSet s f).scToken = s.scToken := rfl
@[simp] theorem modCurSet_scDone (s : State) (f : CtxSet → CtxSet) : (modCurSet s f).scDone = s.scDone := rfl
@[simp] theorem modCurSet_scAt (s : State) (f : CtxSet → CtxSet) : (modCurSet s f).scAt = s.scAt := rfl
@[simp] theorem modCurSet_walks (s : State) (f : CtxSet → CtxSet) : (modCurSet s f).walks = s.walks := rfl
@[simp] theorem modCurSet_tlb (s : State) (f : CtxSet → CtxSet) : (modCurSet s f).tlb = s.tlb := rfl
@[simp] theorem modCurSet_dieOut (s : State) (f : CtxSet → CtxSet) : (modCurSet s f).dieOut = s.dieOut := rfl
@[simp] theorem modCurSet_ctxs (s : State) (f : CtxSet → CtxSet) : (modCurSet s f).ctxs = s.ctxs := rfl
@[simp] theorem modCurSet_summit (s : State) (f : CtxSet → CtxSet) : (modCurSet s f).summit = s.summit := rfl
@[simp] theorem modCurSet_revs (s : State) (f : CtxSet → CtxSet) : (modCurSet s f).revs = s.revs := rfl
@[simp] theorem modCurSet_queueOwner (s : State) (f : CtxSet → CtxSet) : (modCurSet s f).queueOwner = s.queueOwner := rfl
@[simp] theorem modCurSet_counters (s : State) (f : CtxSet → CtxSet) : (modCurSet s f).counters = s.counters := rfl
@[simp] theorem modCurSet_counterOwner (s : State) (f : CtxSet → CtxSet) : (modCurSet s f).counterOwner = s.counterOwner := rfl
@[simp] theorem modCurSet_queues (s : State) (f : CtxSet → CtxSet) : (modCurSet s f).queues = s.queues := rfl
@[simp] theorem modCurSet_lastQueue (s : State) (f : CtxSet → CtxSet) : (modCurSet s f).lastQueue = s.lastQueue := rfl
@[simp] theorem modCurSet_rings (s : State) (f : CtxSet → CtxSet) : (modCurSet s f).rings = s.rings := rfl
@[simp] theorem modCurSet_launches (s : State) (f : CtxSet → CtxSet) : (modCurSet s f).launches = s.launches := rfl
@[simp] theorem modCurSet_places (s : State) (f : CtxSet → CtxSet) : (modCurSet s f).places = s.places := rfl
@[simp] theorem modCurSet_saved (s : State) (f : CtxSet → CtxSet) : (modCurSet s f).saved = s.saved := rfl
@[simp] theorem modCurSet_graphs (s : State) (f : CtxSet → CtxSet) : (modCurSet s f).graphs = s.graphs := rfl
@[simp] theorem modCurSet_chanOwner (s : State) (f : CtxSet → CtxSet) : (modCurSet s f).chanOwner = s.chanOwner := rfl
@[simp] theorem modCurSet_fireOwner (s : State) (f : CtxSet → CtxSet) : (modCurSet s f).fireOwner = s.fireOwner := rfl
@[simp] theorem modCurSet_vfOwner (s : State) (f : CtxSet → CtxSet) : (modCurSet s f).vfOwner = s.vfOwner := rfl
@[simp] theorem modCurSet_copies (s : State) (f : CtxSet → CtxSet) : (modCurSet s f).copies = s.copies := rfl
@[simp] theorem modCurSet_slots (s : State) (f : CtxSet → CtxSet) : (modCurSet s f).slots = s.slots := rfl
@[simp] theorem modCurSet_fires (s : State) (f : CtxSet → CtxSet) : (modCurSet s f).fires = s.fires := rfl
@[simp] theorem modCurSet_fabChans (s : State) (f : CtxSet → CtxSet) : (modCurSet s f).fabChans = s.fabChans := rfl
@[simp] theorem modCurSet_fabPorts (s : State) (f : CtxSet → CtxSet) : (modCurSet s f).fabPorts = s.fabPorts := rfl
@[simp] theorem modCurSet_linkUp (s : State) (f : CtxSet → CtxSet) : (modCurSet s f).linkUp = s.linkUp := rfl
@[simp] theorem modCurSet_notifies (s : State) (f : CtxSet → CtxSet) : (modCurSet s f).notifies = s.notifies := rfl
@[simp] theorem modCurSet_box (s : State) (f : CtxSet → CtxSet) : (modCurSet s f).box = s.box := rfl
@[simp] theorem modCurSet_ljSeq (s : State) (f : CtxSet → CtxSet) : (modCurSet s f).ljSeq = s.ljSeq := rfl
@[simp] theorem modCurSet_ljState (s : State) (f : CtxSet → CtxSet) : (modCurSet s f).ljState = s.ljState := rfl
@[simp] theorem modCurSet_layout (s : State) (f : CtxSet → CtxSet) : (modCurSet s f).layout = s.layout := rfl
@[simp] theorem modCurSet_staged (s : State) (f : CtxSet → CtxSet) : (modCurSet s f).staged = s.staged := rfl
@[simp] theorem modCurSet_committed (s : State) (f : CtxSet → CtxSet) : (modCurSet s f).committed = s.committed := rfl
@[simp] theorem modCurSet_partsOut (s : State) (f : CtxSet → CtxSet) : (modCurSet s f).partsOut = s.partsOut := rfl
@[simp] theorem modCurSet_swapAsks (s : State) (f : CtxSet → CtxSet) : (modCurSet s f).swapAsks = s.swapAsks := rfl
@[simp] theorem modCurSet_boot (s : State) (f : CtxSet → CtxSet) : (modCurSet s f).boot = s.boot := rfl
@[simp] theorem modCurSet_flash (s : State) (f : CtxSet → CtxSet) : (modCurSet s f).flash = s.flash := rfl
@[simp] theorem modCurSet_fwVersion (s : State) (f : CtxSet → CtxSet) : (modCurSet s f).fwVersion = s.fwVersion := rfl
@[simp] theorem modCurSet_fwDigest (s : State) (f : CtxSet → CtxSet) : (modCurSet s f).fwDigest = s.fwDigest := rfl
@[simp] theorem modCurSet_featcap (s : State) (f : CtxSet → CtxSet) : (modCurSet s f).featcap = s.featcap := rfl
@[simp] theorem modCurSet_featsel (s : State) (f : CtxSet → CtxSet) : (modCurSet s f).featsel = s.featsel := rfl
@[simp] theorem modCurSet_lmsLeaf (s : State) (f : CtxSet → CtxSet) : (modCurSet s f).lmsLeaf = s.lmsLeaf := rfl
@[simp] theorem modCurSet_limit (s : State) (f : CtxSet → CtxSet) : (modCurSet s f).limit = s.limit := rfl
@[simp] theorem modCurSet_limitNext (s : State) (f : CtxSet → CtxSet) : (modCurSet s f).limitNext = s.limitNext := rfl
@[simp] theorem modCurSet_meters (s : State) (f : CtxSet → CtxSet) : (modCurSet s f).meters = s.meters := rfl
@[simp] theorem modCurSet_scrubbed (s : State) (f : CtxSet → CtxSet) : (modCurSet s f).scrubbed = s.scrubbed := rfl
@[simp] theorem modCurSet_uncorrected (s : State) (f : CtxSet → CtxSet) : (modCurSet s f).uncorrected = s.uncorrected := rfl
@[simp] theorem modCurSet_gateBad (s : State) (f : CtxSet → CtxSet) : (modCurSet s f).gateBad = s.gateBad := rfl
@[simp] theorem modCurSet_rootEvent (s : State) (f : CtxSet → CtxSet) : (modCurSet s f).rootEvent = s.rootEvent := rfl
@[simp] theorem modCurSet_hostRead (s : State) (f : CtxSet → CtxSet) : (modCurSet s f).hostRead = s.hostRead := rfl
@[simp] theorem modCurSet_hostPoison (s : State) (f : CtxSet → CtxSet) : (modCurSet s f).hostPoison = s.hostPoison := rfl

/-! ### modCurThread -/

@[simp] theorem modCurThread_dcc (s : State) (f : Thread → Thread) : (modCurThread s f).dcc = s.dcc := rfl
@[simp] theorem modCurThread_agenda (s : State) (f : Thread → Thread) : (modCurThread s f).agenda = s.agenda := rfl
@[simp] theorem modCurThread_focus (s : State) (f : Thread → Thread) : (modCurThread s f).focus = s.focus := rfl
@[simp] theorem modCurThread_fresh (s : State) (f : Thread → Thread) : (modCurThread s f).fresh = s.fresh := rfl
@[simp] theorem modCurThread_serial (s : State) (f : Thread → Thread) : (modCurThread s f).serial = s.serial := rfl
@[simp] theorem modCurThread_columns (s : State) (f : Thread → Thread) : (modCurThread s f).columns = s.columns := rfl
@[simp] theorem modCurThread_vwords (s : State) (f : Thread → Thread) : (modCurThread s f).vwords = s.vwords := rfl
@[simp] theorem modCurThread_releases (s : State) (f : Thread → Thread) : (modCurThread s f).releases = s.releases := rfl
@[simp] theorem modCurThread_mem (s : State) (f : Thread → Thread) : (modCurThread s f).mem = s.mem := rfl
@[simp] theorem modCurThread_memBad (s : State) (f : Thread → Thread) : (modCurThread s f).memBad = s.memBad := rfl
@[simp] theorem modCurThread_reqs (s : State) (f : Thread → Thread) : (modCurThread s f).reqs = s.reqs := rfl
@[simp] theorem modCurThread_sync (s : State) (f : Thread → Thread) : (modCurThread s f).sync = s.sync := rfl
@[simp] theorem modCurThread_known (s : State) (f : Thread → Thread) : (modCurThread s f).known = s.known := rfl
@[simp] theorem modCurThread_seen (s : State) (f : Thread → Thread) : (modCurThread s f).seen = s.seen := rfl
@[simp] theorem modCurThread_fenced (s : State) (f : Thread → Thread) : (modCurThread s f).fenced = s.fenced := rfl
@[simp] theorem modCurThread_ranks (s : State) (f : Thread → Thread) : (modCurThread s f).ranks = s.ranks := rfl
@[simp] theorem modCurThread_scToken (s : State) (f : Thread → Thread) : (modCurThread s f).scToken = s.scToken := rfl
@[simp] theorem modCurThread_scDone (s : State) (f : Thread → Thread) : (modCurThread s f).scDone = s.scDone := rfl
@[simp] theorem modCurThread_scAt (s : State) (f : Thread → Thread) : (modCurThread s f).scAt = s.scAt := rfl
@[simp] theorem modCurThread_walks (s : State) (f : Thread → Thread) : (modCurThread s f).walks = s.walks := rfl
@[simp] theorem modCurThread_tlb (s : State) (f : Thread → Thread) : (modCurThread s f).tlb = s.tlb := rfl
@[simp] theorem modCurThread_dieOut (s : State) (f : Thread → Thread) : (modCurThread s f).dieOut = s.dieOut := rfl
@[simp] theorem modCurThread_ctxs (s : State) (f : Thread → Thread) : (modCurThread s f).ctxs = s.ctxs := rfl
@[simp] theorem modCurThread_summit (s : State) (f : Thread → Thread) : (modCurThread s f).summit = s.summit := rfl
@[simp] theorem modCurThread_revs (s : State) (f : Thread → Thread) : (modCurThread s f).revs = s.revs := rfl
@[simp] theorem modCurThread_queueOwner (s : State) (f : Thread → Thread) : (modCurThread s f).queueOwner = s.queueOwner := rfl
@[simp] theorem modCurThread_counters (s : State) (f : Thread → Thread) : (modCurThread s f).counters = s.counters := rfl
@[simp] theorem modCurThread_counterOwner (s : State) (f : Thread → Thread) : (modCurThread s f).counterOwner = s.counterOwner := rfl
@[simp] theorem modCurThread_queues (s : State) (f : Thread → Thread) : (modCurThread s f).queues = s.queues := rfl
@[simp] theorem modCurThread_lastQueue (s : State) (f : Thread → Thread) : (modCurThread s f).lastQueue = s.lastQueue := rfl
@[simp] theorem modCurThread_rings (s : State) (f : Thread → Thread) : (modCurThread s f).rings = s.rings := rfl
@[simp] theorem modCurThread_launches (s : State) (f : Thread → Thread) : (modCurThread s f).launches = s.launches := rfl
@[simp] theorem modCurThread_places (s : State) (f : Thread → Thread) : (modCurThread s f).places = s.places := rfl
@[simp] theorem modCurThread_saved (s : State) (f : Thread → Thread) : (modCurThread s f).saved = s.saved := rfl
@[simp] theorem modCurThread_graphs (s : State) (f : Thread → Thread) : (modCurThread s f).graphs = s.graphs := rfl
@[simp] theorem modCurThread_chanOwner (s : State) (f : Thread → Thread) : (modCurThread s f).chanOwner = s.chanOwner := rfl
@[simp] theorem modCurThread_fireOwner (s : State) (f : Thread → Thread) : (modCurThread s f).fireOwner = s.fireOwner := rfl
@[simp] theorem modCurThread_vfOwner (s : State) (f : Thread → Thread) : (modCurThread s f).vfOwner = s.vfOwner := rfl
@[simp] theorem modCurThread_copies (s : State) (f : Thread → Thread) : (modCurThread s f).copies = s.copies := rfl
@[simp] theorem modCurThread_slots (s : State) (f : Thread → Thread) : (modCurThread s f).slots = s.slots := rfl
@[simp] theorem modCurThread_fires (s : State) (f : Thread → Thread) : (modCurThread s f).fires = s.fires := rfl
@[simp] theorem modCurThread_fabChans (s : State) (f : Thread → Thread) : (modCurThread s f).fabChans = s.fabChans := rfl
@[simp] theorem modCurThread_fabPorts (s : State) (f : Thread → Thread) : (modCurThread s f).fabPorts = s.fabPorts := rfl
@[simp] theorem modCurThread_linkUp (s : State) (f : Thread → Thread) : (modCurThread s f).linkUp = s.linkUp := rfl
@[simp] theorem modCurThread_notifies (s : State) (f : Thread → Thread) : (modCurThread s f).notifies = s.notifies := rfl
@[simp] theorem modCurThread_box (s : State) (f : Thread → Thread) : (modCurThread s f).box = s.box := rfl
@[simp] theorem modCurThread_ljSeq (s : State) (f : Thread → Thread) : (modCurThread s f).ljSeq = s.ljSeq := rfl
@[simp] theorem modCurThread_ljState (s : State) (f : Thread → Thread) : (modCurThread s f).ljState = s.ljState := rfl
@[simp] theorem modCurThread_layout (s : State) (f : Thread → Thread) : (modCurThread s f).layout = s.layout := rfl
@[simp] theorem modCurThread_staged (s : State) (f : Thread → Thread) : (modCurThread s f).staged = s.staged := rfl
@[simp] theorem modCurThread_committed (s : State) (f : Thread → Thread) : (modCurThread s f).committed = s.committed := rfl
@[simp] theorem modCurThread_partsOut (s : State) (f : Thread → Thread) : (modCurThread s f).partsOut = s.partsOut := rfl
@[simp] theorem modCurThread_swapAsks (s : State) (f : Thread → Thread) : (modCurThread s f).swapAsks = s.swapAsks := rfl
@[simp] theorem modCurThread_boot (s : State) (f : Thread → Thread) : (modCurThread s f).boot = s.boot := rfl
@[simp] theorem modCurThread_flash (s : State) (f : Thread → Thread) : (modCurThread s f).flash = s.flash := rfl
@[simp] theorem modCurThread_fwVersion (s : State) (f : Thread → Thread) : (modCurThread s f).fwVersion = s.fwVersion := rfl
@[simp] theorem modCurThread_fwDigest (s : State) (f : Thread → Thread) : (modCurThread s f).fwDigest = s.fwDigest := rfl
@[simp] theorem modCurThread_featcap (s : State) (f : Thread → Thread) : (modCurThread s f).featcap = s.featcap := rfl
@[simp] theorem modCurThread_featsel (s : State) (f : Thread → Thread) : (modCurThread s f).featsel = s.featsel := rfl
@[simp] theorem modCurThread_lmsLeaf (s : State) (f : Thread → Thread) : (modCurThread s f).lmsLeaf = s.lmsLeaf := rfl
@[simp] theorem modCurThread_limit (s : State) (f : Thread → Thread) : (modCurThread s f).limit = s.limit := rfl
@[simp] theorem modCurThread_limitNext (s : State) (f : Thread → Thread) : (modCurThread s f).limitNext = s.limitNext := rfl
@[simp] theorem modCurThread_meters (s : State) (f : Thread → Thread) : (modCurThread s f).meters = s.meters := rfl
@[simp] theorem modCurThread_scrubbed (s : State) (f : Thread → Thread) : (modCurThread s f).scrubbed = s.scrubbed := rfl
@[simp] theorem modCurThread_uncorrected (s : State) (f : Thread → Thread) : (modCurThread s f).uncorrected = s.uncorrected := rfl
@[simp] theorem modCurThread_gateBad (s : State) (f : Thread → Thread) : (modCurThread s f).gateBad = s.gateBad := rfl
@[simp] theorem modCurThread_rootEvent (s : State) (f : Thread → Thread) : (modCurThread s f).rootEvent = s.rootEvent := rfl
@[simp] theorem modCurThread_hostRead (s : State) (f : Thread → Thread) : (modCurThread s f).hostRead = s.hostRead := rfl
@[simp] theorem modCurThread_hostPoison (s : State) (f : Thread → Thread) : (modCurThread s f).hostPoison = s.hostPoison := rfl

/-! ### modCtx -/

@[simp] theorem modCtx_dcc (s : State) (n : Nat) (f : Ctx → Ctx) : (modCtx s n f).dcc = s.dcc := rfl
@[simp] theorem modCtx_agenda (s : State) (n : Nat) (f : Ctx → Ctx) : (modCtx s n f).agenda = s.agenda := rfl
@[simp] theorem modCtx_focus (s : State) (n : Nat) (f : Ctx → Ctx) : (modCtx s n f).focus = s.focus := rfl
@[simp] theorem modCtx_fresh (s : State) (n : Nat) (f : Ctx → Ctx) : (modCtx s n f).fresh = s.fresh := rfl
@[simp] theorem modCtx_serial (s : State) (n : Nat) (f : Ctx → Ctx) : (modCtx s n f).serial = s.serial := rfl
@[simp] theorem modCtx_tiles (s : State) (n : Nat) (f : Ctx → Ctx) : (modCtx s n f).tiles = s.tiles := rfl
@[simp] theorem modCtx_columns (s : State) (n : Nat) (f : Ctx → Ctx) : (modCtx s n f).columns = s.columns := rfl
@[simp] theorem modCtx_vwords (s : State) (n : Nat) (f : Ctx → Ctx) : (modCtx s n f).vwords = s.vwords := rfl
@[simp] theorem modCtx_releases (s : State) (n : Nat) (f : Ctx → Ctx) : (modCtx s n f).releases = s.releases := rfl
@[simp] theorem modCtx_mem (s : State) (n : Nat) (f : Ctx → Ctx) : (modCtx s n f).mem = s.mem := rfl
@[simp] theorem modCtx_memBad (s : State) (n : Nat) (f : Ctx → Ctx) : (modCtx s n f).memBad = s.memBad := rfl
@[simp] theorem modCtx_reqs (s : State) (n : Nat) (f : Ctx → Ctx) : (modCtx s n f).reqs = s.reqs := rfl
@[simp] theorem modCtx_sync (s : State) (n : Nat) (f : Ctx → Ctx) : (modCtx s n f).sync = s.sync := rfl
@[simp] theorem modCtx_known (s : State) (n : Nat) (f : Ctx → Ctx) : (modCtx s n f).known = s.known := rfl
@[simp] theorem modCtx_seen (s : State) (n : Nat) (f : Ctx → Ctx) : (modCtx s n f).seen = s.seen := rfl
@[simp] theorem modCtx_fenced (s : State) (n : Nat) (f : Ctx → Ctx) : (modCtx s n f).fenced = s.fenced := rfl
@[simp] theorem modCtx_ranks (s : State) (n : Nat) (f : Ctx → Ctx) : (modCtx s n f).ranks = s.ranks := rfl
@[simp] theorem modCtx_scToken (s : State) (n : Nat) (f : Ctx → Ctx) : (modCtx s n f).scToken = s.scToken := rfl
@[simp] theorem modCtx_scDone (s : State) (n : Nat) (f : Ctx → Ctx) : (modCtx s n f).scDone = s.scDone := rfl
@[simp] theorem modCtx_scAt (s : State) (n : Nat) (f : Ctx → Ctx) : (modCtx s n f).scAt = s.scAt := rfl
@[simp] theorem modCtx_walks (s : State) (n : Nat) (f : Ctx → Ctx) : (modCtx s n f).walks = s.walks := rfl
@[simp] theorem modCtx_tlb (s : State) (n : Nat) (f : Ctx → Ctx) : (modCtx s n f).tlb = s.tlb := rfl
@[simp] theorem modCtx_dieOut (s : State) (n : Nat) (f : Ctx → Ctx) : (modCtx s n f).dieOut = s.dieOut := rfl
@[simp] theorem modCtx_summit (s : State) (n : Nat) (f : Ctx → Ctx) : (modCtx s n f).summit = s.summit := rfl
@[simp] theorem modCtx_revs (s : State) (n : Nat) (f : Ctx → Ctx) : (modCtx s n f).revs = s.revs := rfl
@[simp] theorem modCtx_queueOwner (s : State) (n : Nat) (f : Ctx → Ctx) : (modCtx s n f).queueOwner = s.queueOwner := rfl
@[simp] theorem modCtx_counters (s : State) (n : Nat) (f : Ctx → Ctx) : (modCtx s n f).counters = s.counters := rfl
@[simp] theorem modCtx_counterOwner (s : State) (n : Nat) (f : Ctx → Ctx) : (modCtx s n f).counterOwner = s.counterOwner := rfl
@[simp] theorem modCtx_queues (s : State) (n : Nat) (f : Ctx → Ctx) : (modCtx s n f).queues = s.queues := rfl
@[simp] theorem modCtx_lastQueue (s : State) (n : Nat) (f : Ctx → Ctx) : (modCtx s n f).lastQueue = s.lastQueue := rfl
@[simp] theorem modCtx_rings (s : State) (n : Nat) (f : Ctx → Ctx) : (modCtx s n f).rings = s.rings := rfl
@[simp] theorem modCtx_launches (s : State) (n : Nat) (f : Ctx → Ctx) : (modCtx s n f).launches = s.launches := rfl
@[simp] theorem modCtx_places (s : State) (n : Nat) (f : Ctx → Ctx) : (modCtx s n f).places = s.places := rfl
@[simp] theorem modCtx_saved (s : State) (n : Nat) (f : Ctx → Ctx) : (modCtx s n f).saved = s.saved := rfl
@[simp] theorem modCtx_graphs (s : State) (n : Nat) (f : Ctx → Ctx) : (modCtx s n f).graphs = s.graphs := rfl
@[simp] theorem modCtx_chanOwner (s : State) (n : Nat) (f : Ctx → Ctx) : (modCtx s n f).chanOwner = s.chanOwner := rfl
@[simp] theorem modCtx_fireOwner (s : State) (n : Nat) (f : Ctx → Ctx) : (modCtx s n f).fireOwner = s.fireOwner := rfl
@[simp] theorem modCtx_vfOwner (s : State) (n : Nat) (f : Ctx → Ctx) : (modCtx s n f).vfOwner = s.vfOwner := rfl
@[simp] theorem modCtx_copies (s : State) (n : Nat) (f : Ctx → Ctx) : (modCtx s n f).copies = s.copies := rfl
@[simp] theorem modCtx_slots (s : State) (n : Nat) (f : Ctx → Ctx) : (modCtx s n f).slots = s.slots := rfl
@[simp] theorem modCtx_fires (s : State) (n : Nat) (f : Ctx → Ctx) : (modCtx s n f).fires = s.fires := rfl
@[simp] theorem modCtx_fabChans (s : State) (n : Nat) (f : Ctx → Ctx) : (modCtx s n f).fabChans = s.fabChans := rfl
@[simp] theorem modCtx_fabPorts (s : State) (n : Nat) (f : Ctx → Ctx) : (modCtx s n f).fabPorts = s.fabPorts := rfl
@[simp] theorem modCtx_linkUp (s : State) (n : Nat) (f : Ctx → Ctx) : (modCtx s n f).linkUp = s.linkUp := rfl
@[simp] theorem modCtx_notifies (s : State) (n : Nat) (f : Ctx → Ctx) : (modCtx s n f).notifies = s.notifies := rfl
@[simp] theorem modCtx_box (s : State) (n : Nat) (f : Ctx → Ctx) : (modCtx s n f).box = s.box := rfl
@[simp] theorem modCtx_ljSeq (s : State) (n : Nat) (f : Ctx → Ctx) : (modCtx s n f).ljSeq = s.ljSeq := rfl
@[simp] theorem modCtx_ljState (s : State) (n : Nat) (f : Ctx → Ctx) : (modCtx s n f).ljState = s.ljState := rfl
@[simp] theorem modCtx_layout (s : State) (n : Nat) (f : Ctx → Ctx) : (modCtx s n f).layout = s.layout := rfl
@[simp] theorem modCtx_staged (s : State) (n : Nat) (f : Ctx → Ctx) : (modCtx s n f).staged = s.staged := rfl
@[simp] theorem modCtx_committed (s : State) (n : Nat) (f : Ctx → Ctx) : (modCtx s n f).committed = s.committed := rfl
@[simp] theorem modCtx_partsOut (s : State) (n : Nat) (f : Ctx → Ctx) : (modCtx s n f).partsOut = s.partsOut := rfl
@[simp] theorem modCtx_swapAsks (s : State) (n : Nat) (f : Ctx → Ctx) : (modCtx s n f).swapAsks = s.swapAsks := rfl
@[simp] theorem modCtx_boot (s : State) (n : Nat) (f : Ctx → Ctx) : (modCtx s n f).boot = s.boot := rfl
@[simp] theorem modCtx_flash (s : State) (n : Nat) (f : Ctx → Ctx) : (modCtx s n f).flash = s.flash := rfl
@[simp] theorem modCtx_fwVersion (s : State) (n : Nat) (f : Ctx → Ctx) : (modCtx s n f).fwVersion = s.fwVersion := rfl
@[simp] theorem modCtx_fwDigest (s : State) (n : Nat) (f : Ctx → Ctx) : (modCtx s n f).fwDigest = s.fwDigest := rfl
@[simp] theorem modCtx_featcap (s : State) (n : Nat) (f : Ctx → Ctx) : (modCtx s n f).featcap = s.featcap := rfl
@[simp] theorem modCtx_featsel (s : State) (n : Nat) (f : Ctx → Ctx) : (modCtx s n f).featsel = s.featsel := rfl
@[simp] theorem modCtx_lmsLeaf (s : State) (n : Nat) (f : Ctx → Ctx) : (modCtx s n f).lmsLeaf = s.lmsLeaf := rfl
@[simp] theorem modCtx_limit (s : State) (n : Nat) (f : Ctx → Ctx) : (modCtx s n f).limit = s.limit := rfl
@[simp] theorem modCtx_limitNext (s : State) (n : Nat) (f : Ctx → Ctx) : (modCtx s n f).limitNext = s.limitNext := rfl
@[simp] theorem modCtx_meters (s : State) (n : Nat) (f : Ctx → Ctx) : (modCtx s n f).meters = s.meters := rfl
@[simp] theorem modCtx_scrubbed (s : State) (n : Nat) (f : Ctx → Ctx) : (modCtx s n f).scrubbed = s.scrubbed := rfl
@[simp] theorem modCtx_uncorrected (s : State) (n : Nat) (f : Ctx → Ctx) : (modCtx s n f).uncorrected = s.uncorrected := rfl
@[simp] theorem modCtx_gateBad (s : State) (n : Nat) (f : Ctx → Ctx) : (modCtx s n f).gateBad = s.gateBad := rfl
@[simp] theorem modCtx_rootEvent (s : State) (n : Nat) (f : Ctx → Ctx) : (modCtx s n f).rootEvent = s.rootEvent := rfl
@[simp] theorem modCtx_hostRead (s : State) (n : Nat) (f : Ctx → Ctx) : (modCtx s n f).hostRead = s.hostRead := rfl
@[simp] theorem modCtx_hostPoison (s : State) (n : Nat) (f : Ctx → Ctx) : (modCtx s n f).hostPoison = s.hostPoison := rfl

/-! ### Readers -/

@[simp] theorem getTile_setTile_same (s : State) (t : Nat) (v : Tile) : getTile (setTile s t v) t = v := by
  simp [getTile, setTile]

theorem getTile_setTile_other (s : State) {t u : Nat} (v : Tile) (h : u ≠ t) : getTile (setTile s t v) u = getTile s u := by
  simp [getTile, setTile, Tab.get_set_other _ _ _ h]

@[simp] theorem getTile_modTile_same (s : State) (t : Nat) (f : Tile → Tile) : getTile (modTile s t f) t = f (getTile s t) := by
  simp [modTile]

theorem getTile_modTile_other (s : State) {t u : Nat} (f : Tile → Tile) (h : u ≠ t) : getTile (modTile s t f) u = getTile s u :=
  getTile_setTile_other s _ h

@[simp] theorem tileSet_putTileSet_same (t : Tile) (i : Nat) (c : CtxSet) : tileSet (putTileSet t i c) i = c := by
  unfold tileSet putTileSet; split <;> simp_all

@[simp] theorem putTileSet_putTileSet (t : Tile) (i : Nat) (c d : CtxSet) : putTileSet (putTileSet t i c) i d = putTileSet t i d := by
  unfold putTileSet; split <;> rfl

@[simp] theorem getSet_setSet_same (s : State) (t i : Nat) (c : CtxSet) : getSet (setSet s t i c) t i = c := by
  simp [getSet, setSet]

@[simp] theorem getSet_modSet_same (s : State) (t i : Nat) (f : CtxSet → CtxSet) : getSet (modSet s t i f) t i = f (getSet s t i) := by
  simp [modSet]

@[simp] theorem setThread?_modThreadOf_same (c : CtxSet) (n : Nat) (f : Thread → Thread) :
    setThread? (modThreadOf c n f) n = f (setThread? c n) := by
  simp [setThread?, modThreadOf]

theorem setThread?_modThreadOf_other (c : CtxSet) {n m : Nat} (f : Thread → Thread) (h : m ≠ n) :
    setThread? (modThreadOf c n f) m = setThread? c m := by
  simp [setThread?, modThreadOf, Tab.get_set_other _ _ _ h]

@[simp] theorem getThread_modThread_same (s : State) (t i n : Nat) (f : Thread → Thread) :
    getThread (modThread s t i n f) t i n = f (getThread s t i n) := by
  simp [getThread, modThread]

@[simp] theorem curThread_modCurThread (s : State) (f : Thread → Thread) : curThread (modCurThread s f) = f (curThread s) := by
  simp [curThread, modCurThread]

@[simp] theorem curSet_modCurSet (s : State) (f : CtxSet → CtxSet) : curSet (modCurSet s f) = f (curSet s) := by
  simp [curSet, modCurSet]

@[simp] theorem curSet_modCurThread (s : State) (f : Thread → Thread) :
    curSet (modCurThread s f) = modThreadOf (curSet s) s.focus.thr f := by
  simp [curSet, modCurThread, modThread]

@[simp] theorem curTile_modCurTile (s : State) (f : Tile → Tile) : curTile (modCurTile s f) = f (curTile s) := by
  simp [curTile, modCurTile]

/-- Two changes of one thread are one. -/
theorem modThread_modThread (s : State) (t i n : Nat) (f g : Thread → Thread) :
    modThread (modThread s t i n f) t i n g = modThread s t i n fun th => g (f th) := by
  simp only [modThread, modSet, setSet, modTile, setTile, getSet, getTile, modThreadOf]
  simp [Tab.set_set, putTileSet_putTileSet, setThread?]

/-- Two changes of the acting thread are one. -/
theorem modCurThread_modCurThread (s : State) (f g : Thread → Thread) :
    modCurThread (modCurThread s f) g = modCurThread s fun th => g (f th) :=
  modThread_modThread s _ _ _ f g

@[simp] theorem getCtx_modCtx_same (s : State) (n : Nat) (f : Ctx → Ctx) : getCtx (modCtx s n f) n = f (getCtx s n) := by
  simp [getCtx, modCtx]

end Sys2Proof.Machine
end

