-- ==== Sys2Proof/Laws/Ops.lean ====
section
/-! SUPPORT. What the frame of a tile-controller word does (R19, R20, R139, R147): one lemma per outcome. -/

namespace Sys2Proof.Machine

@[simp] theorem snapshotSet_threads (c : CtxSet) (thr pc : Nat) : (snapshotSet c thr pc).threads = c.threads := rfl
@[simp] theorem snapshotSet_ilen (c : CtxSet) (thr pc : Nat) : (snapshotSet c thr pc).ilen = c.ilen := rfl

/-- A restart snapshot leaves every thread as it is. -/
@[simp] theorem curThread_markRestart (w : TWord) (s : State) : curThread (markRestart w s) = curThread s := by
  simp only [markRestart]
  split
  · simp [curThread, getThread, modCurSet, setThread?]
  · rfl

@[simp] theorem markRestart_focus (w : TWord) (s : State) : (markRestart w s).focus = s.focus := by
  simp only [markRestart]; split <;> rfl

@[simp] theorem markRestart_dcc (w : TWord) (s : State) : (markRestart w s).dcc = s.dcc := by
  simp only [markRestart]; split <;> rfl

/-- A word that is no restart point takes no snapshot. -/
theorem markRestart_none {w : TWord} (s : State) (h : w.rst = false) : markRestart w s = s := by
  simp [markRestart, h]

@[simp] theorem curSet_ilen_markRestart (w : TWord) (s : State) : (curSet (markRestart w s)).ilen = (curSet s).ilen := by
  simp only [markRestart]
  split
  · simp
  · rfl

@[simp] theorem putTileSet_clk (t : Tile) (i : Nat) (c : CtxSet) : (putTileSet t i c).clk = t.clk := by
  unfold putTileSet; split <;> rfl

@[simp] theorem tscOf_modSet (s : State) (t i u : Nat) (f : CtxSet → CtxSet) : tscOf (modSet s t i f) u = tscOf s u := by
  unfold tscOf
  by_cases h : u = t
  · subst h; simp [modSet, setSet]
  · rw [show getTile (modSet s t i f) u = getTile s u from getTile_modTile_other s _ h]; rfl

@[simp] theorem tscOf_modCurSet (s : State) (u : Nat) (f : CtxSet → CtxSet) : tscOf (modCurSet s f) u = tscOf s u := tscOf_modSet ..
@[simp] theorem tscOf_modCurThread (s : State) (u : Nat) (f : Thread → Thread) : tscOf (modCurThread s f) u = tscOf s u := tscOf_modSet ..

@[simp] theorem tscOf_markRestart (w : TWord) (s : State) (u : Nat) : tscOf (markRestart w s) u = tscOf s u := by
  simp only [markRestart]; split <;> simp

/-- The next word inside the instruction window. -/
theorem goPc_inside {s : State} {pc : Int} (taken : Bool) (h : (curThread s).fl.redo = []) (h0 : 0 ≤ pc) (h1 : pc < (curSet s).ilen) :
    goPc s pc taken = modCurThread s fun x =>
      { x with pc := pc.toNat, st := .run
               fl := { x.fl with notBefore := tscOf s s.focus.tile + (if taken then 2 else 1), parked := none, walked := [], asked := none } } := by
  simp [goPc, h, h0, h1]

/-- The next word outside it. -/
theorem goPc_outside {s : State} {pc : Int} (taken : Bool) (h : (curThread s).fl.redo = []) (h1 : pc < 0 ∨ (curSet s).ilen ≤ pc) :
    goPc s pc taken = raiseTrap s s.focus.tile s.focus.set (wordRec 0x03 s.focus.thr (curThread s).pc 0 0) := by
  have : ¬(0 ≤ pc ∧ pc < ((curSet s).ilen : Int)) := by omega
  simp [goPc, h]
  intro a b
  exact absurd ⟨a, b⟩ this

/-- A word whose guard does not hold. -/
theorem runWord_skip {w : TWord} {s : State} (eff : State → Res) (h : guardHolds (curThread s) w.guard = false) :
    runWord w s eff = goPc (markRestart w s) ((curThread s).pc + 1) false := by
  simp [runWord, h, finishWord]

/-- A word that is done. -/
theorem runWord_done {w : TWord} {s t : State} {eff : State → Res} (h : guardHolds (curThread s) w.guard = true)
    (he : eff (markRestart w s) = .done t) : runWord w s eff = goPc t ((curThread s).pc + 1) false := by
  simp [runWord, h, he, finishWord]

/-- A word that moves the PC. -/
theorem runWord_jump {w : TWord} {s t : State} {pc : Int} {eff : State → Res} (h : guardHolds (curThread s) w.guard = true)
    (he : eff (markRestart w s) = .jump t pc) : runWord w s eff = goPc t pc true := by
  simp [runWord, h, he, finishWord]

/-- A word that waits. -/
theorem runWord_wait {w : TWord} {s t : State} {eff : State → Res} (h : guardHolds (curThread s) w.guard = true)
    (he : eff (markRestart w s) = .wait t) : runWord w s eff = modCurThread t fun x => { x with st := .wait } := by
  simp [runWord, h, he, finishWord]

/-- A word that is not ready. -/
theorem runWord_hold {w : TWord} {s : State} {eff : State → Res} (h : guardHolds (curThread s) w.guard = true)
    (he : eff (markRestart w s) = .hold) : runWord w s eff = s := by
  simp [runWord, h, he]

/-- A word that traps. -/
theorem runWord_trap {w : TWord} {s t : State} {r : TrapRec} {eff : State → Res} (h : guardHolds (curThread s) w.guard = true)
    (he : eff (markRestart w s) = .trap t r) : runWord w s eff = raiseTrap t s.focus.tile s.focus.set r := by
  simp [runWord, h, he, finishWord]

/-- A word that stops its thread. -/
theorem runWord_stop {w : TWord} {s t : State} {eff : State → Res} (h : guardHolds (curThread s) w.guard = true)
    (he : eff (markRestart w s) = .stop t) : runWord w s eff = t := by
  simp [runWord, h, he, finishWord]

end Sys2Proof.Machine
end

