-- ==== Sys2Proof/Tests/Slice0.lean ====
section
/-! SUPPORT. Tests: words of the spec decoded, ill-formed terms refused, single steps with the spec's own numbers, and for every
statement with hypotheses a state and operands that meet them. -/

set_option Elab.async false

namespace Sys2Proof.Tests

open Sys2Proof Sys2Proof.Machine Sys2Proof.Claim

/-! ### Small states and terms -/

/-- A word without guard or mark. -/
def wd (d a b c : Opnd) (m : Nat) : TWord := ⟨false, .always, d, a, b, c, 0, BitVec.ofNat 32 m⟩
/-- A word of a group of registers (R23). -/
def wx (x : Nat) (d a b c : Opnd) (m : Nat) : TWord := { wd d a b c m with x := BitVec.ofNat 5 x }
/-- A move without operation fields. -/
def mv (src dst : Port) (imm : Nat) : Mv := ⟨src, dst, .all, .inForce, false, false, BitVec.ofNat 8 imm⟩
/-- The same, ending its bundle and handler. -/
def mvEnd (src dst : Port) (imm : Nat) : Mv := ⟨src, dst, .all, .inForce, true, true, BitVec.ofNat 8 imm⟩
/-- A context of depth 1 that holds tile 0 and handles every cause. -/
def ctx1 : Ctx :=
  { Ctx.root with depth := 1, parent := 0, part := 0, dmask := 0x3FFFFFFFFF, shares := [(0, ⟨1024, 2048, 640, 8192⟩)] }
/-- A set with large windows and some threads. -/
def set1 (ths : Tab Thread) : CtxSet :=
  { CtxSet.reset with ctx := some 1, vlen := 64, splen := 512, acclen := 256, ilen := 64, threads := ths }
/-- A running package whose tile 0 holds a set. -/
def onTile (t : Tile) : State := { State.reset with boot := .running, dcc := 1, ctxs := [(0, Ctx.root), (1, ctx1)], tiles := [(0, t)] }
def withSet (c : CtxSet) : State := onTile { Tile.reset with set0 := c }
/-- The same with one running thread of given registers. -/
def thr (s : Tab (BitVec 64)) (p k : Tab (BitVec 32)) (pc : Nat) : Thread := { Thread.reset with st := .run, s := s, p := p, k := k, pc := pc }
def runs0 (th : Thread) : State := withSet (set1 [(0, th)])
def regs (s : Tab (BitVec 64)) : State := runs0 (thr s [] [] 0)
/-- The same in a set whose handler, thread 2, takes traps at word 33. -/
def handled (th : Thread) : State :=
  withSet { set1 [(0, th)] with trap := { CtxSet.reset.trap with vecEn := true, hthr := 2, vecPc := 33 } }

/-- A property of the next state of an outcome. -/
def next? (o : Host.Outcome State Fault Refusal) (p : State → Bool) : Bool :=
  match o with | .next t => p t | _ => false
/-- Register s of the acting thread after an instruction. -/
def sAfter (i : Instr) (s : State) (n : Nat) : Option (BitVec 64) :=
  match exec i s with | .next t => some (Tab.get 0 (curThread t).s n) | _ => none
/-- The record presented in the acting set after an instruction. -/
def trapped (i : Instr) (s : State) : Option (Nat × Nat × BitVec 56 × BitVec 64) :=
  match exec i s with
  | .next t => if (curSet t).trap.valid then some ((curSet t).trap.cur.cause, (curSet t).trap.cur.pos, (curSet t).trap.cur.addr, (curSet t).trap.cur.det0) else none
  | _ => none

/-! ### Words of the spec -/

-- R24's worked encoding
theorem test_decode_add : decodeWord 0x1FF 640 0x020350942FFFFFC00000004000000007 =
    .ok (.add ⟨false, .whenTrue 3, .s 4, .s 5, .lit 0x40, .zero, 0, 7⟩) := by decide +kernel
-- R151
theorem test_decode_ld : decodeWord 0x1FF 640 0x401F50F427FFFFC00000008002024000 =
    .ok (.ld (wd (.s 7) (.s 4) (.lit 0x80) .zero 0x2024000)) := by decide +kernel
-- R189's encodings
theorem test_decode_vadd : decodeWord 0x1FF 640 0x800200800005FF810000000000002000 =
    .ok (.vadd ⟨false, .whenTrue 2, .v 4, .v 0, .v 2, .zero, 1, 0x2000⟩) := by decide +kernel
theorem test_decode_vld : decodeWord 0x1FF 640 0xC01F001427FFFFC10000004002000000 =
    .ok (.vld (wx 1 (.v 0) (.s 4) (.lit 0x40) .zero 0x2000000)) := by decide +kernel
-- R134
theorem test_decode_sched : decodeWord 0x1FF 640 0xED1F7FFFFFFFFFA00000000010000000 =
    .ok (.sched (wd .zero (.lit 0) .zero .zero 0x10000000)) := by decide +kernel
theorem test_decode_slack : decodeWord 0x1FF 640 0xED5F7FFFFD0DFFA00000000100000000 =
    .ok (.slack (wd .zero (.lit 1) (.s 6) .zero 0)) := by decide +kernel
-- R235, R240, R325
theorem test_decode_tokw : decodeWord 0x1FF 640 0xD09F7FFFFFFFFFA00000000250000000 =
    .ok (.tokw (wd .zero (.lit 2) .zero .zero 0x50000000)) := by decide +kernel
theorem test_decode_instw : decodeWord 0x1FF 640 0xE11F7FFFFD0DFFA00000000000000000 =
    .ok (.instw (wd .zero (.lit 0) (.s 6) .zero 0)) := by decide +kernel
theorem test_decode_snap : decodeWord 0x1FF 640 0xE1DF7FF42FFFFF800000000000000000 =
    .ok (.snap (wd .zero (.s 5) .zero .zero 0)) := by decide +kernel
-- R261
theorem test_decode_barinit : decodeWord 0x1FF 640 0x621F7FF42D0DFF800000000050000000 =
    .ok (.barinit (wd .zero (.s 5) (.s 6) .zero 0x50000000)) := by decide +kernel
theorem test_decode_ldv : decodeWord 0x1FF 640 0x601F52D4250FFF800000000003000000 =
    .ok (.ldv (wd (.s 22) (.s 4) (.s 7) .zero 0x3000000)) := by decide +kernel
-- R355, R368
theorem test_decode_xfire : decodeWord 0x1FF 640 0xD25F7FF42FFFFF800000000000000000 =
    .ok (.xfire (wd .zero (.s 5) .zero .zero 0)) := by decide +kernel
theorem test_decode_xwait : decodeWord 0x1FF 640 0xD29F7FF42D0DFF800000000000000000 =
    .ok (.xwait (wd .zero (.s 5) (.s 6) .zero 0)) := by decide +kernel
theorem test_decode_ctxnew : decodeWord 0x1FF 640 0xF41F507427FFFF800000000000000000 =
    .ok (.ctxnew (wd (.s 3) (.s 4) .zero .zero 0)) := by decide +kernel
theorem test_decode_ctxgrant : decodeWord 0x1FF 640 0xF45F7FF40D05FF800000000000000000 =
    .ok (.ctxgrant (wd .zero (.s 1) (.s 2) .zero 0)) := by decide +kernel
-- TIME.D s1 (R163), GEAR.L (R164)
theorem test_decode_time : decodeWord 0x1FF 640 0xEC9F503FFFFFFF800000000000000000 =
    .ok (.timeD (wd (.s 1) .zero .zero .zero 0)) := by decide +kernel
theorem test_decode_gear : decodeWord 0x1FF 640 0xEC1F7FFFFFFFFF800000000010000000 =
    .ok (.gear (wd .zero .zero .zero .zero 0x10000000)) := by decide +kernel
-- R29's ENQ.ME MMA and its command
theorem test_decode_enq : decodeWord 0x1FF 640 0xD01F7FFFFFFFFF8090A80800A0300005 =
    .ok (.enq (wd .zero .zero .zero .zero 0) 0x90A80800A0300005) := by decide +kernel
theorem test_decode_mma : decodeCmd 0 0x90A80800A0300005 = some (.mma ⟨some ⟨2, 0⟩, some ⟨5, 0⟩, 0x00A0300005⟩) := by decide +kernel
theorem test_decode_ce_nop : decodeCmd 1 0x0098000000000000 = some (.engineNop .ce ⟨none, some ⟨3, 0⟩, 0⟩) := by decide +kernel
-- R108's guarded moves and the moves of R116's and R118's elements
theorem test_decode_guarded : decodeMove 0x020000C0 = some (.guardedMove (mv (.inp 0) (.out 0) 0xC0)) ∧
    decodeMove 0x02400C80 = some (.guardedMove (mvEnd (.inp 0) (.out 1) 0x80)) := by decide +kernel
theorem test_decode_move_sum : decodeMove 0x06C10000 = some (.redSum (mv (.inp 0) .redT 0)) := by decide +kernel
theorem test_decode_move_operand : decodeMove 0x04C00800 = some (.move ⟨.inp 0, .mulO, .all, .inForce, true, false, 0⟩) := by decide +kernel
theorem test_decode_move_div : decodeMove 0xE5040800 = some (.mulDiv ⟨.redR, .mulT, .all, .inForce, true, false, 0⟩) := by decide +kernel
theorem test_decode_move_out : decodeMove 0xAA000C00 = some (.move (mvEnd .mulR (.out 0) 0)) := by decide +kernel
/-- The host's view of the table: a word of each width. -/
theorem test_decodeTableWord : decodeTableWord 32 0x06C10000 = some (.redSum (mv (.inp 0) .redT 0)) ∧
    decodeTableWord 128 0xE1DF7FF42FFFFF800000000000000000 = some (.snap (wd .zero (.s 5) .zero .zero 0)) := by decide +kernel

/-! ### Ill-formed terms -/

-- check 2 and 3 of R18: a MOD value that the row does not take, a reserved MOD bit, a feature that is absent (R403)
theorem test_ill_mod : WellFormed 0x1FF 640 (.add (wd (.s 1) (.s 1) (.s 2) .zero 0)) = false ∧
    WellFormed 0x1FF 640 (.add (wd (.s 1) (.s 1) (.s 2) .zero 7)) = true := by decide +kernel
theorem test_ill_reserved : WellFormed 0x1FF 640 (.pand (wd (.p 1) (.p 1) (.p 2) .zero 1)) = false := by decide +kernel
theorem test_ill_feature : WellFormed 0x1FE 640 (.gear (wd .zero .zero .zero .zero 0x10000000)) = false ∧
    WellFormed 0x1FF 640 (.gear (wd .zero .zero .zero .zero 0x10000000)) = true := by decide +kernel
-- check 4: an operand class, a register beyond its class, a group beyond VLEN, groups that overlap in part, two literals
theorem test_ill_class : WellFormed 0x1FF 640 (.add (wd (.p 1) (.s 1) (.s 2) .zero 7)) = false := by decide +kernel
theorem test_ill_number : WellFormed 0x1FF 640 (.add (wd (.s 64) (.s 1) (.s 2) .zero 7)) = false ∧
    WellFormed 0x1FF 640 (.add (wd (.s 63) (.s 1) (.s 2) .zero 7)) = true := by decide +kernel
theorem test_ill_window : WellFormed 0x1FF 8 (.vadd (wx 1 (.v 7) (.v 0) (.v 0) .zero 0)) = false ∧
    WellFormed 0x1FF 8 (.vadd (wx 1 (.v 6) (.v 0) (.v 0) .zero 0)) = true := by decide +kernel
theorem test_ill_groups : WellFormed 0x1FF 640 (.vadd (wx 1 (.v 1) (.v 0) (.v 4) .zero 0)) = false := by decide +kernel
theorem test_ill_literals : WellFormed 0x1FF 640 (.sel ⟨false, .always, .s 1, .lit 1, .lit 2, .p 0, 0, 0x107⟩) = false := by decide +kernel
theorem test_ill_guard : WellFormed 0x1FF 640 (.add ⟨false, .whenTrue 24, .s 1, .s 1, .s 2, .zero, 0, 7⟩) = false := by decide +kernel
theorem test_ill_branch : WellFormed 0x1FF 640 (.br (wd .zero (.s 1) .zero .zero 0)) = false := by decide +kernel
-- R29, R221: a reserved argument bit, PX on CE without BOTH, an engine without the operation
theorem test_ill_command : WellFormed 0x1FF 640 (.mma ⟨none, none, 0x20⟩) = false ∧
    WellFormed 0x1FF 640 (.fireRegion .ce ⟨none, none, 0x2000000000⟩) = false ∧
    WellFormed 0x1FF 640 (.fireRegion .me ⟨none, none, 0⟩) = false := by decide +kernel
-- R33: a source that is no source, a trigger without operation, an index beyond its field, EOH without EOB, LANE with K
theorem test_ill_move : WellFormed 0x1FF 640 (.move (mv .aluO (.out 0) 0)) = false ∧ WellFormed 0x1FF 640 (.move (mv (.inp 0) .aluT 0)) = false ∧
    WellFormed 0x1FF 640 (.aluSel (mv (.inp 0) .aluT 8)) = false ∧ WellFormed 0x1FF 640 (.move ⟨.inp 0, .aluO, .all, .inForce, false, true, 0⟩) = false ∧
    WellFormed 0x1FF 640 (.move ⟨.konst, .aluO, .bcast, .inForce, false, false, 0⟩) = false ∧
    WellFormed 0x1FF 640 (.guardedMove (mv (.inp 0) .aluO 0xC0)) = false ∧ WellFormed 0x1FF 640 (.mulMuls (mv .aluR .mulT 0)) = false ∧
    WellFormed 0x1FF 640 (.move ⟨.inp 0, .aluO, .all, .f32, false, false, 0⟩) = false := by decide +kernel
-- an event of a unit that does not exist
theorem test_ill_event : WellFormed 0x1FF 640 (.slabReady 256) = false ∧ WellFormed 0x1FF 640 (.portRetrain 6) = false := by decide +kernel

/-! ### Single steps with the spec's numbers -/

-- R143's examples: DIV.S32 by 0 with s2 = -7, REM.S32 s2, 3, and the most negative number by -1
theorem test_div_zero : sAfter (.div (wd (.s 1) (.s 2) (.lit 0) .zero 7)) (regs [(2, 0xFFFFFFFFFFFFFFF9)]) 1 = some 0xFFFFFFFF80000000 := by decide +kernel
theorem test_rem : sAfter (.rem (wd (.s 1) (.s 2) (.lit 3) .zero 7)) (regs [(2, 0xFFFFFFFFFFFFFFF9)]) 1 = some 0xFFFFFFFFFFFFFFFF := by decide +kernel
theorem test_div_least : sAfter (.div (wd (.s 1) (.s 2) (.s 3) .zero 0x107)) (regs [(2, 0x8000000000000000), (3, 0xFFFFFFFFFFFFFFFF)]) 1 =
    some 0x8000000000000000 := by decide +kernel
-- R142's examples of MOV, and MOVH behind it
theorem test_mov : sAfter (.mov (wd (.s 3) (.lit 0x80000000) .zero .zero 0x107)) (regs []) 3 = some 0xFFFFFFFF80000000 ∧
    sAfter (.mov (wd (.s 3) (.lit 0x80000000) .zero .zero 0x10B)) (regs []) 3 = some 0x80000000 := by decide +kernel
theorem test_movh : sAfter (.movh (wd (.s 3) (.lit 0x12345678) .zero .zero 0)) (regs [(3, 0x9ABCDEF0)]) 3 = some 0x123456789ABCDEF0 := by decide +kernel
-- R141: ADD.Z8 keeps the low byte of the sum; ADD.S8.SAT holds it to 127
theorem test_add_wraps : sAfter (.add (wd (.s 1) (.s 2) (.s 3) .zero 13)) (regs [(2, 200), (3, 100)]) 1 = some 44 := by decide +kernel
theorem test_add_saturates : sAfter (.add (wd (.s 1) (.s 2) (.s 3) .zero (9 + 2 ^ 11))) (regs [(2, 100), (3, 100)]) 1 = some 127 := by decide +kernel
-- R142: shifts take B modulo the width; ROL; MULH of two large unsigned numbers; CLZ and CTZ of 0 give the width
theorem test_shl_modulo : sAfter (.shl (wd (.s 1) (.s 2) (.lit 33) .zero 11)) (regs [(2, 1)]) 1 = some 2 := by decide +kernel
theorem test_rol : sAfter (.rol (wd (.s 1) (.s 2) (.lit 4) .zero 11)) (regs [(2, 0x80000001)]) 1 = some 0x18 := by decide +kernel
theorem test_mulh : sAfter (.mulh (wd (.s 1) (.s 2) (.s 2) .zero 0x10B)) (regs [(2, 0xFFFFFFFFFFFFFFFF)]) 1 = some 0xFFFFFFFFFFFFFFFE := by decide +kernel
theorem test_clz : sAfter (.clz (wd (.s 1) (.s 2) .zero .zero 7)) (regs []) 1 = some 32 ∧
    sAfter (.ctz (wd (.s 1) (.s 2) .zero .zero 12)) (regs []) 1 = some 16 := by decide +kernel
-- R142: BFX reads 0 above bit 63
theorem test_bfx : sAfter (.bfx (wd (.s 1) (.s 2) (.lit (60 + 7 * 64)) .zero 0x10B)) (regs [(2, 0xA000000000000000)]) 1 = some 0xA := by decide +kernel
-- R149's loop at word 0: LOOP 5 sets COUNT 4 and START 1, and a count of 0 skips the body
theorem test_loop : next? (exec (.loop (wd (.k 0) (.lit 5) .zero .zero 3)) (regs [])) (fun t =>
    Tab.get 0 (curThread t).k 0 == 0x8001 && (curThread t).pc == 1) = true := by decide +kernel
theorem test_loop_skips : next? (exec (.loop (wd (.k 0) (.lit 0) .zero .zero 3)) (regs [])) (fun t => (curThread t).pc == 4) = true := by decide +kernel
theorem test_loop_illegal : trapped (.loop (wd (.k 0) (.lit 0xFFFFFFFF) .zero .zero 3)) (handled (thr [] [] [] 0)) = some (2, 0, 0, 0) := by decide +kernel
theorem test_endl_last : next? (exec (.endl (wd (.k 0) .zero .zero .zero 0)) (runs0 (thr [] [] [(0, 3)] 5))) (fun t => (curThread t).pc == 6) = true := by decide +kernel
-- R146: CALL writes the next word's index and jumps by the offset
theorem test_call : next? (exec (.call (wd (.s 9) (.lit 0xFFFFFFFE) .zero .zero 0)) (runs0 (thr [] [] [] 5))) (fun t =>
    Tab.get 0 (curThread t).s 9 == 6 && (curThread t).pc == 3) = true := by decide +kernel
-- R147: a branch out of the window traps against itself
theorem test_branch_out : trapped (.br (wd .zero (.lit 64) .zero .zero 0)) (handled (thr [] [] [] 0)) = some (3, 0, 0, 0) := by decide +kernel
-- R144: LT of S32 against the same bits as Z32; a NaN is unordered
theorem test_cmp_signed : next? (exec (.cmp (wd (.p 1) (.s 2) (.lit 5) .zero 0x20000007)) (regs [(2, 0xFFFFFFFF)])) (fun t =>
    Tab.get 0 (curThread t).p 1 == 0xFFFFFFFF) = true ∧
    next? (exec (.cmp (wd (.p 1) (.s 2) (.lit 5) .zero 0x2000000B)) (regs [(2, 0xFFFFFFFF)])) (fun t => Tab.get 0 (curThread t).p 1 == 0) = true := by decide +kernel
theorem test_cmp_nan : next? (exec (.cmp (wd (.p 1) (.s 2) (.s 2) .zero 0)) (regs [(2, 0x7FC00000)])) (fun t => Tab.get 0 (curThread t).p 1 == 0) = true := by decide +kernel
-- R145
theorem test_pcnt : sAfter (.pcnt (wd (.s 1) (.p 2) .zero .zero 0)) (runs0 (thr [] [(2, 0xF000000F)] [] 0)) 1 = some 8 := by decide +kernel
-- R19: a false guard only moves on
theorem test_guard_false : next? (exec (.add ⟨false, .whenTrue 0, .s 1, .s 2, .s 2, .zero, 0, 7⟩) (regs [(1, 9), (2, 1)])) (fun t =>
    Tab.get 0 (curThread t).s 1 == 9 && (curThread t).pc == 1) = true := by decide +kernel
-- R160, R246: TRAP's record, its thread in TRAP, and the handler at TRVEC.PC
theorem test_trap_entry : next? (exec (.trapWord (wd .zero .zero .zero .zero 0x1234)) (handled (thr [] [] [] 7))) (fun t =>
    (curSet t).trap.valid && (curSet t).trap.cur.cause == 0xA && (curSet t).trap.cur.pos == 7 && (curSet t).trap.cur.det0 == 0x1234 &&
    (curThread t).st == .trap && (getThread t 0 0 2).st == .run && (getThread t 0 0 2).pc == 33) = true := by decide +kernel
-- R152: a misaligned load
theorem test_misaligned : trapped (.ld (wd (.s 1) (.s 2) (.lit 2) .zero 0x2000000)) (handled (thr [(2, 0xFF000000000000)] [] [] 0)) = some (4, 0, 0xFF000000000002, 0) := by decide +kernel
-- R159, R114: CSRR of ELXEN0 gives its reset value; CSRW of a read-only CSR traps
theorem test_csrr : sAfter (.csrr (wd (.s 1) .zero .zero .zero 0x040)) (regs []) 1 = some 0xBBBBBBBBBBBBBBBB := by decide +kernel
-- R175: VADD.S8 wraps each byte; R176: VDIV.S32 by 0
theorem test_vadd : next? (exec (.vadd (wd (.v 2) (.v 0) (.v 1) .zero 9)) (onTile { Tile.reset with set0 := set1 [(0, thr [] [] [] 0)], vregs := [(0, 0x7F01), (1, 0x0102)] }))
    (fun t => Tab.get 0 (curTile t).vregs 2 == 0x8003) = true := by decide +kernel
-- R189: VRED.SUM.S32 of two lanes beyond 32 bits
theorem test_vred : next? (exec (.vred (wd (.s 1) (.v 0) .zero .zero 7)) (onTile { Tile.reset with set0 := set1 [(0, thr [] [] [] 0)], vregs := [(0, 0x7FFFFFFF7FFFFFFF)] }))
    (fun t => Tab.get 0 (curThread t).s 1 == 0xFFFFFFFE) = true := by decide +kernel
-- R106's example: the scale code of a block whose largest magnitude is 3.3 is 0x60, and 3.3 becomes code 0x7D of E4
theorem test_vbscl : next? (exec (.vbscl (wd (.v 1) (.v 0) .zero .zero 3)) (onTile { Tile.reset with set0 := set1 [(0, thr [] [] [] 0)], vregs := [(0, 0x40533333)] }))
    (fun t => (Tab.get 0 (curTile t).vregs 1).extractLsb' 0 32 == 0x60) = true := by decide +kernel
theorem test_vqnt : next? (exec (.vqnt (wd (.v 2) (.v 0) (.v 1) .zero 3)) (onTile { Tile.reset with set0 := set1 [(0, thr [] [] [] 0)], vregs := [(0, 0x40533333), (1, 0x60)] }))
    (fun t => (Tab.get 0 (curTile t).vregs 2).extractLsb' 0 8 == 0x7D) = true := by decide +kernel
-- R234: ENQ writes the command at TAIL of its ring in the share
theorem test_enq : next? (exec (.enq (wd .zero .zero .zero .zero 0) 0x90A80800A0300005) (withSet { set1 [(0, thr [] [] [] 0)] with
      tqcfg := [(2, 0x10), (5, 0x01)], ringLsz := [(0, 3)], ringBase := [(0, 32)], tail := [(0, 9)], head := [(0, 2)] }))
    (fun t => Tab.get 0 (curSet t).tail 0 == 10 && Memory.read (curTile t).sp 2056 8 == 0x90A80800A0300005) = true := by decide +kernel

/-! ### States and operands that meet the hypotheses of the statements -/

/-- One scalar word of MOD m, and a thread with some registers at word 0. -/
def w3 (m : Nat) : TWord := wd (.s 1) (.s 2) (.s 3) .zero m
def sc (a b : BitVec 64) : State := regs [(2, a), (3, b)]

theorem witness_DivideAndRemainderNeverTrap : Typed (w3 7) 32 true ∧ Runs (w3 7) (sc 0xFFFFFFF9 0) ∧ NextInside (sc 0xFFFFFFF9 0) ∧
    (w3 (7 + 2 ^ 11)).modf.getLsbD 11 = true :=
  ⟨⟨7, by decide, by decide⟩, by unfold Runs; decide +kernel, by unfold NextInside; decide +kernel, by decide⟩

theorem witness_ScalarWordsWriteTheirResults :
    (Typed (w3 0x107) 64 true ∧ TypedSat (w3 (9 + 2 ^ 11)) 8 true ∧ ∀ m ∈ [0, 7, 0x107, 9 + 2 ^ 11, 15 * 2 ^ 28 + 0x107], Runs (w3 m) (sc 1 2) ∧ NextInside (sc 1 2)) ∧
    (∃ f, (Instr.ext (w3 0x107), f) ∈ arithRows (w3 0x107) 64) ∧ (∃ f, (Instr.mul (w3 (9 + 2 ^ 11)), f) ∈ (arithRows (w3 (9 + 2 ^ 11)) 8).take 3) ∧
    ∃ f, (Instr.popc (w3 0x107), f) ∈ bitRows (w3 0x107) 64 :=
  ⟨⟨⟨0x107, by decide, by decide⟩, ⟨9, by decide, by decide⟩, by unfold Runs NextInside; decide +kernel⟩, by simp [arithRows], by simp [arithRows], by simp [bitRows]⟩

theorem witness_ComparesWriteThePredicate : (7, 32, true) ∈ intTypes ∧
    ∀ cc < 8, ∀ m ∈ [7, 0, 2 ^ 12], Runs (wd (.p 1) (.s 2) (.s 3) .zero (cc * 2 ^ 28 + m)) (sc 1 2) ∧ NextInside (sc 1 2) := by
  unfold Runs NextInside; decide +kernel

theorem witness_PredicateWordsWriteResult : Runs (wd (.p 1) (.p 2) (.p 3) .zero 0) (sc 0 0) ∧ NextInside (sc 0 0) ∧
    guardHolds (curThread (sc 0 0)) (.whenTrue 3) = false ∧ (curThread (sc 0 0)).fl.redo = [] := by
  unfold Runs NextInside; decide +kernel

/-- A branch at word 5 of a window of 64 words, to word 0, to word 63, and with a false guard. -/
theorem witness_BranchesMoveThePc : let s := runs0 (thr [(2, 63)] [] [] 5)
    (∀ v ∈ [(0xFFFFFFFB : BitVec 32), 58], Runs (wd (.s 1) (.lit v) .zero .zero 0) s ∧
      ∃ t < (curSet s).ilen, (5 : Int) + (readS false (curThread s) (.lit v)).toInt = t) ∧
    (readS false (curThread s) (.s 2)).toNat < (curSet s).ilen ∧ guardHolds (curThread s) (.whenTrue 0) = false ∧ NextInside s := by
  unfold Runs NextInside
  exact ⟨by simp only [List.forall_mem_cons, List.not_mem_nil, false_implies, implies_true, and_true]
            exact ⟨⟨by decide +kernel, 0, by decide +kernel, by decide +kernel⟩, by decide +kernel, 63, by decide +kernel, by decide +kernel⟩,
    by decide +kernel, by decide +kernel, by decide +kernel⟩

/-- Any count at word 0, with the ends of the ranges; ENDL of a counter whose COUNT is not 0. -/
theorem witness_LoopWordsKeepTheCounters : (∀ v, Runs (wd (.k 0) (.s 2) .zero .zero 1) (sc v 0) ∧ NextInside (sc v 0) ∧
      (curThread (sc v 0)).pc + 1 + 1 < (curSet (sc v 0)).ilen) ∧
    (readS false (curThread (sc 524287 0)) (.s 2)).toInt = 524287 ∧ (readS false (curThread (sc 524288 0)) (.s 2)).toInt = 524288 ∧
    (readS false (curThread (sc 0xFFFFFFFFFFFFFFFF 0)) (.s 2)).toInt = -1 ∧
    (readK (curThread (runs0 (thr [] [] [(0, 0x2000)] 5))) (.k 0)).extractLsb' 13 19 = 1 :=
  ⟨fun _ => ⟨⟨rfl, rfl⟩, (by decide : 0 + 1 < 64), (by decide : 0 + 1 + 1 < 64)⟩, by and_intros <;> decide +kernel⟩

/-- A tile with a word in its instruction window, and its slot's turn at the head of the agenda. -/
def fetchState (word : BitVec 128) (ilen : Nat) : State :=
  let s := withSet { set1 [(0, thr [] [] [] 0)] with ilen := ilen }
  { s with agenda := [.issue 0 false], tiles := [(0, { getTile s 0 with istore := [(0, word)] })] }

-- LOOP at word 0 from slot S in its turn and in its first turn, and VADD from slot V
theorem witness_StepRunsTheDecodedWord : (∀ turn ∈ [Turn.issue 0 false, .issueEarly 0],
      let s := { fetchState 0x211F5E1FFFFFFFA00000000500000003 64 with agenda := [turn] }
      let s0 := atSlot s [] 0 false
      s.agenda = [turn] ∧ s.boot ≠ .shutdown ∧ Issues s0 0 0 false ∧
      decodeWord (features s0) (issueSet s0 0).vlen (nextWord s0 0 0) = .ok (.loop ⟨false, .always, .k 0, .lit 5, .zero, .zero, 0, 3⟩)) ∧
    (let s := { fetchState 0x800200800005FF810000000000002000 64 with agenda := [.issue 0 true] }
     let s0 := atSlot s [] 0 true
     Issues s0 0 0 true ∧ decodeWord (features s0) (issueSet s0 0).vlen (nextWord s0 0 0) = .ok (.vadd ⟨false, .whenTrue 2, .v 4, .v 0, .v 2, .zero, 1, 0x2000⟩)) := by
  unfold Issues; decide +kernel

-- a reserved opcode; a PC at the end of the window
theorem witness_FetchFaultsTrap : (let s := fetchState 0xFFC00000000000000000000000000000 64
     let s0 := atSlot s [] 0 false
     s.agenda = .issue 0 false :: [] ∧ s.boot ≠ .shutdown ∧ Issues s0 0 0 false ∧
     decodeWord (features s0) (issueSet s0 0).vlen (nextWord s0 0 0) = .error ⟨1, 0⟩) ∧
    (let s0 := atSlot (fetchState 0 0) [] 0 false
     slotFree s0 0 false = true ∧ issuer s0 0 false = some 0 ∧ (issueThread s0 0 0).fl.redo = [] ∧ (issueSet s0 0).ilen ≤ (issueThread s0 0 0).pc) ∧
    (let s := runs0 (thr [(2, 64)] [] [] 63)
     Runs (w3 0x107) s ∧ Runs (w3 0) s ∧ (curSet s).ilen ≤ 63 + 1 ∧ (curSet s).ilen ≤ (readS false (curThread s) (.s 2)).toNat ∧
     ((curSet s).ilen : Int) ≤ 63 + (readS false (curThread s) (.lit 1)).toInt ∧ (63 : Int) + (readS false (curThread s) (.lit 0xFFFFFFC0)).toInt < 0) := by
  unfold Runs Issues; decide +kernel

theorem witness_StepRunsCommandsMovesAndEvents :
    (let s := { withSet { set1 [] with ringLsz := [(5, 3)], tail := [(5, 1)] } with agenda := [.command 0 5] }
     let s1 := { s with agenda := [], focus := ⟨0, 0, 0, 5, 0⟩ }
     edgeNow s 0 = true ∧ (getTile s 0).removed = false ∧ (match fetchCommand s1 5 with | .cmd (.engineNop .xc _) => true | _ => false) = true) ∧
    (let s := { withSet { set1 [] with ringLsz := [(5, 3)], tail := [(5, 1)] } with agenda := [.commandEarly 0 5] }
     headWaits { s with agenda := [] } 0 5 = false ∧
     (match fetchCommand { s with agenda := [], focus := ⟨0, 0, 0, 5, 0⟩ } 5 with | .cmd (.engineNop .xc _) => true | _ => false) = true) ∧
    isEvent .poolRefill = true ∧ State.reset.agenda = [] ∧ State.reset.boot ≠ .shutdown := by decide +kernel

theorem witness_encodings : WellFormed 0x1FF 640 (.add (w3 7)) = true ∧ (tileParts (.add (w3 7))).isSome = true ∧
    WellFormed 0x1FF 640 (.mma ⟨none, none, 0⟩) = true ∧ (cmdParts (.mma ⟨none, none, 0⟩)).isSome = true ∧
    WellFormed 0x1FF 640 (.move (mv (.inp 0) (.out 0) 0)) = true ∧ (moveParts (.move (mv (.inp 0) (.out 0) 0))).isSome = true ∧
    decodeWord 0x1FF 640 0x211F5E1FFFFFFFA00000000500000003 = .ok (.loop ⟨false, .always, .k 0, .lit 5, .zero, .zero, 0, 3⟩) := by decide +kernel

/-- The invariants hold at reset, and there the step goes on. -/
theorem witness_invariants : Memory.wf State.reset.mem = true ∧ watts State.reset.layout ≤ State.reset.limit ∧
    (match step State.reset with | .next _ => true | _ => false) = true := by decide +kernel

theorem witness_GuardsAndRestartPoints : guardHolds (curThread (sc 0 0)) (.whenTrue 3) = false ∧ (curThread (sc 0 0)).fl.redo = [] ∧ NextInside (sc 0 0) ∧
    (curThread (sc 0 0)).st = .run ∧ (curThread (sc 0 0)).fl = Flight.none := by
  unfold NextInside; decide +kernel

theorem witness_ScalarWordsChangeOnlyTheirDestination : (∃ f ∈ scalarForms, f = Instr.nop) ∧ Runs (w3 0) (sc 1 2) ∧ NextInside (sc 1 2) ∧
    next? (exec (.nop (w3 0)) (sc 1 2)) (fun _ => true) = true :=
  ⟨⟨.nop, by simp [scalarForms], rfl⟩, by unfold Runs; decide +kernel, by unfold NextInside; decide +kernel, by decide +kernel⟩

/-! ### Memory, system, time -/

/-- A mapping of page 1 of context 1 onto a column, and a state whose tile has its translation. -/
def map1 (r w : Bool) : Mapping := ⟨0x10000, 0x10000, 0x100000000, r, w, false, false, false, 0, 0, 0, 0, 0, false⟩
def mapped (m : Mapping) (s : State) : State :=
  { s with ctxs := [(0, Ctx.root), (1, { ctx1 with maps := [m] })], tlb := [(0, 1099511627777)] }
/-- A load or store of 8 bytes at s2 + s3. -/
def wld (m : Nat) : TWord := wd (.s 1) (.s 2) (.s 3) (.s 4) m
/-- A request of thread 0 in the state's list. -/
def rq (op : ReqOp) (loc : Loc) (stage : ReqStage) : Req :=
  ⟨7, .thread 0 0 0, op, 0x10000, loc, 8, 5, 0, false, 0, false, false, false, [], stage, 0x55, false, none, .sreg 1, 0, 0, 0, false, 0, false, none, [],
    false, none, [], 1⟩
def holding (r : Req) (s : State) : State := { s with reqs := [r], serial := 8 }

-- page 1 of context 1, and the first and the last word of the aperture's share
theorem witness_MemoryWordsSendOneRequest : (let s := mapped (map1 true true) (sc 0x10000 0xFFF8)
     Runs (wld 0x3000000) s ∧ NextInside s ∧ MemoryOpen s ∧ accessBytes (wld 0x3000000) = 8 ∧
     (Instr.ld (wld 0x3000000), true, false, ordKind (wld 0x3000000).modf, ReqOp.load) ∈ accessForms (wld 0x3000000) ∧
     accessVa (.ld (wld 0x3000000)) (wld 0x3000000) s = 0x1FFF8 ∧ checkAddress s 0x1FFF8 8 true false .plain = .ok (.mem 0x10000FFF8)) ∧
    (let s := sc 0xFF000000000000 0xFFFF8
     MemoryOpen s ∧ accessVa (.st (wld 0x3000000)) (wld 0x3000000) s = 0xFF0000000FFFF8 ∧
     checkAddress s 0xFF0000000FFFF8 8 false true .plain = .ok (.sp 0 0xFFFF8)) := by
  unfold Runs NextInside MemoryOpen; decide +kernel

-- a misaligned word; the first word past the share; an SC access of the aperture; pages that a load and a store may not use
theorem witness_ScalarAccessChecksTrap : (∀ s ∈ [sc 0xFF000000000000 4, sc 0xFF000000000000 0x100000, mapped (map1 false true) (sc 0x10000 0)],
      Runs (wld 0x3000000) s ∧ MemoryOpen s) ∧
    accessVa (.ld (wld 0x3000000)) (wld 0x3000000) (sc 0xFF000000000000 4) % 8 = 4 ∧
    accessVa (.ld (wld 0x3000000)) (wld 0x3000000) (sc 0xFF000000000000 0x100000) = 0xFF000000100000 ∧
    (curSet (sc 0 0)).splen * 2048 = 0x100000 ∧ ordKind (BitVec.ofNat 32 (0x3000000 + 4 * 2 ^ 14)) = .sc ∧
    translate (mapped (map1 false true) (sc 0x10000 0)) 0 1 [] 0x10000 = .hit 0x100000000 (map1 false true) ∧
    translate (mapped (map1 true false) (sc 0x10000 0)) 0 1 [] 0x10000 = .hit 0x100000000 (map1 true false) := by
  unfold Runs MemoryOpen; decide +kernel

theorem witness_HomeServesTheAccess : ∀ op ∈ [ReqOp.store, .load, .cas, .atom 0, .atom 6],
    Servable (holding (rq op (.mem 0x100000000) .sent) (sc 0 0)) (rq op (.mem 0x100000000) .sent) 0x100000000 := by
  unfold Servable; decide +kernel

theorem witness_ResponsesWriteOrTrap : ∀ b : Bool, ∀ op ∈ [ReqOp.load, .cas, .atom 3],
    let r := { rq op (.mem 0x100000000) .applied with bad := b }
    let s := holding r (sc 0 0)
    findReq s r.id = some r ∧ r.stage = .applied ∧ r.agent = .thread 0 0 0 ∧ r.dst = .sreg 1 ∧ r.due = none := by decide +kernel

/-- A thread whose fence, of kinds and scope, waits for request 7. -/
theorem witness_FenceHoldsLaterMemoryWords : (Runs (wld (15 * 2 ^ 20 + 4 * 2 ^ 17)) (sc 0 0) ∧ NextInside (sc 0 0) ∧ MemoryOpen (sc 0 0) ∧
      ∀ r ∈ (sc 0 0).reqs, r.agent ≠ curAgent (sc 0 0)) ∧
    (let f : Fence := ⟨8, 1, [7], []⟩
     let s := holding (rq .store (.mem 0x100000000) .sent) (runs0 { thr [] [] [] 0 with fl := { Flight.none with fence := some f } })
     (curThread s).fl.fence = some f ∧ (findReq s 7).isSome = true ∧ Runs (wld 0) s ∧
     ∀ r ∈ s.reqs, performed (curAgent s) f.scope r = false) := by
  unfold Runs NextInside MemoryOpen; decide +kernel

theorem witness_CsrWordsReadAndWriteTheFieldMaps : let s := sc 0xFFFF 0x8000
    CsrWord (wd (.s 1) (.s 2) .zero .zero 0x018) s 0x018 ∧ NextInside s ∧ (0x018, 0xFFFF) ∈ csrPlain ∧ (0x019, (0 : BitVec 64)) ∈ csrTable s ∧
    (readS false (curThread s) (.s 2)) &&& ~~~(0xFFFF : BitVec 64) = 0 ∧ readS false (curThread (sc 0x10000 0)) (.s 2) &&& ~~~(0xFFFF : BitVec 64) ≠ 0 ∧
    CsrWord (wd (.s 1) (.s 2) .zero .zero 0) s 0 ∧ 0 ∈ csrReadOnly := by
  refine ⟨?_, ?_, by decide, by simp [csrTable]; decide +kernel, by decide +kernel, by decide +kernel, ?_, by decide⟩
  all_goals (try unfold CsrWord Runs); (try unfold NextInside); decide +kernel

theorem witness_SoftwareTrapsRaiseTheirRecords : Runs (wd .zero .zero .zero .zero 0xFFFF) (sc 0 0) ∧ Runs (wd .zero .zero .zero .zero 0) (sc 0 0) := by
  unfold Runs; decide +kernel

/-- The context handles cause 0x0A. -/
def ctxA : Ctx := { ctx1 with dmask := 0x3FFFFFFFFF }
theorem witness_TrapEntryPresentsTheRecord : let s := { handled (thr [] [] [] 7) with ctxs := [(0, Ctx.root), (1, ctxA)] }
    Runs (wd .zero .zero .zero .zero 0xFFFF) s ∧ Handled s 0x0A := by
  unfold Runs Handled; exact ⟨by decide +kernel, ⟨1, by decide +kernel⟩, by decide +kernel⟩

/-- A set whose handler, thread 2, acts on a record of thread 0 at word 7. -/
def trapping (ths : Tab Thread) (snap : RpSnap) : State :=
  let c : CtxSet := { set1 ths with
    rpsnap := snap
    trap := { CtxSet.reset.trap with
      valid := true, vecEn := true, hthr := 2, vecPc := 33, hst := 2, hpc := 40
      cur := { TrapRec.zero with cause := 0x0A, thr := 0, thv := true, pos := 7 } } }
  { withSet c with focus := ⟨0, 0, 2, 0, 0⟩ }
theorem witness_TrapAndRestartReturns :
    (let s := trapping [(0, { thr [] [] [] 7 with st := .trap }), (2, thr [] [] [] 34)] RpSnap.reset
     let tr := (curSet s).trap
     Runs (wd .zero .zero .zero .zero 0) s ∧ tr.valid = true ∧ tr.held = [] ∧ tr.cur.src = 0 ∧ tr.cur.thv = true ∧ tr.cur.late = false ∧ tr.cur.cause ≠ 0x12 ∧
     tr.hthr = s.focus.thr ∧ tr.cur.thr ≠ tr.hthr ∧ (getThread s s.focus.tile s.focus.set tr.cur.thr).fl.again = false ∧ tr.cur.pos + 1 < (curSet s).ilen) ∧
    ((curSet (sc 0 0)).trap.valid = false ∧ Runs (wd .zero .zero .zero .zero 0) (sc 0 0)) ∧
    (let s := trapping [(0, { thr [] [] [] 7 with st := .trap }), (2, thr [] [] [] 34)] { RpSnap.reset with valid := true, thr := 0, pc := 3 }
     let c := curSet s
     Runs (wd .zero .zero .zero .zero 0) s ∧ c.trap.valid = true ∧ c.trap.held = [] ∧ c.trap.cur.src = 0 ∧ c.trap.hthr = s.focus.thr ∧
     restartFails (curTile s) c = false ∧ boundSlots (curTile s) c = []) := by
  unfold Runs; decide +kernel

theorem witness_TimeGearAndPowerWords : (∀ v, Runs (wd .zero (.s 2) (.s 3) .zero 0x10000000) (sc v 65535) ∧ NextInside (sc v 65535)) ∧
    (readS false (curThread (sc 0xFFFFFFFF 65535)) (.s 2)).toInt = 4294967295 ∧ (readS false (curThread (sc 0x100000000 65536)) (.s 2)).toInt = 4294967296 ∧
    (readS false (curThread (sc 3 65535)) (.s 3)).toInt = 65535 ∧ (curSet (sc 0 0)).gearPend = none ∧
    (curSet (withSet { set1 [] with gearPend := some (0, 0, true) })).gearPend ≠ none :=
  ⟨fun _ => ⟨⟨rfl, rfl⟩, (by decide : 0 + 1 < 64)⟩, by and_intros <;> decide +kernel⟩

/-! ### Vector words -/

/-- A tile whose thread 0 has registers, with vector registers. -/
def vecs (s : Tab (BitVec 64)) (v : Tab (BitVec 1024)) : State := onTile { Tile.reset with set0 := set1 [(0, thr s [] [] 0)], vregs := v }
/-- A vector word over two registers. -/
def v3 (m : Nat) : TWord := wx 1 (.v 4) (.v 0) (.v 2) (.v 4) m

/-- An equal group and neighbouring groups. -/
theorem groups_apart (m : Nat) : GroupsApart (v3 m) := by
  have h0 : groupLen (v3 0) = 2 := by decide +kernel
  have h : groupLen (v3 m) = 2 := h0
  intro o ho
  have : o = .v 0 ∨ o = .v 2 ∨ o = .v 4 := by simpa [v3, wx, wd] using ho
  rw [h]
  obtain rfl | rfl | rfl := this
  · exact Or.inr (Or.inr (by decide : 0 + 2 ≤ 4))
  · exact Or.inr (Or.inr (by decide : 2 + 2 ≤ 4))
  · exact Or.inl (rfl : 4 = 4)
theorem vector_runs (v : Tab (BitVec 1024)) : VRuns (vecs [] v) := ⟨rfl, (by decide : 0 + 1 < 64)⟩

theorem witness_VectorIntegerElements : GroupsApart (v3 7) ∧ VRuns (vecs [] []) ∧ (7, 32, true) ∈ vecTypes ∧ (v3 (7 + 2 ^ 13 + 2 ^ 11)).modf = vmod 7 true true ∧
    (∃ f, (Instr.vneg (v3 7), f) ∈ vecSums (v3 7)) ∧ ∃ f, (Instr.vpopc (v3 7), f) ∈ vecBits (v3 7) 32 true :=
  ⟨groups_apart 7, vector_runs [], by decide, by decide, by simp [vecSums], by simp [vecBits]⟩

theorem witness_VectorFloatElementsAndFunctions : vfmod Ty.b16.code 3 true true true = (v3 (2 + 3 * 2 ^ 9 + 2 ^ 11 + 2 ^ 12 + 2 ^ 13)).modf ∧ GroupsApart (v3 0) ∧
    VRuns (vecs [] []) ∧ (∃ f, (Instr.vrcp (v3 0), f) ∈ vecReals (v3 0) .rne) ∧ (∃ t, (Instr.vsig (v3 0), t) ∈ vecFunctions (v3 0)) ∧
    vsrc 32 (vecs [] [(0, 0x7F800000)]) (.v 0) 0 0 = 0x7F800000 ∧ isNan32 0x7F800001 = true :=
  ⟨by decide, groups_apart 0, vector_runs [], by simp [vecReals], by simp [vecFunctions], by decide +kernel, by decide⟩

theorem witness_RoundingGivesANearestCode : ∃ x : Frac, 0 < x.den ∧ x.num ≠ 0 ∧ (convert .f32 .e4 .rne false false (.real x)).2 = .none ∧
    numIsFinite (dec .e4 false 0x7E) = true ∧ 0x7E < 2 ^ Ty.e4.width := ⟨⟨-449, 2⟩, by decide +kernel⟩

theorem witness_VectorLaneWords : GroupsApart (v3 0) ∧ VRuns (vecs [] []) ∧ guardHolds (curThread (vecs [] [])) (v3 0).guard = true ∧
    (11, 32, false) ∈ vecTypes ∧ vmod 7 false false = (v3 7).modf :=
  ⟨groups_apart 0, vector_runs [], by decide +kernel, by decide, by decide⟩

theorem witness_VectorConversions : GroupsApart (v3 0) ∧ VRuns (vecs [] []) ∧ (v3 0).d = .v 4 ∧
    3 * min Ty.e4.width Ty.f32.width < max Ty.e4.width Ty.f32.width ∧ 7 * Ty.t4.width < 32 ∧
    (v3 (3 * 2 ^ 28 + 3)).modf = BitVec.ofNat 32 (3 * 2 ^ 28 + (vfmod Ty.e4.code 0 false false false).toNat + Ty.f32.code * 2 ^ 4) :=
  ⟨groups_apart 0, vector_runs [], by decide, by decide, by decide, by decide⟩

-- two lanes of the aperture, no lane, and a misaligned first lane
theorem witness_VectorMemoryWordsSendTheirLanes :
    (let s := onTile { Tile.reset with set0 := set1 [(0, thr [(2, 0xFF000000000000)] [(3, 3)] [] 0)] }
     let w : TWord := { wd (.v 4) (.s 2) .zero .zero 0x2000000 with guard := .whenTrue 3 }
     VRuns s ∧ MemoryOpen s ∧ vstart s = 0 ∧ accessBytes w = 4 ∧ ((List.range 32).filter fun x => laneOn w s (x % 32)) = [0, 1] ∧
     checkAddress s 0xFF000000000000 4 true false .plain = .ok (.sp 0 0) ∧ checkAddress s 0xFF000000000004 4 true false .plain = .ok (.sp 0 4)) ∧
    (let s := onTile { Tile.reset with set0 := set1 [(0, thr [(2, 2)] [] [] 0)] }
     let w : TWord := { wd (.v 4) (.s 2) .zero .zero 0x2000000 with guard := .whenTrue 3 }
     ((List.range 32).filter fun x => laneOn w s (x % 32)) = [] ∧ ((List.range 32).filter fun x => laneOn (wd (.v 4) (.s 2) .zero .zero 0x2000000) s (x % 32)).head? = some 0 ∧
     (readS false (curThread s) (.s 2)).toNat % 4 = 2) := by
  unfold VRuns NextInside MemoryOpen; decide +kernel

theorem witness_VectorReductionsAndScans : GroupsApart (v3 0) ∧ VRuns (vecs [] []) ∧
    (v3 (5 * 2 ^ 28 + 11)).modf = BitVec.ofNat 32 (5 * 2 ^ 28 + 11) ∧ vfmod 0 3 false false false = (v3 (3 * 2 ^ 9)).modf :=
  ⟨groups_apart 0, vector_runs [], by decide, by decide⟩

/-! ### Cluster, gears, power, rings -/

theorem witness_ClusterWordsAskTheirController :
    (let s := mapped { map1 true true with vers := true } (sc 0x10000 0xFFFF)
     Runs (wd (.s 1) (.s 2) (.s 3) .zero 0) s ∧ NextInside s ∧ (curThread s).fl.asked = none ∧ MemoryOpen s ∧
     (Instr.ldv (w3 0), ReqOp.ldv, true, false, true) ∈ versionedForms (w3 0) ∧ checkAddress s 0x10000 8 true false .versioned = .ok (.mem 0x100000000)) ∧
    (let s := sc 1023 0
     Runs (w3 0) s ∧ (curThread s).fl.asked = none ∧ (curThread s).fl.arrived = none ∧ (Instr.dqpush (w3 0), ReqOp.push, 0, true) ∈ dequeForms (w3 0) 0) ∧
    (let s := sc 15 1024
     (w3 (7 * 2 ^ 28)).modf = BitVec.ofNat 32 (7 * 2 ^ 28) ∧ bit (features s) 0 = true ∧ (readS false (curThread s) (.s 3)).toNat ≤ 1024 ∧
     (getCtx s (curCtx s)).shares.map (fun p => tileSlot p.1) = [15 / 16] ∧ (curThread s).fl.arrived = none) ∧
    (readS false (curThread (sc 1024 0xFFFFFFFFFFFFFFFF)) (.s 3)) = BitVec.allOnes 64 ∧
    (let r : Req := { rq .ldv (.mem 0x100000000) .applied with dst := .none }
     let s := holding r (runs0 { thr [] [] [] 0 with st := .wait, fl := { Flight.none with asked := some 7 } })
     (Instr.ldv (w3 0), true) ∈ answeredForms (w3 0) ∧ NextInside s ∧ (curThread s).fl.asked = some r.id ∧ findReq s r.id = some r ∧ r.stage = .applied ∧
     r.waiting = false ∧ r.bad = false ∧ r.trap = none ∧ Runs (w3 0) s) ∧
    (let s := { sc 0xFFFFFFFFFFFFFFFF 0 with layout := [(0, [0xFFFFFFFFFFFFFFFF, 0])] }
     (readS false (curThread s) (.s 2)).toNat = 2 ^ 64 - 1 ∧ slotPart s (tileSlot s.focus.tile) = some (getCtx s (curCtx s)).part) := by
  unfold Runs NextInside MemoryOpen; decide +kernel

/-- A request that column 0's controller may serve, on a word with some live versions or on a deque or barrier. -/
def served (op : ReqOp) (loc : Loc) (v : BitVec 64) (s : State) : State := holding { rq op loc .sent with val := v } s
def deque0 (d : Deque) (s : State) : State := { s with columns := [(0, { Column.reset with deques := [(0, d)] })] }
def barrier0 (b : Barrier) (s : State) : State := { s with columns := [(0, { Column.reset with bars := [(0, b)] })] }

-- versions at the edges of the window of four; a deque with one entry, none and a full one; a barrier's last arrival
theorem witness_ControllerServesItsObjects :
    (∀ op ∈ [ReqOp.ldv, .stv, .reclaim], Served (served op (.mem 0x100000000) 0 (sc 0 0)) { rq op (.mem 0x100000000) .sent with val := 0 }) ∧
    (∀ op ∈ [ReqOp.push, .pop, .steal], Served (served op (dequeAddr 0 0) 9 (deque0 ⟨true, 1, 0, [4], false⟩ (sc 0 0))) { rq op (dequeAddr 0 0) .sent with val := 9 }) ∧
    (∀ op ∈ [ReqOp.barinit, .barrier], Served (served op (barrierAddr 0 0) 2 (barrier0 { Barrier.reset with bnd := true, ctx := 1, cnt := 2, arr := 1 } (sc 0 0)))
      { rq op (barrierAddr 0 0) .sent with val := 2 }) ∧
    reqCtx (sc 0 0) (rq .push (dequeAddr 0 0) .sent) = 1 ∧ (versionedAt (sc 0 0) 0x100000000).nlive = 1 ∧ (0 + 2 ^ 16 - 0) % 2 ^ 16 < 1 := by
  unfold Served; decide +kernel

/-- A release at tick 1, whose participant resumes from tick 9 on. -/
def rel0 : Release := ⟨0, 0, 0, 1, 8, false, false, false, [(0, 0, 0)], [], [], true, 0⟩
theorem witness_ClusterEventsResumeDropAndTrap :
    (let s := { runs0 { thr [] [] [] 0 with st := .wait, fl := { Flight.none with arrived := some (0, 0, 0) } } with
        dcc := 9, releases := [rel0] }
     let th := getThread s 0 0 0
     th.fl.arrived = some (0, 0, 0) ∧ th.st = .wait ∧ th.fl.redo = [] ∧ th.pc + 1 < (getSet s 0 0).ilen ∧ edgeNow s 0 = true ∧
     releaseOf s (0, 0, 0) = some rel0 ∧ rel0.set_ = true ∧ (0, 0, 0) ∈ rel0.parts ∧ rel0.ups = [] ∧ rel0.tick + rel0.lat ≤ s.dcc) ∧
    (let s := barrier0 { Barrier.reset with bnd := true, pk := true } { runs0 { thr [] [] [] 0 with st := .wait, fl := { Flight.none with arrived := some (0, 0, 0), waitFrom := 1 } } with dcc := 257 }
     let th := getThread s 0 0 0
     th.fl.arrived = some (0, 0, 0) ∧ releaseOf s (0, 0, 0) = none ∧ (barrierAt s 0 0).pk = true ∧ (getTile s 0).effL = false ∧ edgeNow s 0 = true ∧
     th.fl.waitFrom + 256 ≤ s.dcc ∧ (∀ n < 4, n ≠ 0 → (getThread s 0 0 n).st ≠ .run) ∧ meTargetsMet (getTile s 0) (getSet s 0 0) (tscOf s 0) = true ∧
     setBoundary (getSet s 0 0) = true ∧ swapDue (getTile s 0) = false) ∧
    (let r : Req := { rq .stv (.mem 0x100000000) .sent with waiting := true, since := 1 }
     let s := { holding r (runs0 { thr [] [] [] 0 with st := .wait, fl := { Flight.none with asked := some 7 } }) with dcc := 1 + 0x1000 }
     findReq s 7 = some r ∧ columnOf 0x100000000 = some 0 ∧ r.since + Nat.max 64 (Tab.get Column.reset s.columns 0).verswait.toNat ≤ s.dcc) := by decide +kernel

theorem witness_GearsDroopAndTemperature :
    (let s := withSet { set1 [] with gearPend := some (0, 0, true) }
     edgeNow s 0 = true ∧ (getTile s 0).removed = false ∧ swapDue (getTile s 0) = false ∧ meTargetsMet (getTile s 0) (getSet s 0 0) 0 = true ∧
     setBoundary (getSet s 0 0) = true ∧ (getTile s 0).drpTh ≠ 0 ∧ (getTile s 0).tripAt ≠ s.dcc) ∧
    (let s := onTile { Tile.reset with trans := some 0, stretch := some (0, 6), half := some (0, 0) }
     (getTile s 0).trans = some 0 ∧ edgeNow s 0 = true ∧ 0 < tscOf s 0) ∧
    (let s := { onTile Tile.reset with columns := [(0, { Column.reset with crit := true })] }
     (Tab.get Column.reset s.columns (tileSlot 0)).crit = true ∧ (getTile s 0).therm = false ∧ (getTile s 0).swapReady = false ∧ setBoundary (getSet s 0 0) = true ∧ edgeNow s 0 = true) ∧
    (let s := { onTile Tile.reset with dcc := 4096 }
     s.dcc % 4096 = 0 ∧ (Tab.get Column.reset s.columns 63).sampled ≠ s.dcc ∧ (Tab.get Column.reset s.columns 63).fail = false) := by decide +kernel

theorem witness_IntervalEndsRefillAndMeter : let s := { onTile Tile.reset with dcc := 1024, layout := [(0, [1, 100])] }
    s.dcc % 1024 = 0 ∧ (Tab.find? s.tiles 0).isSome = true ∧ (getTile s 0).poolAt ≠ s.dcc ∧ layoutEntry s 0 ≠ [] := by decide +kernel

theorem witness_RingAndTokenWords :
    (let s := withSet { set1 [(0, thr [(2, 15)] [] [] 0)] with tqcfg := [(2, 0x10), (5, 0x01), (15, 0x88)], ringLsz := [(0, 3)], ringBase := [(0, 32)] }
     Runs (w3 (15 * 2 ^ 28)) s ∧ NextInside s ∧ enqueueOk s 0 0x90A80800A0300005 = true ∧ enqueueOk s 0 0 = true ∧ ringCount (curSet s) 0 < ringSize (curSet s) 0 ∧
     (Tab.get 0xFF (curSet s).tqcfg 15).extractLsb' 0 4 = 8 ∧ (Tab.get 0xFF (curSet s).tqcfg 15).extractLsb' 4 4 = 8 ∧ NothingBefore s ∧
     (Tab.get 0xFF (curSet s).tqcfg 0).extractLsb' 0 4 ≠ 8 ∧ (readS false (curThread s) (.s 2)).toNat < 2 ^ 34) ∧
    (let s := withSet { set1 [(0, thr [] [] [] 0)] with ringLsz := [(0, 3)], ringBase := [(0, 32)], tail := [(0, 8)] }
     enqueueOk s 0 0 = true ∧ ringSize (curSet s) 0 ≤ ringCount (curSet s) 0) := by
  unfold Runs NextInside NothingBefore; decide +kernel

/-! ### Streams, copies, contexts, engines -/

/-- An image whose handler 0 copies input 0 to output 0: the input's source is `src`, the output a region sink. -/
def img (src : Nat) : Image :=
  ⟨[(8, 0x0001011110000000), (16, 0x02000C00), (112, BitVec.ofNat 64 (2 * 2 ^ 62 + src * 2 ^ 48 + 3 * 2 ^ 37)), (120, 0x8000000000000000)], []⟩
/-- A tile whose element 0 has that image, in a running region of the entry side. -/
def collar (src : Nat) (q : List Entry) (e : Elem) (c : CtxSet) : State :=
  let c1 : CtxSet := { c with regions := [(0, { Region.free with st := .running, ens := true })], elems := [(0, e)] }
  onTile { Tile.reset with
    set0 := c1, pool := 100
    planes := [(0, ⟨true, false, [(0, img src)]⟩)]
    chans := [(0, { Chan.empty with depth := 4, q := q }), (256, { Chan.empty with depth := 4 })] }

theorem witness_StreamRegisterAndRegionWords :
    (let s := collar 0 [] Elem.reset { set1 [(0, thr [(2, 3)] [] [] 0)] with qregs := [(0, ⟨some 0, false, 0⟩)] }
     let c := curSet s
     Runs (wd (.q 0) (.v 0) .zero .zero 0) s ∧ NextInside s ∧ (regionOf c 3).st ≠ .running ∧ (regionOf c 0).st = .running ∧
     (∃ es, (Instr.emit (wd (.q 0) (.v 0) .zero .zero 0), 0, es) ∈ emitForms (wd (.q 0) (.v 0) .zero .zero 0) 0 ∧ es.length ≤ chanFree (chanOf (curTile s) 0)) ∧
     transferFeeds s 0 0 0 = false ∧ NothingBefore s ∧ qChannel (curTile s) c 0 0 = some 0 ∧ graphOf s 0 0 = none ∧ (Tab.get QReg.reset c.qregs 1).slot = none ∧
     canArm s (graphAt s 0 0) 0 = true ∧ (Tab.get QReg.reset c.qregs 0).ended = false) ∧
    (let s := collar 0 [] Elem.reset { set1 [(0, thr [(2, 3)] [] [] 0)] with qregs := [(0, ⟨some 1, false, 0⟩)] }
     (regionOf (curSet s) 1).st = .free ∧ (Tab.get QReg.reset (curSet s).qregs 0).slot = some 1) ∧
    (let f : ElemFault := ⟨0, 0, 0, false, 0⟩
     let s := collar 0 [] { Elem.reset with fault := some f, rxs := [{ noReaction with done := false }] } (set1 [(0, thr [(2, 64)] [] [] 0)])
     let c := curSet s
     (slotOfElem c (64 % 32)).isSome = true ∧ (elemOfSet c 0).fault = some f ∧ f.stg1 = false ∧ f.w0.getLsbD 43 = false ∧ 64 / 32 = 2 ∧ (runningRx (elemOfSet c 0)).isSome = true ∧
     (readS false (curThread s) (.s 2)).toNat = 64) := by
  unfold Runs NextInside NothingBefore
  and_intros <;> first | decide +kernel | exact ⟨_, List.mem_cons_self, by decide +kernel⟩

/-- A template of one row of eight bytes within tile 0, on channel 5, in memory behind page 1. -/
def tpl : List (BitVec 64) := [0, 64, 0x100000008, 0, 0x0005000000000000, 0, 0, 0]
def withTemplate (s : State) : State :=
  { mapped (map1 true true) s with
    mem := Memory.write (Memory.write (Memory.write [] 0x100000008 8 64) 0x100000010 8 0x100000008) 0x100000020 8 0x0005000000000000
    chanOwner := [(5, 1)], fireOwner := [(3, 1)] }
def armed (q : List (BitVec 32)) : ArmedSlot := ⟨tpl, 3, 1, 0, 0, q⟩

theorem witness_CopyWords :
    (let s := withTemplate (sc 3 0x10000)
     Runs (w3 0) s ∧ NextInside s ∧ ownsLine s 1 3 = true ∧ MemoryOpen s ∧ checkAddress s 0x10000 64 true false .block = .ok (.mem 0x100000000) ∧
     blockWords s 0x100000000 8 = tpl ∧ templateOk s 1 tpl = true ∧ templateOk s 1 (blockWords s 0x100000008 8) = false ∧ Tab.find? s.slots 0 = none ∧
     (∀ i < 8, lineBad s (.mem (0x100000000 + 8 * i)) = false) ∧ ownsChan s 1 5 = true ∧ (curThread s).fl.asked = none ∧ NothingBefore s) ∧
    (let s := { withTemplate (runs0 { thr [(2, 4096 + 5)] [] [] 0 with fl := { Flight.none with asked := some 7 } }) with fires := [⟨7, 3, 0⟩] }
     (curThread s).fl.asked = some 7 ∧ (∃ x ∈ s.fires, x.id = 7) ∧ (readS false (curThread s) (.s 2)).toNat < 2 ^ 13 ∧ (4096 + 5) / 2 ^ 10 % 4 = 0) ∧
    ((0 - 1 : BitVec 32).toNat ≥ 2 ^ 31) := by
  unfold Runs NextInside MemoryOpen NothingBefore; decide +kernel

def ask1 (op : Nat) (a b : BitVec 64) (block : List (BitVec 64)) : SummitReq := ⟨7, op, 0, 0, 0, 1, a, b, .s 1, block, 0, false, [], false, 0, 0⟩
theorem witness_ContextWordsAskSummit :
    (let s := withTemplate (sc 0x10000 0x10000)
     Runs (w3 0) s ∧ (curThread s).fl.asked = none ∧ NothingBefore s ∧ MemoryOpen s ∧ (Instr.pinU (w3 0), 9) ∈ plainContextForms (w3 0) ∧
     (Instr.ctxnew (w3 0), 0, 0x10000, 64, 8) ∈ blockContextForms (w3 0) 0x10000 0x10000 ∧
     checkAddress s 0x10000 64 true false .block = .ok (.mem 0x100000000) ∧ (∀ k < 8, lineBad s (.mem (0x100000000 + 8 * k)) = false) ∧
     (readS false (curThread (sc 0x10020 0)) (.s 2)).toNat % 2 ^ 56 % 64 ≠ 0) ∧
    (∀ reason ∈ [0, 4], let r : SummitReq := { ask1 1 0 0 [] with applied := true, ready := true, reason := reason }
     let s := { runs0 { thr [] [] [] 0 with st := .wait, fl := { Flight.none with asked := some 7 } } with summit := [r] }
     (curThread s).fl.asked = some 7 ∧ s.summit.find? (fun x => x.id == 7 && x.ready) = some r ∧ NextInside s) := by
  unfold Runs NextInside MemoryOpen NothingBefore; decide +kernel

/-- Context 13 is a child of context 1. -/
def withChild (r : SummitReq) : State :=
  { onTile Tile.reset with
    ctxs := [(0, Ctx.root), (1, { ctx1 with frm := 5, frmu := 3 }), (13, { ctx1 with depth := 2, parent := 1, st := .stopped })], summit := [r], fireOwner := [(3, 1)] }
theorem witness_SummitDecidesContextRequests :
    (let r := ask1 0 0 0 [0, 0, 0, 0, 0, 0, 0, 0]
     let s := withChild r
     SummitHolds s r ∧ s.revs = [] ∧ (getCtx s 1).depth ≠ 8 ∧ bit (features s) 6 = true ∧ creationOk r.block = true ∧
     (r.block.getD 0 0).toNat % 8 ≤ (getCtx s 1).pceil ∧ (∀ d < 4, (r.block.getD (2 + d) 0).toNat % 2 ^ 16 = 0) ∧ Tab.find? s.ctxs 14 = none ∧
     (Tab.find? s.ctxs 13).isSome = true) ∧
    (∀ b, SummitHolds (withChild (ask1 1 (BitVec.ofNat 64 (13 + 65536)) b [])) (ask1 1 (BitVec.ofNat 64 (13 + 65536)) b [])) ∧
    (let s := withChild (ask1 1 (BitVec.ofNat 64 (13 + 65536)) 2 [])
     (Tab.find? s.ctxs 13).isSome = true ∧ qtyUsed (getCtx s 1) 1 = 3 ∧ qtyOf (getCtx s 1) 1 = 5) ∧
    (let s := withChild (ask1 1 (BitVec.ofNat 64 (13 + 6 * 65536)) 3 [])
     3 < objectCount 6 ∧ holder s 6 3 = 1 ∧ holder s 6 2 ≠ 1 ∧ inSubtree s 1 13 = true ∧ (getCtx s 13).st ≠ .trapped ∧ Tab.find? s.ctxs 14 = none) ∧
    ChildOf (withChild (ask1 3 13 0 [])) 1 13 := by
  exact ⟨⟨by unfold SummitHolds; decide +kernel, by decide +kernel⟩, fun _ => ⟨rfl, rfl, rfl, rfl, rfl, rfl⟩, by decide +kernel, by decide +kernel, by decide, ⟨_, rfl, by decide, by decide, by decide⟩⟩

/-- A stream port at a position. -/
def portAt (spb : List (BitVec 64)) (pos : Nat) (ahead : Tab (BitVec 512)) : StreamPort :=
  ⟨spb, pos, false, false, none, false, [], 0, (0, 0), 0, 0, none, [], 0, 0, ahead, []⟩
/-- A set that an engine command may act in. -/
def eng0 : CtxSet := { set1 [] with ringLsz := [(0, 3), (5, 3)], tail := [(0, 1), (5, 1)] }
theorem nothing_captured (e : Nat) : (capturedAt (curSet (withSet eng0)) e (ringHead (curSet (withSet eng0)) e)).stores = [] := rfl
theorem bare_may (s : State) (e : Nat) (arg : BitVec 42) (scope : Nat) (h : (capturedAt (curSet s) e (ringHead (curSet s) e)).stores = [])
    (k : (engState (curSet s) e).knows = []) : CommandMay s e (bare arg) scope :=
  ⟨by simp [h, k], Or.inr fun _ hr => nomatch hr⟩
theorem witness_EngineCommandsTakeEffect :
    (∀ e arg, CommandMay (withSet eng0) e (bare arg) 0 ∧ CommandMay (withSet eng0) e (bare arg) 3) ∧
    (engState eng0 5).sent = none ∧ Tab.get [] (curSet (withSet eng0)).tokIds 15 = [] ∧
    (let s := onTile { Tile.reset with set0 := eng0, sp := Memory.write (Memory.write [] 80 8 0x100000001) 88 8 0x100000001 }
     openCheck (bare 0x1000000) s = none ∧ openCheck (bare 0x7FFF000000) s ≠ none ∧ loadCheck 0 0 16 s = none ∧ loadCheck 0 0 65536 s ≠ none ∧
     shareWord (curTile s) (curSet s) 80 = 0x100000001) ∧
    (let s := withSet { eng0 with ports := [(0, portAt [] 0 [])] }
     (Tab.find? (curSet s).ports 0).isSome = true ∧ Tab.find? (curSet s).ports 1 = none) ∧
    (let s := onTile { Tile.reset with set0 := eng0, planes := [(0, ⟨true, false, []⟩)] }
     fireCheck (fireArg .ce (bare 0)) s = none ∧ fireCheck (fireArg .cx (bare 0)) s = some 2) ∧
    (let s := collar 0 [] Elem.reset eng0
     pendOf (regionOf (curSet s) 0) 0 = none ∧ switchCheck 0 0 0 s = none ∧ (regionOf (curSet s) 0).abort = none ∧ (regionOf (curSet s) 0).st ≠ .free ∧
     (regionOf (curSet s) 1).st = .free) :=
  ⟨fun e arg => ⟨bare_may _ e arg 0 (nothing_captured e) rfl, bare_may _ e arg 3 (nothing_captured e) rfl⟩, by and_intros <;> decide +kernel⟩

/-- A set of accumulators whose matrix engine has a command at its ring's head with target 1. -/
def me0 (elastic retry : Bool) (target : Nat) : State :=
  onTile { Tile.reset with
    pool := 1000
    set0 := { eng0 with share := 1000, captured := [(0, ⟨target, target, elastic, retry, 0, [], 0⟩)] } }
theorem witness_MatrixCommandsIssueAtTheirTarget :
    (∀ p ∈ [(false, false, 1), (true, false, 1), (true, true, 9)],
      let s := feedAdvance (me0 p.1 p.2.1 p.2.2) 0 0 (feedGroup 5) 8
      (capturedAt (curSet s) 0 (ringHead (curSet s) 0)).stores = [] ∧ meCheck 5 (bare 0) s = none ∧ issueReason 5 (bare 0) s = none) ∧
    tscOf (me0 false false 1) 0 = 1 ∧ meCheck 2 (bare 0) (feedAdvance (me0 false false 1) 0 0 (feedGroup 2) 8) ≠ none ∧
    (Instr.accClr (bare 0), 5) ∈ matrixForms (bare 0) := by decide +kernel

/-! ### Moves, matrix rows, elements -/

/-- A reaction of element 0 on input 0, of a type and a scale mode, whose first bundle is open or not. -/
def rx0 (opnds done : Bool) (sm : Nat) (ty : Nat) : Reaction :=
  { noReaction with
    kind := .handler 0, done := done, opnds := opnds, stat := [true], items := [(0, 0x3F800000)]
    ins := [(0, { InState.reset with ty := ty, sm := sm, latched := sm == 1 })] }
def moving (r : Reaction) : State := collar 16 [] { Elem.reset with rxs := [r] } (set1 [])
/-- One trigger of the bundle has signalled a NaR. -/
def trig1 : TrigRec := ⟨0, 1, 1, 0, 1, 0, 0, 0, 0xFFFF, 0, 0⟩

-- a guarded move whose guard passes and one whose guard fails; a bundle to open; its last move without and with an enabled condition
theorem witness_MovesAndBundlesOfAReaction :
    Moves (mv (.inp 0) (.out 0) 0) (moving (rx0 true false 0 0)) ∧ Moves (mv (.inp 0) (.out 0) 0xC0) (moving (rx0 true false 0 0)) ∧
    (lane (Tab.get 0 (curRx (moving (rx0 true false 0 0))).before 7) 0 != 0) = false ∧
    (moveReady (moving (rx0 false false 0 0)) = true ∧ (curRx (moving (rx0 false false 0 0))).opnds = false) ∧
    (mvEnd (.inp 0) (.out 0) 0).eob = true ∧
    next? (exec (.move { mvEnd (.inp 0) (.out 0) 0 with eob := false }) (moving (rx0 true false 0 0))) (fun t =>
      ((curRx t).trigs.find? fun r => causeOf (enables (curSet (moving (rx0 true false 0 0))) 0) r != 0) == none) = true ∧
    next? (exec (.move { mvEnd (.inp 0) (.out 0) 0 with eob := false }) (moving { rx0 true false 0 0 with trigs := [trig1] })) (fun t =>
      ((curRx t).trigs.find? fun r => causeOf (enables (curSet (moving (rx0 true false 0 0))) 0) r != 0) == some trig1) = true ∧
    (∀ ts ∈ [[], [trig1]], let k : BundleEnd := ⟨[], [], ts, [], [], [], none, 0, 0⟩
     let s := { moving { rx0 false true 0 0 with ends := [k] } with agenda := [.stage 0 0] }
     let x := elemOfSet (actSet s 0) 0
     let en := enables (actSet s 0) 0
     s.boot ≠ .shutdown ∧ Acts s 0 ∧ (∃ r, x.rxs = [r] ∧ r.half = false ∧ r.since < tscOf s 0 ∧ r.exd < 4 ∧ r.stage = r.exd + 2 ∧ r.ends[r.exd]? = some k) ∧
     x.fault = none ∧ (k.trigs.find? fun q => causeOf en q != 0) = ts.head?) := by
  unfold Moves Acts; refine ⟨?_, ?_, ?_, ?_, ?_, ?_, ?_, ?_⟩ <;> first | decide +kernel | skip
  intro ts h
  have : ts = [] ∨ ts = [trig1] := by simpa using h
  obtain rfl | rfl := this <;> exact ⟨by decide +kernel, by decide +kernel, ⟨_, rfl, by decide +kernel⟩, by decide +kernel, by decide +kernel⟩

theorem witness_TriggersComputeOnTheirLanes :
    Moves (mv (.inp 0) .aluT 0) (moving (rx0 true false 0 0)) ∧ OpType (moving (rx0 true false 0 0)) (mv (.inp 0) .aluT 0) .f32 ∧
    OpType (moving (rx0 true false 0 7)) (mv (.inp 0) .aluT 0) .s32 ∧ OpType (moving (rx0 true false 0 11)) (mv (.inp 0) .aluT 0) .z32 ∧
    OpType (moving (rx0 true false 1 3)) (mv (.inp 0) .cvtT 0x70) .e4 ∧ (∃ o r f, (Instr.redAcc (mv (.inp 0) .redT 0), o, r, f) ∈ floatTriggers (mv (.inp 0) .redT 0)) ∧
    (∃ o r f, (Instr.aluNeg (mv (.inp 0) .aluT 0), o, r, f) ∈ intTriggers (mv (.inp 0) .aluT 0)) ∧
    (∃ o r f, (Instr.aluPass (mv (.inp 0) .aluT 0), o, r, f) ∈ rawTriggers (mv (.inp 0) .aluT 0)) ∧ (∃ t, (Instr.sfuSig (mv (.inp 0) .sfuT 0), t) ∈ sfuTriggers (mv (.inp 0) .sfuT 0)) ∧
    (∃ c, (Instr.aluCmple (mv (.inp 0) .aluT 0), c) ∈ compareTriggers (mv (.inp 0) .aluT 0)) ∧
    srcLane (moving (rx0 true false 0 0)) (mv (.inp 0) .aluT 0) 0 = 0x3F800000 ∧ srcLane (moving (rx0 true false 0 0)) (mv (.inp 0) .redT 0) 15 = 0 ∧
    (Tab.get InState.reset (curRx (moving (rx0 true false 1 3))).ins 0).latched = true ∧ (Tab.get InState.reset (curRx (moving (rx0 true false 2 3))).ins 0).latched = false ∧
    7 * Ty.t4.width < 32 ∧ 32 ≤ 4 * Ty.e4.width ∧ (mv (.inp 0) .cvtT 0x70).lane ≠ .bcast := by
  unfold Moves
  and_intros <;> first | decide +kernel | exact Or.inl ⟨0, by decide +kernel⟩ |
    simp [floatTriggers, intTriggers, rawTriggers, sfuTriggers, compareTriggers]

/-- A run of the matrix engine over shape record words, issued at step 1 and due then. -/
def run0 (eop : Nat) (r0 r1 : BitVec 64) (row total : Nat) (sig : Option TokenRef) (slab : Option Slab) : MeRun :=
  ⟨eop, 0, sig, r0, r1, 3, 1, 1, row, 1, 0, 0, 0, [], [], 0, slab, true, total, false, false, 0, 0⟩
def meState (me : MeState) (pool : Nat) (ts : List Turn) : State :=
  { onTile { Tile.reset with pool := pool, set0 := { set1 [] with share := 1000, me := me } } with agenda := ts }
/-- 1 × 1 × 1 of S8, from the scratchpad. -/
def s8rec : BitVec 64 := BitVec.ofNat 64 (9 * 2 ^ 33 + 9 * 2 ^ 29)
def slab8 : Slab := ⟨9, 0, false, 1, 1, [(0, 0x80)], []⟩
-- a clear's row; an MMA's row at its entry and at its write; a drain's row; a slab; a port that is left; a signal with DRN and without;
-- a SWITCH; a row and a command that miss their step; a command whose target is past
theorem witness_MatrixRowsSlabsSignalsAndMisses :
    (let r := run0 5 0 0 0 1 none none
     let s := meState { MeState.reset with clear := some r } 1 [.meRow 0 3]
     Acts s 0 ∧ r.due ≤ tscOf s 0 ∧ r.row < r.total ∧ accessBlocked (actSet s 0).me 1 r 0 = false ∧ canCharge s 0 1 = true) ∧
    (let r := run0 2 s8rec 0x8000000000000000 0 1 none (some slab8)
     let s := meState { MeState.reset with west := some r } 100 [.meRow 0 0]
     Acts s 0 ∧ canCharge s 0 (nextQuanta (getTile s 0) r) = true ∧ rowBad (getTile s 0) (actSet s 0) r = none ∧
     (runShape r).k = 1 ∧ (runShape r).src = true ∧ Ty.ofCode (runShape r).ta = some .s8 ∧ Ty.ofCode (runShape r).tb = some .s8) ∧
    (∀ n ∈ [1, 2], let r := { run0 2 s8rec 0x8000000000000000 1 1 none (some slab8) with rows := [⟨0, n, [5]⟩] }
     let s := meState { MeState.reset with west := some r } 1 [.meRow 0 4]
     Acts s 0 ∧ Alone (actSet s 0).me 0 r ∧ accRowBad (getTile s 0) (actSet s 0) r 0 = false ∧ tscOf s 0 = 1) ∧
    (let r := run0 4 s8rec 0x8000000000000000 0 1 none none
     let s := meState { MeState.reset with drain := some r } 100 [.meRow 0 2]
     Acts s 0 ∧ accessBlocked (actSet s 0).me 1 r 0 = false ∧ rowBad (getTile s 0) (actSet s 0) r = none ∧ (runShape r).src = true ∧
     canCharge s 0 (nextQuanta (getTile s 0) r) = true) ∧
    (let r := run0 1 s8rec 0x8000000000000000 1 1 (some ⟨3, 0⟩) (some slab8)
     let s := { meState { MeState.reset with load := some r } 1 [] with dcc := 10 }
     edgeNow s 0 = true ∧ r.total ≤ r.row ∧ (runShape r).src = true ∧
     Nat.max (r.ent + 9) (r.issue + 8 + ((runShape r).k * (runShape r).n * codeWidth (runShape r).tb + 2047) / 2048) = tscOf s 0) ∧
    (let r := run0 5 0 0 1 1 none none
     let s := meState { MeState.reset with west := some r } 1 []
     (actSet s 0).me.back = [] ∧ r.row = r.total ∧ r.ent < tscOf s 0) ∧
    (∀ x ∈ [(true, 0), (true, 1), (false, 0)], let r := { run0 5 0 0 1 1 (some ⟨3, 0⟩) none with arg := if x.1 then 8 else 0, last := x.2 }
     let s := meState { MeState.reset with done := [r] } 1 []
     (actSet s 0).me.done = [r] ∧ r.row = r.total ∧ r.rows = [] ∧ r.outs = [] ∧ r.arg.getLsbD 3 = x.1 ∧ decide (r.last < tscOf s 0) = (x.2 == 0) ∧ r.ent < tscOf s 0) ∧
    (let s := collar 16 [] { Elem.reset with finished := true } (set1 [])
     let p : PendSwitch := ⟨0, 1, none, 0, true, 0⟩
     sideRegion (actSet s 0) 0 = some 0 ∧ pendOf { regionOf (actSet s 0) 0 with swe := some p } 0 = some p) ∧
    (let r := run0 2 s8rec 0x8000000000000000 1 2 none (some slab8)
     let s := meState { MeState.reset with west := some r } 0 []
     Acts s 0 ∧ (engState (actSet s 0) 0).faulted = false ∧ r.strict = true ∧ r.loose = false ∧ 0 < r.row ∧ r.row < r.total ∧ (runShape r).src = true ∧
     canCharge s 0 (nextQuanta (getTile s 0) r) = false) ∧
    (let s := me0 false false 1
     let c := actSet s 0
     let t := getTile s 0
     let waits : State := { s with tiles := [(0, { t with sp := Memory.write [] 0 8 0x9000000000000000, set0 := { t.set0 with tqcfg := [(2, 0xF0)] } })] }
     meHead waits = some (0, ⟨some ⟨2, 0⟩, none, 0⟩) ∧ targetOf waits = tscOf waits 0 ∧ issueReason 0 ⟨some ⟨2, 0⟩, none, 0⟩ waits = some 2 ∧
     meHead s = some (0, bare 0) ∧ targetOf s = 1 ∧ Nat.max (engState c 0).free ((capturedAt c 0 (ringHead c 0)).at_ + 1) = 1 ∧ headOrdered s 0 0 = true ∧
     targetOf (me0 false false 0) < 1 ∧ 1 ≤ tscOf (me0 false false 0) 0) := by
  unfold Acts Alone
  and_intros <;> decide +kernel

-- an entry of each kind, with items still to drain and behind an END; an input whose entry comes to stage 2; the three selections; an
-- emission; an owed SWITCH entry; a record
theorem witness_ElementEventsFollowTheSelectionRule :
    (∀ kind ∈ [0, 1, 2, 4, 5, 6, 7], ∀ n ∈ [0, 1], let x := mkEntry kind 0
     let s := collar 16 [x] { Elem.reset with ins := [(0, { InState.reset with sm := 1, drain := n })] } (set1 [])
     AtInput s 0 0 0 x [] ∧ entryGood x = true ∧ (inState (elemOfSet (actSet s 0) 0) 0).ended = false ∧ (elemOfSet (actSet s 0) 0).fault = none) ∧
    headerOk 0 = true ∧ entryGood ⟨1, 0, 0⟩ = false ∧
    (let s := collar 16 [mkEntry 2 0, mkEntry 1 0] { Elem.reset with ins := [(0, { InState.reset with ended := true })] } (set1 [])
     AtInput s 0 0 0 (mkEntry 2 0) [mkEntry 1 0] ∧ (arrivedIn s.dcc (chanOf (getTile s 0) (chanKey 0 0 0)))[1]? = some (mkEntry 1 0)) ∧
    (let s := { collar 16 [mkEntry 2 0] { Elem.reset with ins := [(0, { InState.reset with taken := some 1 })] } (set1 []) with agenda := [.stage 0 0] }
     let e := elemOfSet (actSet s 0) 0
     s.boot ≠ .shutdown ∧ Acts s 0 ∧ e.rxs = [] ∧ 0 ∈ connected (imageNow s 0 0 0) ∧ 1 ≤ tscOf s 0 ∧
     (headEntry (getTile s 0) 0 0 (imageNow s 0 0 0) e 0).map Entry.kind = some 2) ∧
    (let s := { collar 16 [mkEntry 1 5] { Elem.reset with ins := [(0, { InState.reset with seen := true })] } { set1 [] with share := 100 } with dcc := 1 }
     let e := elemOfSet (actSet s 0) 0
     let im := imageNow s 0 0 0
     maySelect s 0 0 0 = true ∧ planeBad s 0 0 0 = false ∧ allEnded im e = false ∧ mayDrain im e = true ∧
     topHandler im (inStatus (getTile s 0) 0 0 im e) = some 0 ∧ e.paid ≠ some e.inst ∧
     satisfied im (inStatus (getTile s 0) 0 0 im e) 0 = true ∧ roomFor s 0 0 0 im (some 0) = true ∧ canCharge s 0 (hCost im 0 false) = true) ∧
    (let s := collar 16 [mkEntry 0 0] { Elem.reset with ins := [(0, { InState.reset with seen := true })] } (set1 [])
     let e := elemOfSet (actSet s 0) 0
     let im := imageNow s 0 0 0
     topHandler im (inStatus (getTile s 0) 0 0 im e) = none ∧ (∀ i ∈ connected im, inStatus (getTile s 0) 0 0 im e i ≠ 0) ∧ roomFor s 0 0 0 im none = true) ∧
    (let s := collar 16 [mkEntry 2 0] { Elem.reset with ins := [(0, { InState.reset with ended := true })] } (set1 [])
     allEnded (imageNow s 0 0 0) (elemOfSet (actSet s 0) 0) = true ∧ maySelect s 0 0 0 = true ∧ (chanOf (getTile s 0) 0).held = []) ∧
    (let rx := { rx0 false true 0 0 with stage := 6, exd := 4 }
     let s := collar 16 [] { Elem.reset with rxs := [rx] } (set1 [])
     let im := imageOf (getTile s 0) 0 0
     Acts s 0 ∧ rx.since ≤ tscOf s 0 ∧ (elemOfSet (actSet s 0) 0).swTag = none ∧ reactionFault (elemOfSet (actSet s 0) 0) = false ∧
     (∀ o ∈ outputs im, (reactionEntries rx o).length ≤ outFree s 0 0 im 0 o) ∧ outTarget s 0 0 im 0 0 = some (0, 256)) ∧
    (let s := collar 16 [] { Elem.reset with emitted := 1, swTag := some (1, 0), swOwed := [(0, 5)] } (set1 [])
     ((elemOfSet (actSet s 0) 0).swOwed.find? fun x => x.1 == 0) = some (0, 5) ∧ edgeNow s 0 = true ∧
     1 ≤ outFree s 0 0 (imageOf (getTile s 0) 0 (planeOf (actSet s 0) 0)) 0 0) ∧
    (let g : Graph := ⟨1, 1, 0, 1, [(0, 0)], [], [], [], false⟩
     let s := { collar 16 [] { Elem.reset with inst := 1, cairnIn := [0] } (set1 []) with graphs := [(1, g)] }
     graphOf s 0 0 = some (1, g) ∧ recordReady s 0 0 0 g = true) := by
  unfold AtInput Acts
  and_intros <;> decide +kernel

/-! ### Regions, launches, copies, the package -/

/-- A load at tick 16 that has read its images and tables, with or without a fault, or has not. -/
def load0 (part : Nat) (bad : Option (BitVec 64 × Nat)) : LoadRun := ⟨0, 0, 0, 0, 0, none, 0, part, 0, [], [], [], bad⟩
def loading (l : LoadRun) : State := { withSet { set1 [] with load := some l } with dcc := 16 }

/-- An image whose input 0 is fed by its own output 0 through a link that stays on the tile: it waits for itself, for an entry where its
handler needs one, else for a slot. -/
def ring (pat : BitVec 64) : Image :=
  ⟨[(8, 0x0000011110000000 + pat), (16, 0x02000C00), (112, 0x4000006100000000), (120, 0x4000080000000000)], []⟩
def ringTile (im : Image) (scrn : Nat) : State :=
  let c : CtxSet := { set1 [] with regions := [(0, { Region.free with st := .running, ens := true })] }
  { onTile { Tile.reset with set0 := c, planes := [(0, ⟨true, false, [(0, im)]⟩)] } with
    dcc := 100000, ctxs := [(0, Ctx.root), (1, { ctx1 with scrn := scrn })] }
/-- A stream of one element of the share. -/
def spb1 : List (BitVec 64) := [0, 0, 0x100000001, 0x100000001, 0, 0, 0, 0]
def port0 (ahead : Tab (BitVec 512)) (pos : Nat) : StreamPort := portAt spb1 pos ahead
def region0 (g : Region) : CtxSet := { set1 [] with regions := [(0, g)] }

theorem witness_RegionAndTileEventsTakeEffect :
    (∀ b ∈ [none, some (3, 64)], let s := loading (load0 17 b)
     Acts s 0 ∧ (actSet s 0).load = some (load0 17 b) ∧ loadRead (load0 17 b) = true ∧ 0 + (8 * 0 + 511) / 512 + 16 ≤ tscOf s 0) ∧
    (loadRead (load0 16 none) = false ∧ tscOf (withSet (set1 [])) 0 < 16) ∧
    (let p : PendSwitch := ⟨5, 1, none, 0, false, 0⟩
     let s := { withSet (region0 { Region.free with st := .running, ens := true, swe := some p, sinks := [(256, 0)], ends := [256] }) with dcc := 2 }
     sideRegion (actSet s 0) 0 = some 0 ∧ pendOf (regionOf (actSet s 0) 0) 0 = some p ∧ p.issue + 2 ≤ tscOf s 0 ∧
     (∀ j < 16, pastTag (elemOfSet (actSet s 0) j) p.tag = false) ∧ pastTag { Elem.reset with inst := 7 } 5 = true ∧
     (∀ k ∈ (regionOf (actSet s 0) 0).sinks, k.1 ∈ (regionOf (actSet s 0) 0).ends)) ∧
    (let s := mapped (map1 true true) (withSet (region0 { Region.free with st := .retiring, ens := true, caddr := 0x10000, flv := true }))
     Acts s 0 ∧ (regionOf (actSet s 0) 0).noStore = false ∧ parkedOn s (.region 0 0 0) = false ∧ recordStands (actSet s 0) (fun r => r.src == 3 && r.slot == 0) = false ∧
     regionWritesDone s 0 0 0 0 = true ∧ (regionOf (actSet s 0) 0).swe = none ∧ (regionOf (actSet s 0) 0).swx = none ∧ regionStores s 0 0 0 = [] ∧ translate s 0 1 [] 0x10000 = .hit 0x100000000 (map1 true true) ∧
     kindOk .plain 8 (placeOf 0x100000000) (map1 true true) = true ∧ performedId s (.region 0 0 0) 3 9 = true) ∧
    (let s := collar 16 [] Elem.reset { set1 [] with ports := [(0, port0 [(0, 5), (1, 0)] 0), (4, port0 [] 0)] }
     let c := actSet s 0
     sourceReader (getTile s 0) c 16 = some (0, 0) ∧ elemRuns c 0 = true ∧ indexesOther c 0 = false ∧ chanFree (chanOf (getTile s 0) 0) ≠ 0 ∧ graphOf s 0 0 = none ∧ spbSpace spb1 ≠ 2 ∧
     spbSmode spb1 = 0 ∧ 0 < portItems spb1 ∧ portItems spb1 ≤ 1 ∧ sinkFeeder (getTile s 0) c 0 = some (0, 0) ∧ portActs s 0 0 4 (port0 [] 0) = true ∧
     entryGood (mkEntry 1 5) = true ∧ (elemLocs s 0 0 0 (spbWidth spb1) (portElems (port0 [] 0) (sinkType c 0 256) 5)).toOption.isSome = true) ∧
    (let r := wordRec 0x0A 0 3 0 0
     let s := { withSet { set1 [] with trap := { TrapState.reset with vecEn := true, hthr := 2, held := [r] } } with dcc := 1 }
     handles s (actSet s 0) 1 r = true ∧ (actSet s 0).trap.left < tscOf s 0) ∧
    (let s := ringTile (ring 0x1000000000000) 0
     monitorDue s 0 0 = true ∧ causalityCycle (waitCycles s 0 0 0) = some (⟨(0, 0, 0), 0, 0, 0, 0, false⟩, 1)) ∧
    (let s := ringTile (ring 0) 0
     causalityCycle (waitCycles s 0 0 0) = none ∧ (capacityEdges (waitCycles s 0 0 0)) = [⟨(0, 0, 0), 0, 0, 0, 0, true⟩] ∧ canLink s ⟨(0, 0, 0), 0, 0, 0, 0, true⟩ = false ∧
     canLink (ringTile (ring 0) 1) ⟨(0, 0, 0), 0, 0, 0, 0, true⟩ = true ∧ slotOfElem (actSet s 0) 0 = some 0 ∧ waitCycles (withSet (set1 [])) 0 0 0 = []) := by
  unfold Acts; and_intros <;> decide +kernel

/-- The set that is not active, with a context. -/
def other1 (stop : Bool) : State :=
  onTile { Tile.reset with set0 := set1 [], set1 := { CtxSet.reset with ctx := some 1, stopReq := stop }, swapReady := true }
theorem witness_SetsGraphsAndSegments :
    (let s := other1 false
     (getTile s 0).removed = false ∧ (tileSet (getTile s 0) (otherSet 0)).ctx = some 1 ∧ leaveReady s 0 = true ∧ (getCtx s 1).saveBad = [] ∧ s.revs = []) ∧
    (let g : Graph := ⟨1, 1, 0, 1, [(0, otherSet 0)], [], [], [], false⟩
     tileRecorded (other1 false) g (0, otherSet 0) = true) ∧
    (let g : Graph := ⟨1, 1, 0, 1, [], [], [], [], false⟩
     let v : SavedSet := ⟨1, 0, 300, some 1⟩
     let s := { withSet (set1 []) with graphs := [(1, g)], saved := [v], tiles := [(0, Tile.reset), (300, { Tile.reset with set0 := set1 [] })] }
     graphSaved s 1 = [v] ∧ ctxRuns s 1 = true ∧ restoreDue s 1 g = true ∧ graphPlan s 1 g = some (0, (0, 0), [0]) ∧ (bringIn s v 0 (otherSet 0)).isSome = true) ∧
    (let d : Deque := ⟨true, 1, 0, List.replicate 64 0, false⟩
     let r : Req := { rq .push (dequeAddr 0 0) .sent with waiting := true }
     let s := { holding r (deque0 d (onTile Tile.reset)) with ctxs := [(0, Ctx.root), (1, { ctx1 with scrn := 1 })] }
     (s.reqs.find? fun r => r.op == .push && r.waiting && dequeOfLoc r.loc == (0, 0)) = some r ∧ dequeRoom d ≤ d.q.length ∧ screeLeft s 1 0 = true) := by
  decide +kernel

/-! ### Launches, walks and revocations -/

/-- A record of context 1: descriptor and loop table in page 1, an indirect count or not, an event ring, a first dependence. -/
def recOf (icv : Bool) (ev prio dep : Nat) : List (BitVec 64) :=
  [0x10000, 0x10000, BitVec.ofNat 64 ((if icv then 0x0800000000010000 else 0) + prio * 2 ^ 56), 0xFFFFFFFF00000005, 0, BitVec.ofNat 64 dep, 0,
    BitVec.ofNat 64 (2 ^ 32 + ev * 2 ^ 24)]
def ln (words : List (BitVec 64)) : Launch := ⟨7, 1, 0, words, 0, false, 0, 1, 0, [], 0, 0, 0, 0, 0, 0, [], [], false, false, 0, false⟩
/-- Launch 7 of context 1, whose event ring 0 has eight records of room and `n` of them written. -/
def launching (t : Tile) (l : Launch) (n : Nat) : State :=
  let s := onTile t
  { s with launches := [(7, l)], serial := 8, tlb := [(0, 1099511627777)]
           ctxs := [(0, Ctx.root), (1, { ctx1 with maps := [map1 true true], ertab := 0x18000, nring := 1, scrn := 1 })]
           mem := Memory.write (Memory.write [] 0x100008000 8 (3 * 2 ^ 59 + 0x19000)) 0x100008008 8 n }
/-- A queue of context 1 with its first record, or its first two: the first waits on counter 0, the second is of priority 1. -/
def queued (n : Nat) : State :=
  let s := launching Tile.reset (ln (recOf false 0 0 0)) 0
  { s with queues := [(2, ⟨3, 0x10000, true, 1, BitVec.ofNat 32 n, 0, 0, []⟩)], queueOwner := [(2, 1)], counterOwner := [(0, 1)]
           mem := (List.range 8).foldl (fun m i => Memory.write (Memory.write m (0x100000000 + 8 * i) 8 ((recOf false 0 0 0x500010000).getD i 0).toNat)
             (0x100000040 + 8 * i) 8 ((recOf false 0 1 0).getD i 0).toNat) s.mem }
/-- A launch expanded into two placements. -/
def ln2 (words : List (BitVec 64)) : Launch := { ln words with expanded := true, waiting := [0, 1], total := 2, dies := [0] }
def place0 (set : Option Nat) : Placement := ⟨3, 7, 1, 0, 0, set, set.isSome⟩
def placed (l : Launch) : State := { launching Tile.reset l 0 with places := [(3, place0 none)] }

-- the ring's record waits for a segment
theorem witness_RingSegments :
    let s := launching Tile.reset { ln2 (recOf false 0 0 0) with signalled := true } 8
    recordWaits s 1 0 = true ∧ (∃ e, ringEntry s 1 0 = some e ∧ ringRoom e = false) ∧ (ringOver s 1 0).q.length = 64 * (ringOver s 1 0).segs ∧
      screeLeft s 1 (leadDie s 1) = true :=
  ⟨by decide +kernel, ⟨_, rfl, by decide +kernel⟩, by decide +kernel, by decide +kernel⟩

theorem witness_LaunchesRunThroughTheirLife :
    (let s := { onTile { Tile.reset with set0 := set1 [] } with
                dcc := 0, places := [(3, { place0 none with ctx := 2 })], ctxs := [(0, Ctx.root), (1, ctx1), (2, { ctx1 with part := 1 })] }
     s.dcc % 2 ^ 20 = 0 ∧ (Tab.find? s.tiles 0).isSome = true ∧ contenders s 0 = [1, 2] ∧ (contenders s 1).length < 2) ∧
    (let s := queued 1
     (nextRecord s (leadDie s (queueTag s 2))).map Prod.fst = none ∧ leadDie s 1 = 0) ∧
    (let s := launching Tile.reset (ln []) 0
     nextRecord { s with queues := [(2, ⟨3, 0x10000, true, 1, 1, 0, 0, []⟩)], queueOwner := [(2, 1)] } 0 = some (2, 0, List.replicate 8 0)) ∧
    (let s := queued 2
     nextRecord s (leadDie s (queueTag s 2)) = some (2, 1, recOf false 0 1 0) ∧ s.boot = .running ∧ leadDie s 1 ∉ s.dieOut ∧ (queueOf s 2).taken = [] ∧
     malformedRecord s 1 (recOf false 0 1 0) = false) ∧
    (let s := launching Tile.reset (ln (recOf true 0 0 0)) 0
     LaunchIs s 7 (ln (recOf true 0 0 0)) ∧ ctxRuns s 1 = true ∧ starvedAt (expandAddrs s (ln (recOf true 0 0 0))) s 1 = none ∧
     (readLoops s 1 (recOf true 0 0 0)).map (fun x => x.1) = some [0] ∧ (readLoops s 1 (recOf true 0 0 0)).map (fun x => ctxDies x.2 1) = some [0] ∧
     ctxDies { s with dieOut := [0] } 1 = [] ∧ recIcv (recOf true 0 0 0) = true ∧
     ((readLoops s 1 (recOf true 0 0 0)).bind fun x => sysBytes 4 x.2 1 (recIcnt (recOf true 0 0 0))).isSome = true ∧ recIcv (recOf false 0 0 0) = false ∧
     sysBytes 4 s 1 0x30000 = none ∧ loopTable s 1 [0x10000, 0x30000] = none) ∧
    (let s := launching Tile.reset (ln2 (recOf false 0 0 0)) 0
     waitingOn s 0 = [(ln2 (recOf false 0 0 0), 0), (ln2 (recOf false 0 0 0), 1)] ∧ chooseTile s 1 0 = some 0 ∧ 0 ∉ s.dieOut) ∧
    (let s := placed (ln2 [])
     toDispatch s 0 = some (3, place0 none) ∧ LaunchIs s 7 (ln2 []) ∧ emptySet (getTile s 0) = some 0 ∧ loadKernel s (ln2 []) (place0 none) = none ∧
     starvedAt (loadAddrs s (ln2 [])) s 1 = none) ∧
    (let s := placed (ln2 (recOf false 0 0 0))
     ∃ x u, loadKernel s (ln2 (recOf false 0 0 0)) (place0 none) = some (x, u) ∧
      (placeWindows (freshSet 1 3 x.kd) (tileSet (getTile u 0) (otherSet 0))).isSome = true ∧ ∀ k ∈ planesHeld (getTile u 0) (otherSet 0), bit (kdPlreq x.kd) k = false) ∧
    (let s := { launching { Tile.reset with set0 := { set1 [] with place := some 3 } } (ln2 []) 0 with places := [(3, place0 (some 0))] }
     placeOn s 0 0 = some 3 ∧ setDone s 0 0 = true ∧ Tab.wf s.places = true ∧ LaunchIs s 7 (ln2 [])) ∧
    (let l := { ln (recOf false 0 0 0) with expanded := true }
     let s := launching Tile.reset l 8
     LaunchIs s 7 l ∧ ownsRing s 1 0 = true ∧ (∃ e, ringEntry s 1 0 = some e ∧ ringRoom e = false) ∧ (ringOver s 1 0).q.length = 64 * (ringOver s 1 0).segs ∧
     ownsRing s 1 1 = false ∧ Tab.wf s.launches = true ∧
     (let x := ringOver { s with rings := [(256, ⟨1, [[]]⟩)] } 1 0
      x.q ≠ [] ∧ x.q.length < 64 * x.segs)) := by
  unfold LaunchIs
  and_intros <;> first | decide +kernel | exact ⟨_, _, rfl, by and_intros <;> decide +kernel⟩

/-- A walk of page 1 of context 1 on which thread 0 waits. -/
def walk1 (told : Bool) : Walk := ⟨4, 0, 1, 1, [.thread 0 0 0], 0x10000, told⟩
/-- Page 1 of context 1 is a demand page of the context's own pool, which holds `n` frames. -/
def demanded (told : Bool) (n : Nat) : State :=
  let s := onTile Tile.reset
  { s with walks := [walk1 told]
           ctxs := [(0, Ctx.root), (1, { ctx1 with frm := n, maps := [{ map1 true true with dmd := true, owner := 1, src := 0x10000, span := 0x10000 }] })] }
/-- A revocation of context 13's, the child of context 1. -/
def rev1 (kind : Nat) (b : BitVec 64) (dl : Nat) : Revocation := ⟨6, 0, 1, 13, kind, b, dl, false⟩
def revoking (v : Revocation) : State :=
  { onTile { Tile.reset with set0 := { set1 [] with ctx := some 13 } } with
    revs := [v]
    ctxs := [(0, Ctx.root), (1, { ctx1 with frmu := 3, shares := [] }), (13, { ctx1 with depth := 2, parent := 1, frm := 3 })] }

theorem witness_WalksEndAndRevocationsFallDue :
    (let s := demanded false 5
     s.walks.find? (fun w => w.id == 4) = some (walk1 false) ∧ mappingOf s 1 0x20000 = none ∧ (touch 9 s 1 0x10000 false false).isSome = true ∧
     agentUnit (.thread 0 0 0) = some 0) ∧
    (let s := demanded false 0
     (mappingOf s 1 0x10000).isSome = true ∧ (touch 9 s 1 0x10000 false false).isSome = false ∧
     (∀ m, mappingOf s 1 0x10000 = some m → (demandKey 1 m 0x10000).1 = 1) ∧ reachesRoot s 9 1 0x24 = true ∧ rootHasFrame s = true) ∧
    (demanded true 0).walks.find? (fun w => w.id == 4) = some (walk1 true) ∧
    (let s := revoking (rev1 0 0 5)
     s.revs.find? (fun v => v.id == 6) = some (rev1 0 0 5) ∧ s.dcc < 5) ∧
    (let s := revoking (rev1 8 3 1)
     s.revs.find? (fun v => v.id == 6) = some (rev1 8 3 1) ∧ 1 ≤ s.dcc ∧ kidsOf s 13 = [] ∧ 3 ≤ qtyOf (getCtx s 13) 8 - qtyUsed (getCtx s 13) 8 ∧
     13 ∈ subtree s 13 ∧ (getSet s 0 0).ctx = some 13 ∧ Tab.wf (getCtx s 13).shares = true ∧ ∀ x ∈ s.revs, x.id ≠ 6 → x.child ≠ 13) := by
  decide +kernel

/-! ### Copies, the token, failures -/

/-- A transfer of channel 5, or a slot of engine 0 armed on it. -/
def tr (n : BitVec 32) (ended : Bool) (stop : Option (Nat × Nat)) (told : Bool) : Transfer :=
  ⟨n, tpl, 0, 1, 0, 0, true, [], 0, [], 0, 0, ended, 0, 0, stop, told, 0, none⟩
def copying (c : CopyChan) : State := { withSet (set1 []) with slots := [(0, armed [9])], copies := [(5, c)], fires := [⟨7, 3, 9⟩] }

theorem witness_FireEntriesAndTransfersProceed :
    (∃ e ∈ (copying CopyChan.reset).fires, Deliverable (copying CopyChan.reset) e) ∧
    (∀ e ∈ ({ copying CopyChan.reset with slots := [(0, armed [1, 2, 3, 4])] } : State).fires,
      ¬Deliverable { copying CopyChan.reset with slots := [(0, armed [1, 2, 3, 4])] } e) ∧
    (let s := copying CopyChan.reset
     Tab.wf s.slots = true ∧ Tab.find? s.slots (0 * 64 + 0) = some (armed [9]) ∧ CanStart s (armed [9]) ∧ s.boot = .running ∧ Tab.find? s.partsOut (partOf s 1) = none) ∧
    ¬CanStart (copying CopyChan.reset) (armed []) ∧
    (let s := copying ⟨3, 2, [], [tr 2 true none false]⟩
     findTransfer s 5 2 = some (tr 2 true none false) ∧ parkedOn s (.copy 5 2) = false ∧ s.reqs = [] ∧ tplCrv tpl = false ∧ (copyOf s 5).wm = 2) ∧
    (copyOf (copying ⟨4, 2, [3], [tr 2 true none false]⟩) 5).ends = [2 + 1] ∧
    (let c := copyOf (copying ⟨4, 1, [], [tr 2 true none false]⟩) 5
     c.wm ≠ 2 ∧ (2 - c.wm).toNat < 2 ^ 31 ∧ c.wm ∉ c.ends) ∧
    findTransfer (copying ⟨3, 2, [], [tr 2 false none false]⟩) 5 2 = some (tr 2 false none false) ∧
    (let s := copying ⟨3, 2, [], [tr 2 false (some (1, 0x10000)) false]⟩
     findTransfer s 5 2 = some (tr 2 false (some (1, 0x10000)) false) ∧ whereSet s 0 1 = some (0, 0)) ∧
    (findTransfer (copying ⟨3, 2, [], [tr 2 false (some (1, 0x10000)) true]⟩) 5 2).isSome = true ∧
    (scPending (withSet (set1 [])) 0 = false ∧ (withSet (set1 [])).scAt ≤ (withSet (set1 [])).dcc) ∧
    ({ withSet (set1 []) with scAt := 2 } : State).dcc < 2 ∧
    (let s := { holding { rq .load (.mem 0x4000000000) .sent with sc := true } (withSet (set1 [])) with scToken := 16 }
     scPending s s.scToken = true ∧ s.scDone < 4) ∧
    (∃ stack chan, placeOf (0x100000000 * 64) = .hbm stack chan) := by
  unfold Deliverable CanStart
  and_intros <;> first | decide +kernel | exact ⟨_, _, rfl⟩

/-- A layout with full swap: partition 0 on slots 0 and 1, and partition 1 on slot 0 where they share. -/
def swapping (out : Tab PartSave) (asks : List SwapAsk) (shared : Bool) : State :=
  { onTile Tile.reset with
    ctxs := [(0, Ctx.root), (1, { ctx1 with part := 0 })]
    layout := (0, [0x3, 0x1001, 0, 0]) :: (if shared then [(1, [0x1, 0x1001, 0, 0])] else [])
    partsOut := out, swapAsks := asks }
def out0 (p : Nat) (host : Bool) : PartSave := ⟨p, [(0, 300)], [], host⟩
def removedTiles : Tab Tile := [(0, { Tile.reset with removed := true }), (1, { Tile.reset with removed := true }),
  (2, { Tile.reset with removed := true }), (3, { Tile.reset with removed := true }), (8, { Tile.reset with removed := true }),
  (9, { Tile.reset with removed := true }), (10, { Tile.reset with removed := true }), (11, { Tile.reset with removed := true })]

-- tiles, dies and columns at the ends of their ranges; a waiter and a participant; a swap out, in, and held up; asks of the scheduler's own
theorem witness_FailuresAndPartitionSwaps :
    (let s := placed (ln2 [])
     (getTile s 0).removed = false ∧ (getTile s 255).removed = false ∧ 0 ∉ s.dieOut ∧ 3 ∉ s.dieOut ∧ Tab.wf s.places = true ∧
     (Tab.get Column.reset s.columns 0).removed = false ∧ (Tab.get Column.reset s.columns 63).removed = false ∧ s.scToken = 0 / 16 * 48 + 0 % 16 ∧
     s.scToken ≠ 63 / 16 * 48 + 63 % 16 ∧ handedTo (ln2 []) 1 = some 0 ∧ (∀ p ∈ (barrierOf s 0 15).parts, (getThread s p.1 p.2.1 p.2.2).st ≠ .wait)) ∧
    (let s := { withSet (set1 [(0, { Thread.reset with st := .wait })]) with
                columns := [(0, { Column.reset with bars := [(15, { Barrier.reset with parts := [(0, 0, 0)] })] })] }
     (barrierOf s 0 15).parts = [(0, 0, 0)] ∧ (getThread s 0 0 0).st = .wait) ∧
    (let a : SwapAsk := ⟨0, true, true⟩
     let s := { swapping [] [a] false with tiles := removedTiles }
     entFsw (layoutEntry s 0) = true ∧ s.boot = .running ∧ s.swapAsks.find? (fun x => x.part == 0) = some a ∧
     (∀ n ∈ partTiles s 0, (getTile s n).removed = true ∨ tileHalted (getTile s n) = true)) ∧
    (let a : SwapAsk := ⟨0, false, true⟩
     let s := swapping [(0, out0 0 true)] [a] true
     s.swapAsks.find? (fun x => x.part == 0) = some a ∧ Tab.find? s.partsOut 0 = some (out0 0 true) ∧ slotSharers s 0 ≠ []) ∧
    (let a : SwapAsk := ⟨0, false, true⟩
     let s := swapping [(0, out0 0 true)] [a] false
     s.swapAsks.find? (fun x => x.part == 0) = some a ∧ slotSharers s 0 = [] ∧ Tab.wf s.partsOut = true ∧
     ((out0 0 true).tiles.map Prod.fst ++ (out0 0 true).tiles.map Prod.snd).Nodup) ∧
    (let s := swapping [(0, out0 0 true)] [] false
     (∀ x ∈ s.swapAsks, x.part ≠ 0) ∧ Tab.find? s.partsOut 0 = some (out0 0 true)) ∧
    (let s := swapping [(0, out0 0 false)] [] false
     Tab.find? s.partsOut 0 = some (out0 0 false) ∧ slotSharers s 0 = []) ∧
    (let s := swapping [(1, out0 1 false)] [] true
     Tab.find? s.partsOut 0 = none ∧ entFsw (layoutEntry s 1) = true ∧ entSlots (layoutEntry s 0) &&& entSlots (layoutEntry s 1) ≠ 0 ∧
     Tab.find? s.partsOut 1 = some (out0 1 false)) ∧
    entFsw (layoutEntry (onTile Tile.reset) 0) = false := by decide +kernel

/-! ### Registers, the mailbox, the fabric -/

/-- Context 1 with queue 2, which has room for eight records. -/
def queue2 (en : Bool) (lsz : Nat) : State :=
  { onTile Tile.reset with queues := [(2, ⟨lsz, 0x10000, en, 1, 0, 0, 0, []⟩)], queueOwner := [(2, 1)], vfOwner := [(0, 1)], ctxs := [(0, Ctx.root), (1, { ctx1 with slt := 65535 })] }
theorem witness_RegisterWritesAndHostAccesses :
    (let s := queue2 false 3
     s.boot = .running ∧ s.linkUp = true ∧ hostReaches s 2 = true ∧ hostReaches s 3 = false ∧ (queueOf s 2).en = false ∧ ((0 : BitVec 64).extractLsb' 60 4).toNat ≠ 1 ∧ ((0 : BitVec 64).extractLsb' 60 4).toNat ≠ 2 ∧
     queueLimit s 2 = 8 ∧ ((8 : BitVec 32) - (queueOf s 2).head).toNat ≤ queueLimit s 2 ∧ queueLimit s 2 < ((9 : BitVec 32) - (queueOf s 2).head).toNat ∧
     s.reqs.filter (fun r => r.op == .push && r.waiting && dequeOfLoc r.loc == (0, 0)) = [] ∧
     inSubtree s 0 (queueTag s 2) = true ∧ isRegister 0x4000000000 = false ∧ 0x4000000000 / 64 ∉ s.memBad ∧ Memory.wf s.mem = true) ∧
    (let r := { rq .push (dequeAddr 0 0) .sent with waiting := true }
     let s := holding r (queue2 true 3)
     s.reqs.filter (fun r => r.op == .push && r.waiting && dequeOfLoc r.loc == (0, 0)) = [r] ∧ reqCtx s r < 1024) ∧
    (queueOf (queue2 true 3) 2).en = true ∧ (0x1000000000000000 : BitVec 64).extractLsb' 60 4 = 1 ∧ (queueOf (queue2 true 0) 2).lsz < 3 ∧
    0x4000000000 / 64 ∈ ({ queue2 true 3 with memBad := [0x100000000] } : State).memBad ∧
    placeOf 0x310000090 = .queue 2 16 ∧ isRegister 0x310000090 = true ∧ placeOf 0x310000088 = .queue 2 8 ∧ placeOf 0x300000008 = .control 0 8 ∧
    placeOf 0x3000001F8 = .control 0 0x1F8 ∧
    State.reset.boot ≠ .running ∧ ({ State.reset with linkUp := false } : State).linkUp = false ∧
    (let s := { queue2 true 3 with linkUp := false, notifies := [(0x8000000000000, 5)] }
     s.notifies = [] ++ [(0x8000000000000, 5)] ∧ (∀ n ∈ s.notifies, 0 < n.1 ∨ n.1 + 4 ≤ 0)) := by decide +kernel

/-- Commands of the mailbox on a running package with its limit and its layout as reset leaves them. -/
def boxed (arg0 arg1 : BitVec 64) : State := { onTile Tile.reset with box := ⟨[(0, arg0), (1, arg1)], false, false, 0, 0, [], 0⟩ }
/-- Two partitions without full swap on slot 0, or one of more watts than the limit, as host memory holds them at 0. -/
def layoutMem (two : Bool) : Memory :=
  if two then Memory.write (Memory.write [] 0x8000000000000 8 1) 0x8000000000020 8 1
  else Memory.write (Memory.write [] 0x8000000000000 8 1) 0x8000000000008 8 2500
theorem witness_MailboxCommandsAndBoot :
    (let s := boxed 0 0
     s.box.busy = false ∧ s.boot = .running ∧ layoutRefused s (readLayout s (boxArg s 0).toNat) = false ∧ (boxArg s 0).toNat % 4096 < 1200 ∧
     s.featsel = none ∧ s.committed = false ∧ ((boxArg s 1 ++ boxArg s 0) >>> 9 = (0 : BitVec 128)) ∧ s.lmsLeaf < 2 ^ 20 ∧ Memory.wf s.mem = true ∧ (boxArg s 0).toNat < 12 ∧
     entFsw (layoutEntry s 0) = false) ∧
    (let s := { boxed 0 0 with mem := layoutMem true }
     let lay := readLayout s 0
     entSlots (Tab.get [] lay 0) &&& entSlots (Tab.get [] lay 1) ≠ 0 ∧ entFsw (Tab.get [] lay 0) = false ∧ entFsw (Tab.get [] lay 1) = false ∧ layoutRefused s lay = true) ∧
    (let s := { boxed 0 0 with mem := layoutMem false }
     s.limit < ((layoutParts (readLayout s 0)).map fun p => layoutWatts (Tab.get [] (readLayout s 0) p)).sum) ∧
    (∀ w ∈ [1200, 2800], let s := boxed (BitVec.ofNat 64 w) 0
     1200 ≤ (boxArg s 0).toNat % 4096 ∧ (boxArg s 0).toNat % 4096 ≤ 2800 ∧
     ((layoutParts s.layout).map fun p => layoutWatts (Tab.get [] s.layout p)).sum ≤ (boxArg s 0).toNat % 4096) ∧
    2800 < (boxArg (boxed 2801 0) 0).toNat % 4096 ∧ (boxArg (boxed 0x200 0) 1 ++ boxArg (boxed 0x200 0) 0) >>> 9 ≠ (0 : BitVec 128) ∧
    (boxArg (boxed 15 0) 0).toNat = 15 ∧ 12 ≤ (boxArg (boxed 12 0) 0).toNat ∧ (boxArg (boxed 12 0) 0).toNat ≠ 15 ∧
    (let s := { swapping [] [] true with box := (boxed 0 1).box }
     (boxArg s 0).toNat < 12 ∧ entFsw (layoutEntry s 0) = true ∧ isLive s (0 + 1) = true ∧ (boxArg s 1).getLsbD 0 = true ∧ (Tab.find? s.partsOut 0).isSome ≠ true) ∧
    (let s := { swapping [] [] true with box := (boxed 0 0).box }
     (boxArg s 1).getLsbD 0 = false ∧ (∀ q ∈ slotSharers s 0, entFsw (layoutEntry s q) = true) ∧ (Tab.find? s.partsOut 0).isSome = false) ∧
    ((0 : BitVec 8).toNat < 1) ∧ (7 < (8 : BitVec 8).toNat) ∧
    (let s := { onTile Tile.reset with ljState := 1, staged := [(0, [1, 1, 0, 0])] }
     ∀ p < 12, isLive s (p + 1) = false ∨ partChanges s.layout s.staged p = false ∨ partIdle s p = true) ∧
    (let s := { withSet (set1 []) with ljState := 1, staged := [(0, [1, 1, 0, 0])] }
     isLive s (0 + 1) = true ∧ partChanges s.layout s.staged 0 = true ∧ partIdle s 0 = false) := by decide +kernel

/-- Fabric channel 8 of port 1, enabled in a direction, in a state. -/
def fab8 (dir : Bool) (st : Nat) (fails : Nat) : State :=
  { onTile Tile.reset with
    fabChans := [(8, { FabChan.reset with en := true, dir := dir, st := st })]
    fabPorts := [(1, { FabPort.reset with training := true, fails := fails, replay := [(0, some 8)] })] }
/-- An entry flit of channel 8 with SEQ 0, ACK 5 and payload 7, whose LCRC covers it. -/
def entryBody : BitVec 608 := BitVec.ofNat 608 (8 + 1 * 65536 + 5 * 281474976710656 + 7 * 18446744073709551616)
def entryFlit : Flit := Config.linkCrc (leBytes entryBody.toNat 76) ++ entryBody
theorem low_of_append (c : BitVec 32) (b : BitVec 608) (a n : Nat) (h : a + n ≤ 608) : (c ++ b).extractLsb' a n = b.extractLsb' a n := by
  ext i hi
  simp only [BitVec.getElem_extractLsb', BitVec.getLsbD_append]
  rw [if_pos (by omega)]
theorem high_of_append (c : BitVec 32) (b : BitVec 608) : (c ++ b).extractLsb' 608 32 = c := by
  ext i hi
  simp only [BitVec.getElem_extractLsb', BitVec.getLsbD_append]
  rw [if_neg (by omega), Nat.add_sub_cancel_left, BitVec.getLsbD_eq_getElem]
theorem toNat_append_mod {w : Nat} (c : BitVec 32) (b : BitVec w) : (c ++ b).toNat % 2 ^ w = b.toNat := by
  rw [BitVec.toNat_append, ← Nat.shiftLeft_add_eq_or_of_lt b.isLt, Nat.shiftLeft_eq, Nat.mul_add_mod', Nat.mod_eq_of_lt b.isLt]
set_option maxRecDepth 8000 in
theorem entryFlit_fields : entryFlit.toNat % 2 ^ 608 = entryBody.toNat ∧ entryFlit.extractLsb' 608 32 = Config.linkCrc (leBytes entryBody.toNat 76) ∧
    entryFlit.extractLsb' 0 16 = 8 ∧ entryFlit.extractLsb' 16 3 = 1 ∧ entryFlit.extractLsb' 32 12 = 0 ∧ entryFlit.extractLsb' 48 12 = 5 ∧
    entryFlit.extractLsb' 64 512 = 7 := by
  have low := low_of_append (Config.linkCrc (leBytes entryBody.toNat 76)) entryBody
  have all := toNat_append_mod (Config.linkCrc (leBytes entryBody.toNat 76)) entryBody
  unfold entryFlit
  refine ⟨all, high_of_append _ _, ?_, ?_, ?_, ?_, ?_⟩
  all_goals
    rw [low _ _ (by decide)]
    decide +kernel

theorem witness_FabricPortsAndChannels :
    (let s := fab8 true 2 0
     (portOfFab { s with fabPorts := [] } 1).down = false ∧ (portOfFab { s with fabPorts := [] } 1).training = false ∧
     (Config.linkCrc (leBytes (entryFlit.toNat % 2 ^ 608) 76)).toNat = (entryFlit.extractLsb' 608 32).toNat ∧
     entryFlit.extractLsb' 32 12 = (portOfFab { s with fabPorts := [] } 1).expect ∧ entryFlit.extractLsb' 16 3 = 1 ∧ entryFlit.extractLsb' 64 512 = 7 ∧
     (entryFlit.extractLsb' 0 16).toNat = 8 ∧ (fabOf s 8).st = 2 ∧ (fabOf s 8).dir = true ∧ (fabOf s 8).buf.length < 32) ∧
    (fabOf (fab8 false 2 0) 8).dir = false ∧ (portOfFab (fab8 true 2 0) 1).training = true ∧ (portOfFab (fab8 true 2 1) 1).fails < 2 ∧
    2 ≤ (portOfFab (fab8 true 2 2) 1).fails ∧ (portOfFab (fab8 true 2 0) 1).down = false ∧ (portOfFab (fab8 true 2 0) 1).replay ≠ [] ∧
    (portOfFab (fab8 true 2 0) 0).replay = [] ∧ 8 % 48 / 8 = 1 ∧ (fabOf (fab8 false 1 0) 8).en = true ∧ (fabOf (fab8 false 1 0) 16).en = false ∧
    (let p : PeerEnd := ⟨true, true, 8⟩
     (fabOf (fab8 false 1 0) 8).st = 1 ∧ p.enabled = true ∧ p.rch = 8 ∧ p.receive ≠ (fabOf (fab8 false 1 0) 8).dir ∧ p.receive = (fabOf (fab8 true 1 0) 8).dir ∧
     (fabOf (fab8 false 2 0) 8).st ≠ 1) ∧
    (0x8000000000000000 : BitVec 64).getLsbD 63 = true ∧ (0 : BitVec 64).getLsbD 63 = false := by
  obtain ⟨h0, h1, h2, h3, h4, _, h6⟩ := entryFlit_fields
  exact ⟨⟨by decide +kernel, by decide +kernel, by rw [h0, h1], by rw [h4]; decide +kernel, h3, h6, by rw [h2]; decide, by decide +kernel⟩, by decide +kernel⟩

end Sys2Proof.Tests
end

section

namespace Sys2Proof.Machine

/-! ## What only the management writes (R11, R384, R386, R387, R394, R397, R402, R403)

The power limits, the layouts, the layout job, the locked features, the swaps and the mailbox's command are written by the
management's own instructions. `mgmt` is what a state holds of them; every other operation of the model keeps it, which is one lemma for each
operation, in the order of the model's files. -/

/-- The fields of the state that only the management of the package writes. -/
structure Mgmt where
  limit     : Nat
  limitNext : Nat
  layout    : Tab (List (BitVec 64))
  staged    : Tab (List (BitVec 64))
  ljState   : Nat
  ljSeq     : BitVec 32
  committed : Bool
  lmsLeaf   : Nat
  featsel   : Option (BitVec 128)
  swapAsks  : List SwapAsk
  partsOut  : Tab PartSave
  busy      : Bool
  ended     : Bool
  op        : Nat
  stat      : Nat

/-- What a state holds of the management's fields. -/
def mgmt (s : State) : Mgmt :=
  ⟨s.limit, s.limitNext, s.layout, s.staged, s.ljState, s.ljSeq, s.committed, s.lmsLeaf, s.featsel, s.swapAsks, s.partsOut,
   s.box.busy, s.box.ended, s.box.op, s.box.stat⟩

/-- An update of any other fields keeps them. -/
@[simp] theorem mgmt_update (s : State) (
    dcc agenda focus fresh serial tiles columns vwords releases mem memBad reqs sync known seen fenced ranks scToken scDone scAt walks tlb
    dieOut ctxs summit revs queueOwner counters counterOwner queues lastQueue rings launches places saved graphs chanOwner fireOwner
    vfOwner copies slots fires fabChans fabPorts linkUp notifies boot flash fwVersion fwDigest featcap meters scrubbed uncorrected gateBad
    rootEvent hostRead hostPoison) :
    mgmt { s with
        dcc := dcc, agenda := agenda, focus := focus, fresh := fresh, serial := serial, tiles := tiles, columns := columns,
        vwords := vwords, releases := releases, mem := mem, memBad := memBad, reqs := reqs, sync := sync, known := known, seen := seen,
        fenced := fenced, ranks := ranks, scToken := scToken, scDone := scDone, scAt := scAt, walks := walks, tlb := tlb, dieOut := dieOut,
        ctxs := ctxs, summit := summit, revs := revs, queueOwner := queueOwner, counters := counters, counterOwner := counterOwner,
        queues := queues, lastQueue := lastQueue, rings := rings, launches := launches, places := places, saved := saved, graphs := graphs,
        chanOwner := chanOwner, fireOwner := fireOwner, vfOwner := vfOwner, copies := copies, slots := slots, fires := fires,
        fabChans := fabChans, fabPorts := fabPorts, linkUp := linkUp, notifies := notifies, boot := boot, flash := flash,
        fwVersion := fwVersion, fwDigest := fwDigest, featcap := featcap, meters := meters, scrubbed := scrubbed,
        uncorrected := uncorrected, gateBad := gateBad, rootEvent := rootEvent, hostRead := hostRead, hostPoison := hostPoison } = mgmt s := by
  cases s; rfl

/-- So does one that also writes the mailbox's arguments, results or count of completions. -/
@[simp] theorem mgmt_updateBox (s : State) (
    dcc agenda focus fresh serial tiles columns vwords releases mem memBad reqs sync known seen fenced ranks scToken scDone scAt walks tlb
    dieOut ctxs summit revs queueOwner counters counterOwner queues lastQueue rings launches places saved graphs chanOwner fireOwner
    vfOwner copies slots fires fabChans fabPorts linkUp notifies boot flash fwVersion fwDigest featcap meters scrubbed uncorrected gateBad
    rootEvent hostRead hostPoison
    arg res told) :
    mgmt { s with
        box := { s.box with arg := arg, res := res, told := told },
        dcc := dcc, agenda := agenda, focus := focus, fresh := fresh, serial := serial, tiles := tiles, columns := columns,
        vwords := vwords, releases := releases, mem := mem, memBad := memBad, reqs := reqs, sync := sync, known := known, seen := seen,
        fenced := fenced, ranks := ranks, scToken := scToken, scDone := scDone, scAt := scAt, walks := walks, tlb := tlb, dieOut := dieOut,
        ctxs := ctxs, summit := summit, revs := revs, queueOwner := queueOwner, counters := counters, counterOwner := counterOwner,
        queues := queues, lastQueue := lastQueue, rings := rings, launches := launches, places := places, saved := saved, graphs := graphs,
        chanOwner := chanOwner, fireOwner := fireOwner, vfOwner := vfOwner, copies := copies, slots := slots, fires := fires,
        fabChans := fabChans, fabPorts := fabPorts, linkUp := linkUp, notifies := notifies, boot := boot, flash := flash,
        fwVersion := fwVersion, fwDigest := fwDigest, featcap := featcap, meters := meters, scrubbed := scrubbed,
        uncorrected := uncorrected, gateBad := gateBad, rootEvent := rootEvent, hostRead := hostRead, hostPoison := hostPoison } = mgmt s := by
  cases s; rfl

@[simp] theorem mgmt_ite (c : Prop) [Decidable c] (a b : State) : mgmt (if c then a else b) = if c then mgmt a else mgmt b := apply_ite ..

/-- An operation that keeps the management's fields keeps them when it is done for every entry of a list. -/
@[simp] theorem mgmt_foldl {α : Type} (f : State → α → State) (h : ∀ s x, mgmt (f s x) = mgmt s) (l : List α) (s : State) :
    mgmt (l.foldl f s) = mgmt s := by
  induction l generalizing s with
  | nil => rfl
  | cons x l ih => rw [List.foldl_cons, ih, h]

@[simp] theorem mgmt_foldl_fst {α β : Type} (f : State × β → α → State × β) (h : ∀ a x, mgmt (f a x).1 = mgmt a.1) (l : List α)
    (a : State × β) : mgmt (l.foldl f a).1 = mgmt a.1 := by
  induction l generalizing a with
  | nil => rfl
  | cons x l ih => rw [List.foldl_cons, ih, h]

/-! ### The states that an answer holds

Operations that answer with more than a state keep the fields in each state of the answer. -/

/-- The state that an outcome gives holds given management's fields. -/
def OutcomeKeeps (m : Mgmt) : Host.Outcome State Fault Refusal → Prop
  | .next t => mgmt t = m
  | _ => True

@[simp] theorem outcomeKeeps_next (m t) : OutcomeKeeps m (.next t) ↔ mgmt t = m := Iff.rfl
@[simp] theorem outcomeKeeps_fault (m f) : OutcomeKeeps m (.fault f) := trivial
@[simp] theorem outcomeKeeps_refused (m r) : OutcomeKeeps m (.refused r) := trivial

@[simp] theorem outcomeKeeps_ite (m : Mgmt) (c : Prop) [Decidable c] (a b : Host.Outcome State Fault Refusal) :
    OutcomeKeeps m (if c then a else b) ↔ if c then OutcomeKeeps m a else OutcomeKeeps m b := by
  split <;> rfl

/-- The state that a word's effect decides on holds given management's fields. -/
def ResKeeps (m : Mgmt) : Res → Prop
  | .done t | .jump t _ | .wait t | .stop t | .trap t _ => mgmt t = m
  | .hold => True

@[simp] theorem resKeeps_done (m t) : ResKeeps m (.done t) ↔ mgmt t = m := Iff.rfl
@[simp] theorem resKeeps_jump (m t n) : ResKeeps m (.jump t n) ↔ mgmt t = m := Iff.rfl
@[simp] theorem resKeeps_wait (m t) : ResKeeps m (.wait t) ↔ mgmt t = m := Iff.rfl
@[simp] theorem resKeeps_stop (m t) : ResKeeps m (.stop t) ↔ mgmt t = m := Iff.rfl
@[simp] theorem resKeeps_trap (m t r) : ResKeeps m (.trap t r) ↔ mgmt t = m := Iff.rfl
@[simp] theorem resKeeps_hold (m) : ResKeeps m (.hold) := trivial

@[simp] theorem resKeeps_ite (m : Mgmt) (c : Prop) [Decidable c] (a b : Res) :
    ResKeeps m (if c then a else b) ↔ if c then ResKeeps m a else ResKeeps m b := by
  split <;> rfl

/-- The state that a copy's source gives holds given management's fields. -/
def TakenKeeps (m : Mgmt) : Taken → Prop
  | .bytes t _ | .other t => mgmt t = m

@[simp] theorem takenKeeps_bytes (m t v) : TakenKeeps m (.bytes t v) ↔ mgmt t = m := Iff.rfl
@[simp] theorem takenKeeps_other (m t) : TakenKeeps m (.other t) ↔ mgmt t = m := Iff.rfl

@[simp] theorem takenKeeps_ite (m : Mgmt) (c : Prop) [Decidable c] (a b : Taken) :
    TakenKeeps m (if c then a else b) ↔ if c then TakenKeeps m a else TakenKeeps m b := by
  split <;> rfl

/-- The state that a frame exhaustion comes to holds given management's fields. -/
def ReliefKeeps (m : Mgmt) : Relief → Prop
  | .given t | .told t | .ended t => mgmt t = m

@[simp] theorem reliefKeeps_given (m t) : ReliefKeeps m (.given t) ↔ mgmt t = m := Iff.rfl
@[simp] theorem reliefKeeps_told (m t) : ReliefKeeps m (.told t) ↔ mgmt t = m := Iff.rfl
@[simp] theorem reliefKeeps_ended (m t) : ReliefKeeps m (.ended t) ↔ mgmt t = m := Iff.rfl

@[simp] theorem reliefKeeps_ite (m : Mgmt) (c : Prop) [Decidable c] (a b : Relief) :
    ReliefKeeps m (if c then a else b) ↔ if c then ReliefKeeps m a else ReliefKeeps m b := by
  split <;> rfl

/-- The state that Summit's verdict holds holds given management's fields. -/
def VerdictKeeps (m : Mgmt) : Verdict → Prop
  | .done t _ | .later t _ | .again t _ => mgmt t = m
  | .refuse _ => True

@[simp] theorem verdictKeeps_done (m t v) : VerdictKeeps m (.done t v) ↔ mgmt t = m := Iff.rfl
@[simp] theorem verdictKeeps_later (m t v) : VerdictKeeps m (.later t v) ↔ mgmt t = m := Iff.rfl
@[simp] theorem verdictKeeps_again (m t v) : VerdictKeeps m (.again t v) ↔ mgmt t = m := Iff.rfl
@[simp] theorem verdictKeeps_refuse (m n) : VerdictKeeps m (.refuse n) := trivial

@[simp] theorem verdictKeeps_ite (m : Mgmt) (c : Prop) [Decidable c] (a b : Verdict) :
    VerdictKeeps m (if c then a else b) ↔ if c then VerdictKeeps m a else VerdictKeeps m b := by
  split <;> rfl

/-- The state that a turn leaves or runs in holds given management's fields. -/
def TurnDoesKeeps (m : Mgmt) : TurnDoes → Prop
  | .run t _ | .over t => mgmt t = m
  | .fault _ => True

@[simp] theorem turnDoesKeeps_run (m t i) : TurnDoesKeeps m (.run t i) ↔ mgmt t = m := Iff.rfl
@[simp] theorem turnDoesKeeps_over (m t) : TurnDoesKeeps m (.over t) ↔ mgmt t = m := Iff.rfl
@[simp] theorem turnDoesKeeps_fault (m f) : TurnDoesKeeps m (.fault f) := trivial

@[simp] theorem turnDoesKeeps_ite (m : Mgmt) (c : Prop) [Decidable c] (a b : TurnDoes) :
    TurnDoesKeeps m (if c then a else b) ↔ if c then TurnDoesKeeps m a else TurnDoesKeeps m b := by
  split <;> rfl

/-! #### Ops -/

@[simp] theorem setTile_mgmt (s t v) : mgmt (setTile s t v) = mgmt s := by simp [setTile]
@[simp] theorem modTile_mgmt (s t f) : mgmt (modTile s t f) = mgmt s := by simp [modTile]
@[simp] theorem setSet_mgmt (s t i c) : mgmt (setSet s t i c) = mgmt s := by simp [setSet]
@[simp] theorem modSet_mgmt (s t i f) : mgmt (modSet s t i f) = mgmt s := by simp [modSet]
@[simp] theorem modThread_mgmt (s t i n f) : mgmt (modThread s t i n f) = mgmt s := by simp [modThread]
@[simp] theorem modCurTile_mgmt (s f) : mgmt (modCurTile s f) = mgmt s := by simp [modCurTile]
@[simp] theorem modCurSet_mgmt (s f) : mgmt (modCurSet s f) = mgmt s := by simp [modCurSet]
@[simp] theorem modCurThread_mgmt (s f) : mgmt (modCurThread s f) = mgmt s := by simp [modCurThread]
@[simp] theorem modCtx_mgmt (s c f) : mgmt (modCtx s c f) = mgmt s := by simp [modCtx]
@[simp] theorem freeValue_mgmt (s) : mgmt (freeValue s).2 = mgmt s := by simp [freeValue]
@[simp] theorem newSerial_mgmt (s) : mgmt (newSerial s).2 = mgmt s := by simp [newSerial]
@[simp] theorem shareWrite_mgmt (s t i a n v) : mgmt (shareWrite s t i a n v) = mgmt s := by simp [shareWrite]
@[simp] theorem vregWrite_mgmt (s t i n v) : mgmt (vregWrite s t i n v) = mgmt s := by simp [vregWrite]
@[simp] theorem stopSets_mgmt (s cs) : mgmt (stopSets s cs) = mgmt s := by simp [stopSets]
@[simp] theorem reportRoot_mgmt (s ev) : mgmt (reportRoot s ev) = mgmt s := by simp [reportRoot]

theorem arrive_mgmt {s t i r u} (h : arrive s t i r = some u) : mgmt u = mgmt s := by
  unfold arrive at h
  dsimp only at h
  split at h
  · cases h; simp
  · split at h
    · cases h
    · split at h
      · split at h
        · cases h; simp
        · cases h
      · split at h
        · cases h; simp
        · split at h
          · cases h; simp
          · cases h

@[simp] theorem reflect_mgmt (s : State) (t i : Nat) (r : TrapRec) (fuel x : Nat) : mgmt (reflect s t i r fuel x) = mgmt s := by
  induction fuel generalizing s t i r x with
  | zero => rfl
  | succ fuel ih =>
    unfold reflect
    dsimp only
    split
    · simp
    · split
      · simp
      · split
        · split
          · split
            · next h => simpa using arrive_mgmt h
            · simp [ih]
          · simp [ih]
        · simp [ih]

@[simp] theorem raiseTrap_mgmt (s : State) (t i : Nat) (r : TrapRec) : mgmt (raiseTrap s t i r) = mgmt s := by
  unfold raiseTrap
  split
  · next h => exact arrive_mgmt h
  · simp

@[simp] theorem presentNext_mgmt (s t i) : mgmt (presentNext s t i) = mgmt s := by
  unfold presentNext
  dsimp only
  (repeat' split) <;> simp

@[simp] theorem goPc_mgmt (s pc taken) : mgmt (goPc s pc taken) = mgmt s := by simp [goPc]
@[simp] theorem markRestart_mgmt (w s) : mgmt (markRestart w s) = mgmt s := by simp [markRestart]

@[simp] theorem finishWord_mgmt (s : State) (r : Res) (h : ResKeeps (mgmt s) r) : mgmt (finishWord s r) = mgmt s := by
  unfold finishWord
  cases r <;> simp_all

@[simp] theorem runWord_mgmt (w : TWord) (s : State) (eff : State → Res) (h : ∀ s, ResKeeps (mgmt s) (eff s)) :
    mgmt (runWord w s eff) = mgmt s := by
  have h1 := h (markRestart w s)
  simp only [markRestart_mgmt] at h1
  have h2 := finishWord_mgmt (markRestart w s) (eff (markRestart w s)) (by simpa using h1)
  unfold runWord
  dsimp only
  split
  · split
    · rfl
    · simpa using h2
  · simp

@[simp] theorem runVector_mgmt (w : TWord) (s : State) (eff : BitVec 32 → State → Res) (h : ∀ mask s, ResKeeps (mgmt s) (eff mask s)) :
    mgmt (runVector w s eff) = mgmt s := by
  have h1 := finishWord_mgmt (markRestart w s) _ (h (guardMask (curThread s) w.guard) (markRestart w s))
  unfold runVector
  dsimp only
  split
  · rfl
  · simpa using h1

@[simp] theorem trapNow_keeps (s cause) {m} (h : mgmt s = m) : ResKeeps m (trapNow s cause) := by simp [trapNow, h]
@[simp] theorem trapAt_keeps (s cause addr) {m} (h : mgmt s = m) : ResKeeps m (trapAt s cause addr) := by simp [trapAt, h]
@[simp] theorem trapDet_keeps (s cause addr det) {m} (h : mgmt s = m) : ResKeeps m (trapDet s cause addr det) := by simp [trapDet, h]
@[simp] theorem illegalOperand_keeps (s) {m} (h : mgmt s = m) : ResKeeps m (illegalOperand s) := by simp [illegalOperand, h]

/-! #### Boot -/

@[simp] theorem verifyImage_mgmt (s) : mgmt (verifyImage s) = mgmt s := by
  unfold verifyImage
  split <;> simp

@[simp] theorem clearSram_mgmt (s) : mgmt (clearSram s) = mgmt s := by simp [clearSram]

@[simp] theorem bootStage_mgmt (s) : mgmt (bootStage s) = mgmt s := by
  unfold bootStage
  split <;> simp

/-! #### Operands -/

@[simp] theorem writeS_mgmt (s d v) : mgmt (writeS s d v) = mgmt s := by
  unfold writeS
  split <;> simp

@[simp] theorem writeP_mgmt (s d v) : mgmt (writeP s d v) = mgmt s := by
  unfold writeP
  split <;> simp

@[simp] theorem writeK_mgmt (s d v) : mgmt (writeK s d v) = mgmt s := by
  unfold writeK
  split <;> simp

@[simp] theorem writeV_mgmt (s o j v) : mgmt (writeV s o j v) = mgmt s := by
  unfold writeV
  split <;> simp

/-! #### Translate -/

@[simp] theorem park_mgmt (s die ctx va a) : mgmt (park s die ctx va a) = mgmt s := by simp [park]
@[simp] theorem parkThread_keeps (s va) {m} (h : mgmt s = m) : ResKeeps m (parkThread s va) := by simp [parkThread, h]

@[simp] theorem giveFrame_mgmt (s owner page) : mgmt (giveFrame s owner page) = mgmt s := by
  unfold giveFrame
  split <;> simp

/-! #### Requests -/

@[simp] theorem pushReq_mgmt (s r) : mgmt (pushReq s r) = mgmt s := by simp [pushReq]
@[simp] theorem holdReq_mgmt (s r) : mgmt (holdReq s r) = mgmt s := by simp [holdReq]
@[simp] theorem putReq_mgmt (s r) : mgmt (putReq s r) = mgmt s := by simp [putReq]
@[simp] theorem dropReq_mgmt (s id) : mgmt (dropReq s id) = mgmt s := by simp [dropReq]

@[simp] theorem advanceReq_mgmt (s id) : mgmt (advanceReq s id) = mgmt s := by
  unfold advanceReq
  split <;> simp

@[simp] theorem learn_mgmt (s key a acq scope recs) : mgmt (learn s key a acq scope recs) = mgmt s := by simp [learn]

@[simp] theorem learnReq_mgmt (s r) : mgmt (learnReq s r) = mgmt s := by
  unfold learnReq
  split <;> simp

@[simp] theorem endFence_mgmt (s) : mgmt (endFence s) = mgmt s := by
  unfold endFence
  split <;> simp

@[simp] theorem settleFence_mgmt (s) : mgmt (settleFence s) = mgmt s := by simp [settleFence]
@[simp] theorem portDone_mgmt (s tile set p thr ids hit) : mgmt (portDone s tile set p thr ids hit) = mgmt s := by simp [portDone]

@[simp] theorem busyUntil_mgmt (s d id) : mgmt (busyUntil s d id) = mgmt s := by
  unfold busyUntil
  split <;> simp

/-! #### Memory -/

@[simp] theorem memoryBegin_mgmt (s) : mgmt (memoryBegin s) = mgmt s := by simp [memoryBegin]

@[simp] theorem scalarAccess_keeps (s : State) (va size : Nat) (needR needW : Bool) (k : AccessKind) (go : State → Loc → Res) {m : Mgmt}
    (h : mgmt s = m) (hg : ∀ s l, ResKeeps (mgmt s) (go s l)) : ResKeeps m (scalarAccess s va size needR needW k go) := by
  subst h
  unfold scalarAccess
  split
  · simp
  · split
    · simp
    · split
      · simp
      · simp
      · next loc _ => simpa using hg (memoryBegin s) loc

/-! #### Cluster -/

@[simp] theorem stayWord_keeps (waits s) {m} (h : mgmt s = m) : ResKeeps m (stayWord waits s) := by simp [stayWord, h]
@[simp] theorem sendAsk_keeps (waits s r) {m} (h : mgmt s = m) : ResKeeps m (sendAsk waits s r) := by simp [sendAsk, h]
@[simp] theorem answerTrap_keeps (s r p) {m} (h : mgmt s = m) : ResKeeps m (answerTrap s r p) := by simp [answerTrap, h]

@[simp] theorem askWord_keeps (waits : Bool) (s : State) (send : State → Res) (finish : State → Req → Res) {m : Mgmt}
    (h : mgmt s = m) (hs : ∀ s, ResKeeps (mgmt s) (send s)) (hf : ∀ s r, ResKeeps (mgmt s) (finish s r)) :
    ResKeeps m (askWord waits s send finish) := by
  subst h
  unfold askWord
  split
  · exact hs s
  · next id _ =>
    split
    · exact hs s
    · next r _ =>
      have h := hf (learnReq (dropReq s id) r) r
      simp only [learnReq_mgmt, dropReq_mgmt] at h
      dsimp only
      (repeat' split) <;> simp [*]

@[simp] theorem versionedWord_keeps (w : TWord) (s : State) (waits : Bool) (b : BitVec 64) (checkB needR needW : Bool)
    (req : State → Nat → Loc → Req) (finish : State → Req → Res) {m : Mgmt} (h : mgmt s = m)
    (hf : ∀ s r, ResKeeps (mgmt s) (finish s r)) : ResKeeps m (versionedWord w s waits b checkB needR needW req finish) := by
  refine askWord_keeps _ _ _ _ h (fun s1 => ?_) hf
  split
  · simp
  · exact scalarAccess_keeps _ _ _ _ _ _ _ rfl (by simp)

@[simp] theorem answer_mgmt (s r v) : mgmt (answer s r v) = mgmt s := by simp [answer]
@[simp] theorem answerWithTrap_mgmt (s r cause det) : mgmt (answerWithTrap s r cause det) = mgmt s := by simp [answerWithTrap]
@[simp] theorem wakeLdvs_mgmt (s pa n v recs) : mgmt (wakeLdvs s pa n v recs) = mgmt s := by simp [wakeLdvs]
@[simp] theorem performStv_mgmt (s r) : mgmt (performStv s r) = mgmt s := by simp [performStv]

@[simp] theorem drainStvs_mgmt (pa fuel : Nat) (s : State) : mgmt (drainStvs pa fuel s) = mgmt s := by
  induction fuel generalizing s with
  | zero => rfl
  | succ fuel ih =>
    unfold drainStvs
    (repeat' split) <;> simp [ih]

@[simp] theorem settleColumns_mgmt (s) : mgmt (settleColumns s) = mgmt s := by simp [settleColumns]

@[simp] theorem applyVersioned_mgmt (s r) : mgmt (applyVersioned s r) = mgmt s := by
  unfold applyVersioned
  split <;> simp

@[simp] theorem execBarinit_keeps (w : TWord) (s : State) : OutcomeKeeps (mgmt s) (execBarinit w s) :=
  runWord_mgmt _ _ _ fun s1 => askWord_keeps _ _ _ _ rfl (fun s2 => by (repeat' split) <;> simp) (by simp)

@[simp] theorem modColumn_mgmt (s slot f) : mgmt (modColumn s slot f) = mgmt s := by simp [modColumn]
@[simp] theorem putBarrier_mgmt (s slot n b) : mgmt (putBarrier s slot n b) = mgmt s := by simp [putBarrier]
@[simp] theorem applyBarinit_mgmt (s r) : mgmt (applyBarinit s r) = mgmt s := by simp [applyBarinit]

@[simp] theorem execBarwait_keeps (w : TWord) (s : State) : OutcomeKeeps (mgmt s) (execBarwait w s) :=
  runWord_mgmt _ _ _ fun s1 => by
    split
    · simp
    · exact askWord_keeps _ _ _ _ rfl (fun s2 => by split <;> simp) (by simp)

@[simp] theorem applyBarrier_mgmt (s r) : mgmt (applyBarrier s r) = mgmt s := by
  unfold applyBarrier
  dsimp only
  (repeat' split) <;> simp

@[simp] theorem settleRelease_mgmt (s rel) : mgmt (settleRelease s rel).2 = mgmt s := by simp [settleRelease]
@[simp] theorem gearUpTile_mgmt (s tile) : mgmt (gearUpTile s tile) = mgmt s := by simp [gearUpTile]

@[simp] theorem releaseTick_mgmt (s : State) : mgmt (releaseTick s) = mgmt s := by
  unfold releaseTick
  simp
  rw [mgmt_foldl_fst]
  intro a x
  split <;> simp

@[simp] theorem resumeThread_mgmt (s tile set thr a rel) : mgmt (resumeThread s tile set thr a rel) = mgmt s := by simp [resumeThread]

@[simp] theorem execBarrierResume_keeps (tile thr s) : OutcomeKeeps (mgmt s) (execBarrierResume tile thr s) := by
  unfold execBarrierResume
  dsimp only
  (repeat' split) <;> simp

@[simp] theorem execParkDrop_keeps (tile thr s) : OutcomeKeeps (mgmt s) (execParkDrop tile thr s) := by simp [execParkDrop]

@[simp] theorem execDqpush_keeps (w : TWord) (s : State) : OutcomeKeeps (mgmt s) (execDqpush w s) :=
  runWord_mgmt _ _ _ fun s1 => askWord_keeps _ _ _ _ rfl (fun s2 => by (repeat' split) <;> simp) (by simp)

@[simp] theorem execDqpop_keeps (w : TWord) (s : State) : OutcomeKeeps (mgmt s) (execDqpop w s) :=
  runWord_mgmt _ _ _ fun s1 => askWord_keeps _ _ _ _ rfl (fun s2 => by (repeat' split) <;> simp) (by simp)

@[simp] theorem execDqsteal_keeps (w : TWord) (s : State) : OutcomeKeeps (mgmt s) (execDqsteal w s) :=
  runWord_mgmt _ _ _ fun s1 => askWord_keeps _ _ _ _ rfl (fun s2 => by (repeat' split) <;> simp) (by simp)

@[simp] theorem putDeque_mgmt (s slot n d) : mgmt (putDeque s slot n d) = mgmt s := by simp [putDeque]
@[simp] theorem performPush_mgmt (s r) : mgmt (performPush s r) = mgmt s := by simp [performPush]

@[simp] theorem applyDeque_mgmt (s r) : mgmt (applyDeque s r) = mgmt s := by
  unfold applyDeque
  dsimp only
  (repeat' split) <;> simp

@[simp] theorem noteRank_mgmt (s r) : mgmt (noteRank s r) = mgmt s := by simp [noteRank]

@[simp] theorem execVersionOverflow_keeps (tile thr s) : OutcomeKeeps (mgmt s) (execVersionOverflow tile thr s) := by
  unfold execVersionOverflow
  dsimp only
  (repeat' split) <;> simp

/-! #### Flits -/

@[simp] theorem modFabPort_mgmt (s p f) : mgmt (modFabPort s p f) = mgmt s := by simp [modFabPort]
@[simp] theorem sendFlit_mgmt (s p chan dch kind payload chk) : mgmt (sendFlit s p chan dch kind payload chk) = mgmt s := by simp [sendFlit]
@[simp] theorem sendControl_mgmt (s n credits msg rch) : mgmt (sendControl s n credits msg rch) = mgmt s := by simp [sendControl]

/-! #### Registers -/

@[simp] theorem dqcfgSet_mgmt (s slot n v) : mgmt (dqcfgSet s slot n v) = mgmt s := by simp [dqcfgSet]
@[simp] theorem controlWrite_mgmt (s slot off v) : mgmt (controlWrite s slot off v) = mgmt s := by simp [controlWrite]
@[simp] theorem putQueue_mgmt (s q v) : mgmt (putQueue s q v) = mgmt s := by simp [putQueue]
@[simp] theorem tailSet_mgmt (s q v) : mgmt (tailSet s q v) = mgmt s := by simp [tailSet]
@[simp] theorem queueBaseSet_mgmt (s q v) : mgmt (queueBaseSet s q v) = mgmt s := by simp [queueBaseSet]
@[simp] theorem queueWrite_mgmt (s q off v) : mgmt (queueWrite s q off v) = mgmt s := by simp [queueWrite]
@[simp] theorem putFab_mgmt (s n c) : mgmt (putFab s n c) = mgmt s := by simp [putFab]
@[simp] theorem fcctlOn_mgmt (s n v) : mgmt (fcctlOn s n v) = mgmt s := by simp [fcctlOn]
@[simp] theorem disownFlits_mgmt (s n) : mgmt (disownFlits s n) = mgmt s := by simp [disownFlits]
@[simp] theorem fcctlOff_mgmt (s n v) : mgmt (fcctlOff s n v) = mgmt s := by simp [fcctlOff]
@[simp] theorem fabWrite_mgmt (s n off v) : mgmt (fabWrite s n off v) = mgmt s := by simp [fabWrite]
@[simp] theorem mailboxWrite_mgmt (s off v) : mgmt (mailboxWrite s off v) = mgmt s := by simp [mailboxWrite]

@[simp] theorem regWrite_mgmt (s ctx pa v) : mgmt (regWrite s ctx pa v) = mgmt s := by
  unfold regWrite
  split <;> simp

/-! #### Home -/

@[simp] theorem locWrite_mgmt (s l n v) : mgmt (locWrite s l n v) = mgmt s := by
  unfold locWrite
  split <;> simp

@[simp] theorem publish_mgmt (s r keep) : mgmt (publish s r keep) = mgmt s := by simp [publish]

@[simp] theorem lineMade_mgmt (s l) : mgmt (lineMade s l) = mgmt s := by
  unfold lineMade
  split <;> simp

@[simp] theorem closeAcquire_mgmt (s id joined) : mgmt (closeAcquire s id joined) = mgmt s := by simp [closeAcquire]
@[simp] theorem tookValue_mgmt (s r) : mgmt (tookValue s r) = mgmt s := by simp [tookValue]

@[simp] theorem applyAccess_mgmt (s r) : mgmt (applyAccess s r) = mgmt s := by
  unfold applyAccess
  dsimp only
  (repeat' split) <;> simp

@[simp] theorem applyReq_mgmt (s r) : mgmt (applyReq s r) = mgmt s := by
  unfold applyReq
  dsimp only
  (repeat' split) <;> simp

@[simp] theorem forwardReq_mgmt (s r e) : mgmt (forwardReq s r e) = mgmt s := by simp [forwardReq]

@[simp] theorem execAppliedAtHome_keeps (req s) : OutcomeKeeps (mgmt s) (execAppliedAtHome req s) := by
  unfold execAppliedAtHome
  (repeat' split) <;> simp

@[simp] theorem unbusy_mgmt (s a id) : mgmt (unbusy s a id) = mgmt s := by simp [unbusy]

@[simp] theorem writeLanes_mgmt (s r) : mgmt (writeLanes s r) = mgmt s := by
  unfold writeLanes
  split <;> simp

@[simp] theorem endLanes_mgmt (s r) : mgmt (endLanes s r) = mgmt s := by simp [endLanes]
@[simp] theorem answerLanes_mgmt (s r) : mgmt (answerLanes s r) = mgmt s := by simp [answerLanes]

@[simp] theorem answerScalar_mgmt (s r) : mgmt (answerScalar s r) = mgmt s := by
  unfold answerScalar
  dsimp only
  (repeat' split) <;> simp

@[simp] theorem execMemoryResponse_keeps (req s) : OutcomeKeeps (mgmt s) (execMemoryResponse req s) := by
  unfold execMemoryResponse
  (repeat' split) <;> simp

@[simp] theorem deferTrap_mgmt (s r) : mgmt (deferTrap s r) = mgmt s := by simp [deferTrap]
@[simp] theorem deferLanes_mgmt (s r) : mgmt (deferLanes s r) = mgmt s := by simp [deferLanes]

@[simp] theorem execDeferredIntegrityTrap_keeps (req s) : OutcomeKeeps (mgmt s) (execDeferredIntegrityTrap req s) := by
  unfold execDeferredIntegrityTrap
  (repeat' split) <;> simp

@[simp] theorem execScTokenPass_keeps (s) : OutcomeKeeps (mgmt s) (execScTokenPass s) := by simp [execScTokenPass]

@[simp] theorem execHbmScrub_keeps (line s) : OutcomeKeeps (mgmt s) (execHbmScrub line s) := by
  unfold execHbmScrub
  split <;> simp

@[simp] theorem execHostMemoryAccess_keeps (access s) : OutcomeKeeps (mgmt s) (execHostMemoryAccess access s) := by
  unfold execHostMemoryAccess
  dsimp only
  (repeat' split) <;> simp

@[simp] theorem execRegisterWrite_keeps (addr value s) : OutcomeKeeps (mgmt s) (execRegisterWrite addr value s) := by simp [execRegisterWrite]
@[simp] theorem execDqcfgWrite_keeps (slot deque value s) : OutcomeKeeps (mgmt s) (execDqcfgWrite slot deque value s) := by simp [execDqcfgWrite]
@[simp] theorem execTailWrite_keeps (queue value s) : OutcomeKeeps (mgmt s) (execTailWrite queue value s) := by simp [execTailWrite]
@[simp] theorem execQueueBaseWrite_keeps (queue value s) : OutcomeKeeps (mgmt s) (execQueueBaseWrite queue value s) := by simp [execQueueBaseWrite]

/-! #### System -/

@[simp] theorem csrReadEffect_mgmt (s tile set csr) : mgmt (csrReadEffect s tile set csr) = mgmt s := by simp [csrReadEffect]
@[simp] theorem csrWrite_mgmt (s tile set csr v) : mgmt (csrWrite s tile set csr v) = mgmt s := by simp [csrWrite]

@[simp] theorem execCsrr_keeps (w : TWord) (s : State) : OutcomeKeeps (mgmt s) (execCsrr w s) :=
  runWord_mgmt _ _ _ fun s1 => by (repeat' split) <;> simp

@[simp] theorem execCsrx_keeps (w : TWord) (s : State) : OutcomeKeeps (mgmt s) (execCsrx w s) :=
  runWord_mgmt _ _ _ fun s1 => by (repeat' split) <;> simp

@[simp] theorem execEnrglRead_keeps (tile set s) : OutcomeKeeps (mgmt s) (execEnrglRead tile set s) := by simp [execEnrglRead]
@[simp] theorem execPkenlRead_keeps (tile set s) : OutcomeKeeps (mgmt s) (execPkenlRead tile set s) := by simp [execPkenlRead]
@[simp] theorem meterAdd_mgmt (s key q) : mgmt (meterAdd s key q) = mgmt s := by simp [meterAdd]

@[simp] theorem charge_mgmt (s tile q) : mgmt (charge s tile q) = mgmt s := by
  unfold charge
  split <;> simp

/-! #### Engines -/

@[simp] theorem execTokw_keeps (w : TWord) (s : State) : OutcomeKeeps (mgmt s) (execTokw w s) :=
  runWord_mgmt _ _ _ fun s1 => by (repeat' split) <;> simp

@[simp] theorem execToks_keeps (w : TWord) (s : State) : OutcomeKeeps (mgmt s) (execToks w s) :=
  runWord_mgmt _ _ _ fun s1 => by (repeat' split) <;> simp

@[simp] theorem enqueue_mgmt (s e cmd) : mgmt (enqueue s e cmd) = mgmt s := by simp [enqueue]
@[simp] theorem enqueueWord_keeps (s e cmd) {m} (h : mgmt s = m) : ResKeeps m (enqueueWord s e cmd) := by simp [enqueueWord, h]
@[simp] theorem modEng_mgmt (s e f) : mgmt (modEng s e f) = mgmt s := by simp [modEng]
@[simp] theorem commandFault_mgmt (s e code) : mgmt (commandFault s e code) = mgmt s := by simp [commandFault]

@[simp] theorem takeWait_mgmt (s e c) : mgmt (takeWait s e c) = mgmt s := by
  unfold takeWait
  dsimp only
  (repeat' split) <;> simp

@[simp] theorem nextCommand_mgmt (s e) : mgmt (nextCommand s e) = mgmt s := by simp [nextCommand]

@[simp] theorem runCommand_keeps (s : State) (e : Nat) (c : Cmd) (scope : Nat) (ready : State → Bool) (check : State → Option Nat)
    (eff : State → State) (h : ∀ s, mgmt (eff s) = mgmt s) : OutcomeKeeps (mgmt s) (runCommand s e c scope ready check eff) := by
  unfold runCommand
  (repeat' split) <;> simp [h]

/-! #### Elements -/

@[simp] theorem modChan_mgmt (s tile key f) : mgmt (modChan s tile key f) = mgmt s := by simp [modChan]
@[simp] theorem noteMove_mgmt (s tile set elem) : mgmt (noteMove s tile set elem) = mgmt s := by simp [noteMove]
@[simp] theorem pushEntry_mgmt (s tile key e) : mgmt (pushEntry s tile key e) = mgmt s := by simp [pushEntry]
@[simp] theorem pushAcross_mgmt (s tile key e) : mgmt (pushAcross s tile key e) = mgmt s := by simp [pushAcross]
@[simp] theorem crossEntry_mgmt (s tile key) : mgmt (crossEntry s tile key) = mgmt s := by simp [crossEntry]
@[simp] theorem popEntry_mgmt (s tile key) : mgmt (popEntry s tile key) = mgmt s := by simp [popEntry]
@[simp] theorem setElem_mgmt (s tile set elem e) : mgmt (setElem s tile set elem e) = mgmt s := by simp [setElem]
@[simp] theorem modElem_mgmt (s tile set elem f) : mgmt (modElem s tile set elem f) = mgmt s := by simp [modElem]

@[simp] theorem takeHead_mgmt (s tile set elem im i) : mgmt (takeHead s tile set elem im i) = mgmt s := by
  unfold takeHead
  dsimp only
  (repeat' split) <;> simp

@[simp] theorem consumeInput_mgmt (tile set elem im s i) : mgmt (consumeInput tile set elem im s i) = mgmt s := by simp [consumeInput]
@[simp] theorem consumeInputs_mgmt (s tile set elem im) : mgmt (consumeInputs s tile set elem im) = mgmt s := by simp [consumeInputs]

@[simp] theorem keepSlot_mgmt (s tile set elem m) : mgmt (keepSlot s tile set elem m) = mgmt s := by
  unfold keepSlot
  split <;> simp

@[simp] theorem freeKept_mgmt (s tile set elem m) : mgmt (freeKept s tile set elem m) = mgmt s := by
  unfold freeKept
  split <;> simp

@[simp] theorem beginReaction_mgmt (s tile set elem im kind start done) : mgmt (beginReaction s tile set elem im kind start done) = mgmt s := by
  simp [beginReaction]

@[simp] theorem faultElem_mgmt (s tile set elem f) : mgmt (faultElem s tile set elem f) = mgmt s := by simp [faultElem]

@[simp] theorem stage1Fault_mgmt (s tile set elem cause inp inst) : mgmt (stage1Fault s tile set elem cause inp inst) = mgmt s := by
  simp [stage1Fault]

@[simp] theorem lineIntake_mgmt (s tile set elem im i) : mgmt (lineIntake s tile set elem im i) = mgmt s := by
  unfold lineIntake
  split <;> simp

@[simp] theorem lineResolve_mgmt (s tile set elem im i l) : mgmt (lineResolve s tile set elem im i l) = mgmt s := by simp [lineResolve]

@[simp] theorem chanResolve_mgmt (s tile set elem im i) : mgmt (chanResolve s tile set elem im i) = mgmt s := by
  unfold chanResolve
  dsimp only
  (repeat' split) <;> simp

@[simp] theorem execEntryArrival_keeps (tile elem inp s) : OutcomeKeeps (mgmt s) (execEntryArrival tile elem inp s) := by
  unfold execEntryArrival
  dsimp only
  (repeat' split) <;> simp

@[simp] theorem parityStop_mgmt (s tile set elem) : mgmt (parityStop s tile set elem) = mgmt s := by simp [parityStop]

@[simp] theorem execHandlerFire_keeps (tile elem s) : OutcomeKeeps (mgmt s) (execHandlerFire tile elem s) := by
  unfold execHandlerFire
  dsimp only
  (repeat' split) <;> simp

@[simp] theorem execDefaultReaction_keeps (tile elem s) : OutcomeKeeps (mgmt s) (execDefaultReaction tile elem s) := by simp [execDefaultReaction]

@[simp] theorem execFinishingReaction_keeps (tile elem s) : OutcomeKeeps (mgmt s) (execFinishingReaction tile elem s) := by
  simp [execFinishingReaction]

@[simp] theorem noteInstant_mgmt (s tile set elem key) : mgmt (noteInstant s tile set elem key) = mgmt s := by simp [noteInstant]
@[simp] theorem noteEmitted_mgmt (s tile set elem) : mgmt (noteEmitted s tile set elem) = mgmt s := by simp [noteEmitted]

@[simp] theorem writeOut_mgmt (s tile set elem im o es) : mgmt (writeOut s tile set elem im o es) = mgmt s := by
  unfold writeOut
  split <;> simp

@[simp] theorem execReactionEmit_keeps (tile elem s) : OutcomeKeeps (mgmt s) (execReactionEmit tile elem s) := by
  unfold execReactionEmit
  dsimp only
  (repeat' split) <;> simp

@[simp] theorem execSwitchEntryWrite_keeps (tile elem out s) : OutcomeKeeps (mgmt s) (execSwitchEntryWrite tile elem out s) := by
  unfold execSwitchEntryWrite
  dsimp only
  (repeat' split) <;> simp

/-! #### Moves -/

@[simp] theorem modCurElem_mgmt (s f) : mgmt (modCurElem s f) = mgmt s := by simp [modCurElem]
@[simp] theorem modRx_mgmt (s f) : mgmt (modRx s f) = mgmt s := by simp [modRx]
@[simp] theorem openBundle_mgmt (s) : mgmt (openBundle s) = mgmt s := by simp [openBundle]
@[simp] theorem closeBundle_mgmt (s last) : mgmt (closeBundle s last) = mgmt s := by simp [closeBundle]

@[simp] theorem runMove_mgmt (m : Mv) (s : State) (eff : State → State) (h : ∀ s, mgmt (eff s) = mgmt s) :
    mgmt (runMove m s eff) = mgmt s := by
  simp [runMove, h]

@[simp] theorem squash_mgmt (s tile set elem rs heldInst) : mgmt (squash s tile set elem rs heldInst) = mgmt s := by
  unfold squash
  split <;> simp

@[simp] theorem stopAt_mgmt (s tile set elem n r k t rest) : mgmt (stopAt s tile set elem n r k t rest) = mgmt s := by simp [stopAt]

@[simp] theorem examineStage_mgmt (s tile set elem n) : mgmt (examineStage s tile set elem n) = mgmt s := by
  unfold examineStage
  dsimp only
  (repeat' split) <;> simp

@[simp] theorem stageRx_mgmt (tile set elem s n) : mgmt (stageRx tile set elem s n) = mgmt s := by simp [stageRx]
@[simp] theorem stageTurn_mgmt (s tile elem) : mgmt (stageTurn s tile elem) = mgmt s := by simp [stageTurn]

@[simp] theorem examineBundle_mgmt (s tile set elem last) : mgmt (examineBundle s tile set elem last) = mgmt s := by
  unfold examineBundle
  dsimp only
  (repeat' split) <;> simp

@[simp] theorem moveData_mgmt (m s) : mgmt (moveData m s) = mgmt s := by
  unfold moveData
  split <;> simp

@[simp] theorem moveScale_mgmt (m s) : mgmt (moveScale m s) = mgmt s := by
  unfold moveScale
  split <;> simp

@[simp] theorem mergeHeld_mgmt (s tile set elem c) : mgmt (mergeHeld s tile set elem c) = mgmt s := by simp [mergeHeld]
@[simp] theorem trigger_mgmt (m unit fop op s) : mgmt (trigger m unit fop op s) = mgmt s := by simp [trigger]
@[simp] theorem triggerMerge_mgmt (m s) : mgmt (triggerMerge m s) = mgmt s := by simp [triggerMerge]

/-! #### Loader -/

@[simp] theorem beginLoad_mgmt (c side pl dir s) : mgmt (beginLoad c side pl dir s) = mgmt s := by simp [beginLoad]
@[simp] theorem execLoadPlane_keeps (c s) : OutcomeKeeps (mgmt s) (execLoadPlane c s) := by simp [execLoadPlane]
@[simp] theorem execLoadsh_keeps (c s) : OutcomeKeeps (mgmt s) (execLoadsh c s) := by simp [execLoadsh]

@[simp] theorem loadStep_mgmt (s tile) : mgmt (loadStep s tile) = mgmt s := by
  unfold loadStep
  dsimp only
  (repeat' split) <;> simp

@[simp] theorem closeLoad_mgmt (s tile set l) : mgmt (closeLoad s tile set l) = mgmt s := by simp [closeLoad]

@[simp] theorem execLoadEnd_keeps (tile s) : OutcomeKeeps (mgmt s) (execLoadEnd tile s) := by
  unfold execLoadEnd
  dsimp only
  (repeat' split) <;> simp

/-! #### Templates -/

@[simp] theorem modTransfer_mgmt (s chan id f) : mgmt (modTransfer s chan id f) = mgmt s := by simp [modTransfer]
@[simp] theorem shortTransfers_mgmt (s tile set slot) : mgmt (shortTransfers s tile set slot) = mgmt s := by simp [shortTransfers]

/-! #### Ports -/

@[simp] theorem modPort_mgmt (s tile set p f) : mgmt (modPort s tile set p f) = mgmt s := by simp [modPort]
@[simp] theorem unbindPort_mgmt (s tile set p) : mgmt (unbindPort s tile set p) = mgmt s := by simp [unbindPort]

@[simp] theorem finishClose_mgmt (s tile set p) : mgmt (finishClose s tile set p) = mgmt s := by
  unfold finishClose
  split <;> simp

@[simp] theorem sendFire_mgmt (s line arg) : mgmt (sendFire s line arg) = mgmt s := by simp [sendFire]

/-! #### Regions -/

@[simp] theorem returnSegs_mgmt (s tile ctx n) : mgmt (returnSegs s tile ctx n) = mgmt s := by
  unfold returnSegs
  split <;> simp

@[simp] theorem emptyChan_mgmt (s tile key depth) : mgmt (emptyChan s tile key depth) = mgmt s := by simp [emptyChan]
@[simp] theorem fireChans_mgmt (s tile set e im) : mgmt (fireChans s tile set e im) = mgmt s := by simp [fireChans]
@[simp] theorem fireEffect_mgmt (e c s) : mgmt (fireEffect e c s) = mgmt s := by simp [fireEffect]
@[simp] theorem execFireRegion_keeps (e c s) : OutcomeKeeps (mgmt s) (execFireRegion e c s) := by simp [execFireRegion]
@[simp] theorem modRegion_mgmt (s tile set slot f) : mgmt (modRegion s tile set slot f) = mgmt s := by simp [modRegion]
@[simp] theorem execSwitchPlane_keeps (e c s) : OutcomeKeeps (mgmt s) (execSwitchPlane e c s) := by simp [execSwitchPlane]

@[simp] theorem execSwitchTagArrival_keeps (tile side s) : OutcomeKeeps (mgmt s) (execSwitchTagArrival tile side s) := by
  unfold execSwitchTagArrival
  dsimp only
  (repeat' split) <;> simp

@[simp] theorem endSwitch_mgmt (s tile side) : mgmt (endSwitch s tile side) = mgmt s := by
  unfold endSwitch
  dsimp only
  (repeat' split) <;> simp

@[simp] theorem unpark_mgmt (s a) : mgmt (unpark s a) = mgmt s := by
  unfold unpark
  dsimp only
  (repeat' split) <;> simp

@[simp] theorem abortPort_mgmt (s tile set p) : mgmt (abortPort s tile set p) = mgmt s := by
  unfold abortPort
  split <;> simp

@[simp] theorem abortChans_mgmt (s tile set e) : mgmt (abortChans s tile set e) = mgmt s := by simp [abortChans]

@[simp] theorem abortRegionNow_mgmt (s tile set slot sig) : mgmt (abortRegionNow s tile set slot sig) = mgmt s := by
  unfold abortRegionNow
  dsimp only
  (repeat' split) <;> simp

@[simp] theorem endAbort_mgmt (s tile set slot) : mgmt (endAbort s tile set slot) = mgmt s := by
  unfold endAbort
  dsimp only
  (repeat' split) <;> simp

@[simp] theorem execAbortRegion_keeps (e c s) : OutcomeKeeps (mgmt s) (execAbortRegion e c s) := by simp [execAbortRegion]
@[simp] theorem execRegionRetire_keeps (tile slot s) : OutcomeKeeps (mgmt s) (execRegionRetire tile slot s) := by simp [execRegionRetire]
@[simp] theorem sendCompletion_mgmt (s tile set slot loc) : mgmt (sendCompletion s tile set slot loc) = mgmt s := by simp [sendCompletion]
@[simp] theorem storeFault_mgmt (s tile set slot cause) : mgmt (storeFault s tile set slot cause) = mgmt s := by simp [storeFault]

@[simp] theorem tryCompletion_mgmt (s tile set slot) : mgmt (tryCompletion s tile set slot) = mgmt s := by
  unfold tryCompletion
  dsimp only
  (repeat' split) <;> simp

@[simp] theorem retireRegion_mgmt (s tile set slot) : mgmt (retireRegion s tile set slot) = mgmt s := by simp [retireRegion]

@[simp] theorem execRegionCompletionStore_keeps (tile slot s) : OutcomeKeeps (mgmt s) (execRegionCompletionStore tile slot s) := by
  unfold execRegionCompletionStore
  dsimp only
  (repeat' split) <;> simp

/-! #### Reads -/

@[simp] theorem storeBytes_mgmt (s : State) (g : Agent) (scope : Nat) (bs : List ByteTo) (send : Bool) :
    mgmt (storeBytes s g scope bs send).1 = mgmt s := by
  unfold storeBytes
  rw [mgmt_foldl_fst]
  intro a x
  dsimp only
  (repeat' split) <;> simp

/-! #### Streams -/

@[simp] theorem portFault_mgmt (s tile set p cause addr item) : mgmt (portFault s tile set p cause addr item) = mgmt s := by simp [portFault]

@[simp] theorem indexRead_mgmt (s tile set x ns) : mgmt (indexRead s tile set x ns) = mgmt s := by
  unfold indexRead
  dsimp only
  (repeat' split) <;> simp

@[simp] theorem fetchItem_mgmt (s tile p k) : mgmt (fetchItem s tile p k) = mgmt s := by
  unfold fetchItem
  dsimp only
  (repeat' split) <;> simp

@[simp] theorem emitCairn_mgmt (s tile key n payload) : mgmt (emitCairn s tile key n payload) = mgmt s := by simp [emitCairn]
@[simp] theorem sendEntry_mgmt (s n e) : mgmt (sendEntry s n e) = mgmt s := by simp [sendEntry]
@[simp] theorem consumeIndex_mgmt (s tile set x n) : mgmt (consumeIndex s tile set x n) = mgmt s := by simp [consumeIndex]
@[simp] theorem deliverEnd_mgmt (s tile set p key) : mgmt (deliverEnd s tile set p key) = mgmt s := by simp [deliverEnd]

@[simp] theorem deliverItem_mgmt (s tile set p key x) : mgmt (deliverItem s tile set p key x) = mgmt s := by
  unfold deliverItem
  dsimp only
  (repeat' split) <;> simp

@[simp] theorem deliverReceived_mgmt (s tile set p key x) : mgmt (deliverReceived s tile set p key x) = mgmt s := by
  unfold deliverReceived
  dsimp only
  (repeat' split) <;> simp

@[simp] theorem execReadPortDeliver_keeps (tile port s) : OutcomeKeeps (mgmt s) (execReadPortDeliver tile port s) := by
  unfold execReadPortDeliver
  dsimp only
  (repeat' split) <;> simp

@[simp] theorem countEnd_mgmt (s tile set elem key) : mgmt (countEnd s tile set elem key) = mgmt s := by simp [countEnd]
@[simp] theorem countCairn_mgmt (s tile set key) : mgmt (countCairn s tile set key) = mgmt s := by simp [countCairn]
@[simp] theorem switchType_mgmt (s tile set elem out key payload) : mgmt (switchType s tile set elem out key payload) = mgmt s := by simp [switchType]

@[simp] theorem acceptInstant_mgmt (s tile set elem p key x ids) : mgmt (acceptInstant s tile set elem p key x ids) = mgmt s := by
  simp [acceptInstant]

@[simp] theorem settleOwed_mgmt (s : State) (tile set elem p key : Nat) (x : StreamPort) (fuel : Nat) :
    mgmt (settleOwed s tile set elem p key x fuel) = mgmt s := by
  induction fuel generalizing s with
  | zero => rfl
  | succ fuel ih =>
    unfold settleOwed
    (repeat' split) <;> simp [ih]

@[simp] theorem writeItem_mgmt (s tile set elem p key x v) : mgmt (writeItem s tile set elem p key x v) = mgmt s := by
  unfold writeItem
  dsimp only
  (repeat' split) <;> simp

@[simp] theorem sendTaken_mgmt (s tile set elem p key x e) : mgmt (sendTaken s tile set elem p key x e) = mgmt s := by simp [sendTaken]
@[simp] theorem sinkBad_mgmt (s tile set p x) : mgmt (sinkBad s tile set p x) = mgmt s := by simp [sinkBad]
@[simp] theorem takeEntry_mgmt (s tile set elem out p key x e) : mgmt (takeEntry s tile set elem out p key x e) = mgmt s := by simp [takeEntry]

@[simp] theorem execWritePortConsume_keeps (tile port s) : OutcomeKeeps (mgmt s) (execWritePortConsume tile port s) := by
  unfold execWritePortConsume
  dsimp only
  (repeat' split) <;> simp

@[simp] theorem counterBad_mgmt (s tile set elem) : mgmt (counterBad s tile set elem) = mgmt s := by simp [counterBad]

@[simp] theorem counterTake_mgmt (s tile elem out) : mgmt (counterTake s tile elem out) = mgmt s := by
  unfold counterTake
  dsimp only
  (repeat' split) <;> simp

@[simp] theorem execOpenPort_keeps (c s) : OutcomeKeeps (mgmt s) (execOpenPort c s) := by simp [execOpenPort]
@[simp] theorem execClosePort_keeps (c s) : OutcomeKeeps (mgmt s) (execClosePort c s) := by simp [execClosePort]

@[simp] theorem execAdvancePort_keeps (c : Cmd) (s : State) : OutcomeKeeps (mgmt s) (execAdvancePort c s) := by
  unfold execAdvancePort
  refine runCommand_keeps _ _ _ _ _ _ _ fun s1 => ?_
  dsimp only
  split <;> simp

/-! #### CollarWords -/

@[simp] theorem execQbind_keeps (w s) : OutcomeKeeps (mgmt s) (execQbind w s) := by
  unfold execQbind
  split <;> simp

@[simp] theorem appendEntries_mgmt (s : State) (tile set key : Nat) (es : List Entry) :
    mgmt (appendEntries s tile set key es) = mgmt s :=
  mgmt_foldl _ (fun s x => by split <;> simp) _ _

@[simp] theorem emitEntries_keeps (s n es) {m} (h : mgmt s = m) : ResKeeps m (emitEntries s n es) := by
  subst h
  unfold emitEntries
  dsimp only
  (repeat' split) <;> simp

@[simp] theorem emitWord_keeps (s d es) {m} (h : mgmt s = m) : ResKeeps m (emitWord s d es) := by
  subst h
  unfold emitWord
  split <;> simp

@[simp] theorem clearFault_mgmt (s tile set elem) : mgmt (clearFault s tile set elem) = mgmt s := by simp [clearFault]
@[simp] theorem modReaction_mgmt (s tile set elem f) : mgmt (modReaction s tile set elem f) = mgmt s := by simp [modReaction]
@[simp] theorem retryTrigger_mgmt (s tile set elem rx t rest) : mgmt (retryTrigger s tile set elem rx t rest) = mgmt s := by simp [retryTrigger]

@[simp] theorem supplyTrigger_mgmt (s tile set elem rx f t rest v) : mgmt (supplyTrigger s tile set elem rx f t rest v) = mgmt s := by
  simp [supplyTrigger]

@[simp] theorem skipReaction_mgmt (s tile set elem) : mgmt (skipReaction s tile set elem) = mgmt s := by simp [skipReaction]

@[simp] theorem discardHead_mgmt (s tile set elem im i) : mgmt (discardHead s tile set elem im i) = mgmt s := by
  unfold discardHead
  dsimp only
  (repeat' split) <;> simp

@[simp] theorem discardEntry_mgmt (s tile set elem f) : mgmt (discardEntry s tile set elem f) = mgmt s := by simp [discardEntry]

@[simp] theorem dropHeld_mgmt (s : State) (tile set elem : Nat) : mgmt (dropHeld s tile set elem) = mgmt s :=
  mgmt_foldl _ (fun s x => by split <;> simp) _ _

@[simp] theorem resumeElem_mgmt (s tile set elem mode v f) : mgmt (resumeElem s tile set elem mode v f) = mgmt s := by
  unfold resumeElem
  dsimp only
  (repeat' split) <;> simp

@[simp] theorem execResume_keeps (w : TWord) (s : State) : OutcomeKeeps (mgmt s) (execResume w s) :=
  runWord_mgmt _ _ _ fun s1 => by dsimp only; (repeat' split) <;> simp

/-! #### Copy -/

@[simp] theorem modCopy_mgmt (s chan f) : mgmt (modCopy s chan f) = mgmt s := by simp [modCopy]
@[simp] theorem stopTransfer_mgmt (s chan r reason addr) : mgmt (stopTransfer s chan r reason addr) = mgmt s := by simp [stopTransfer]

@[simp] theorem copyFail_mgmt (s chan r reason g) : mgmt (copyFail s chan r reason g) = mgmt s := by
  unfold copyFail
  split <;> simp

@[simp] theorem copyWrite_mgmt (s chan r ls v) : mgmt (copyWrite s chan r ls v) = mgmt s := by simp [copyWrite]

theorem takeFab_keeps (s : State) (chan : Nat) (r : Transfer) (n : Nat) : TakenKeeps (mgmt s) (takeFab s chan r n) := by
  unfold takeFab
  dsimp only
  (repeat' split) <;> simp

theorem takeFab_bytes_mgmt {s : State} {chan : Nat} {r : Transfer} {n : Nat} {u : State} {v : Nat}
    (h : takeFab s chan r n = .bytes u v) : mgmt u = mgmt s := by
  simpa [h] using takeFab_keeps s chan r n

theorem takeFab_other_mgmt {s : State} {chan : Nat} {r : Transfer} {n : Nat} {u : State}
    (h : takeFab s chan r n = .other u) : mgmt u = mgmt s := by
  simpa [h] using takeFab_keeps s chan r n

theorem takeMem_keeps (s : State) (chan : Nat) (r : Transfer) (row off n : Nat) : TakenKeeps (mgmt s) (takeMem s chan r row off n) := by
  unfold takeMem
  dsimp only
  (repeat' split) <;> simp

theorem takeMem_bytes_mgmt {s : State} {chan : Nat} {r : Transfer} {row off n : Nat} {u : State} {v : Nat}
    (h : takeMem s chan r row off n = .bytes u v) : mgmt u = mgmt s := by
  simpa [h] using takeMem_keeps s chan r row off n

theorem takeMem_other_mgmt {s : State} {chan : Nat} {r : Transfer} {row off n : Nat} {u : State}
    (h : takeMem s chan r row off n = .other u) : mgmt u = mgmt s := by
  simpa [h] using takeMem_keeps s chan r row off n

@[simp] theorem movePiece_mgmt (s : State) (chan : Nat) (r : Transfer) (p : Nat) : mgmt (movePiece s chan r p) = mgmt s := by
  have keeps {u : State} {v : Nat} (h : (if tplSsp r.words = 2 then takeFab s chan r (copyFab (srcRow r 0))
      else takeMem s chan r (pieceOf r p).1 (pieceOf r p).2.1 (pieceOf r p).2.2) = .bytes u v) : mgmt u = mgmt s := by
    split at h
    · exact takeFab_bytes_mgmt h
    · exact takeMem_bytes_mgmt h
  have other {u : State} (h : (if tplSsp r.words = 2 then takeFab s chan r (copyFab (srcRow r 0))
      else takeMem s chan r (pieceOf r p).1 (pieceOf r p).2.1 (pieceOf r p).2.2) = .other u) : mgmt u = mgmt s := by
    split at h
    · exact takeFab_other_mgmt h
    · exact takeMem_other_mgmt h
  unfold movePiece
  dsimp only
  split
  · simp
  · split
    · split
      · simp
      · split
        · rfl
        · split
          · next h => exact other h
          · next h => simp [keeps h]
    · split
      · rfl
      · split
        · simp
        · split
          · next h => exact other h
          · next h => simp [keeps h]

@[simp] theorem endPieces_mgmt (s chan r) : mgmt (endPieces s chan r) = mgmt s := by simp [endPieces]
@[simp] theorem plainStep_mgmt (s chan r) : mgmt (plainStep s chan r) = mgmt s := by simp [plainStep]

@[simp] theorem transformIn_mgmt (s : State) (chan : Nat) (r : Transfer) (set : Nat) : mgmt (transformIn s chan r set) = mgmt s := by
  unfold transformIn
  dsimp only
  split
  · rfl
  · split
    · rfl
    · split
      · next h => exact takeMem_other_mgmt h
      · next h => split <;> simp [takeMem_bytes_mgmt h]

@[simp] theorem transformItem_mgmt (s chan r set elem key v) : mgmt (transformItem s chan r set elem key v) = mgmt s := by
  unfold transformItem
  dsimp only
  (repeat' split) <;> simp

@[simp] theorem transformOut_mgmt (s chan r set) : mgmt (transformOut s chan r set) = mgmt s := by
  unfold transformOut
  dsimp only
  (repeat' split) <;> simp

@[simp] theorem transformStep_mgmt (s chan r) : mgmt (transformStep s chan r) = mgmt s := by
  unfold transformStep
  split <;> simp

@[simp] theorem attachFabs_mgmt (s chan r) : mgmt (attachFabs s chan r) = mgmt s := by
  unfold attachFabs
  dsimp only
  (repeat' split) <;> simp

@[simp] theorem bindTransform_mgmt (s chan r) : mgmt (bindTransform s chan r) = mgmt s := by
  unfold bindTransform
  dsimp only
  (repeat' split) <;> simp

@[simp] theorem readIndex_mgmt (s chan r) : mgmt (readIndex s chan r) = mgmt s := by
  unfold readIndex
  dsimp only
  (repeat' split) <;> simp

@[simp] theorem copyStep_mgmt (s chan id) : mgmt (copyStep s chan id) = mgmt s := by
  unfold copyStep
  split <;> simp

@[simp] theorem execFireEntryDeliver_keeps (s) : OutcomeKeeps (mgmt s) (execFireEntryDeliver s) := by
  unfold execFireEntryDeliver
  dsimp only
  (repeat' split) <;> simp

@[simp] theorem execTransferStart_keeps (engine slot s) : OutcomeKeeps (mgmt s) (execTransferStart engine slot s) := by
  unfold execTransferStart
  dsimp only
  (repeat' split) <;> simp

@[simp] theorem completeTransfer_mgmt (s chan r) : mgmt (completeTransfer s chan r) = mgmt s := by simp [completeTransfer]

@[simp] theorem writeRecord_mgmt (s chan r) : mgmt (writeRecord s chan r) = mgmt s := by
  unfold writeRecord
  dsimp only
  (repeat' split) <;> simp

@[simp] theorem execTransferComplete_keeps (chan id s) : OutcomeKeeps (mgmt s) (execTransferComplete chan id s) := by
  unfold execTransferComplete
  split <;> simp

@[simp] theorem raiseAt_mgmt (s tile ctx r) : mgmt (raiseAt s tile ctx r) = mgmt s := by
  unfold raiseAt
  split <;> simp

@[simp] theorem execCopyTransferStop_keeps (chan id s) : OutcomeKeeps (mgmt s) (execCopyTransferStop chan id s) := by
  unfold execCopyTransferStop
  (repeat' split) <;> simp

@[simp] theorem returnTransfer_mgmt (s det0 skip) : mgmt (returnTransfer s det0 skip) = mgmt s := by simp [returnTransfer]

@[simp] theorem readBlock_keeps (s : State) (va align n : Nat) (go : State → List (BitVec 64) → Res) {m : Mgmt} (h : mgmt s = m)
    (hg : ∀ s l, ResKeeps (mgmt s) (go s l)) : ResKeeps m (readBlock s va align n go) := by
  subst h
  have h1 := hg (memoryBegin s)
  simp only [memoryBegin_mgmt] at h1
  unfold readBlock
  dsimp only
  (repeat' split) <;> simp [h1]

@[simp] theorem learnBlock_mgmt (s va n) : mgmt (learnBlock s va n) = mgmt s := by
  unfold learnBlock
  split <;> simp

@[simp] theorem armTemplate_keeps (s line b) {m} (h : mgmt s = m) : ResKeeps m (armTemplate s line b) := by
  subst h
  unfold armTemplate
  (repeat' split) <;> simp

@[simp] theorem execXfire_keeps (w : TWord) (s : State) : OutcomeKeeps (mgmt s) (execXfire w s) :=
  runWord_mgmt _ _ _ fun s1 => by dsimp only; (repeat' split) <;> simp

@[simp] theorem execXcFire_keeps (c s) : OutcomeKeeps (mgmt s) (execXcFire c s) := by
  unfold execXcFire
  split <;> simp

@[simp] theorem execMark_keeps (c s) : OutcomeKeeps (mgmt s) (execMark c s) := by simp [execMark]

/-! #### Fabric -/

@[simp] theorem creditBack_mgmt (s port n count) : mgmt (creditBack s port n count) = mgmt s := by simp [creditBack]
@[simp] theorem peerClosed_mgmt (s port n) : mgmt (peerClosed s port n) = mgmt s := by simp [peerClosed]
@[simp] theorem stopPort_mgmt (s port reason) : mgmt (stopPort s port reason) = mgmt s := by simp [stopPort]
@[simp] theorem peerOpened_mgmt (s port n peer) : mgmt (peerOpened s port n peer) = mgmt s := by simp [peerOpened]
@[simp] theorem execCredit_keeps (port chan count s) : OutcomeKeeps (mgmt s) (execCredit port chan count s) := by simp [execCredit]

@[simp] theorem execFabricOpenMessage_keeps (port chan peer s) : OutcomeKeeps (mgmt s) (execFabricOpenMessage port chan peer s) := by
  simp [execFabricOpenMessage]

@[simp] theorem execFabricCloseMessage_keeps (port chan s) : OutcomeKeeps (mgmt s) (execFabricCloseMessage port chan s) := by
  simp [execFabricCloseMessage]

@[simp] theorem execFabricResetMessage_keeps (port s) : OutcomeKeeps (mgmt s) (execFabricResetMessage port s) := by simp [execFabricResetMessage]
@[simp] theorem execFcctlEnable_keeps (chan value s) : OutcomeKeeps (mgmt s) (execFcctlEnable chan value s) := by simp [execFcctlEnable]
@[simp] theorem execFcctlDisable_keeps (chan value s) : OutcomeKeeps (mgmt s) (execFcctlDisable chan value s) := by simp [execFcctlDisable]
@[simp] theorem takeAck_mgmt (s port ack) : mgmt (takeAck s port ack) = mgmt s := by simp [takeAck]
@[simp] theorem receiveEntry_mgmt (s port n kind payload) : mgmt (receiveEntry s port n kind payload) = mgmt s := by simp [receiveEntry]

@[simp] theorem controlMessage_mgmt (s port f) : mgmt (controlMessage s port f) = mgmt s := by
  unfold controlMessage
  split <;> simp

@[simp] theorem flitContent_mgmt (s port f) : mgmt (flitContent s port f) = mgmt s := by simp [flitContent]
@[simp] theorem execFlitReceive_keeps (port flit s) : OutcomeKeeps (mgmt s) (execFlitReceive port flit s) := by simp [execFlitReceive]
@[simp] theorem execPortRetrain_keeps (port s) : OutcomeKeeps (mgmt s) (execPortRetrain port s) := by simp [execPortRetrain]
@[simp] theorem execFabricRetrainEnd_keeps (port good s) : OutcomeKeeps (mgmt s) (execFabricRetrainEnd port good s) := by simp [execFabricRetrainEnd]

/-! #### Power -/

@[simp] theorem execPoolRefill_keeps (s) : OutcomeKeeps (mgmt s) (execPoolRefill s) := by simp [execPoolRefill]

/-! #### MatrixEngine -/

@[simp] theorem feedSides_mgmt (s : State) (tile set : Nat) (l : List Nat) : mgmt (feedSides s tile set l) = mgmt s := by
  induction l generalizing s with
  | nil => rfl
  | cons e rest ih =>
    unfold feedSides
    dsimp only
    (repeat' split) <;> simp [ih]

@[simp] theorem popSlot_mgmt (s : State) (tile set group : Nat) : mgmt (popSlot s tile set group) = mgmt s :=
  mgmt_foldl _ (fun s x => by (repeat' split) <;> simp) _ _

@[simp] theorem feedAdvance_mgmt (s : State) (tile set group fuel : Nat) : mgmt (feedAdvance s tile set group fuel) = mgmt s := by
  induction fuel generalizing s with
  | zero => rfl
  | succ fuel ih => simp [feedAdvance, ih]

@[simp] theorem modRun_mgmt (s tile set k f) : mgmt (modRun s tile set k f) = mgmt s := by simp [modRun]
@[simp] theorem raiseDly_mgmt (s) : mgmt (raiseDly s) = mgmt s := by simp [raiseDly]
@[simp] theorem issueMe_mgmt (eop c s) : mgmt (issueMe eop c s) = mgmt s := by simp [issueMe]
@[simp] theorem headIntegrity_mgmt (s addr) : mgmt (headIntegrity s addr) = mgmt s := by simp [headIntegrity]

@[simp] theorem runMe_keeps (eop c s) : OutcomeKeeps (mgmt s) (runMe eop c s) := by
  unfold runMe
  dsimp only
  (repeat' split) <;> simp

@[simp] theorem execEngineNop_keeps (e c s) : OutcomeKeeps (mgmt s) (execEngineNop e c s) := by simp [execEngineNop]
@[simp] theorem accWrite_mgmt (s tile set row col vs fresh) : mgmt (accWrite s tile set row col vs fresh) = mgmt s := by simp [accWrite]
@[simp] theorem touchRow_mgmt (s tile set row write) : mgmt (touchRow s tile set row write) = mgmt s := by simp [touchRow]
@[simp] theorem meStore_mgmt (s tile set bs) : mgmt (meStore s tile set bs) = mgmt s := by simp [meStore]
@[simp] theorem stopRun_mgmt (s tile set r rec_) : mgmt (stopRun s tile set r rec_) = mgmt s := by simp [stopRun]
@[simp] theorem rowDone_mgmt (s tile set port r) : mgmt (rowDone s tile set port r) = mgmt s := by simp [rowDone]
@[simp] theorem westRow_mgmt (s tile set r) : mgmt (westRow s tile set r) = mgmt s := by simp [westRow]

@[simp] theorem writeRow_mgmt (s tile set r) : mgmt (writeRow s tile set r) = mgmt s := by
  unfold writeRow
  split <;> simp

@[simp] theorem loadUnit_mgmt (s tile set r) : mgmt (loadUnit s tile set r) = mgmt s := by simp [loadUnit]

@[simp] theorem storeRow_mgmt (s tile set r) : mgmt (storeRow s tile set r) = mgmt s := by
  unfold storeRow
  split <;> simp

@[simp] theorem drainRow_mgmt (s tile set r) : mgmt (drainRow s tile set r) = mgmt s := by simp [drainRow]
@[simp] theorem clearRow_mgmt (s tile set r) : mgmt (clearRow s tile set r) = mgmt s := by simp [clearRow]
@[simp] theorem stallRow_mgmt (s tile set port r) : mgmt (stallRow s tile set port r) = mgmt s := by simp [stallRow]

@[simp] theorem enterRow_mgmt (s tile set port r) : mgmt (enterRow s tile set port r) = mgmt s := by
  unfold enterRow
  dsimp only
  (repeat' split) <;> simp

@[simp] theorem eachRun_mgmt (s : State) (tile set : Nat) (f : State → MeRun → State) (h : ∀ s r, mgmt (f s r) = mgmt s) :
    mgmt (eachRun s tile set f) = mgmt s :=
  mgmt_foldl _ (fun s x => by dsimp only; split <;> simp [h]) _ _

@[simp] theorem meRowTurn_mgmt (s tile port) : mgmt (meRowTurn s tile port) = mgmt s := by
  unfold meRowTurn
  dsimp only
  (repeat' split) <;> simp

@[simp] theorem execSlabReady_keeps (tile s) : OutcomeKeeps (mgmt s) (execSlabReady tile s) := by
  unfold execSlabReady
  dsimp only
  (repeat' split) <;> simp

@[simp] theorem execEngineSignal_keeps (tile eng s) : OutcomeKeeps (mgmt s) (execEngineSignal tile eng s) := by simp [execEngineSignal]
@[simp] theorem raiseMiss_mgmt (s tile set cause pos detail) : mgmt (raiseMiss s tile set cause pos detail) = mgmt s := by simp [raiseMiss]

@[simp] theorem execTimingTrap_keeps (tile s) : OutcomeKeeps (mgmt s) (execTimingTrap tile s) := by
  unfold execTimingTrap
  dsimp only
  (repeat' split) <;> simp

@[simp] theorem execStaleStampMiss_keeps (tile s) : OutcomeKeeps (mgmt s) (execStaleStampMiss tile s) := by
  unfold execStaleStampMiss
  dsimp only
  (repeat' split) <;> simp

/-! #### Returns -/

@[simp] theorem onSet_mgmt (s : State) (tile set : Nat) (f : State → State) (h : ∀ s, mgmt (f s) = mgmt s) :
    mgmt (onSet s tile set f) = mgmt s := by
  simp [onSet, h]

@[simp] theorem wakeThread_mgmt (s tile set thr f) : mgmt (wakeThread s tile set thr f) = mgmt s := by simp [wakeThread]
@[simp] theorem clearVprog_mgmt (s tile set) : mgmt (clearVprog s tile set) = mgmt s := by simp [clearVprog]
@[simp] theorem retryThread_mgmt (s tile set r) : mgmt (retryThread s tile set r) = mgmt s := by simp [retryThread]
@[simp] theorem skipThread_mgmt (s tile set r) : mgmt (skipThread s tile set r) = mgmt s := by simp [skipThread]
@[simp] theorem resumeOther_mgmt (s tile set r) : mgmt (resumeOther s tile set r) = mgmt s := by simp [resumeOther]
@[simp] theorem freeEngine_mgmt (s tile set e) : mgmt (freeEngine s tile set e) = mgmt s := by simp [freeEngine]

@[simp] theorem returnMe_mgmt (s tile set r skip) : mgmt (returnMe s tile set r skip) = mgmt s := by
  unfold returnMe
  dsimp only
  (repeat' split) <;> simp

@[simp] theorem returnEngine_mgmt (s tile set r skip) : mgmt (returnEngine s tile set r skip) = mgmt s := by simp [returnEngine]
@[simp] theorem returnRegion_mgmt (s tile set r skip) : mgmt (returnRegion s tile set r skip) = mgmt s := by simp [returnRegion]

@[simp] theorem skipHead_mgmt (s : State) (tile set e p key : Nat) (x : StreamPort) : mgmt (skipItem.skipHead s tile set e p key x) = mgmt s := by
  unfold skipItem.skipHead
  (repeat' split) <;> simp

@[simp] theorem skipItem_mgmt (s : State) (tile set p : Nat) (x : StreamPort) : mgmt (skipItem s tile set p x) = mgmt s := by
  unfold skipItem
  dsimp only
  (repeat' split) <;> simp

@[simp] theorem returnPort_mgmt (s tile set r skip) : mgmt (returnPort s tile set r skip) = mgmt s := by
  unfold returnPort
  dsimp only
  (repeat' split) <;> simp

@[simp] theorem restartSet_mgmt (s tile set) : mgmt (restartSet s tile set) = mgmt s := by simp [restartSet]
@[simp] theorem returnRestart_mgmt (s tile set r) : mgmt (returnRestart s tile set r) = mgmt s := by simp [returnRestart]

@[simp] theorem resolveRecord_mgmt (s tile set r fn) : mgmt (resolveRecord s tile set r fn) = mgmt s := by
  unfold resolveRecord
  dsimp only
  (repeat' split) <;> simp

@[simp] theorem dismiss_mgmt (s tile set fn) : mgmt (dismiss s tile set fn) = mgmt s := by simp [dismiss]
@[simp] theorem tretWord_keeps (w fn s) : OutcomeKeeps (mgmt s) (tretWord w fn s) := by simp [tretWord]
@[simp] theorem execTrapPresent_keeps (tile set s) : OutcomeKeeps (mgmt s) (execTrapPresent tile set s) := by simp [execTrapPresent]

/-! #### Residency -/

@[simp] theorem shiftRefs_mgmt (s m) : mgmt (shiftRefs s m) = mgmt s := by simp [shiftRefs]
@[simp] theorem takeOut_mgmt (s t i graph) : mgmt (takeOut s t i graph) = mgmt s := by simp [takeOut]

theorem bringIn_mgmt {s : State} {v : SavedSet} {t i : Nat} {u : State} (h : bringIn s v t i = some u) : mgmt u = mgmt s := by
  unfold bringIn at h
  dsimp only at h
  split at h
  · cases h
  · simp only [Option.map_eq_some_iff] at h
    obtain ⟨c, _, rfl⟩ := h
    simp

/-! #### Demand -/

@[simp] theorem copyPage_mgmt (s src dst) : mgmt (copyPage s src dst) = mgmt s := by simp [copyPage]

theorem touch_mgmt {fuel : Nat} {s : State} {ctx va : Nat} {needR needW : Bool} {pa : Nat} {u : State}
    (h : touch fuel s ctx va needR needW = some (pa, u)) : mgmt u = mgmt s := by
  induction fuel generalizing s ctx va needR needW pa u with
  | zero => cases h
  | succ fuel ih =>
    unfold touch at h
    dsimp only at h
    (repeat' split at h) <;> simp only [reduceCtorEq, Option.some.injEq, Prod.mk.injEq, Option.map_eq_some_iff] at h
    · rw [h.2]
    · obtain ⟨_, _, _, rfl⟩ := h
      simp
    · next h1 =>
      obtain ⟨_, _, _, rfl⟩ := h
      simpa using ih h1

@[simp] theorem reclaimPage_mgmt (s : State) (owner page : Nat) : mgmt (reclaimPage s owner page) = mgmt s := by
  unfold reclaimPage
  dsimp only
  (repeat' split) <;> simp
  next h => exact touch_mgmt h

@[simp] theorem raiseParent_mgmt (s ctx r) : mgmt (raiseParent s ctx r) = mgmt s := by
  unfold raiseParent
  dsimp only
  (repeat' split) <;> simp

@[simp] theorem exhaustionRec_mgmt (s va) : mgmt (exhaustionRec s va).2 = mgmt s := by simp [exhaustionRec]
@[simp] theorem meetExhaustion_keeps (s va owner) : ReliefKeeps (mgmt s) (meetExhaustion s va owner) := by simp [meetExhaustion]

/-! #### Spaces -/

@[simp] theorem newWords_mgmt (s ms) : mgmt (newWords s ms) = mgmt s := by simp [newWords]
@[simp] theorem pinPages_mgmt (s on ps) : mgmt (pinPages s on ps) = mgmt s := by simp [pinPages]
@[simp] theorem dropTlb_mgmt (s ctx va n) : mgmt (dropTlb s ctx va n) = mgmt s := by simp [dropTlb]
@[simp] theorem holdBack_mgmt (s issuer lo n) : mgmt (holdBack s issuer lo n) = mgmt s := by simp [holdBack]
@[simp] theorem giveBack_mgmt (s issuer lo n) : mgmt (giveBack s issuer lo n) = mgmt s := by simp [giveBack]
@[simp] theorem unmapOne_mgmt (s ctx m) : mgmt (unmapOne s ctx m) = mgmt s := by simp [unmapOne]

@[simp] theorem unmapRange_mgmt (fuel : Nat) (s : State) (ctx va n : Nat) : mgmt (unmapRange fuel s ctx va n).1 = mgmt s := by
  induction fuel generalizing s ctx va n with
  | zero => rfl
  | succ fuel ih =>
    unfold unmapRange
    dsimp only
    rw [mgmt_foldl_fst]
    intro a x
    simp only [unmapOne_mgmt]
    rw [mgmt_foldl_fst]
    intro a x
    rw [mgmt_foldl_fst]
    intro a x
    exact ih ..

/-! #### Gears -/

@[simp] theorem execGearTakeEffect_keeps (tile s) : OutcomeKeeps (mgmt s) (execGearTakeEffect tile s) := by
  unfold execGearTakeEffect
  dsimp only
  (repeat' split) <;> simp

@[simp] theorem execGearTransitionEnd_keeps (tile s) : OutcomeKeeps (mgmt s) (execGearTransitionEnd tile s) := by simp [execGearTransitionEnd]
@[simp] theorem execDroopTrip_keeps (tile s) : OutcomeKeeps (mgmt s) (execDroopTrip tile s) := by simp [execDroopTrip]

@[simp] theorem execDroopStretchEnd_keeps (tile s) : OutcomeKeeps (mgmt s) (execDroopStretchEnd tile s) := by
  unfold execDroopStretchEnd
  dsimp only
  (repeat' split) <;> simp

@[simp] theorem execDroopHalfWidthEnd_keeps (tile s) : OutcomeKeeps (mgmt s) (execDroopHalfWidthEnd tile s) := by
  unfold execDroopHalfWidthEnd
  dsimp only
  (repeat' split) <;> simp

@[simp] theorem coolTiles_mgmt (s slot) : mgmt (coolTiles s slot) = mgmt s := by simp [coolTiles]
@[simp] theorem execThermalSample_keeps (slot temp s) : OutcomeKeeps (mgmt s) (execThermalSample slot temp s) := by simp [execThermalSample]
@[simp] theorem execSensorFailure_keeps (slot s) : OutcomeKeeps (mgmt s) (execSensorFailure slot s) := by simp [execSensorFailure]

/-! #### Launch -/

theorem sysBytes_mgmt {n : Nat} {s : State} {ctx va : Nat} {v : List Byte} {u : State} (h : sysBytes n s ctx va = some (v, u)) :
    mgmt u = mgmt s := by
  induction n generalizing s va v u with
  | zero => cases h; rfl
  | succ n ih =>
    unfold sysBytes at h
    (repeat' split at h) <;> simp at h
    next h1 _ =>
    obtain ⟨_, h2, _⟩ := h
    exact (ih h2).trans (touch_mgmt h1)

theorem sysWords_mgmt {n : Nat} {s : State} {ctx va : Nat} {v : List (BitVec 64)} {u : State} (h : sysWords n s ctx va = some (v, u)) :
    mgmt u = mgmt s := by
  induction n generalizing s va v u with
  | zero => cases h; rfl
  | succ n ih =>
    unfold sysWords at h
    split at h
    · next h1 =>
      split at h
      · cases h
      · simp only [Option.map_eq_some_iff] at h
        obtain ⟨r, h2, h3⟩ := h
        cases h3
        exact (ih h2).trans (touch_mgmt h1)
    · cases h

@[simp] theorem sysWrite_mgmt (s : State) (ctx va n v : Nat) : mgmt (sysWrite s ctx va n v) = mgmt s := by
  unfold sysWrite
  split
  · next h => simpa using touch_mgmt h
  · rfl

theorem readLoops_mgmt {s : State} {ctx : Nat} {ws v : List (BitVec 64)} {u : State} (h : readLoops s ctx ws = some (v, u)) :
    mgmt u = mgmt s := by
  unfold readLoops at h
  (repeat' split at h)
  · exact sysWords_mgmt h
  · next h1 => exact (sysWords_mgmt h).trans (sysWords_mgmt h1)
  · cases h

@[simp] theorem keepPrios_mgmt (s) : mgmt (keepPrios s) = mgmt s := by simp [keepPrios]

@[simp] theorem execLaunchSelection_keeps (queue s) : OutcomeKeeps (mgmt s) (execLaunchSelection queue s) := by
  unfold execLaunchSelection
  dsimp only
  (repeat' split) <;> simp

@[simp] theorem modLaunch_mgmt (s id f) : mgmt (modLaunch s id f) = mgmt s := by simp [modLaunch]
@[simp] theorem failLaunch_mgmt (s launch status cause tile) : mgmt (failLaunch s launch status cause tile) = mgmt s := by simp [failLaunch]

@[simp] theorem starveLaunch_mgmt (s : State) (l : Launch) (va tile : Nat) : mgmt (starveLaunch s l va tile) = mgmt s := by
  unfold starveLaunch
  split
  · rfl
  · next m _ =>
    have h := meetExhaustion_keeps s va (demandKey l.ctx m va).1
    (repeat' split) <;> simp_all

@[simp] theorem expandLaunch_mgmt (s l es) : mgmt (expandLaunch s l es) = mgmt s := by
  unfold expandLaunch
  dsimp only
  (repeat' split) <;> simp

@[simp] theorem execLaunchExpansion_keeps (launch : Nat) (s : State) : OutcomeKeeps (mgmt s) (execLaunchExpansion launch s) := by
  unfold execLaunchExpansion
  (repeat' split) <;> simp
  next h => exact readLoops_mgmt h

@[simp] theorem dropSet_mgmt (s t i) : mgmt (dropSet s t i) = mgmt s := by simp [dropSet]

@[simp] theorem discardSet_mgmt (s id p) : mgmt (discardSet s id p) = mgmt s := by
  unfold discardSet
  split <;> simp

@[simp] theorem endPlacement_mgmt (s id status cause tile) : mgmt (endPlacement s id status cause tile) = mgmt s := by
  unfold endPlacement
  split <;> simp

@[simp] theorem execPlacement_keeps (die s) : OutcomeKeeps (mgmt s) (execPlacement die s) := by
  unfold execPlacement
  dsimp only
  (repeat' split) <;> simp

@[simp] theorem retirePlacement_mgmt (s t i id) : mgmt (retirePlacement s t i id) = mgmt s := by
  unfold retirePlacement
  split <;> simp

@[simp] theorem execPlacementRetire_keeps (tile s) : OutcomeKeeps (mgmt s) (execPlacementRetire tile s) := by
  unfold execPlacementRetire
  split <;> simp

@[simp] theorem sendNotify_mgmt (s : State) (ctx addr : Nat) (v : BitVec 32) : mgmt (sendNotify s ctx addr v) = mgmt s := by
  unfold sendNotify
  (repeat' split) <;> simp
  next h _ => exact touch_mgmt h

@[simp] theorem putRecord_mgmt (s ctx ring e r) : mgmt (putRecord s ctx ring e r) = mgmt s := by simp [putRecord]

@[simp] theorem recordLaunch_mgmt (s l) : mgmt (recordLaunch s l) = mgmt s := by
  unfold recordLaunch
  dsimp only
  (repeat' split) <;> simp

@[simp] theorem ringDrain_mgmt (s ctx ring) : mgmt (ringDrain s ctx ring) = mgmt s := by
  unfold ringDrain
  dsimp only
  (repeat' split) <;> simp

@[simp] theorem signalLaunch_mgmt (s l) : mgmt (signalLaunch s l) = mgmt s := by simp [signalLaunch]

@[simp] theorem execLaunchRetire_keeps (launch s) : OutcomeKeeps (mgmt s) (execLaunchRetire launch s) := by
  unfold execLaunchRetire
  dsimp only
  (repeat' split) <;> simp

/-! #### Swap -/

@[simp] theorem loseContext_mgmt (s ctx tile) : mgmt (loseContext s ctx tile) = mgmt s := by simp [loseContext]
@[simp] theorem saveChecked_mgmt (s ctx tile) : mgmt (saveChecked s ctx tile) = mgmt s := by simp [saveChecked]

@[simp] theorem leaveTile_mgmt (s tile i graph) : mgmt (leaveTile s tile i graph) = mgmt s := by
  unfold leaveTile
  split <;> simp

@[simp] theorem execShadowSetSwap_keeps (tile s) : OutcomeKeeps (mgmt s) (execShadowSetSwap tile s) := by
  unfold execShadowSetSwap
  dsimp only
  (repeat' split) <;> simp

@[simp] theorem execThermalOverride_keeps (tile s) : OutcomeKeeps (mgmt s) (execThermalOverride tile s) := by simp [execThermalOverride]
@[simp] theorem execTimeSlice_keeps (s) : OutcomeKeeps (mgmt s) (execTimeSlice s) := by simp [execTimeSlice]

/-! #### Walks -/

@[simp] theorem endWalk_mgmt (s : State) (w : Walk) : mgmt (endWalk s w) = mgmt s := by
  unfold endWalk
  dsimp only
  rw [mgmt_foldl]
  · simp
  · intro s a
    cases a <;> simp

@[simp] theorem toldWalk_mgmt (s w) : mgmt (toldWalk s w) = mgmt s := by simp [toldWalk]

@[simp] theorem reportExhaustion_mgmt (s : State) (w : Walk) (owner : Nat) : mgmt (reportExhaustion s w owner) = mgmt s := by
  have h := meetExhaustion_keeps s w.va owner
  unfold reportExhaustion
  split <;> simp_all

@[simp] theorem execWalkComplete_keeps (walk : Nat) (s : State) : OutcomeKeeps (mgmt s) (execWalkComplete walk s) := by
  unfold execWalkComplete
  dsimp only
  (repeat' split) <;> simp
  next h => exact touch_mgmt h

/-! #### Summit -/

@[simp] theorem askSummit_keeps (s d op a b block) {m} (h : mgmt s = m) : ResKeeps m (askSummit s d op a b block) := by simp [askSummit, h]

@[simp] theorem takeAnswer_keeps (w : TWord) (s : State) (r : SummitReq) {m : Mgmt} (h : mgmt s = m) : ResKeeps m (takeAnswer w s r) := by
  subst h
  unfold takeAnswer
  split <;> simp

@[simp] theorem ctxWord_keeps (w op s) {m} (h : mgmt s = m) : ResKeeps m (ctxWord w op s) := by
  subst h
  unfold ctxWord
  split <;> simp

@[simp] theorem ctxBlockWord_keeps (w op va align n s) {m} (h : mgmt s = m) : ResKeeps m (ctxBlockWord w op va align n s) := by
  subst h
  unfold ctxBlockWord
  split <;> simp

@[simp] theorem giveObject_mgmt (s kind n ctx) : mgmt (giveObject s kind n ctx) = mgmt s := by
  unfold giveObject
  split <;> simp

@[simp] theorem decideNew_keeps (s r) : VerdictKeeps (mgmt s) (decideNew s r) := by
  unfold decideNew
  dsimp only
  (repeat' split) <;> simp

@[simp] theorem grantTile_keeps (s r child) : VerdictKeeps (mgmt s) (grantTile s r child) := by simp [grantTile]
@[simp] theorem walkAgain_mgmt (s) : mgmt (walkAgain s) = mgmt s := by simp [walkAgain]

@[simp] theorem decideGrant_keeps (s r) : VerdictKeeps (mgmt s) (decideGrant s r) := by
  unfold decideGrant
  dsimp only
  (repeat' split) <;> simp

@[simp] theorem notifyRevocation_mgmt (s ctx kind b dl) : mgmt (notifyRevocation s ctx kind b dl) = mgmt s := by
  unfold notifyRevocation
  split <;> simp

@[simp] theorem decideRevoke_keeps (s r) : VerdictKeeps (mgmt s) (decideRevoke s r) := by simp [decideRevoke]

@[simp] theorem resolveTrapped_mgmt (s : State) (c : Ctx) (mode : Nat) : mgmt (resolveTrapped s c mode) = mgmt s := by
  unfold resolveTrapped
  (repeat' split) <;> simp

@[simp] theorem wakeSets_mgmt (s) : mgmt (wakeSets s) = mgmt s := by simp [wakeSets]
@[simp] theorem decideRun_keeps (s r) : VerdictKeeps (mgmt s) (decideRun s r) := by simp [decideRun]
@[simp] theorem decideStop_keeps (s r) : VerdictKeeps (mgmt s) (decideStop s r) := by simp [decideStop]
@[simp] theorem decideQuery_keeps (s r) : VerdictKeeps (mgmt s) (decideQuery s r) := by simp [decideQuery]

@[simp] theorem decideMap_keeps (s r) : VerdictKeeps (mgmt s) (decideMap s r) := by
  unfold decideMap
  dsimp only
  (repeat' split) <;> simp

@[simp] theorem decideUnmap_keeps (s r) : VerdictKeeps (mgmt s) (decideUnmap s r) := by simp [decideUnmap]

theorem touchAll_mgmt {s : State} {ctx : Nat} {l : List Nat} {u : State} (h : touchAll s ctx l = some u) : mgmt u = mgmt s := by
  induction l generalizing s with
  | nil => cases h; rfl
  | cons va t ih =>
    simp only [touchAll, Option.bind_eq_some_iff] at h
    obtain ⟨r, h1, h2⟩ := h
    exact (ih h2).trans (touch_mgmt h1)

@[simp] theorem pinExhausted_mgmt (s : State) (r : SummitReq) (vas : List Nat) : mgmt (pinExhausted s r vas).1 = mgmt s := by
  unfold pinExhausted
  split
  · split
    · next va _ _ _ m _ =>
      have h := meetExhaustion_keeps s va (demandKey r.ctx m va).1
      (repeat' split) <;> simp_all
    · rfl
  · rfl

@[simp] theorem decidePin_keeps (s : State) (r : SummitReq) (on : Bool) : VerdictKeeps (mgmt s) (decidePin s r on) := by
  unfold decidePin
  dsimp only
  (repeat' split) <;> simp
  next h => exact touchAll_mgmt h

@[simp] theorem decide369_keeps (s r) : VerdictKeeps (mgmt s) (decide369 s r) := by
  unfold decide369
  split <;> simp

@[simp] theorem putSummit_mgmt (s r) : mgmt (putSummit s r) = mgmt s := by simp [putSummit]

@[simp] theorem answerSaved_mgmt (s r) : mgmt (answerSaved s r) = mgmt s := by
  unfold answerSaved
  split <;> simp

@[simp] theorem answerSummit_mgmt (s r) : mgmt (answerSummit s r) = mgmt s := by simp [answerSummit]

@[simp] theorem execSummitAnswer_keeps (s : State) : OutcomeKeeps (mgmt s) (execSummitAnswer s) := by
  unfold execSummitAnswer
  dsimp only
  split
  · simp
  · next r _ =>
    have h := decide369_keeps ((s.summit.filter fun r => r.applied && !r.ready && summitDone s r).foldl answerSummit s) r
    split <;> simp_all

/-! #### Revoke -/

@[simp] theorem takeQty_mgmt (fuel : Nat) (s : State) (kind ctx n : Nat) : mgmt (takeQty fuel s kind ctx n).1 = mgmt s := by
  induction fuel generalizing s ctx n with
  | zero => rfl
  | succ fuel ih =>
    unfold takeQty
    dsimp only
    rw [mgmt_foldl_fst]
    · simp
    · intro a k
      split <;> simp [ih]

@[simp] theorem fitFrames_mgmt (fuel : Nat) (s : State) (ctx : Nat) : mgmt (fitFrames fuel s ctx) = mgmt s := by
  induction fuel generalizing s with
  | zero => rfl
  | succ fuel ih =>
    unfold fitFrames
    dsimp only
    (repeat' split) <;> simp [ih]

@[simp] theorem revokeRecord_mgmt (s q n) : mgmt (revokeRecord s q n) = mgmt s := by simp [revokeRecord]
@[simp] theorem revokeQueue_mgmt (s q) : mgmt (revokeQueue s q) = mgmt s := by simp [revokeQueue]
@[simp] theorem fitRecords_mgmt (s ctx) : mgmt (fitRecords s ctx) = mgmt s := by simp [fitRecords]
@[simp] theorem cutChannel_mgmt (s chan) : mgmt (cutChannel s chan) = mgmt s := by simp [cutChannel]
@[simp] theorem cutLine_mgmt (s line) : mgmt (cutLine s line) = mgmt s := by simp [cutLine]
@[simp] theorem cutTile_mgmt (s cs tile) : mgmt (cutTile s cs tile) = mgmt s := by simp [cutTile]

@[simp] theorem takeObject_mgmt (s kind n ctx) : mgmt (takeObject s kind n ctx) = mgmt s := by
  unfold takeObject
  split <;> simp

@[simp] theorem takeTile_mgmt (s cs tile) : mgmt (takeTile s cs tile) = mgmt s := by simp [takeTile]
@[simp] theorem takeObjects_mgmt (s cs kind ctx) : mgmt (takeObjects s cs kind ctx) = mgmt s := by simp [takeObjects]
@[simp] theorem takeWhole_mgmt (s cs issuer) : mgmt (takeWhole s cs issuer) = mgmt s := by simp [takeWhole]
@[simp] theorem fallDue_mgmt (s v) : mgmt (fallDue s v) = mgmt s := by simp [fallDue]

@[simp] theorem retireRevoked_mgmt (s id) : mgmt (retireRevoked s id) = mgmt s := by
  unfold retireRevoked
  dsimp only
  (repeat' split) <;> simp

@[simp] theorem destroyCtx_mgmt (s ctx) : mgmt (destroyCtx s ctx) = mgmt s := by simp [destroyCtx]

@[simp] theorem returnQty_mgmt (s : State) (issuer child : Nat) : mgmt (returnQty s issuer child) = mgmt s :=
  mgmt_foldl _ (by simp) _ _

@[simp] theorem endRevocation_mgmt (s v) : mgmt (endRevocation s v) = mgmt s := by simp [endRevocation]

@[simp] theorem execRevocationDeadline_keeps (rev s) : OutcomeKeeps (mgmt s) (execRevocationDeadline rev s) := by
  unfold execRevocationDeadline
  split <;> simp

/-! #### Layout -/

@[simp] theorem objectsHome_mgmt (s cs) : mgmt (objectsHome s cs) = mgmt s := by simp [objectsHome]
@[simp] theorem clearCounters_mgmt (old s cs) : mgmt (clearCounters old s cs) = mgmt s := by simp [clearCounters]
@[simp] theorem updatePartition_mgmt (s p) : mgmt (updatePartition s p) = mgmt s := by simp [updatePartition]
@[simp] theorem bindVfs_mgmt (s lay) : mgmt (bindVfs s lay) = mgmt s := by simp [bindVfs]

@[simp] theorem moveFrame_mgmt (s owner page pa) : mgmt (moveFrame s owner page pa) = mgmt s := by
  unfold moveFrame
  dsimp only
  (repeat' split) <;> simp

@[simp] theorem moveFrames_mgmt (s) : mgmt (moveFrames s) = mgmt s := by simp [moveFrames]

/-! #### Mailbox -/

@[simp] theorem tellHost_mgmt (s) : mgmt (tellHost s) = mgmt s := by simp [tellHost]
@[simp] theorem execGateRefusal_keeps (slot s) : OutcomeKeeps (mgmt s) (execGateRefusal slot s) := by simp [execGateRefusal]
@[simp] theorem execLinkDown_keeps (s) : OutcomeKeeps (mgmt s) (execLinkDown s) := by simp [execLinkDown]
@[simp] theorem execLinkRetrained_keeps (s) : OutcomeKeeps (mgmt s) (execLinkRetrained s) := by simp [execLinkRetrained]

/-! #### Failures -/

@[simp] theorem waiterLost_mgmt (s p) : mgmt (waiterLost s p) = mgmt s := by simp [waiterLost]
@[simp] theorem barrierError_mgmt (s slot n) : mgmt (barrierError s slot n) = mgmt s := by simp [barrierError]
@[simp] theorem waitersFail_mgmt (s ops pa) : mgmt (waitersFail s ops pa) = mgmt s := by simp [waitersFail]
@[simp] theorem versionError_mgmt (s pa) : mgmt (versionError s pa) = mgmt s := by simp [versionError]
@[simp] theorem dequeError_mgmt (s slot n) : mgmt (dequeError s slot n) = mgmt s := by simp [dequeError]

@[simp] theorem execUncorrectableStateError_keeps (what s) : OutcomeKeeps (mgmt s) (execUncorrectableStateError what s) := by
  unfold execUncorrectableStateError
  split <;> simp

@[simp] theorem storeError_mgmt (s what) : mgmt (storeError s what) = mgmt s := by
  unfold storeError
  split <;> simp

@[simp] theorem failTile_mgmt (s tile) : mgmt (failTile s tile) = mgmt s := by simp [failTile]
@[simp] theorem execTileFailure_keeps (tile s) : OutcomeKeeps (mgmt s) (execTileFailure tile s) := by simp [execTileFailure]
@[simp] theorem failWaiting_mgmt (s die) : mgmt (failWaiting s die) = mgmt s := by simp [failWaiting]
@[simp] theorem execDieSchedulerFailure_keeps (die s) : OutcomeKeeps (mgmt s) (execDieSchedulerFailure die s) := by simp [execDieSchedulerFailure]

@[simp] theorem scLost_mgmt (s r) : mgmt (scLost s r) = mgmt s := by
  unfold scLost
  split <;> simp

@[simp] theorem execColumnControllerFailure_keeps (slot s) : OutcomeKeeps (mgmt s) (execColumnControllerFailure slot s) := by
  simp [execColumnControllerFailure]

@[simp] theorem haltTile_mgmt (s tile) : mgmt (haltTile s tile) = mgmt s := by simp [haltTile]
@[simp] theorem shiftTile_mgmt (s t u) : mgmt (shiftTile s t u) = mgmt s := by simp [shiftTile]
@[simp] theorem storeOut_mgmt (s tile u) : mgmt (storeOut s tile u) = mgmt s := by simp [storeOut]
@[simp] theorem storeIn_mgmt (s tile u) : mgmt (storeIn s tile u) = mgmt s := by simp [storeIn]

/-! #### Loading -/

theorem sysImage_mgmt {s : State} {ctx va n : Nat} {v : List Byte} {u : State} (h : sysImage s ctx va n = some (v, u)) :
    mgmt u = mgmt s := by
  unfold sysImage at h
  split at h
  · cases h; rfl
  · exact sysBytes_mgmt h

theorem loadKernel_mgmt {s : State} {l : Launch} {p : Placement} {v : Loaded} {u : State} (h : loadKernel s l p = some (v, u)) :
    mgmt u = mgmt s := by
  unfold loadKernel at h
  split at h
  · cases h
  · next h0 =>
    split at h
    · cases h
    · simp only [Option.bind_eq_some_iff, Option.map_eq_some_iff] at h
      obtain ⟨sh, h1, da, h2, co, h3, re, h4, im, -, h5⟩ := h
      cases h5
      exact (sysWords_mgmt h4).trans ((sysWords_mgmt h3).trans ((sysImage_mgmt h2).trans ((sysImage_mgmt h1).trans (sysWords_mgmt h0))))

@[simp] theorem bindPlacement_mgmt (s id p l i c0 x) : mgmt (bindPlacement s id p l i c0 x) = mgmt s := by simp [bindPlacement]

@[simp] theorem loadFailed_mgmt (s l tile) : mgmt (loadFailed s l tile) = mgmt s := by
  unfold loadFailed
  split <;> simp

@[simp] theorem execDispatch_keeps (tile : Nat) (s : State) : OutcomeKeeps (mgmt s) (execDispatch tile s) := by
  unfold execDispatch
  dsimp only
  (repeat' split) <;> simp
  next h _ _ _ _ => exact loadKernel_mgmt h

/-! #### Snap -/

@[simp] theorem armGraph_mgmt (s ctx tiles k sched) : mgmt (armGraph s ctx tiles k sched) = mgmt s := by simp [armGraph]
@[simp] theorem recordElem_mgmt (s tile set elem n g) : mgmt (recordElem s tile set elem n g) = mgmt s := by simp [recordElem]

@[simp] theorem execCairnRecord_keeps (tile elem s) : OutcomeKeeps (mgmt s) (execCairnRecord tile elem s) := by
  unfold execCairnRecord
  dsimp only
  (repeat' split) <;> simp

@[simp] theorem writeSnapshot_mgmt (s g) : mgmt (writeSnapshot s g) = mgmt s := by
  unfold writeSnapshot
  dsimp only
  (repeat' split) <;> simp

@[simp] theorem leaveWithGraph_mgmt (s id p) : mgmt (leaveWithGraph s id p) = mgmt s := by simp [leaveWithGraph]

@[simp] theorem execSnapshotComplete_keeps (graph s) : OutcomeKeeps (mgmt s) (execSnapshotComplete graph s) := by
  unfold execSnapshotComplete
  split <;> simp

theorem restoreSet_mgmt {s : State} {v : SavedSet} {target : Nat} {d : Int} {u : State} (h : restoreSet s v target d = some u) :
    mgmt u = mgmt s := by
  simp only [restoreSet, Option.map_eq_some_iff] at h
  obtain ⟨s2, h1, rfl⟩ := h
  simpa using bringIn_mgmt h1

theorem restoreAll_mgmt {s : State} {d : Int} {l : List (SavedSet × Nat)} {u : State} (h : restoreAll s d l = some u) :
    mgmt u = mgmt s := by
  induction l generalizing s with
  | nil => cases h; rfl
  | cons x l ih =>
    simp only [restoreAll, Option.bind_eq_some_iff] at h
    obtain ⟨s1, h1, h2⟩ := h
    exact (ih h2).trans (restoreSet_mgmt h1)

@[simp] theorem execGraphRestore_keeps (graph : Nat) (s : State) : OutcomeKeeps (mgmt s) (execGraphRestore graph s) := by
  unfold execGraphRestore
  (repeat' split) <;> simp
  next h => exact restoreAll_mgmt h

@[simp] theorem preempt_mgmt (s tile) : mgmt (preempt s tile) = mgmt s := by simp [preempt]

@[simp] theorem schedulerTurn_mgmt (s : State) (tile : Nat) : mgmt (schedulerTurn s tile) = mgmt s := by
  have hb (t : State) (v : SavedSet) (o : Nat) : mgmt ((bringIn t v tile o).getD t) = mgmt t := by
    cases h : bringIn t v tile o with
    | none => rfl
    | some u => exact bringIn_mgmt h
  unfold schedulerTurn
  dsimp only
  (repeat' split) <;> simp [hb]

/-! #### Monitor -/

@[simp] theorem takeSegment_mgmt (s ctx die) : mgmt (takeSegment s ctx die) = mgmt s := by simp [takeSegment]
@[simp] theorem monitorStop_mgmt (s tile slot cause det0 det1) : mgmt (monitorStop s tile slot cause det0 det1) = mgmt s := by simp [monitorStop]

@[simp] theorem execWaitSnapshot_keeps (tile slot s) : OutcomeKeeps (mgmt s) (execWaitSnapshot tile slot s) := by
  unfold execWaitSnapshot
  dsimp only
  (repeat' split) <;> simp

@[simp] theorem linkChannel_mgmt (s w) : mgmt (linkChannel s w) = mgmt s := by simp [linkChannel]
@[simp] theorem linkRegion_mgmt (s tile slot es) : mgmt (linkRegion s tile slot es) = mgmt s := by simp [linkRegion]

@[simp] theorem linkDeque_mgmt (s slot n) : mgmt (linkDeque s slot n) = mgmt s := by
  unfold linkDeque
  split <;> simp

@[simp] theorem linkRing_mgmt (s ctx ring) : mgmt (linkRing s ctx ring) = mgmt s := by simp [linkRing]

@[simp] theorem execScreeLink_keeps (what s) : OutcomeKeeps (mgmt s) (execScreeLink what s) := by
  unfold execScreeLink
  dsimp only
  (repeat' split) <;> simp

/-! #### Predicate -/

@[simp] theorem predWord_keeps (w f s) : OutcomeKeeps (mgmt s) (predWord w f s) := by simp [predWord]

/-! #### Scalar -/

@[simp] theorem scalarWord_keeps (w value s) : OutcomeKeeps (mgmt s) (scalarWord w value s) := by simp [scalarWord]
@[simp] theorem scalarOp_keeps (w op s) : OutcomeKeeps (mgmt s) (scalarOp w op s) := by simp [scalarOp]

/-! #### Vector -/

@[simp] theorem clearResume_mgmt (s) : mgmt (clearResume s) = mgmt s := by simp [clearResume]
@[simp] theorem vectorDone_mgmt (s) : mgmt (vectorDone s) = mgmt s := by simp [vectorDone]
@[simp] theorem writeGroup_mgmt (w mask s new) : mgmt (writeGroup w mask s new) = mgmt s := by simp [writeGroup]
@[simp] theorem groupWord_keeps (w new s) : OutcomeKeeps (mgmt s) (groupWord w new s) := by simp [groupWord]
@[simp] theorem elementWord_keeps (w f s) : OutcomeKeeps (mgmt s) (elementWord w f s) := by simp [elementWord]
@[simp] theorem execVsar_keeps (w s) : OutcomeKeeps (mgmt s) (execVsar w s) := by simp [execVsar]
@[simp] theorem execVdiv_keeps (w s) : OutcomeKeeps (mgmt s) (execVdiv w s) := by simp [execVdiv]

/-! #### VectorMove -/

@[simp] theorem sendLanes_mgmt (s0 : State) (w : TWord) (op : ReqOp) (mask : BitVec 32) (base : Nat) (value : Nat → Nat → BitVec 64)
    (l : List (Nat × Nat × Nat × Loc)) (s : State) : mgmt (sendLanes s0 w op mask base value l s) = mgmt s := by
  induction l generalizing s with
  | nil => rfl
  | cons x l ih => simp [sendLanes, ih]

@[simp] theorem busyGroup_mgmt (s w start id) : mgmt (busyGroup s w start id) = mgmt s := by
  unfold busyGroup
  split <;> simp

@[simp] theorem vectorAccess_keeps (w : TWord) (needR needW : Bool) (lanes : List (Nat × Nat × Nat))
    (go : State → List (Nat × Nat × Nat × Loc) → State) (s : State) {m : Mgmt} (h : mgmt s = m) (hg : ∀ s l, mgmt (go s l) = mgmt s) :
    ResKeeps m (vectorAccess w needR needW lanes go s) := by
  subst h
  unfold vectorAccess
  (repeat' split) <;> simp [hg]

@[simp] theorem vectorLoad_keeps (w addr s) : OutcomeKeeps (mgmt s) (vectorLoad w addr s) := by simp [vectorLoad]
@[simp] theorem vectorStore_keeps (w addr s) : OutcomeKeeps (mgmt s) (vectorStore w addr s) := by simp [vectorStore]
@[simp] theorem wholeWord_keeps (w lane s) : OutcomeKeeps (mgmt s) (wholeWord w lane s) := by simp [wholeWord]

/-! #### Issue -/

@[simp] theorem loadDue_mgmt (s a grp done) : mgmt (loadDue s a grp done) = mgmt s := by simp [loadDue]

@[simp] theorem slotAdvance_mgmt (s tile) : mgmt (slotAdvance s tile) = mgmt s := by
  unfold slotAdvance
  dsimp only
  (repeat' split) <;> simp

@[simp] theorem discardAnswers_mgmt (s a l) : mgmt (discardAnswers s a l) = mgmt s := by simp [discardAnswers]
@[simp] theorem afterIssue_mgmt (tile vec thr opc w was s) : mgmt (afterIssue tile vec thr opc w was s) = mgmt s := by simp [afterIssue]

@[simp] theorem issueTurn_keeps (s0 tile vec) : TurnDoesKeeps (mgmt s0) (issueTurn s0 tile vec) := by
  unfold issueTurn
  dsimp only
  (repeat' split) <;> simp

@[simp] theorem issueEarlyTurn_keeps (s tile) : TurnDoesKeeps (mgmt s) (issueEarlyTurn s tile) := by
  unfold issueEarlyTurn
  split <;> simp

@[simp] theorem retryTurn_keeps (s tile thr) : TurnDoesKeeps (mgmt s) (retryTurn s tile thr) := by
  unfold retryTurn
  dsimp only
  (repeat' split) <;> simp

@[simp] theorem commandTurn_keeps (s tile eng) : TurnDoesKeeps (mgmt s) (commandTurn s tile eng) := by
  unfold commandTurn
  dsimp only
  (repeat' split) <;> simp

@[simp] theorem moveTurn_keeps (s tile elem) : TurnDoesKeeps (mgmt s) (moveTurn s tile elem) := by
  unfold moveTurn
  dsimp only
  (repeat' split) <;> simp

@[simp] theorem linkDueTurn_mgmt (s tile slot) : mgmt (linkDueTurn s tile slot) = mgmt s := by simp [linkDueTurn]

@[simp] theorem liveTurn_keeps (s t) : TurnDoesKeeps (mgmt s) (liveTurn s t) := by
  unfold liveTurn
  split <;> simp

@[simp] theorem turnDoes_keeps (s t) : TurnDoesKeeps (mgmt s) (turnDoes s t) := by simp [turnDoes]

end Sys2Proof.Machine
end

section

namespace Sys2Proof.Machine

open Sys2Proof.Claim

/-! ### The instructions and the step -/

/-- A move of an element runs when the element is ready for it. -/
theorem moveWord_keeps (m : Mv) (s : State) (eff : State → State) (h : ∀ s, mgmt (eff s) = mgmt s) :
    OutcomeKeeps (mgmt s) (if moveReady s then .next (runMove m s eff) else .next s) := by
  simp [h]

/-- The instructions that write the management's fields. -/
def managesPackage : Instr → Bool
  | .mbLayout | .mbSetlimit | .mbFeatsel | .mbAttest | .mbClrenrg | .mbErrlog | .mbSwap | .mbBadop _ | .mailboxComplete
  | .layoutPhase2 | .watchdogReset | .packageReset | .recoveryWrite _ | .partitionFullSwap _ | .meterCheck => true
  | _ => false

/-- Every other instruction keeps them. -/
theorem exec_keeps (i : Instr) (s : State) (hi : managesPackage i = false) : OutcomeKeeps (mgmt s) (exec i s) := by
  cases i with
  | nop w => exact (runWord_mgmt _ _ _ (by simp) : OutcomeKeeps _ (execNop w s))
  | br w => exact (runWord_mgmt _ _ _ (by simp) : OutcomeKeeps _ (execBr w s))
  | bri w => exact (runWord_mgmt _ _ _ (by simp) : OutcomeKeeps _ (execBri w s))
  | call w => exact (runWord_mgmt _ _ _ (by simp) : OutcomeKeeps _ (execCall w s))
  | loop w => exact (runWord_mgmt _ _ _ (by simp) : OutcomeKeeps _ (execLoop w s))
  | endl w => exact (runWord_mgmt _ _ _ (by simp) : OutcomeKeeps _ (execEndl w s))
  | kset w => exact (runWord_mgmt _ _ _ (by simp) : OutcomeKeeps _ (execKset w s))
  | kget w => exact (runWord_mgmt _ _ _ (by simp) : OutcomeKeeps _ (execKget w s))
  | halt w => exact (runWord_mgmt _ _ _ (by simp) : OutcomeKeeps _ (execHalt w s))
  | yield w => exact (runWord_mgmt _ _ _ (by simp) : OutcomeKeeps _ (execYield w s))
  | cmp w => exact (runWord_mgmt _ _ _ (by simp) : OutcomeKeeps _ (execCmp w s))
  | pset w => exact (runWord_mgmt _ _ _ (by simp) : OutcomeKeeps _ (execPset w s))
  | pget w => exact (runWord_mgmt _ _ _ (by simp) : OutcomeKeeps _ (execPget w s))
  | pcnt w => exact (runWord_mgmt _ _ _ (by simp) : OutcomeKeeps _ (execPcnt w s))
  | ld w => exact (runWord_mgmt _ _ _ (by simp) : OutcomeKeeps _ (execLd w s))
  | st w => exact (runWord_mgmt _ _ _ (by simp) : OutcomeKeeps _ (execSt w s))
  | atom w => exact (runWord_mgmt _ _ _ (by simp) : OutcomeKeeps _ (execAtom w s))
  | cas w => exact (runWord_mgmt _ _ _ (by simp) : OutcomeKeeps _ (execCas w s))
  | fence w => exact (runWord_mgmt _ _ _ (by simp) : OutcomeKeeps _ (execFence w s))
  | csrr w => exact execCsrr_keeps ..
  | csrw w => exact (runWord_mgmt _ _ _ (by simp) : OutcomeKeeps _ (execCsrw w s))
  | csrx w => exact execCsrx_keeps ..
  | trapWord w => exact (runWord_mgmt _ _ _ (by simp) : OutcomeKeeps _ (execTrapWord w s))
  | bkpt w => exact (runWord_mgmt _ _ _ (by simp) : OutcomeKeeps _ (execBkpt w s))
  | timeD w => exact (runWord_mgmt _ _ _ (by simp) : OutcomeKeeps _ (execTimeD w s))
  | timeS w => exact (runWord_mgmt _ _ _ (by simp) : OutcomeKeeps _ (execTimeS w s))
  | gear w => exact (runWord_mgmt _ _ _ (by simp) : OutcomeKeeps _ (execGear w s))
  | gearq w => exact (runWord_mgmt _ _ _ (by simp) : OutcomeKeeps _ (execGearq w s))
  | sched w => exact (runWord_mgmt _ _ _ (by simp) : OutcomeKeeps _ (execSched w s))
  | slack w => exact (runWord_mgmt _ _ _ (by simp) : OutcomeKeeps _ (execSlack w s))
  | pwrq w => exact (runWord_mgmt _ _ _ (by simp) : OutcomeKeeps _ (execPwrq w s))
  | pwrcap w => exact (runWord_mgmt _ _ _ (by simp) : OutcomeKeeps _ (execPwrcap w s))
  | vextr w => exact (runWord_mgmt _ _ _ (by simp) : OutcomeKeeps _ (execVextr w s))
  | ldv w => exact (runWord_mgmt _ _ _ (by simp) : OutcomeKeeps _ (execLdv w s))
  | stv w => exact (runWord_mgmt _ _ _ (by simp) : OutcomeKeeps _ (execStv w s))
  | reclaim w => exact (runWord_mgmt _ _ _ (by simp) : OutcomeKeeps _ (execReclaim w s))
  | barinit w => exact execBarinit_keeps ..
  | barwait w => exact execBarwait_keeps ..
  | dqpush w => exact execDqpush_keeps ..
  | dqpop w => exact execDqpop_keeps ..
  | dqsteal w => exact execDqsteal_keeps ..
  | tsens w => exact (runWord_mgmt _ _ _ (by simp) : OutcomeKeeps _ (execTsens w s))
  | enq w cmd => exact (runWord_mgmt _ _ _ (by simp) : OutcomeKeeps _ (execEnq w cmd s))
  | enqs w => exact (runWord_mgmt _ _ _ (by simp) : OutcomeKeeps _ (execEnqs w s))
  | tokw w => exact execTokw_keeps ..
  | toks w => exact execToks_keeps ..
  | qbind w => exact execQbind_keeps ..
  | sbar w => exact (runWord_mgmt _ _ _ (by simp) : OutcomeKeeps _ (execSbar w s))
  | emit w => exact (runWord_mgmt _ _ _ (by simp) : OutcomeKeeps _ (execEmit w s))
  | emita w => exact (runWord_mgmt _ _ _ (by simp) : OutcomeKeeps _ (execEmita w s))
  | emite w => exact (runWord_mgmt _ _ _ (by simp) : OutcomeKeeps _ (execEmite w s))
  | stat w => exact (runWord_mgmt _ _ _ (by simp) : OutcomeKeeps _ (execStat w s))
  | instw w => exact (runWord_mgmt _ _ _ (by simp) : OutcomeKeeps _ (execInstw w s))
  | resume w => exact execResume_keeps ..
  | rgn w => exact (runWord_mgmt _ _ _ (by simp) : OutcomeKeeps _ (execRgn w s))
  | snap w => exact (runWord_mgmt _ _ _ (by simp) : OutcomeKeeps _ (execSnap w s))
  | xarm w => exact (runWord_mgmt _ _ _ (by simp) : OutcomeKeeps _ (execXarm w s))
  | xarmD w => exact (runWord_mgmt _ _ _ (by simp) : OutcomeKeeps _ (execXarmD w s))
  | xfire w => exact execXfire_keeps ..
  | xwait w => exact (runWord_mgmt _ _ _ (by simp) : OutcomeKeeps _ (execXwait w s))
  | xstat w => exact (runWord_mgmt _ _ _ (by simp) : OutcomeKeeps _ (execXstat w s))
  | ctxnew w => exact (runWord_mgmt _ _ _ (by simp) : OutcomeKeeps _ (execCtxnew w s))
  | ctxgrant w => exact (runWord_mgmt _ _ _ (by simp) : OutcomeKeeps _ (execCtxgrant w s))
  | ctxrevoke w => exact (runWord_mgmt _ _ _ (by simp) : OutcomeKeeps _ (execCtxrevoke w s))
  | ctxrun w => exact (runWord_mgmt _ _ _ (by simp) : OutcomeKeeps _ (execCtxrun w s))
  | ctxstop w => exact (runWord_mgmt _ _ _ (by simp) : OutcomeKeeps _ (execCtxstop w s))
  | ctxq w => exact (runWord_mgmt _ _ _ (by simp) : OutcomeKeeps _ (execCtxq w s))
  | mapRange w => exact (runWord_mgmt _ _ _ (by simp) : OutcomeKeeps _ (execMapRange w s))
  | unmap w => exact (runWord_mgmt _ _ _ (by simp) : OutcomeKeeps _ (execUnmap w s))
  | pinP w => exact (runWord_mgmt _ _ _ (by simp) : OutcomeKeeps _ (execPinP w s))
  | pinU w => exact (runWord_mgmt _ _ _ (by simp) : OutcomeKeeps _ (execPinU w s))
  | mov w => exact (scalarWord_keeps .. : OutcomeKeeps _ (execMov w s))
  | movh w => exact (scalarWord_keeps .. : OutcomeKeeps _ (execMovh w s))
  | lea w => exact (scalarWord_keeps .. : OutcomeKeeps _ (execLea w s))
  | bfx w => exact (scalarWord_keeps .. : OutcomeKeeps _ (execBfx w s))
  | bfi w => exact (scalarWord_keeps .. : OutcomeKeeps _ (execBfi w s))
  | sel w => exact (scalarWord_keeps .. : OutcomeKeeps _ (execSel w s))
  | add w => exact (scalarOp_keeps .. : OutcomeKeeps _ (execAdd w s))
  | sub w => exact (scalarOp_keeps .. : OutcomeKeeps _ (execSub w s))
  | mul w => exact (scalarOp_keeps .. : OutcomeKeeps _ (execMul w s))
  | mulh w => exact (scalarOp_keeps .. : OutcomeKeeps _ (execMulh w s))
  | div w => exact (scalarOp_keeps .. : OutcomeKeeps _ (execDiv w s))
  | rem w => exact (scalarOp_keeps .. : OutcomeKeeps _ (execRem w s))
  | min w => exact (scalarOp_keeps .. : OutcomeKeeps _ (execMin w s))
  | max w => exact (scalarOp_keeps .. : OutcomeKeeps _ (execMax w s))
  | and w => exact (scalarOp_keeps .. : OutcomeKeeps _ (execAnd w s))
  | or w => exact (scalarOp_keeps .. : OutcomeKeeps _ (execOr w s))
  | xor w => exact (scalarOp_keeps .. : OutcomeKeeps _ (execXor w s))
  | andn w => exact (scalarOp_keeps .. : OutcomeKeeps _ (execAndn w s))
  | shl w => exact (scalarOp_keeps .. : OutcomeKeeps _ (execShl w s))
  | shr w => exact (scalarOp_keeps .. : OutcomeKeeps _ (execShr w s))
  | sar w => exact (scalarOp_keeps .. : OutcomeKeeps _ (execSar w s))
  | rol w => exact (scalarOp_keeps .. : OutcomeKeeps _ (execRol w s))
  | clz w => exact (scalarOp_keeps .. : OutcomeKeeps _ (execClz w s))
  | ctz w => exact (scalarOp_keeps .. : OutcomeKeeps _ (execCtz w s))
  | popc w => exact (scalarOp_keeps .. : OutcomeKeeps _ (execPopc w s))
  | ext w => exact (scalarOp_keeps .. : OutcomeKeeps _ (execExt w s))
  | pand w => exact (predWord_keeps .. : OutcomeKeeps _ (execPand w s))
  | por w => exact (predWord_keeps .. : OutcomeKeeps _ (execPor w s))
  | pxor w => exact (predWord_keeps .. : OutcomeKeeps _ (execPxor w s))
  | pnot w => exact (predWord_keeps .. : OutcomeKeeps _ (execPnot w s))
  | tretRetry w => exact (tretWord_keeps .. : OutcomeKeeps _ (execTretRetry w s))
  | tretNext w => exact (tretWord_keeps .. : OutcomeKeeps _ (execTretNext w s))
  | tretRestart w => exact (tretWord_keeps .. : OutcomeKeeps _ (execTretRestart w s))
  | vadd w => exact (elementWord_keeps .. : OutcomeKeeps _ (execVadd w s))
  | vsub w => exact (elementWord_keeps .. : OutcomeKeeps _ (execVsub w s))
  | vmul w => exact (elementWord_keeps .. : OutcomeKeeps _ (execVmul w s))
  | vmin w => exact (elementWord_keeps .. : OutcomeKeeps _ (execVmin w s))
  | vmax w => exact (elementWord_keeps .. : OutcomeKeeps _ (execVmax w s))
  | vand w => exact (elementWord_keeps .. : OutcomeKeeps _ (execVand w s))
  | vor w => exact (elementWord_keeps .. : OutcomeKeeps _ (execVor w s))
  | vxor w => exact (elementWord_keeps .. : OutcomeKeeps _ (execVxor w s))
  | vshl w => exact (elementWord_keeps .. : OutcomeKeeps _ (execVshl w s))
  | vshr w => exact (elementWord_keeps .. : OutcomeKeeps _ (execVshr w s))
  | vsar w => exact execVsar_keeps ..
  | vdiv w => exact execVdiv_keeps ..
  | vfma w => exact (elementWord_keeps .. : OutcomeKeeps _ (execVfma w s))
  | vfms w => exact (elementWord_keeps .. : OutcomeKeeps _ (execVfms w s))
  | vabs w => exact (elementWord_keeps .. : OutcomeKeeps _ (execVabs w s))
  | vneg w => exact (elementWord_keeps .. : OutcomeKeeps _ (execVneg w s))
  | vrcp w => exact (elementWord_keeps .. : OutcomeKeeps _ (execVrcp w s))
  | vsqrt w => exact (elementWord_keeps .. : OutcomeKeeps _ (execVsqrt w s))
  | vrsq w => exact (elementWord_keeps .. : OutcomeKeeps _ (execVrsq w s))
  | vexp2 w => exact (elementWord_keeps .. : OutcomeKeeps _ (execVexp2 w s))
  | vlog2 w => exact (elementWord_keeps .. : OutcomeKeeps _ (execVlog2 w s))
  | vtanh w => exact (elementWord_keeps .. : OutcomeKeeps _ (execVtanh w s))
  | vsig w => exact (elementWord_keeps .. : OutcomeKeeps _ (execVsig w s))
  | vclz w => exact (elementWord_keeps .. : OutcomeKeeps _ (execVclz w s))
  | vpopc w => exact (elementWord_keeps .. : OutcomeKeeps _ (execVpopc w s))
  | vmov w => exact (elementWord_keeps .. : OutcomeKeeps _ (execVmov w s))
  | vcmp w => exact (runVector_mgmt _ _ _ (by simp) : OutcomeKeeps _ (execVcmp w s))
  | vbscl w => exact (runVector_mgmt _ _ _ (by simp) : OutcomeKeeps _ (execVbscl w s))
  | vred w => exact (runVector_mgmt _ _ _ (by simp) : OutcomeKeeps _ (execVred w s))
  | vsel w => exact (groupWord_keeps .. : OutcomeKeeps _ (execVsel w s))
  | vcvt w => exact (groupWord_keeps .. : OutcomeKeeps _ (execVcvt w s))
  | vqnt w => exact (groupWord_keeps .. : OutcomeKeeps _ (execVqnt w s))
  | vdqnt w => exact (groupWord_keeps .. : OutcomeKeeps _ (execVdqnt w s))
  | vbcast w => exact (groupWord_keeps .. : OutcomeKeeps _ (execVbcast w s))
  | vld w => exact (vectorLoad_keeps .. : OutcomeKeeps _ (execVld w s))
  | vgath w => exact (vectorLoad_keeps .. : OutcomeKeeps _ (execVgath w s))
  | vst w => exact (vectorStore_keeps .. : OutcomeKeeps _ (execVst w s))
  | vscat w => exact (vectorStore_keeps .. : OutcomeKeeps _ (execVscat w s))
  | vperm w => exact (wholeWord_keeps .. : OutcomeKeeps _ (execVperm w s))
  | vrot w => exact (wholeWord_keeps .. : OutcomeKeeps _ (execVrot w s))
  | vscan w => exact (wholeWord_keeps .. : OutcomeKeeps _ (execVscan w s))
  | engineNop e c => exact execEngineNop_keeps ..
  | loadPlane c => exact execLoadPlane_keeps ..
  | loadsh c => exact execLoadsh_keeps ..
  | switchPlane e c => exact execSwitchPlane_keeps ..
  | abortRegion e c => exact execAbortRegion_keeps ..
  | closePort c => exact execClosePort_keeps ..
  | advancePort c => exact execAdvancePort_keeps ..
  | xcFire c => exact execXcFire_keeps ..
  | deferredIntegrityTrap req => exact execDeferredIntegrityTrap_keeps ..
  | gearTakeEffect tile => exact execGearTakeEffect_keeps ..
  | gearTransitionEnd tile => exact execGearTransitionEnd_keeps ..
  | versionOverflow tile thr => exact execVersionOverflow_keeps ..
  | barrierResume tile thr => exact execBarrierResume_keeps ..
  | parkDrop tile thr => exact execParkDrop_keeps ..
  | thermalSample slot temp => exact execThermalSample_keeps ..
  | thermalOverride tile => exact execThermalOverride_keeps ..
  | droopTrip tile => exact execDroopTrip_keeps ..
  | droopStretchEnd tile => exact execDroopStretchEnd_keeps ..
  | droopHalfWidthEnd tile => exact execDroopHalfWidthEnd_keeps ..
  | shadowSetSwap tile => exact execShadowSetSwap_keeps ..
  | revocationDeadline rev => exact execRevocationDeadline_keeps ..
  | slabReady tile => exact execSlabReady_keeps ..
  | timingTrap tile => exact execTimingTrap_keeps ..
  | staleStampMiss tile => exact execStaleStampMiss_keeps ..
  | engineSignal tile eng => exact execEngineSignal_keeps ..
  | loadEnd tile => exact execLoadEnd_keeps ..
  | switchTagArrival tile side => exact execSwitchTagArrival_keeps ..
  | regionRetire tile slot => exact execRegionRetire_keeps ..
  | regionCompletionStore tile slot => exact execRegionCompletionStore_keeps ..
  | readPortDeliver tile port => exact execReadPortDeliver_keeps ..
  | writePortConsume tile port => exact execWritePortConsume_keeps ..
  | entryArrival tile elem inp => exact execEntryArrival_keeps ..
  | cairnRecord tile elem => exact execCairnRecord_keeps ..
  | handlerFire tile elem => exact execHandlerFire_keeps ..
  | defaultReaction tile elem => exact execDefaultReaction_keeps ..
  | finishingReaction tile elem => exact execFinishingReaction_keeps ..
  | reactionEmit tile elem => exact execReactionEmit_keeps ..
  | switchEntryWrite tile elem out => exact execSwitchEntryWrite_keeps ..
  | waitSnapshot tile slot => exact execWaitSnapshot_keeps ..
  | screeLink what => exact execScreeLink_keeps ..
  | trapPresent tile set => exact execTrapPresent_keeps ..
  | poolRefill => exact execPoolRefill_keeps ..
  | timeSlice => exact execTimeSlice_keeps ..
  | launchSelection queue => exact execLaunchSelection_keeps ..
  | launchExpansion launch => exact execLaunchExpansion_keeps ..
  | placement die => exact execPlacement_keeps ..
  | dispatch tile => exact execDispatch_keeps ..
  | placementRetire tile => exact execPlacementRetire_keeps ..
  | launchRetire launch => exact execLaunchRetire_keeps ..
  | walkComplete walk => exact execWalkComplete_keeps ..
  | snapshotComplete graph => exact execSnapshotComplete_keeps ..
  | graphRestore graph => exact execGraphRestore_keeps ..
  | fireEntryDeliver => exact execFireEntryDeliver_keeps ..
  | transferStart engine slot => exact execTransferStart_keeps ..
  | transferComplete chan id => exact execTransferComplete_keeps ..
  | copyTransferStop chan id => exact execCopyTransferStop_keeps ..
  | scTokenPass => exact execScTokenPass_keeps ..
  | hbmScrub line => exact execHbmScrub_keeps ..
  | tileFailure tile => exact execTileFailure_keeps ..
  | dieSchedulerFailure die => exact execDieSchedulerFailure_keeps ..
  | columnControllerFailure slot => exact execColumnControllerFailure_keeps ..
  | gateRefusal slot => exact execGateRefusal_keeps ..
  | dqcfgWrite slot deque value => exact execDqcfgWrite_keeps ..
  | enrglRead tile set => exact execEnrglRead_keeps ..
  | pkenlRead tile set => exact execPkenlRead_keeps ..
  | tailWrite queue value => exact execTailWrite_keeps ..
  | queueBaseWrite queue value => exact execQueueBaseWrite_keeps ..
  | registerWrite addr value => exact execRegisterWrite_keeps ..
  | linkDown => exact execLinkDown_keeps ..
  | flitReceive port flit => exact execFlitReceive_keeps ..
  | portRetrain port => exact execPortRetrain_keeps ..
  | credit port chan count => exact execCredit_keeps ..
  | fabricOpenMessage port chan peer => exact execFabricOpenMessage_keeps ..
  | fabricCloseMessage port chan => exact execFabricCloseMessage_keeps ..
  | fabricResetMessage port => exact execFabricResetMessage_keeps ..
  | fcctlEnable chan value => exact execFcctlEnable_keeps ..
  | fcctlDisable chan value => exact execFcctlDisable_keeps ..
  | appliedAtHome req => exact execAppliedAtHome_keeps ..
  | memoryResponse req => exact execMemoryResponse_keeps ..
  | summitAnswer => exact execSummitAnswer_keeps ..
  | hostMemoryAccess access => exact execHostMemoryAccess_keeps ..
  | linkRetrained => exact execLinkRetrained_keeps ..
  | fabricRetrainEnd port good => exact execFabricRetrainEnd_keeps ..
  | sensorFailure slot => exact execSensorFailure_keeps ..
  | uncorrectableStateError what => exact execUncorrectableStateError_keeps ..
  | wld c => exact (runMe_keeps .. : OutcomeKeeps _ (execWld c s))
  | mma c => exact (runMe_keeps .. : OutcomeKeeps _ (execMma c s))
  | accLd c => exact (runMe_keeps .. : OutcomeKeeps _ (execAccLd c s))
  | accSt c => exact (runMe_keeps .. : OutcomeKeeps _ (execAccSt c s))
  | accClr c => exact (runMe_keeps .. : OutcomeKeeps _ (execAccClr c s))
  | fireRegion e c => exact execFireRegion_keeps ..
  | openPort c => exact execOpenPort_keeps ..
  | mark c => exact execMark_keeps ..
  | move m => exact (moveWord_keeps _ _ _ (by simp) : OutcomeKeeps _ (execMove m s))
  | guardedMove m => exact (moveWord_keeps _ _ _ (by simp) : OutcomeKeeps _ (execGuardedMove m s))
  | scaleMove m => exact (moveWord_keeps _ _ _ (by simp) : OutcomeKeeps _ (execScaleMove m s))
  | aluAdd m => exact (moveWord_keeps _ _ _ (by simp) : OutcomeKeeps _ (execAluAdd m s))
  | aluSub m => exact (moveWord_keeps _ _ _ (by simp) : OutcomeKeeps _ (execAluSub m s))
  | aluMin m => exact (moveWord_keeps _ _ _ (by simp) : OutcomeKeeps _ (execAluMin m s))
  | aluMax m => exact (moveWord_keeps _ _ _ (by simp) : OutcomeKeeps _ (execAluMax m s))
  | aluAnd m => exact (moveWord_keeps _ _ _ (by simp) : OutcomeKeeps _ (execAluAnd m s))
  | aluOr m => exact (moveWord_keeps _ _ _ (by simp) : OutcomeKeeps _ (execAluOr m s))
  | aluXor m => exact (moveWord_keeps _ _ _ (by simp) : OutcomeKeeps _ (execAluXor m s))
  | aluShl m => exact (moveWord_keeps _ _ _ (by simp) : OutcomeKeeps _ (execAluShl m s))
  | aluShr m => exact (moveWord_keeps _ _ _ (by simp) : OutcomeKeeps _ (execAluShr m s))
  | aluSar m => exact (moveWord_keeps _ _ _ (by simp) : OutcomeKeeps _ (execAluSar m s))
  | aluAbs m => exact (moveWord_keeps _ _ _ (by simp) : OutcomeKeeps _ (execAluAbs m s))
  | aluNeg m => exact (moveWord_keeps _ _ _ (by simp) : OutcomeKeeps _ (execAluNeg m s))
  | aluCmpeq m => exact (moveWord_keeps _ _ _ (by simp) : OutcomeKeeps _ (execAluCmpeq m s))
  | aluCmplt m => exact (moveWord_keeps _ _ _ (by simp) : OutcomeKeeps _ (execAluCmplt m s))
  | aluCmple m => exact (moveWord_keeps _ _ _ (by simp) : OutcomeKeeps _ (execAluCmple m s))
  | aluSel m => exact (moveWord_keeps _ _ _ (by simp) : OutcomeKeeps _ (execAluSel m s))
  | aluPass m => exact (moveWord_keeps _ _ _ (by simp) : OutcomeKeeps _ (execAluPass m s))
  | mulMul m => exact (moveWord_keeps _ _ _ (by simp) : OutcomeKeeps _ (execMulMul m s))
  | mulMuls m => exact (moveWord_keeps _ _ _ (by simp) : OutcomeKeeps _ (execMulMuls m s))
  | mulFma m => exact (moveWord_keeps _ _ _ (by simp) : OutcomeKeeps _ (execMulFma m s))
  | mulDiv m => exact (moveWord_keeps _ _ _ (by simp) : OutcomeKeeps _ (execMulDiv m s))
  | sfuRcp m => exact (moveWord_keeps _ _ _ (by simp) : OutcomeKeeps _ (execSfuRcp m s))
  | sfuSqrt m => exact (moveWord_keeps _ _ _ (by simp) : OutcomeKeeps _ (execSfuSqrt m s))
  | sfuRsq m => exact (moveWord_keeps _ _ _ (by simp) : OutcomeKeeps _ (execSfuRsq m s))
  | sfuExp2 m => exact (moveWord_keeps _ _ _ (by simp) : OutcomeKeeps _ (execSfuExp2 m s))
  | sfuLog2 m => exact (moveWord_keeps _ _ _ (by simp) : OutcomeKeeps _ (execSfuLog2 m s))
  | sfuTanh m => exact (moveWord_keeps _ _ _ (by simp) : OutcomeKeeps _ (execSfuTanh m s))
  | sfuSig m => exact (moveWord_keeps _ _ _ (by simp) : OutcomeKeeps _ (execSfuSig m s))
  | sfuLut m => exact (moveWord_keeps _ _ _ (by simp) : OutcomeKeeps _ (execSfuLut m s))
  | cvtCvt m => exact (moveWord_keeps _ _ _ (by simp) : OutcomeKeeps _ (execCvtCvt m s))
  | cvtDeq m => exact (moveWord_keeps _ _ _ (by simp) : OutcomeKeeps _ (execCvtDeq m s))
  | cvtQnt m => exact (moveWord_keeps _ _ _ (by simp) : OutcomeKeeps _ (execCvtQnt m s))
  | redSum m => exact (moveWord_keeps _ _ _ (by simp) : OutcomeKeeps _ (execRedSum m s))
  | redMax m => exact (moveWord_keeps _ _ _ (by simp) : OutcomeKeeps _ (execRedMax m s))
  | redScaleMax m => exact (moveWord_keeps _ _ _ (by simp) : OutcomeKeeps _ (execRedScaleMax m s))
  | redMin m => exact (moveWord_keeps _ _ _ (by simp) : OutcomeKeeps _ (execRedMin m s))
  | redCnt m => exact (moveWord_keeps _ _ _ (by simp) : OutcomeKeeps _ (execRedCnt m s))
  | redSteer m => exact (moveWord_keeps _ _ _ (by simp) : OutcomeKeeps _ (execRedSteer m s))
  | redMerge m => exact (moveWord_keeps _ _ _ (by simp) : OutcomeKeeps _ (execRedMerge m s))
  | redAcc m => exact (moveWord_keeps _ _ _ (by simp) : OutcomeKeeps _ (execRedAcc m s))
  | redFlush m => exact (moveWord_keeps _ _ _ (by simp) : OutcomeKeeps _ (execRedFlush m s))
  | mbLayout | mbSetlimit | mbFeatsel | mbAttest | mbClrenrg | mbErrlog | mbSwap | mbBadop _ | mailboxComplete
  | layoutPhase2 | watchdogReset | packageReset | recoveryWrite _ | partitionFullSwap _ | meterCheck => cases hi

/-- The package's power and management invariant, of the management's fields alone. -/
structure Mgmt.Sound (m : Mgmt) : Prop where
  limit     : 1200 ≤ m.limit ∧ m.limit ≤ 2800
  limitNext : 1200 ≤ m.limitNext ∧ m.limitNext ≤ 2800
  layout    : watts m.layout ≤ m.limit ∧ watts m.layout ≤ m.limitNext
  job       : m.ljState ≠ 0 → m.busy = true ∧ m.ended = false ∧ watts m.staged ≤ m.limit ∧ watts m.staged ≤ m.limitNext
  state     : m.ljState ≤ 2
  leaf      : m.lmsLeaf ≤ 2 ^ 20
  features  : ∀ f, m.featsel = some f → f.toNat < 2 ^ 9
  oneAsk    : (m.swapAsks.filter fun a => a.byHost).length ≤ 1
  ask       : ∀ a ∈ m.swapAsks, a.byHost = true → m.busy = true ∧ m.ended = false ∧ m.ljState = 0

theorem packageInv_iff_sound (s : State) : PackageInv s ↔ (mgmt s).Sound :=
  ⟨fun ⟨h1, h2, h3, h4, h5, h6, h7, h8, h9⟩ => ⟨h1, h2, h3, h4, h5, h6, h7, h8, h9⟩,
   fun ⟨h1, h2, h3, h4, h5, h6, h7, h8, h9⟩ => ⟨h1, h2, h3, h4, h5, h6, h7, h8, h9⟩⟩

/-! ### The mailbox's commands (R386, R387) -/

@[simp] theorem boxBegin_mgmt (s op) : mgmt (boxBegin s op) = { mgmt s with busy := true, ended := false, op := op, stat := 0 } := rfl
@[simp] theorem boxEnd_mgmt (s stat) : mgmt (boxEnd s stat) = { mgmt s with ended := true, stat := stat } := rfl

namespace Mgmt.Sound
variable {m : Mgmt}

theorem not_byHost (h : m.Sound) (hb : m.busy = false ∨ m.ended = true ∨ m.ljState ≠ 0) : ∀ a ∈ m.swapAsks, a.byHost = false := by
  intro a ha
  by_contra hc
  obtain ⟨h1, h2, h3⟩ := h.ask a ha (by simpa using hc)
  simp_all

/-- No layout job runs where the mailbox is free or its command has ended. -/
theorem ljState_eq_zero (h : m.Sound) (hb : m.busy = false ∨ m.ended = true) : m.ljState = 0 := by
  by_contra hc
  obtain ⟨h1, h2, -⟩ := h.job hc
  simp_all

/-- The mailbox's command may change where neither a layout job nor a host's swap waits for it. -/
theorem withBox (h : m.Sound) (hj : m.ljState = 0) (ha : ∀ a ∈ m.swapAsks, a.byHost = false) (b e : Bool) (op stat : Nat) :
    ({ m with busy := b, ended := e, op := op, stat := stat } : Mgmt).Sound :=
  { h with job := fun c => absurd hj c, ask := fun a hm c => by simp [ha a hm] at c }

/-- A command may be taken where the mailbox is free. -/
theorem taken (h : m.Sound) (hb : m.busy = false) (e : Bool) (op stat : Nat) :
    ({ m with busy := true, ended := e, op := op, stat := stat } : Mgmt).Sound :=
  h.withBox (h.ljState_eq_zero (.inl hb)) (h.not_byHost (.inl hb)) _ _ _ _

end Mgmt.Sound

/-! The budgets that the invariant sums are those that the layout's check sums. -/

theorem layoutWatts_eq (e : List (BitVec 64)) : layoutWatts e = ((e.getD 1 0).extractLsb' 0 12).toNat := by
  simp [layoutWatts, bits]

theorem entSlots_eq_zero (e : List (BitVec 64)) : entSlots e = 0 ↔ e.getD 0 0 = 0 :=
  ⟨fun h => BitVec.eq_of_toNat_eq h, fun h => by simp only [entSlots, h]; rfl⟩

theorem sum_map_filter_eq (l : List Nat) (c : Nat → Bool) (f : Nat → Nat) :
    ((l.filter c).map f).sum = (l.map fun n => if c n then f n else 0).sum := by
  induction l with
  | nil => rfl
  | cons n l ih => by_cases h : c n <;> simp [h, ih]

theorem watts_eq_sum (lay : Tab (List (BitVec 64))) : watts lay = ((layoutParts lay).map fun p => layoutWatts (Tab.get [] lay p)).sum := by
  rw [layoutParts, sum_map_filter_eq, watts]
  congr 1
  refine List.map_congr_left fun p _ => ?_
  simp only [← entSlots_eq_zero, layoutWatts_eq]
  split <;> simp_all

theorem watts_le_of_accepted {s : State} {lay : Tab (List (BitVec 64))} (h : layoutRefused s lay = false) :
    watts lay ≤ s.limit ∧ watts lay ≤ s.limitNext := by
  rw [watts_eq_sum]
  simp only [layoutRefused, Bool.or_eq_false_iff, decide_eq_false_iff_not, Nat.not_lt] at h
  obtain ⟨⟨⟨⟨-, hlimit⟩, hnext⟩, -⟩, -⟩ := h
  exact ⟨hlimit, hnext⟩

/-! ### The management's instructions keep the invariant -/

/-- The state that an outcome gives, if it gives one, is sound. -/
def OutcomeSound (o : Host.Outcome State Fault Refusal) : Prop := ∀ t, o = .next t → (mgmt t).Sound

theorem outcomeSound_next {t : State} (h : (mgmt t).Sound) : OutcomeSound (.next t) := fun _ e => by cases e; exact h

theorem outcomeSound_of_keeps {s : State} {o : Host.Outcome State Fault Refusal} (h : (mgmt s).Sound) (ho : OutcomeKeeps (mgmt s) o) :
    OutcomeSound o := fun t e => by
  subst e
  rw [outcomeKeeps_next] at ho
  rwa [ho]

theorem mailboxCommand_sound {s : State} {op : Nat} {eff : State → State} (h : (mgmt s).Sound)
    (he : s.box.busy = false → (mgmt (eff (boxBegin s op))).Sound) : OutcomeSound (mailboxCommand s op eff) := by
  unfold mailboxCommand boxTakes
  split
  · next hb => exact outcomeSound_next (he (by simp_all))
  · exact outcomeSound_next h

variable {s : State}

theorem execMbLayout_sound (h : (mgmt s).Sound) : OutcomeSound (execMbLayout s) := by
  refine mailboxCommand_sound h fun hb => ?_
  dsimp only
  split
  · exact h.taken hb ..
  · next hr =>
    have hw := watts_le_of_accepted (by simpa using hr)
    exact { h.taken hb false 1 0 with
      job := fun _ => ⟨rfl, rfl, hw⟩
      state := Nat.le_succ 1
      ask := fun a ha c => by simp [h.not_byHost (.inl hb) a ha] at c }

theorem execMbSetlimit_sound (h : (mgmt s).Sound) : OutcomeSound (execMbSetlimit s) := by
  refine mailboxCommand_sound h fun hb => ?_
  dsimp only
  split
  · exact h.taken hb ..
  · next hr =>
    simp only [Bool.or_eq_true, decide_eq_true_eq, not_or, Nat.not_lt] at hr
    obtain ⟨⟨hmin, hmax⟩, hw⟩ := hr
    exact { h.taken hb true 2 0 with
      limitNext := ⟨hmin, hmax⟩
      layout := ⟨h.layout.1, (watts_eq_sum s.layout).le.trans hw⟩
      job := fun c => absurd (h.ljState_eq_zero (.inl hb)) c }

theorem execMbFeatsel_sound (h : (mgmt s).Sound) : OutcomeSound (execMbFeatsel s) := by
  refine mailboxCommand_sound h fun hb => ?_
  dsimp only
  split
  · exact h.taken hb ..
  · split
    · exact h.taken hb ..
    · next hf =>
      refine { h.taken hb true 3 0 with features := fun f e => ?_ }
      have : f.toNat / 512 = 0 := by cases e; simpa using hf
      omega

theorem execMbAttest_sound (h : (mgmt s).Sound) : OutcomeSound (execMbAttest s) := by
  refine mailboxCommand_sound h fun hb => ?_
  dsimp only
  split
  · exact h.taken hb ..
  · next hl => exact { h.taken hb true 4 0 with leaf := Nat.lt_of_not_le hl }

theorem execMbClrenrg_sound (h : (mgmt s).Sound) : OutcomeSound (execMbClrenrg s) := by
  refine mailboxCommand_sound h fun hb => ?_
  dsimp only
  split <;> exact h.taken hb ..

theorem execMbErrlog_sound (h : (mgmt s).Sound) : OutcomeSound (execMbErrlog s) :=
  mailboxCommand_sound h fun hb => h.taken hb ..

theorem execMbBadop_sound (op : BitVec 8) (h : (mgmt s).Sound) : OutcomeSound (execMbBadop op s) := by
  unfold execMbBadop
  split
  · exact outcomeSound_next h
  · exact mailboxCommand_sound h fun hb => h.taken hb ..

theorem execMbSwap_sound (h : (mgmt s).Sound) : OutcomeSound (execMbSwap s) := by
  refine mailboxCommand_sound h fun hb => ?_
  dsimp only
  split
  · exact h.taken hb ..
  · split
    · exact h.taken hb ..
    · have hn := h.not_byHost (.inl hb)
      refine { h.taken hb false 7 0 with oneAsk := ?_, ask := fun _ _ _ => ⟨rfl, rfl, h.ljState_eq_zero (.inl hb)⟩ }
      have h0 : ∀ p, ((s.swapAsks.filter p).filter fun a => a.byHost) = [] := fun p => by
        simp only [List.filter_eq_nil_iff, Bool.not_eq_true]
        exact fun a ha => hn a (List.mem_filter.1 ha).1
      show (List.filter _ (List.filter _ s.swapAsks ++ _ ++ _)).length ≤ 1
      rw [List.filter_append, List.filter_append, h0]
      split <;> simp

theorem execMailboxComplete_sound (h : (mgmt s).Sound) : OutcomeSound (execMailboxComplete s) := by
  unfold execMailboxComplete
  split
  · next hb =>
    simp only [Bool.and_eq_true] at hb
    exact outcomeSound_next (h.withBox (h.ljState_eq_zero (.inr hb.2)) (h.not_byHost (.inr (.inl hb.2))) ..)
  · exact outcomeSound_next h

theorem execMeterCheck_sound (h : (mgmt s).Sound) : OutcomeSound (execMeterCheck s) := by
  unfold execMeterCheck
  split
  · exact outcomeSound_next { h with
      limit := h.limitNext, layout := ⟨h.layout.2, h.layout.2⟩
      job := fun c => ⟨(h.job c).1, (h.job c).2.1, (h.job c).2.2.2, (h.job c).2.2.2⟩ }
  · exact outcomeSound_next h

theorem resetPackage_sound (h : (mgmt s).Sound) : (mgmt (resetPackage s)).Sound := by
  have hw : watts [] = 0 := by decide
  constructor
  case leaf => exact h.leaf
  all_goals simp [resetPackage, mgmt, State.reset, hw]

theorem execPackageReset_sound (h : (mgmt s).Sound) : OutcomeSound (execPackageReset s) := outcomeSound_next (resetPackage_sound h)

theorem execRecoveryWrite_sound (req : Recovery) (h : (mgmt s).Sound) : OutcomeSound (execRecoveryWrite req s) := by
  unfold execRecoveryWrite
  split
  · exact outcomeSound_next h
  · split
    · exact outcomeSound_next h
    · exact outcomeSound_next (resetPackage_sound h)

/-! ### Layouts put in force (R387, R403) -/

/-- The management's fields are the same but for the swaps, of which none has come. -/
def SwapsDropped (s t : State) : Prop :=
  (∀ a ∈ t.swapAsks, a ∈ s.swapAsks) ∧ mgmt t = { mgmt s with swapAsks := t.swapAsks, partsOut := t.partsOut }

theorem swapsDropped_of_mgmt {t : State} (h : mgmt t = mgmt s) : SwapsDropped s t := by
  have ha : t.swapAsks = s.swapAsks := congrArg Mgmt.swapAsks h
  exact ⟨fun _ hm => ha ▸ hm, by rw [← h]; rfl⟩

theorem SwapsDropped.trans {t u : State} (h : SwapsDropped s t) (h' : SwapsDropped t u) : SwapsDropped s u :=
  ⟨fun a ha => h.1 a (h'.1 a ha), h'.2.trans (by rw [h.2])⟩

theorem swapsDropped_foldl {α : Type} {f : State → α → State} (h : ∀ s x, SwapsDropped s (f s x)) (l : List α) (s : State) :
    SwapsDropped s (l.foldl f s) :=
  List.foldlRecOn l f (swapsDropped_of_mgmt rfl) fun _ ht x _ => ht.trans (h _ x)

theorem destroyPartition_swapsDropped (s p) : SwapsDropped s (destroyPartition s p) := by
  unfold destroyPartition
  split
  · exact swapsDropped_of_mgmt rfl
  · refine .trans (swapsDropped_of_mgmt ?_) ⟨fun _ ha => (List.mem_filter.1 ha).1, rfl⟩
    simp

theorem createPartition_swapsDropped (s p) : SwapsDropped s (createPartition s p) := by
  unfold createPartition
  dsimp only
  split <;> exact ⟨fun _ ha => ha, rfl⟩

/-- A partition of the staged layout stands: it stays, or it is created. -/
def standPartition (s : State) (p : Nat) : State := if isLive s (p + 1) then updatePartition s p else createPartition s p

theorem standPartition_swapsDropped (s p) : SwapsDropped s (standPartition s p) := by
  unfold standPartition
  split
  · exact swapsDropped_of_mgmt (by simp)
  · exact createPartition_swapsDropped s p

/-- The partitions that go with the staged layout, in the order in which they are destroyed. -/
def gonePartitions (s : State) : List Nat :=
  (List.range 12).filter fun p => isLive s (p + 1) && (partChanges s.layout s.staged p || !(layoutParts s.staged).contains p)

/-- The partitions of the staged layout, those without full swap first. -/
def stagedPartitions (s : State) : List Nat :=
  ((layoutParts s.staged).filter fun p => !entFsw (Tab.get [] s.staged p)) ++ (layoutParts s.staged).filter fun p => entFsw (Tab.get [] s.staged p)

/-- The partitions and virtual functions of the staged layout, before it is the one in force. -/
def placeLayout (s : State) : State :=
  let u := (stagedPartitions s).foldl standPartition ((gonePartitions s).foldl destroyPartition s)
  bindVfs u u.staged

/-- The staged layout put in force. -/
def commitLayout (s : State) : State :=
  { s with layout := s.staged, staged := [], ljState := 0, ljSeq := s.ljSeq + 1, committed := true, boot := .running
           box := { s.box with ended := true } }

theorem applyLayout_eq (s) : applyLayout s = moveFrames (commitLayout (placeLayout s)) := rfl

theorem placeLayout_swapsDropped (s) : SwapsDropped s (placeLayout s) :=
  ((swapsDropped_foldl destroyPartition_swapsDropped _ _).trans (swapsDropped_foldl standPartition_swapsDropped _ _)).trans
    (swapsDropped_of_mgmt (bindVfs_mgmt _ _))

@[simp] theorem commitLayout_mgmt (s) : mgmt (commitLayout s) = { mgmt s with
    layout := s.staged, staged := [], ljState := 0, ljSeq := s.ljSeq + 1, committed := true, ended := true } := rfl

theorem applyLayout_sound (h : (mgmt s).Sound) (hj : s.ljState = 2) : (mgmt (applyLayout s)).Sound := by
  obtain ⟨hasks, hrest⟩ := placeLayout_swapsDropped s
  have hne : s.ljState ≠ 0 := by omega
  have ha : ∀ a ∈ (placeLayout s).swapAsks, a.byHost = false := fun a ha => h.not_byHost (.inr (.inr hne)) a (hasks a ha)
  have hstaged : (placeLayout s).staged = s.staged := congrArg Mgmt.staged hrest
  rw [applyLayout_eq, moveFrames_mgmt, commitLayout_mgmt, hrest, hstaged]
  exact { h with
    layout := (h.job hne).2.2
    job := fun c => absurd rfl c
    state := Nat.zero_le 2
    oneAsk := by
      rw [List.filter_eq_nil_iff.2 (by simpa using ha)]
      exact Nat.zero_le 1
    ask := fun a hm c => by simp [ha a hm] at c }

theorem execLayoutPhase2_sound (h : (mgmt s).Sound) : OutcomeSound (execLayoutPhase2 s) := by
  unfold execLayoutPhase2
  split
  · next hj => exact outcomeSound_next (applyLayout_sound h hj)
  · split
    · next hj =>
      simp only [Bool.and_eq_true, decide_eq_true_eq] at hj
      have hne : s.ljState ≠ 0 := by omega
      exact outcomeSound_next { h with
        job := fun _ => h.job hne
        state := le_rfl
        ask := fun a ha c => absurd (h.ask a ha c).2.2 hne }
    · exact outcomeSound_next h

theorem execWatchdogReset_sound (h : (mgmt s).Sound) : OutcomeSound (execWatchdogReset s) := by
  unfold execWatchdogReset
  split
  · next hj => exact outcomeSound_of_keeps (applyLayout_sound h hj) (by simp)
  · split
    · next hj =>
      refine outcomeSound_next ?_
      rw [tellHost_mgmt]
      exact { h with
        job := fun c => absurd rfl c
        state := Nat.zero_le 2
        ask := fun a ha c => by
          have := (h.ask a ha c).2.2
          simp_all [mgmt] }
    · exact outcomeSound_next h

/-! ### Full swaps -/

/-- A swap that is done takes with it the host's only request, if it is that. -/
theorem askDone_sound {a : SwapAsk} (h : (mgmt s).Sound) (ha : a ∈ s.swapAsks) : (mgmt (askDone s a)).Sound := by
  have hsub : ((s.swapAsks.filter fun x => x != a).filter fun x => x.byHost).length ≤ 1 :=
    (List.filter_sublist.filter _).length_le.trans h.oneAsk
  unfold askDone
  split
  · next hb =>
    obtain ⟨-, -, hj⟩ := h.ask a ha hb
    have hnone : ∀ x ∈ s.swapAsks, x ≠ a → x.byHost = false := by
      intro x hx hne
      by_contra hc
      obtain ⟨y, hy⟩ := List.length_eq_one_iff.1 (le_antisymm h.oneAsk
        (List.length_pos_iff_exists_mem.2 ⟨a, List.mem_filter.2 ⟨ha, hb⟩⟩))
      have hxa : ∀ z ∈ s.swapAsks, z.byHost = true → z = y := fun z hz hzb => by
        have := List.mem_filter.2 ⟨hz, hzb⟩
        rw [show s.swapAsks.filter (fun a => a.byHost) = [y] from hy] at this
        simpa using this
      exact hne ((hxa x hx (by simpa using hc)).trans (hxa a ha hb).symm)
    exact { h with
      job := fun c => absurd hj c
      oneAsk := hsub
      ask := fun x hx c => by
        obtain ⟨h1, h2⟩ := List.mem_filter.1 hx
        simp [hnone x h1 (by simpa using h2)] at c }
  · exact { h with oneAsk := hsub, ask := fun x hx => h.ask x (List.mem_filter.1 hx).1 }

theorem Mgmt.Sound.withPartsOut {m : Mgmt} (h : m.Sound) (o : Tab PartSave) : ({ m with partsOut := o } : Mgmt).Sound := { h with }

@[simp] theorem movePartOut_mgmt (s p b) : mgmt (movePartOut s p b) = { mgmt s with partsOut := (movePartOut s p b).partsOut } := by
  have h : mgmt (((partTiles s p).map fun t => (t, 1024 + 64 * (s.serial + t))).foldl (fun acc x => storeOut acc x.1 x.2)
      { s with serial := s.serial + 256 }) = mgmt s := by simp
  exact congrArg (fun m : Mgmt => { m with partsOut := (movePartOut s p b).partsOut }) h

@[simp] theorem movePartIn_mgmt (s v) : mgmt (movePartIn s v) = { mgmt s with partsOut := Tab.erase s.partsOut v.part } := by
  simp [movePartIn]
  rfl

@[simp] theorem movePartOut_swapAsks (s p b) : (movePartOut s p b).swapAsks = s.swapAsks := congrArg Mgmt.swapAsks (movePartOut_mgmt s p b)

@[simp] theorem movePartIn_swapAsks (s v) : (movePartIn s v).swapAsks = s.swapAsks := congrArg Mgmt.swapAsks (movePartIn_mgmt s v)

theorem swapOutStep_sound {a : SwapAsk} (h : (mgmt s).Sound) (ha : a ∈ s.swapAsks) : (mgmt (swapOutStep s a)).Sound := by
  have hm : mgmt ((partTiles s a.part).foldl haltTile s) = mgmt s := by simp
  unfold swapOutStep
  dsimp only
  split
  · refine askDone_sound ?_ ?_
    · rw [movePartOut_mgmt, hm]
      exact h.withPartsOut _
    · rw [movePartOut_swapAsks, show (List.foldl haltTile s _).swapAsks = s.swapAsks from congrArg Mgmt.swapAsks hm]
      exact ha
  · rwa [hm]

theorem swapInStep_sound {a : SwapAsk} (h : (mgmt s).Sound) (ha : a ∈ s.swapAsks) : (mgmt (swapInStep s a)).Sound := by
  unfold swapInStep
  split
  · split
    · next v _ _ =>
      refine askDone_sound ?_ ?_
      · rw [movePartIn_mgmt]
        exact h.withPartsOut _
      · rwa [movePartIn_swapAsks]
    · exact h
  · exact askDone_sound h ha

/-- A swap of the rotation is not the host's. -/
theorem rotation_byHost {p : Nat} {a : SwapAsk} (h : rotation s p = some a) : a.byHost = false := by
  unfold rotation at h
  dsimp only at h
  (repeat' split at h) <;> cases h <;> rfl

theorem execPartitionFullSwap_sound (part : Nat) (h : (mgmt s).Sound) : OutcomeSound (execPartitionFullSwap part s) := by
  unfold execPartitionFullSwap
  split
  · exact outcomeSound_next h
  · split
    · next a hf =>
      have ha := List.mem_of_find?_eq_some hf
      refine outcomeSound_next ?_
      split
      · exact swapOutStep_sound h ha
      · exact swapInStep_sound h ha
    · split
      · next a hr =>
        have hb := rotation_byHost hr
        refine outcomeSound_next { h with oneAsk := ?_, ask := fun x hx c => ?_ }
        · show (List.filter _ (s.swapAsks ++ [a])).length ≤ 1
          rw [List.filter_append, List.filter_singleton, hb, Bool.cond_false, List.append_nil]
          exact h.oneAsk
        · obtain hx | hx := List.mem_append.1 hx
          · exact h.ask x hx c
          · simp_all
      · exact outcomeSound_next h

/-! ### The step -/

theorem exec_sound (i : Instr) {s : State} (h : (mgmt s).Sound) : OutcomeSound (exec i s) := by
  cases i with
  | mbLayout => exact execMbLayout_sound h
  | mbSetlimit => exact execMbSetlimit_sound h
  | mbFeatsel => exact execMbFeatsel_sound h
  | mbAttest => exact execMbAttest_sound h
  | mbClrenrg => exact execMbClrenrg_sound h
  | mbErrlog => exact execMbErrlog_sound h
  | mbSwap => exact execMbSwap_sound h
  | mbBadop op => exact execMbBadop_sound op h
  | mailboxComplete => exact execMailboxComplete_sound h
  | layoutPhase2 => exact execLayoutPhase2_sound h
  | watchdogReset => exact execWatchdogReset_sound h
  | packageReset => exact execPackageReset_sound h
  | recoveryWrite req => exact execRecoveryWrite_sound req h
  | partitionFullSwap part => exact execPartitionFullSwap_sound part h
  | meterCheck => exact execMeterCheck_sound h
  | _ => exact outcomeSound_of_keeps h (exec_keeps _ s rfl)

@[simp] theorem afterTurn_mgmt (t was i s) : mgmt (afterTurn t was i s) = mgmt s := by
  unfold afterTurn
  dsimp only
  (repeat' split) <;> simp

@[simp] theorem beginTick_mgmt (s) : mgmt (beginTick s) = mgmt s := by
  simp [beginTick]

theorem turnStep_sound (t : Turn) {s : State} (h : (mgmt s).Sound) : OutcomeSound (turnStep s t) := by
  have hk := turnDoes_keeps s t
  unfold turnStep
  split
  · next h1 =>
    rw [h1, turnDoesKeeps_over] at hk
    exact outcomeSound_next (hk ▸ h)
  · exact fun _ e => by cases e
  · next s1 i h1 =>
    rw [h1, turnDoesKeeps_run] at hk
    have he := exec_sound i (hk ▸ h : (mgmt s1).Sound)
    cases hx : exec i s1 with
    | next u => exact outcomeSound_next (by rw [afterTurn_mgmt]; exact he u hx)
    | fault f => exact fun _ e => by cases e
    | refused r => exact fun _ e => by cases e

theorem step_sound {s : State} (h : (mgmt s).Sound) : OutcomeSound (step s) := by
  unfold step
  split
  · exact outcomeSound_next (by rwa [beginTick_mgmt])
  · next t rest _ => exact turnStep_sound t (by simpa using h)

end Sys2Proof.Machine

namespace Sys2Proof

open Sys2Proof.Machine

/-- Settles O14: the invariant speaks of the management's fields alone, which every instruction but the management's own keeps;
each of the management's own keeps the invariant. -/
theorem everyStepKeepsThePackageInvariant : Obligations.EveryStepKeepsThePackageInvariant := by
  intro s t hs ht
  rw [packageInv_iff_sound] at hs ⊢
  exact step_sound hs t ht

end Sys2Proof
end

section

namespace Sys2Proof.Machine

open Sys2Proof.Claim

/-! ## Mailbox commands and boot (R11, R384, R386, R387, R394, R397, R398, R400 to R403) -/

/-! ### A command taken and performed (R394) -/

theorem mailboxCommand_busy {s : State} (hb : s.box.busy = true) (op : Nat) (eff : State → State) : mailboxCommand s op eff = .next s := by
  simp [mailboxCommand, boxTakes, hb]

/-- What lets the mailbox take a command. -/
def BoxFree (s : State) : Prop := s.box.busy = false ∧ (s.boot = .waiting ∨ s.boot = .running)

theorem mailboxCommand_free {s : State} (h : BoxFree s) (op : Nat) (eff : State → State) :
    mailboxCommand s op eff = .next (eff (boxBegin s op)) := by
  obtain ⟨hb, hs⟩ := h
  simp [mailboxCommand, boxTakes, hb, hs]

@[simp] theorem boxArg_boxBegin (s : State) (op n : Nat) : boxArg (boxBegin s op) n = boxArg s n := rfl

theorem performed_boxEnd {t : State} {op : Nat} (hb : t.box.busy = true) (ho : t.box.op = op) (stat : Nat) : Performed (boxEnd t stat) op stat :=
  ⟨hb, rfl, ho, rfl⟩

theorem exec_busy {s : State} (hb : s.box.busy = true) :
    ∀ i ∈ [Instr.mbLayout, .mbSetlimit, .mbFeatsel, .mbAttest, .mbClrenrg, .mbErrlog, .mbSwap, .mbBadop 0], exec i s = .next s := by
  simp only [List.forall_mem_cons]
  exact ⟨(mailboxCommand_busy hb .. : execMbLayout s = _), (mailboxCommand_busy hb .. : execMbSetlimit s = _),
    (mailboxCommand_busy hb .. : execMbFeatsel s = _), (mailboxCommand_busy hb .. : execMbAttest s = _),
    (mailboxCommand_busy hb .. : execMbClrenrg s = _), (mailboxCommand_busy hb .. : execMbErrlog s = _),
    (mailboxCommand_busy hb .. : execMbSwap s = _), ((if_neg (by decide)).trans (mailboxCommand_busy hb ..) : execMbBadop 0 s = _), by simp⟩

variable {s : State}

theorem layoutRefused_of_sharedSlot {lay : Tab (List (BitVec 64))} {p q : Nat} (hpq : p < q) (hq : q < 12)
    (hs : entSlots (Tab.get [] lay p) &&& entSlots (Tab.get [] lay q) ≠ 0) (hp : entFsw (Tab.get [] lay p) = false)
    (hf : entFsw (Tab.get [] lay q) = false) : layoutRefused s lay = true := by
  have hmem : (p, q) ∈ partPairs (layoutParts lay) := by
    have hp0 : entSlots (Tab.get [] lay p) ≠ 0 := fun e => hs (by simp [e])
    have hq0 : entSlots (Tab.get [] lay q) ≠ 0 := fun e => hs (by simp [e])
    simp [partPairs, layoutParts, hp0, hq0, hpq, hq]
    omega
  by_contra hr
  simp only [layoutRefused, Bool.not_eq_true, Bool.or_eq_false_iff] at hr
  obtain ⟨⟨⟨⟨⟨hpairs, -⟩, -⟩, -⟩, -⟩, -⟩ := hr
  exact List.any_eq_false.1 hpairs (p, q) hmem (by simp [hs, hp, hf])

theorem layoutRefused_of_watts {lay : Tab (List (BitVec 64))}
    (h : s.limit < ((layoutParts lay).map fun p => layoutWatts (Tab.get [] lay p)).sum) : layoutRefused s lay = true := by
  simp only [layoutRefused, h, decide_true, Bool.or_true, Bool.true_or]

theorem execMbLayout_refused (h : BoxFree s) (hr : layoutRefused s (readLayout s (boxArg s 0).toNat) = true) :
    ∃ t, execMbLayout s = .next t ∧ Performed t 1 1 ∧ t.staged = s.staged ∧ t.ljState = s.ljState := by
  refine ⟨boxEnd (boxBegin s 1) 1, (mailboxCommand_free h _ _).trans ?_, performed_boxEnd rfl rfl 1, rfl, rfl⟩
  exact congrArg _ (if_pos hr)

theorem execMbLayout_staged (h : BoxFree s) (hr : layoutRefused s (readLayout s (boxArg s 0).toNat) = false) :
    ∃ t, execMbLayout s = .next t ∧ t.box.busy = true ∧ t.box.ended = false ∧ t.staged = readLayout s (boxArg s 0).toNat ∧ t.ljState = 1 ∧
      t.layout = s.layout := by
  refine ⟨{ boxBegin s 1 with staged := readLayout s (boxArg s 0).toNat, ljState := 1 }, (mailboxCommand_free h _ _).trans ?_,
    rfl, rfl, rfl, rfl, rfl⟩
  exact congrArg _ (if_neg (ne_of_eq_of_ne hr Bool.false_ne_true))

/-- The limit that SETLIMIT asks for, in W. -/
theorem bits_eq_mod (x : Nat) : bits x 11 0 = x % 4096 := by simp [bits]

theorem execMbSetlimit_refused (h : BoxFree s) (hw : (boxArg s 0).toNat % 4096 < 1200 ∨ 2800 < (boxArg s 0).toNat % 4096 ∨
      (boxArg s 0).toNat % 4096 < ((layoutParts s.layout).map fun p => layoutWatts (Tab.get [] s.layout p)).sum) :
    ∃ t, execMbSetlimit s = .next t ∧ Performed t 2 1 ∧ t.limitNext = s.limitNext := by
  refine ⟨boxEnd (boxBegin s 2) 1, (mailboxCommand_free h _ _).trans ?_, performed_boxEnd rfl rfl 1, rfl⟩
  refine congrArg _ (if_pos ?_)
  rw [bits_eq_mod]
  simp only [Bool.or_eq_true, decide_eq_true_eq, or_assoc]
  exact hw

theorem execMbSetlimit_taken (h : BoxFree s) (h0 : 1200 ≤ (boxArg s 0).toNat % 4096) (h1 : (boxArg s 0).toNat % 4096 ≤ 2800)
    (hw : ((layoutParts s.layout).map fun p => layoutWatts (Tab.get [] s.layout p)).sum ≤ (boxArg s 0).toNat % 4096) :
    ∃ t, execMbSetlimit s = .next t ∧ Performed t 2 0 ∧ t.limitNext = (boxArg s 0).toNat % 4096 ∧ t.limit = s.limit := by
  refine ⟨boxEnd { boxBegin s 2 with limitNext := bits (boxArg s 0).toNat 11 0 } 0, (mailboxCommand_free h _ _).trans ?_,
    performed_boxEnd rfl rfl 0, bits_eq_mod _, rfl⟩
  refine congrArg _ (if_neg ?_)
  rw [bits_eq_mod]
  simp only [Bool.or_eq_true, decide_eq_true_eq, not_or, Nat.not_lt]
  exact ⟨⟨h0, h1⟩, hw⟩

theorem execMbFeatsel_locked (h : BoxFree s) (hl : s.featsel.isSome = true ∨ s.committed = true) :
    ∃ t, execMbFeatsel s = .next t ∧ Performed t 3 3 ∧ t.featsel = s.featsel := by
  refine ⟨boxEnd (boxBegin s 3) 3, (mailboxCommand_free h _ _).trans ?_, performed_boxEnd rfl rfl 3, rfl⟩
  exact congrArg _ (if_pos (Bool.or_eq_true_iff.2 hl))

theorem execMbFeatsel_refused (h : BoxFree s) (hf : s.featsel = none) (hc : s.committed = false)
    (hr : (boxArg s 1 ++ boxArg s 0 : BitVec 128) >>> 9 ≠ 0) : ∃ t, execMbFeatsel s = .next t ∧ Performed t 3 1 ∧ t.featsel = none := by
  refine ⟨boxEnd (boxBegin s 3) 1, (mailboxCommand_free h _ _).trans ?_, performed_boxEnd rfl rfl 1, hf⟩
  have hn : (boxArg s 1 ++ boxArg s 0 : BitVec 128).toNat / 512 ≠ 0 := fun e =>
    hr (BitVec.eq_of_toNat_eq (by simpa [Nat.shiftRight_eq_div_pow] using e))
  exact congrArg _ ((if_neg (by simp [boxBegin, hf, hc])).trans (if_pos (bne_iff_ne.2 hn)))

theorem execMbFeatsel_taken (h : BoxFree s) (hf : s.featsel = none) (hc : s.committed = false)
    (hr : (boxArg s 1 ++ boxArg s 0 : BitVec 128) >>> 9 = 0) :
    ∃ t, execMbFeatsel s = .next t ∧ Performed t 3 0 ∧ t.featsel = some (boxArg s 1 ++ boxArg s 0 : BitVec 128) := by
  refine ⟨boxEnd { boxBegin s 3 with featsel := some (boxArg s 1 ++ boxArg s 0 : BitVec 128) } 0, (mailboxCommand_free h _ _).trans ?_,
    performed_boxEnd rfl rfl 0, rfl⟩
  have hn : (boxArg s 1 ++ boxArg s 0 : BitVec 128).toNat / 512 = 0 := by
    simpa [Nat.shiftRight_eq_div_pow] using congrArg BitVec.toNat hr
  exact congrArg _ ((if_neg (by simp [boxBegin, hf, hc])).trans (if_neg (mt bne_iff_ne.1 (not_not.2 hn))))

theorem execMbAttest_exhausted (h : BoxFree s) (hl : 2 ^ 20 ≤ s.lmsLeaf) :
    ∃ t, execMbAttest s = .next t ∧ Performed t 4 4 ∧ t.mem = s.mem ∧ t.lmsLeaf = s.lmsLeaf :=
  ⟨boxEnd (boxBegin s 4) 4, (mailboxCommand_free h _ _).trans (congrArg _ (if_pos hl)), performed_boxEnd rfl rfl 4, rfl, rfl⟩

theorem execMbAttest_reported (h : BoxFree s) (hl : s.lmsLeaf < 2 ^ 20) :
    ∃ t, execMbAttest s = .next t ∧ Performed t 4 0 ∧ t.lmsLeaf = s.lmsLeaf + 1 ∧
      ∀ a < hostBase + (boxArg s 1).toNat, Memory.byte t.mem a = Memory.byte s.mem a :=
  ⟨_, (mailboxCommand_free h _ _).trans (congrArg _ (if_neg (Nat.not_le.2 hl))), performed_boxEnd rfl rfl 0, rfl,
    fun _ ha => Memory.byte_setBytes_other _ _ _ (.inl ha)⟩

theorem execMbClrenrg_cleared (h : BoxFree s) (hn : (boxArg s 0).toNat < 12 ∨ (boxArg s 0).toNat = 15) :
    ∃ t, execMbClrenrg s = .next t ∧ Performed t 5 0 ∧ (meterOf t (boxArg s 0).toNat).accum = 0 ∧
      ∀ m, m ≠ (boxArg s 0).toNat → meterOf t m = meterOf s m := by
  refine ⟨boxEnd { boxBegin s 5 with
    meters := Tab.set s.meters (boxArg s 0).toNat { meterOf s (boxArg s 0).toNat with accum := 0, frac := 0 } } 0,
    (mailboxCommand_free h _ _).trans (congrArg _ (if_pos (Bool.or_eq_true_iff.2 (hn.imp decide_eq_true decide_eq_true)))),
    performed_boxEnd rfl rfl 0, ?_, fun m hm => ?_⟩
  · simp [meterOf, boxEnd]
  · simp [meterOf, boxEnd, Tab.get_set_other _ _ _ hm]

theorem execMbClrenrg_refused (h : BoxFree s) (h0 : 12 ≤ (boxArg s 0).toNat) (h1 : (boxArg s 0).toNat ≠ 15) :
    ∃ t, execMbClrenrg s = .next t ∧ Performed t 5 1 ∧ t.meters = s.meters :=
  ⟨boxEnd (boxBegin s 5) 1, (mailboxCommand_free h _ _).trans (congrArg _ (if_neg (mt Bool.or_eq_true_iff.1
    (not_or.2 ⟨mt of_decide_eq_true (Nat.not_lt.2 h0), mt of_decide_eq_true h1⟩)))),
    performed_boxEnd rfl rfl 1, rfl⟩

theorem execMbErrlog_reported (h : BoxFree s) :
    ∃ t, execMbErrlog s = .next t ∧ Performed t 6 0 ∧ Tab.get 0 t.box.res 1 = BitVec.ofNat 64 s.uncorrected ∧
      Tab.get 0 t.box.res 2 = BitVec.ofNat 64 s.gateBad ∧ Tab.get 0 t.box.res 3 = s.rootEvent := by
  refine ⟨_, mailboxCommand_free h _ _, performed_boxEnd rfl rfl 0, ?_, ?_, ?_⟩ <;>
    simp [boxEnd, boxBegin, freeValue, Tab.get_set]

theorem execMbSwap_refused (h : BoxFree s) (hr : 12 ≤ (boxArg s 0).toNat ∨ entFsw (layoutEntry s (boxArg s 0).toNat) = false ∨
      isLive s ((boxArg s 0).toNat + 1) = false) :
    ∃ t, execMbSwap s = .next t ∧ Performed t 7 1 ∧ t.swapAsks = s.swapAsks := by
  refine ⟨boxEnd (boxBegin s 7) 1, (mailboxCommand_free h _ _).trans (congrArg _ (if_pos ?_)), performed_boxEnd rfl rfl 1, rfl⟩
  have hr' : 12 ≤ (boxArg s 0).toNat ∨ entFsw (layoutEntry (boxBegin s 7) (boxArg s 0).toNat) = false ∨
      isLive (boxBegin s 7) ((boxArg s 0).toNat + 1) = false := hr
  simp only [Bool.or_eq_true, decide_eq_true_eq, Bool.not_eq_true', or_assoc]
  exact hr'.imp_right (Or.imp_right .inl)

/-- What lets SWAP move a partition in the direction asked for. -/
def Swappable (s : State) (p : Nat) (out : Bool) : Prop :=
  p < 12 ∧ entFsw (layoutEntry s p) = true ∧ isLive s (p + 1) = true ∧ (out = false → ∀ q ∈ slotSharers s p, entFsw (layoutEntry s q) = true)

theorem Swappable.not_refused {p : Nat} {out : Bool} (h : Swappable s p out) :
    ¬(12 ≤ p || !entFsw (layoutEntry s p) || !isLive s (p + 1) || (!out && (slotSharers s p).any fun q => !entFsw (layoutEntry s q))) = true := by
  obtain ⟨hp, hf, hl, ho⟩ := h
  cases out <;> simp_all

theorem execMbSwap_there (h : BoxFree s) (hw : Swappable s (boxArg s 0).toNat ((boxArg s 1).getLsbD 0))
    (ho : (Tab.find? s.partsOut (boxArg s 0).toNat).isSome = (boxArg s 1).getLsbD 0) :
    ∃ t, execMbSwap s = .next t ∧ Performed t 7 0 ∧ t.swapAsks = s.swapAsks :=
  ⟨boxEnd (boxBegin s 7) 0, (mailboxCommand_free h _ _).trans (congrArg _ ((if_neg hw.not_refused).trans (if_pos (beq_iff_eq.2 ho)))),
    performed_boxEnd rfl rfl 0, rfl⟩

theorem execMbSwap_asked (h : BoxFree s) (hw : Swappable s (boxArg s 0).toNat ((boxArg s 1).getLsbD 0))
    (ho : (Tab.find? s.partsOut (boxArg s 0).toNat).isSome ≠ (boxArg s 1).getLsbD 0) :
    ∃ t, execMbSwap s = .next t ∧ t.box.busy = true ∧ t.box.ended = false ∧ ⟨(boxArg s 0).toNat, (boxArg s 1).getLsbD 0, true⟩ ∈ t.swapAsks ∧
      ((boxArg s 1).getLsbD 0 = false → ∀ q ∈ slotSharers s (boxArg s 0).toNat, ⟨q, true, false⟩ ∈ t.swapAsks) := by
  refine ⟨_, (mailboxCommand_free h _ _).trans (congrArg _ ((if_neg hw.not_refused).trans (if_neg (mt beq_iff_eq.1 ho)))), rfl, rfl, ?_, ?_⟩
  · exact List.mem_append_right _ (List.mem_singleton.2 rfl)
  · intro hin q hq
    refine List.mem_append_left _ (List.mem_append_right _ ?_)
    rw [if_neg (by simpa using hin)]
    exact List.mem_map_of_mem hq

theorem execMbBadop_refused (h : BoxFree s) {op : BitVec 8} (ho : op.toNat < 1 ∨ 7 < op.toNat) :
    ∃ t, execMbBadop op s = .next t ∧ Performed t op.toNat 2 :=
  ⟨boxEnd (boxBegin s op.toNat) 2, (if_neg (by simp; omega)).trans (mailboxCommand_free h _ _), performed_boxEnd rfl rfl 2⟩

/-! ### A layout put in force (R384, R387) -/

theorem foldl_keeps {α β : Type} (g : State → β) {f : State → α → State} (h : ∀ s x, g (f s x) = g s) (l : List α) (s : State) :
    g (l.foldl f s) = g s :=
  List.foldlRecOn l f (motive := fun t => g t = g s) rfl fun _ ht x _ => (h _ x).trans ht

theorem getCtx_modCtx_other (s : State) {n m : Nat} (f : Ctx → Ctx) (h : m ≠ n) : getCtx (modCtx s n f) m = getCtx s m :=
  Tab.get_set_other _ _ _ h

theorem isLive_set (s : State) (n m : Nat) (c : Ctx) (h : isLive s m = true) : isLive { s with ctxs := Tab.set s.ctxs n c } m = true := by
  unfold isLive
  by_cases e : m = n
  · subst e
    exact congrArg Option.isSome (Tab.find?_set_same ..)
  · exact (congrArg Option.isSome (Tab.find?_set_other _ _ e)).trans h

theorem SwapsDropped.staged {s t : State} (h : SwapsDropped s t) : t.staged = s.staged := congrArg Mgmt.staged h.2
theorem SwapsDropped.ljSeq {s t : State} (h : SwapsDropped s t) : t.ljSeq = s.ljSeq := congrArg Mgmt.ljSeq h.2

/-- A context is live, with the allotments that an entry of a layout gives its partition. -/
def Stands (lay : Tab (List (BitVec 64))) (s : State) (p : Nat) : Prop :=
  isLive s (p + 1) = true ∧ (getCtx s (p + 1)).pwr = layoutWatts (Tab.get [] lay p) * 16000 ∧
    (getCtx s (p + 1)).frm = entFrames (Tab.get [] lay p) ∧ (getCtx s (p + 1)).pceil = entPceil (Tab.get [] lay p)

theorem Stands.of_getCtx {lay : Tab (List (BitVec 64))} {s t : State} {p : Nat} (h : Stands lay s p)
    (hl : isLive s (p + 1) = true → isLive t (p + 1) = true) (hc : getCtx t (p + 1) = getCtx s (p + 1)) : Stands lay t p := by
  obtain ⟨hlive, hrest⟩ := h
  exact ⟨hl hlive, by rwa [hc]⟩

theorem updatePartition_stands {s : State} {p : Nat} (h : isLive s (p + 1) = true) : Stands s.staged (updatePartition s p) p := by
  refine ⟨isLive_set _ _ _ _ h, ?_⟩
  simp [updatePartition]

theorem createPartition_ctxs (s : State) (p : Nat) : (createPartition s p).ctxs = Tab.set s.ctxs (p + 1) (newPartition s s.staged p) := by
  unfold createPartition
  dsimp only
  split <;> rfl

theorem createPartition_stands (s : State) (p : Nat) : Stands s.staged (createPartition s p) p := by
  have hc : getCtx (createPartition s p) (p + 1) = newPartition s s.staged p := by
    rw [getCtx, createPartition_ctxs, Tab.get_set_same]
  refine ⟨?_, ?_⟩
  · rw [isLive, createPartition_ctxs, Tab.find?_set_same]; rfl
  · rw [hc]; exact ⟨rfl, rfl, rfl⟩

theorem standPartition_stands (s : State) (p : Nat) : Stands s.staged (standPartition s p) p := by
  unfold standPartition
  split
  · next h => exact updatePartition_stands h
  · exact createPartition_stands s p

theorem standPartition_ctxs_other (s : State) {p q : Nat} (h : q ≠ p) :
    Tab.find? (standPartition s p).ctxs (q + 1) = Tab.find? s.ctxs (q + 1) := by
  have hne : q + 1 ≠ p + 1 := by omega
  unfold standPartition
  split
  · exact Tab.find?_set_other _ _ hne
  · rw [createPartition_ctxs]; exact Tab.find?_set_other _ _ hne

@[simp] theorem standPartition_staged (s : State) (p : Nat) : (standPartition s p).staged = s.staged :=
  (standPartition_swapsDropped s p).staged

theorem Stands.standPartition {lay : Tab (List (BitVec 64))} {s : State} {p : Nat} (h : Stands lay s p) (hs : s.staged = lay) (q : Nat) :
    Stands lay (standPartition s q) p := by
  by_cases e : p = q
  · subst e hs
    exact standPartition_stands s p
  · have hf := standPartition_ctxs_other s e
    exact h.of_getCtx (fun hl => by rwa [isLive, hf]) (by rw [getCtx, Tab.get, hf]; rfl)

/-- Each partition of a list stands once the list has been gone through. -/
theorem stands_foldl {p : Nat} (l : List Nat) (s : State) (h : p ∈ l) : Stands s.staged (l.foldl standPartition s) p := by
  have stay : ∀ (l : List Nat) (u : State), Stands u.staged u p → Stands u.staged (l.foldl standPartition u) p := by
    intro l
    induction l with
    | nil => exact fun _ hu => hu
    | cons q l ih =>
      intro u hu
      have := ih (standPartition u q) (by rw [standPartition_staged]; exact hu.standPartition rfl q)
      rwa [standPartition_staged] at this
  induction l generalizing s with
  | nil => cases h
  | cons q l ih =>
    rw [List.foldl_cons]
    obtain rfl | hq := List.mem_cons.1 h
    · have := stay l (standPartition s p) (by rw [standPartition_staged]; exact standPartition_stands s p)
      rwa [standPartition_staged] at this
    · have := ih (standPartition s q) hq
      rwa [standPartition_staged] at this

theorem mem_stagedPartitions {s : State} {p : Nat} (hp : p < 12) (hs : entSlots (Tab.get [] s.staged p) ≠ 0) : p ∈ stagedPartitions s := by
  have hm : p ∈ layoutParts s.staged := List.mem_filter.2 ⟨List.mem_range.2 hp, bne_iff_ne.2 hs⟩
  unfold stagedPartitions
  by_cases hf : entFsw (Tab.get [] s.staged p) = true
  · exact List.mem_append_right _ (List.mem_filter.2 ⟨hm, hf⟩)
  · exact List.mem_append_left _ (List.mem_filter.2 ⟨hm, by simpa using hf⟩)

theorem Stands.bindVfs {lay : Tab (List (BitVec 64))} {s : State} {p : Nat} (h : Stands lay s p) (new : Tab (List (BitVec 64))) :
    Stands lay (bindVfs s new) p := h

theorem placeLayout_stands {s : State} {p : Nat} (hp : p < 12) (hs : entSlots (Tab.get [] s.staged p) ≠ 0) : Stands s.staged (placeLayout s) p := by
  have hd := (swapsDropped_foldl destroyPartition_swapsDropped (gonePartitions s) s).staged
  have := stands_foldl (stagedPartitions s) ((gonePartitions s).foldl destroyPartition s) (mem_stagedPartitions hp hs)
  rw [hd] at this
  exact this.bindVfs _

/-! #### Frames that move under the new layout -/

/-- What a move of frames leaves as it was, of what a layout says. -/
structure FramesMoved (s t : State) : Prop where
  vfOwner : t.vfOwner = s.vfOwner
  boot    : t.boot = s.boot
  box     : t.box = s.box
  live    : ∀ n, isLive s n = true → isLive t n = true
  ctx     : ∀ n, (getCtx t n).pwr = (getCtx s n).pwr ∧ (getCtx t n).frm = (getCtx s n).frm ∧ (getCtx t n).pceil = (getCtx s n).pceil

theorem FramesMoved.refl (s : State) : FramesMoved s s := ⟨rfl, rfl, rfl, fun _ => id, fun _ => ⟨rfl, rfl, rfl⟩⟩

theorem FramesMoved.trans {s t u : State} (h : FramesMoved s t) (k : FramesMoved t u) : FramesMoved s u where
  vfOwner := k.vfOwner.trans h.vfOwner
  boot := k.boot.trans h.boot
  box := k.box.trans h.box
  live n hn := k.live n (h.live n hn)
  ctx n := ⟨(k.ctx n).1.trans (h.ctx n).1, (k.ctx n).2.1.trans (h.ctx n).2.1, (k.ctx n).2.2.trans (h.ctx n).2.2⟩

theorem framesMoved_foldl {α : Type} {f : State → α → State} (h : ∀ s x, FramesMoved s (f s x)) (l : List α) (s : State) :
    FramesMoved s (l.foldl f s) :=
  List.foldlRecOn l f (motive := FramesMoved s) (.refl s) fun _ ht x _ => ht.trans (h _ x)

theorem FramesMoved.of_eq {s t : State} (hv : t.vfOwner = s.vfOwner) (hb : t.boot = s.boot) (hx : t.box = s.box) (hc : t.ctxs = s.ctxs) :
    FramesMoved s t := by
  have hg : ∀ n, getCtx t n = getCtx s n := fun n => by rw [getCtx, hc]; rfl
  exact ⟨hv, hb, hx, fun n hn => by rwa [isLive, hc], fun n => by simp [hg]⟩

theorem modCtx_framesMoved (s : State) (n : Nat) {f : Ctx → Ctx} (hf : ∀ c, (f c).pwr = c.pwr ∧ (f c).frm = c.frm ∧ (f c).pceil = c.pceil) :
    FramesMoved s (modCtx s n f) := by
  refine ⟨rfl, rfl, rfl, fun m hm => isLive_set s n m _ hm, fun m => ?_⟩
  by_cases e : m = n
  · subst e
    rw [getCtx_modCtx_same]
    exact hf _
  · rw [getCtx_modCtx_other s f e]
    exact ⟨rfl, rfl, rfl⟩

theorem moveFrame_framesMoved (s : State) (owner page pa : Nat) : FramesMoved s (moveFrame s owner page pa) := by
  unfold moveFrame
  dsimp only
  split
  · exact .refl s
  · split
    · exact .refl s
    · next dst _ =>
      have hcopy : FramesMoved s (copyPage s pa dst) := .of_eq rfl rfl rfl rfl
      have hmod := hcopy.trans (modCtx_framesMoved (copyPage s pa dst) owner (f := fun c => { c with frames := Tab.set c.frames page dst })
        fun _ => ⟨rfl, rfl, rfl⟩)
      exact hmod.trans (.of_eq rfl rfl rfl rfl)

theorem moveFrames_framesMoved (s : State) : FramesMoved s (moveFrames s) := by
  unfold moveFrames
  refine framesMoved_foldl (fun acc c => ?_) _ _
  exact framesMoved_foldl (fun a _ => moveFrame_framesMoved a ..) _ _

/-! #### Virtual functions of no partition -/

/-- The partition of a layout whose range of virtual functions holds one. -/
def vfPart (lay : Tab (List (BitVec 64))) (v : Nat) : Option Nat :=
  (layoutParts lay).find? fun p => entVf0 (Tab.get [] lay p) ≤ v && v < entVf0 (Tab.get [] lay p) + entNvf (Tab.get [] lay p)

/-- A virtual function bound as a layout says. -/
def bindVf (s : State) (lay : Tab (List (BitVec 64))) (t : Tab Nat) (v : Nat) : Tab Nat :=
  match vfPart lay v with
  | some p => if inSubtree s (p + 1) (Tab.get 0 t v) then t else Tab.set t v (p + 1)
  | none => Tab.set t v 0

theorem bindVfs_vfOwner (s : State) (lay : Tab (List (BitVec 64))) :
    (bindVfs s lay).vfOwner = (List.range 128).foldl (bindVf s lay) s.vfOwner := by
  unfold bindVfs
  dsimp only
  exact List.foldl_ext _ _ _ fun _ _ _ => rfl

theorem vfPart_eq_none {lay : Tab (List (BitVec 64))} {v : Nat} (h : ∀ p < 12, entSlots (Tab.get [] lay p) ≠ 0 →
    v < entVf0 (Tab.get [] lay p) ∨ entVf0 (Tab.get [] lay p) + entNvf (Tab.get [] lay p) ≤ v) : vfPart lay v = none := by
  refine List.find?_eq_none.2 fun p hp => ?_
  obtain ⟨hr, hs⟩ := List.mem_filter.1 hp
  have := h p (List.mem_range.1 hr) (bne_iff_ne.1 hs)
  simp only [Bool.and_eq_true, decide_eq_true_eq]
  omega

theorem bindVf_root {s : State} {lay : Tab (List (BitVec 64))} {v : Nat} (hv : vfPart lay v = none) (t : Tab Nat) (u : Nat)
    (ht : v = u ∨ Tab.get 0 t v = 0) : Tab.get 0 (bindVf s lay t u) v = 0 := by
  by_cases e : v = u
  · subst e
    simp [bindVf, hv]
  · have ht0 : Tab.get 0 t v = 0 := ht.resolve_left e
    unfold bindVf
    split
    · split
      · exact ht0
      · rwa [Tab.get_set_other _ _ _ e]
    · rwa [Tab.get_set_other _ _ _ e]

theorem foldl_bindVf_root {s : State} {lay : Tab (List (BitVec 64))} {v : Nat} (hv : vfPart lay v = none) (l : List Nat) (t : Tab Nat)
    (h : v ∈ l ∨ Tab.get 0 t v = 0) : Tab.get 0 (l.foldl (bindVf s lay) t) v = 0 := by
  induction l generalizing t with
  | nil => exact h.resolve_left List.not_mem_nil
  | cons u l ih =>
    refine ih _ ?_
    obtain h | h := h
    · obtain rfl | h := List.mem_cons.1 h
      · exact .inr (bindVf_root hv t v (.inl rfl))
      · exact .inl h
    · exact .inr (bindVf_root hv t u (.inr h))

theorem placeLayout_root {s : State} {v : Nat} (hv : v < 128) (h : ∀ p < 12, entSlots (Tab.get [] s.staged p) ≠ 0 →
    v < entVf0 (Tab.get [] s.staged p) ∨ entVf0 (Tab.get [] s.staged p) + entNvf (Tab.get [] s.staged p) ≤ v) :
    Tab.get 0 (placeLayout s).vfOwner v = 0 := by
  have hstaged := (placeLayout_swapsDropped s).staged
  obtain ⟨u, hu⟩ : ∃ u, placeLayout s = bindVfs u u.staged := ⟨_, rfl⟩
  rw [hu] at hstaged ⊢
  rw [bindVfs_vfOwner]
  exact foldl_bindVf_root ((congrArg (vfPart · v) hstaged).trans (vfPart_eq_none h)) _ _ (.inl (List.mem_range.2 hv))

theorem Stands.commitLayout {lay : Tab (List (BitVec 64))} {s : State} {p : Nat} (h : Stands lay s p) : Stands lay (commitLayout s) p := h

theorem Stands.framesMoved {lay : Tab (List (BitVec 64))} {s t : State} {p : Nat} (h : Stands lay s p) (k : FramesMoved s t) : Stands lay t p := by
  obtain ⟨hlive, hpwr, hfrm, hpceil⟩ := h
  obtain ⟨kpwr, kfrm, kpceil⟩ := k.ctx (p + 1)
  exact ⟨k.live _ hlive, kpwr.trans hpwr, kfrm.trans hfrm, kpceil.trans hpceil⟩

@[simp] theorem commitLayout_vfOwner (s : State) : (commitLayout s).vfOwner = s.vfOwner := rfl

theorem applyLayout_mgmt (s : State) : ∃ asks outs, mgmt (applyLayout s) = { mgmt s with
    layout := s.staged, staged := [], ljState := 0, ljSeq := s.ljSeq + 1, committed := true, ended := true, swapAsks := asks, partsOut := outs } := by
  have hplace := placeLayout_swapsDropped s
  refine ⟨(placeLayout s).swapAsks, (placeLayout s).partsOut, ?_⟩
  rw [applyLayout_eq, moveFrames_mgmt, commitLayout_mgmt, hplace.2, hplace.staged, hplace.ljSeq]

theorem layoutApplied_of_mgmt {s t : State} {asks : List SwapAsk} {outs : Tab PartSave}
    (hm : mgmt t = { mgmt s with
      layout := s.staged, staged := [], ljState := 0, ljSeq := s.ljSeq + 1, committed := true, ended := true, swapAsks := asks, partsOut := outs })
    (hb : t.boot = .running) (hs : ∀ p < 12, entSlots (Tab.get [] s.staged p) ≠ 0 → Stands s.staged t p)
    (hv : ∀ v < 128, (∀ p < 12, entSlots (Tab.get [] s.staged p) ≠ 0 → v < entVf0 (Tab.get [] s.staged p) ∨
      entVf0 (Tab.get [] s.staged p) + entNvf (Tab.get [] s.staged p) ≤ v) → Tab.get 0 t.vfOwner v = 0) : LayoutApplied s t :=
  ⟨congrArg Mgmt.layout hm, congrArg Mgmt.staged hm, congrArg Mgmt.ljState hm, congrArg Mgmt.ljSeq hm, congrArg Mgmt.committed hm, hb, hs, hv⟩

/-- A layout applied is in force. -/
theorem applyLayout_applied (s : State) : LayoutApplied s (applyLayout s) := by
  obtain ⟨asks, outs, hm⟩ := applyLayout_mgmt s
  have hf := moveFrames_framesMoved (commitLayout (placeLayout s))
  rw [← applyLayout_eq] at hf
  refine layoutApplied_of_mgmt hm hf.boot (fun p hp hs => ?_) fun v hv hout => ?_
  · exact (placeLayout_stands hp hs).commitLayout.framesMoved hf
  · rw [hf.vfOwner, commitLayout_vfOwner]
    exact placeLayout_root hv hout

/-! ### The mailbox under a change of layout

Nothing that a change of layout does on the way touches the mailbox. -/

theorem box_foldl {α : Type} {f : State → α → State} (h : ∀ s x, (f s x).box = s.box) (l : List α) (s : State) :
    (l.foldl f s).box = s.box :=
  foldl_keeps State.box h l s

theorem box_foldl_fst {α β : Type} {f : State × β → α → State × β} (h : ∀ a x, (f a x).1.box = a.1.box) (l : List α) (a : State × β) :
    (l.foldl f a).1.box = a.1.box :=
  List.foldlRecOn l f (motive := fun b => b.1.box = a.1.box) rfl fun _ hb x _ => (h _ x).trans hb

@[simp] theorem giveFrame_box (s : State) (owner page : Nat) : (giveFrame s owner page).box = s.box := by
  unfold giveFrame
  split <;> simp

theorem touch_box {fuel : Nat} {s : State} {ctx va : Nat} {needR needW : Bool} {pa : Nat} {u : State}
    (h : touch fuel s ctx va needR needW = some (pa, u)) : u.box = s.box := by
  induction fuel generalizing s ctx va needR needW pa u with
  | zero => cases h
  | succ fuel ih =>
    unfold touch at h
    dsimp only at h
    (repeat' split at h) <;> simp only [reduceCtorEq, Option.some.injEq, Prod.mk.injEq, Option.map_eq_some_iff] at h
    · rw [h.2]
    · obtain ⟨_, _, _, rfl⟩ := h
      simp
    · next h1 =>
      obtain ⟨_, _, _, rfl⟩ := h
      simpa [copyPage, freeValue] using ih h1

@[simp] theorem sysWrite_box (s : State) (ctx va n v : Nat) : (sysWrite s ctx va n v).box = s.box := by
  unfold sysWrite
  split
  · next h =>
    have hb := touch_box h
    exact hb
  · rfl

@[simp] theorem sendNotify_box (s : State) (ctx addr : Nat) (v : BitVec 32) : (sendNotify s ctx addr v).box = s.box := by
  unfold sendNotify
  split
  · next h =>
    split
    · have hb := touch_box h
      exact hb
    · exact sysWrite_box ..
  · rfl

@[simp] theorem putRecord_box (s : State) (ctx ring : Nat) (e r : List (BitVec 64)) : (putRecord s ctx ring e r).box = s.box := by
  have hwords := box_foldl (f := fun acc i => sysWrite acc ctx (recField e 0 55 0 + 32 * (recField e 1 31 0 % 2 ^ recField e 0 63 59) + 8 * i) 8
    (r.getD i 0).toNat) (fun _ _ => sysWrite_box ..) (List.range 4) s
  unfold putRecord
  dsimp only
  split
  · rw [sendNotify_box, sysWrite_box, hwords]
  · rw [sysWrite_box, hwords]

@[simp] theorem modLaunch_box (s : State) (id : Nat) (f : Launch → Launch) : (modLaunch s id f).box = s.box := rfl

@[simp] theorem recordLaunch_box (s : State) (l : Launch) : (recordLaunch s l).box = s.box := by
  unfold recordLaunch
  dsimp only
  (repeat' split) <;> simp

@[simp] theorem signalLaunch_box (s : State) (l : Launch) : (signalLaunch s l).box = s.box := by
  unfold signalLaunch
  dsimp only
  split <;> rfl

@[simp] theorem failLaunch_box (s : State) (launch status cause tile : Nat) : (failLaunch s launch status cause tile).box = s.box := rfl

@[simp] theorem discardSet_box (s : State) (id : Nat) (p : Placement) : (discardSet s id p).box = s.box := by
  unfold discardSet
  split
  · dsimp only
    split <;> rfl
  · rfl

@[simp] theorem endPlacement_box (s : State) (id status cause tile : Nat) : (endPlacement s id status cause tile).box = s.box := by
  unfold endPlacement
  split
  · rfl
  · dsimp only
    split <;> simp

@[simp] theorem retireRevoked_box (s : State) (id : Nat) : (retireRevoked s id).box = s.box := by
  unfold retireRevoked
  dsimp only
  (repeat' split) <;> simp

@[simp] theorem unmapOne_box (s : State) (ctx : Nat) (m : Mapping) : (unmapOne s ctx m).box = s.box := by
  unfold unmapOne
  dsimp only
  rw [modCtx_box, dropTlb]
  split
  · rw [box_foldl fun _ _ => modCtx_box ..]
    (repeat' split) <;> rfl
  · (repeat' split) <;> rfl

@[simp] theorem unmapRange_box (fuel : Nat) (s : State) (ctx va n : Nat) : (unmapRange fuel s ctx va n).1.box = s.box := by
  induction fuel generalizing s ctx va n with
  | zero => rfl
  | succ fuel ih =>
    unfold unmapRange
    dsimp only
    rw [box_foldl_fst]
    intro a x
    simp only [unmapOne_box]
    rw [box_foldl_fst]
    intro a x
    rw [box_foldl_fst]
    intro a x
    exact ih ..

@[simp] theorem giveBack_box (s : State) (issuer lo n : Nat) : (giveBack s issuer lo n).box = s.box :=
  box_foldl (fun _ _ => modCtx_box ..) _ _

@[simp] theorem destroyCtx_box (s : State) (ctx : Nat) : (destroyCtx s ctx).box = s.box := by
  unfold destroyCtx
  dsimp only
  rw [box_foldl fun _ _ => giveBack_box .., box_foldl fun _ _ => unmapRange_box .., box_foldl fun _ _ => retireRevoked_box ..,
    box_foldl fun _ _ => endPlacement_box ..]

@[simp] theorem revokeQueue_box (s : State) (q : Nat) : (revokeQueue s q).box = s.box :=
  box_foldl (f := fun acc n => revokeRecord acc q n) (fun _ _ => rfl) _ _

@[simp] theorem takeObject_box (s : State) (kind n ctx : Nat) : (takeObject s kind n ctx).box = s.box := by
  have hgive : ∀ u, (giveObject u kind n ctx).box = u.box := fun u => by unfold giveObject; split <;> rfl
  unfold takeObject
  rw [hgive]
  split
  · exact revokeQueue_box ..
  all_goals rfl

@[simp] theorem objectsHome_box (s : State) (cs : List Nat) : (objectsHome s cs).box = s.box :=
  box_foldl (fun _ _ => box_foldl (fun _ _ => takeObject_box ..) _ _) _ _

@[simp] theorem destroyPartition_box (s : State) (p : Nat) : (destroyPartition s p).box = s.box := by
  unfold destroyPartition
  split
  · rfl
  · exact (box_foldl (fun _ _ => destroyCtx_box ..) _ _).trans (objectsHome_box ..)

@[simp] theorem standPartition_box (s : State) (p : Nat) : (standPartition s p).box = s.box := by
  unfold standPartition createPartition
  dsimp only
  (repeat' split) <;> rfl

theorem placeLayout_box (s : State) : (placeLayout s).box = s.box := by
  unfold placeLayout
  dsimp only [bindVfs]
  rw [box_foldl fun _ _ => standPartition_box .., box_foldl fun _ _ => destroyPartition_box ..]

theorem applyLayout_box (s : State) : (applyLayout s).box = { s.box with ended := true } := by
  rw [applyLayout_eq, (moveFrames_framesMoved _).box, ← placeLayout_box s]
  rfl

/-! ### Phase 2, resets and recovery -/

theorem execLayoutPhase2_applies {s : State} (h : s.ljState = 2) : execLayoutPhase2 s = .next (applyLayout s) := if_pos h

theorem execLayoutPhase2_commits {s : State} (h : s.ljState = 1)
    (hp : ∀ p < 12, isLive s (p + 1) = false ∨ partChanges s.layout s.staged p = false ∨ partIdle s p = true) :
    execLayoutPhase2 s = .next { s with ljState := 2 } := by
  have hall : (List.range 12).all (fun p => !isLive s (p + 1) || !partChanges s.layout s.staged p || partIdle s p) = true := by
    simpa [or_assoc] using hp
  simp [execLayoutPhase2, h, hall]

theorem execLayoutPhase2_waits {s : State} {p : Nat} (hp : p < 12) (h : s.ljState = 1) (hl : isLive s (p + 1) = true)
    (hc : partChanges s.layout s.staged p = true) (hi : partIdle s p = false) : execLayoutPhase2 s = .next s := by
  have hall : (List.range 12).all (fun p => !isLive s (p + 1) || !partChanges s.layout s.staged p || partIdle s p) = false :=
    List.all_eq_false.2 ⟨p, List.mem_range.2 hp, by simp [hl, hc, hi]⟩
  simp [execLayoutPhase2, h, hall]

theorem layoutApplied_tellHost {s t : State} (h : LayoutApplied s t) : LayoutApplied s (tellHost t) := h

theorem execWatchdogReset_applies {s : State} (h : s.ljState = 2) :
    ∃ t, execWatchdogReset s = .next t ∧ LayoutApplied s t ∧ t.box.told = s.box.told + 1 := by
  refine ⟨tellHost (applyLayout s), if_pos h, layoutApplied_tellHost (applyLayout_applied s), ?_⟩
  show (applyLayout s).box.told + 1 = _
  rw [applyLayout_box]

theorem execWatchdogReset_rollsBack {s : State} (h : s.ljState = 1) :
    ∃ t, execWatchdogReset s = .next t ∧ t.staged = [] ∧ t.ljState = 0 ∧ t.layout = s.layout ∧ t.box.ended = true ∧ t.box.stat = 1 ∧
      t.box.told = s.box.told + 1 :=
  ⟨tellHost (boxEnd { s with staged := [], ljState := 0 } 1), by simp [execWatchdogReset, h], rfl, rfl, rfl, rfl, rfl, rfl⟩

theorem resetPackage_packageReset (s : State) : PackageReset s (resetPackage s) :=
  ⟨rfl, rfl, rfl, rfl, rfl, rfl, rfl, rfl, rfl, rfl, rfl, rfl, rfl, rfl, rfl⟩

theorem execMailboxComplete_completes {s : State} (hb : s.box.busy = true) (he : s.box.ended = true) :
    ∃ t, execMailboxComplete s = .next t ∧ t.box.busy = false ∧ t.box.stat = s.box.stat ∧ t.box.res = s.box.res ∧
      t.box.told = s.box.told + 1 :=
  ⟨_, if_pos (by simp [hb, he]), rfl, rfl, rfl, rfl⟩

theorem execMailboxComplete_waits {s : State} (h : s.box.busy = false ∨ s.box.ended = false) : execMailboxComplete s = .next s :=
  if_neg (by simpa using or_iff_not_imp_left.1 h)

end Sys2Proof.Machine

namespace Sys2Proof

open Sys2Proof.Machine

/-- Settles O59: a lemma for each command of the mailbox, for the layout's two phases, for the resets and for recovery. -/
theorem mailboxCommandsAndBoot : Obligations.MailboxCommandsAndBoot := by
  intro s
  refine ⟨fun i hi hb => exec_busy hb i hi, execMailboxComplete_completes, execMailboxComplete_waits, fun hb hs => ?_,
    fun h => ⟨_, execLayoutPhase2_applies h, congrArg Mailbox.ended (applyLayout_box s), applyLayout_applied s⟩, execLayoutPhase2_commits,
    fun p hp h hl hc hi => execLayoutPhase2_waits hp h hl hc hi, execWatchdogReset_applies, execWatchdogReset_rollsBack,
    ⟨_, rfl, resetPackage_packageReset s⟩, fun h => ⟨fun i => ?_, _, ?_, resetPackage_packageReset s⟩, fun h r => ?_⟩
  · have hf : BoxFree s := ⟨hb, hs⟩
    exact ⟨⟨execMbLayout_refused hf, execMbLayout_staged hf, fun p q => layoutRefused_of_sharedSlot, layoutRefused_of_watts⟩,
      ⟨execMbSetlimit_refused hf, execMbSetlimit_taken hf⟩,
      ⟨execMbFeatsel_locked hf, fun h0 h1 => ⟨execMbFeatsel_refused hf h0 h1, execMbFeatsel_taken hf h0 h1⟩⟩,
      execMbAttest_exhausted hf, fun hl _ => execMbAttest_reported hf hl,
      ⟨execMbClrenrg_cleared hf, execMbClrenrg_refused hf⟩, execMbErrlog_reported hf,
      ⟨execMbSwap_refused hf, fun h0 h1 h2 h3 => ⟨execMbSwap_there hf ⟨h0, h1, h2, h3⟩, execMbSwap_asked hf ⟨h0, h1, h2, h3⟩⟩⟩,
      fun op ho => execMbBadop_refused hf ho⟩
  · show execRecoveryWrite (.write i) s = _
    simp [execRecoveryWrite, h]
  · show execRecoveryWrite .reset s = _
    simp [execRecoveryWrite, h]
  · show execRecoveryWrite r s = _
    simp [execRecoveryWrite, h]

end Sys2Proof
end

section

namespace Sys2Proof.Machine

open Sys2Proof.Claim

/-! ## Failures and partition swaps (R8, R280, R294, R330, R385, R386) -/

/-! ### Tables: what is read after an entry is taken out -/

@[simp] theorem Tab.find?_mapAll {α : Type} (f : Nat → α → α) (t : Tab α) (n : Nat) :
    Tab.find? (Tab.mapAll f t) n = (Tab.find? t n).map (f n) := by
  induction t with
  | nil => rfl
  | cons e t ih =>
    simp only [Tab.mapAll, List.map_cons, Tab.find?] at ih ⊢
    split
    · next h => subst h; rfl
    · exact ih

theorem Tab.mem_of_find? {α : Type} {t : Tab α} {n : Nat} {v : α} (h : Tab.find? t n = some v) : (n, v) ∈ t := by
  induction t with
  | nil => cases h
  | cons e t ih =>
    simp only [Tab.find?] at h
    split at h
    · next hk =>
      cases h
      subst hk
      exact List.mem_cons_self
    · exact List.mem_cons_of_mem _ (ih h)

theorem Tab.le_of_risingFrom {α : Type} {t : Tab α} {a n : Nat} {v : α} (h : Tab.risingFrom a t = true) (hm : (n, v) ∈ t) : a ≤ n := by
  induction t generalizing a with
  | nil => cases hm
  | cons e t ih =>
    simp only [Tab.risingFrom, Bool.and_eq_true, decide_eq_true_eq] at h
    obtain hm | hm := List.mem_cons.1 hm
    · subst hm
      exact h.1
    · have := ih h.2 hm
      omega

/-- In a table of rising keys the listed values are those that are read. -/
theorem Tab.find?_of_mem {α : Type} {t : Tab α} {a n : Nat} {v : α} (h : Tab.risingFrom a t = true) (hm : (n, v) ∈ t) :
    Tab.find? t n = some v := by
  induction t generalizing a with
  | nil => cases hm
  | cons e t ih =>
    simp only [Tab.risingFrom, Bool.and_eq_true, decide_eq_true_eq] at h
    obtain hm | hm := List.mem_cons.1 hm
    · simp [Tab.find?, ← hm]
    · have := Tab.le_of_risingFrom h.2 hm
      rw [Tab.find?, if_neg (by omega)]
      exact ih h.2 hm

theorem Tab.risingFrom_sublist {α : Type} {t u : Tab α} (hs : u.Sublist t) {a : Nat} (h : Tab.risingFrom a t = true) :
    Tab.risingFrom a u = true := by
  induction hs generalizing a with
  | slnil => rfl
  | cons e _ ih =>
    simp only [Tab.risingFrom, Bool.and_eq_true, decide_eq_true_eq] at h
    exact Tab.risingFrom_mono (ih h.2) (by omega)
  | cons_cons e _ ih =>
    simp only [Tab.risingFrom, Bool.and_eq_true] at h ⊢
    exact ⟨h.1, ih h.2⟩

theorem Tab.erase_sublist {α : Type} (t : Tab α) (n : Nat) : (Tab.erase t n).Sublist t := by
  induction t with
  | nil => exact .slnil
  | cons e t ih =>
    simp only [Tab.erase]
    split
    · exact List.sublist_cons_self ..
    · exact ih.cons_cons _

theorem Tab.find?_erase_other {α : Type} (t : Tab α) {n m : Nat} (h : m ≠ n) : Tab.find? (Tab.erase t n) m = Tab.find? t m := by
  induction t with
  | nil => rfl
  | cons e t ih =>
    simp only [Tab.erase]
    split
    · next hk => simp [Tab.find?, ← hk, h]
    · simp [Tab.find?, ih]

theorem Tab.find?_erase_same {α : Type} {t : Tab α} (n : Nat) (h : Tab.wf t = true) : Tab.find? (Tab.erase t n) n = none := by
  have gen : ∀ (t : Tab α) (a : Nat), Tab.risingFrom a t = true → Tab.find? (Tab.erase t n) n = none := by
    intro t
    induction t with
    | nil => exact fun _ _ => rfl
    | cons e t ih =>
      intro a h
      simp only [Tab.risingFrom, Bool.and_eq_true] at h
      simp only [Tab.erase]
      split
      · next hk =>
        refine Option.eq_none_iff_forall_ne_some.2 fun v hv => ?_
        have := Tab.le_of_risingFrom h.2 (Tab.mem_of_find? hv)
        omega
      · next hk => rw [Tab.find?, if_neg hk, ih _ h.2]
  exact gen t 0 h

theorem Tab.find?_filter {α : Type} {t : Tab α} (h : Tab.wf t = true) (f : Nat × α → Bool) (n : Nat) (v : α) :
    Tab.find? (t.filter f) n = some v ↔ Tab.find? t n = some v ∧ f (n, v) = true := by
  constructor
  · intro hv
    obtain ⟨hm, hf⟩ := List.mem_filter.1 (Tab.mem_of_find? hv)
    exact ⟨Tab.find?_of_mem h hm, hf⟩
  · rintro ⟨hv, hf⟩
    exact Tab.find?_of_mem (Tab.risingFrom_sublist List.filter_sublist h) (List.mem_filter.2 ⟨Tab.mem_of_find? hv, hf⟩)

/-! ### Placements that end and launches that fail (R330)

A failure strikes the launches of the placements that end, and spares the others with all their placements. -/

/-- A launch that a failure has struck: TILEFAIL at a tile that is hit, unless it had failed before, and nothing of it waits. -/
def Struck (hit : Nat → Prop) (l x : Launch) : Prop :=
  x.waiting = [] ∧ (l.status = 0 → x.status = 7 ∧ hit x.tile) ∧ (l.status ≠ 0 → x.status = l.status ∧ x.tile = l.tile)

/-- A launch that a failure leaves alone. -/
def Spared (l x : Launch) : Prop :=
  x.status = l.status ∧ x.tile = l.tile ∧ x.waiting = l.waiting ∧ x.dies = l.dies ∧ x.nc = l.nc

variable {hit : Nat → Prop}

theorem Spared.trans {l x y : Launch} (h : Spared l x) (k : Spared x y) : Spared l y := by
  obtain ⟨h1, h2, h3, h4, h5⟩ := h
  obtain ⟨k1, k2, k3, k4, k5⟩ := k
  exact ⟨k1.trans h1, k2.trans h2, k3.trans h3, k4.trans h4, k5.trans h5⟩

theorem Struck.trans {l x y : Launch} (h : Struck hit l x) (k : Struck hit x y) : Struck hit l y := by
  obtain ⟨-, h0, h1⟩ := h
  obtain ⟨kw, k0, k1⟩ := k
  refine ⟨kw, fun hl => ?_, fun hl => ?_⟩
  · obtain ⟨hx, htile⟩ := h0 hl
    obtain ⟨ky, ktile⟩ := k1 (by omega)
    exact ⟨ky.trans hx, by rwa [ktile]⟩
  · obtain ⟨hx, htile⟩ := h1 hl
    obtain ⟨ky, ktile⟩ := k1 (by omega)
    exact ⟨ky.trans hx, ktile.trans htile⟩

theorem Struck.spared {l x y : Launch} (h : Struck hit l x) (k : Spared x y) : Struck hit l y := by
  obtain ⟨hw, h0, h1⟩ := h
  obtain ⟨k1, k2, k3, -, -⟩ := k
  exact ⟨k3.trans hw, fun hl => by rw [k1, k2]; exact h0 hl, fun hl => by rw [k1, k2]; exact h1 hl⟩

theorem Spared.struck {l x y : Launch} (h : Spared l x) (k : Struck hit x y) : Struck hit l y := by
  obtain ⟨h1, h2, -, -, -⟩ := h
  obtain ⟨kw, k0, k1⟩ := k
  rw [h1] at k0 k1
  rw [h2] at k1
  exact ⟨kw, k0, k1⟩

/-- From one state to another, placements only end, and each launch is struck or spared with all its placements. -/
structure Strikes (hit : Nat → Prop) (s t : State) : Prop where
  wf       : Tab.wf t.places = true
  places   : ∀ id p, Tab.find? t.places id = some p → Tab.find? s.places id = some p
  launches : ∀ k l, Tab.find? s.launches k = some l → ∃ x, Tab.find? t.launches k = some x ∧
    (Struck hit l x ∨ Spared l x ∧ ∀ id p, Tab.find? s.places id = some p → p.launch = k → Tab.find? t.places id = some p)

theorem Strikes.refl {s : State} (h : Tab.wf s.places = true) : Strikes hit s s :=
  ⟨h, fun _ _ => id, fun _ l hl => ⟨l, hl, .inr ⟨⟨rfl, rfl, rfl, rfl, rfl⟩, fun _ _ hp _ => hp⟩⟩⟩

theorem Strikes.struck {s t : State} (h : Strikes hit s t) {k : Nat} {l x : Launch} (hx : Tab.find? s.launches k = some x) (hl : Struck hit l x) :
    ∃ y, Tab.find? t.launches k = some y ∧ Struck hit l y := by
  obtain ⟨y, hy, hk | ⟨hk, -⟩⟩ := h.launches k x hx
  · exact ⟨y, hy, hl.trans hk⟩
  · exact ⟨y, hy, hl.spared hk⟩

theorem Strikes.trans {s t u : State} (h : Strikes hit s t) (k : Strikes hit t u) : Strikes hit s u where
  wf := k.wf
  places id p hp := h.places id p (k.places id p hp)
  launches n l hl := by
    obtain ⟨x, hx, hs | ⟨hs, hplaces⟩⟩ := h.launches n l hl
    · obtain ⟨y, hy, hys⟩ := k.struck hx hs
      exact ⟨y, hy, .inl hys⟩
    · obtain ⟨y, hy, ks | ⟨ks, kplaces⟩⟩ := k.launches n x hx
      · exact ⟨y, hy, .inl (hs.struck ks)⟩
      · exact ⟨y, hy, .inr ⟨hs.trans ks, fun id p hp hn => kplaces id p (hplaces id p hp hn) hn⟩⟩

/-- Every launch of the placements of a kind is struck, and none of them stands any more. -/
structure Clears (hit : Nat → Prop) (bad : Nat → Placement → Prop) (s t : State) : Prop where
  strikes : Strikes hit s t
  gone    : ∀ id p, Tab.find? t.places id = some p → ¬bad id p
  fails   : ∀ id p l, Tab.find? s.places id = some p → bad id p → Tab.find? s.launches p.launch = some l →
    ∃ x, Tab.find? t.launches p.launch = some x ∧ Struck hit l x

theorem Clears.congr {bad bad' : Nat → Placement → Prop} {s t : State} (h : Clears hit bad s t)
    (hb : ∀ id p, Tab.find? s.places id = some p → (bad id p ↔ bad' id p)) : Clears hit bad' s t where
  strikes := h.strikes
  gone id p hp := mt (hb id p (h.strikes.places id p hp)).2 (h.gone id p hp)
  fails id p l hp hbad := h.fails id p l hp ((hb id p hp).2 hbad)

theorem Clears.trans {bad bad' : Nat → Placement → Prop} {s t u : State} (h : Clears hit bad s t) (k : Clears hit bad' t u) :
    Clears hit (fun id p => bad id p ∨ bad' id p) s u where
  strikes := h.strikes.trans k.strikes
  gone id p hp := not_or.2 ⟨h.gone id p (k.strikes.places id p hp), k.gone id p hp⟩
  fails id p l hp hbad hl := by
    obtain hbad | hbad := hbad
    · obtain ⟨x, hx, hs⟩ := h.fails id p l hp hbad hl
      exact k.strikes.struck hx hs
    · obtain ⟨x, hx, hs | ⟨hs, hplaces⟩⟩ := h.strikes.launches _ l hl
      · exact k.strikes.struck hx hs
      · obtain ⟨y, hy, ks⟩ := k.fails id p x (hplaces id p hp rfl) hbad hx
        exact ⟨y, hy, hs.struck ks⟩

theorem clears_foldl {α : Type} {f : State → α → State} {bad : α → Nat → Placement → Prop} (l : List α)
    (h : ∀ a ∈ l, ∀ s, Tab.wf s.places = true → Clears hit (bad a) s (f s a)) {s : State} (hs : Tab.wf s.places = true) :
    Clears hit (fun id p => ∃ a ∈ l, bad a id p) s (l.foldl f s) := by
  induction l generalizing s with
  | nil => exact ⟨.refl hs, fun _ _ _ ⟨_, ha, _⟩ => absurd ha List.not_mem_nil, fun _ _ _ _ ⟨_, ha, _⟩ => absurd ha List.not_mem_nil⟩
  | cons a l ih =>
    have ha := h a List.mem_cons_self s hs
    have hl := ih (fun b hb => h b (List.mem_cons_of_mem _ hb)) ha.strikes.wf
    exact (ha.trans hl).congr fun id p _ => by simp

/-! #### The operations that end them -/

@[simp] theorem find?_modLaunch_same (s : State) (n : Nat) (f : Launch → Launch) :
    Tab.find? (modLaunch s n f).launches n = (Tab.find? s.launches n).map f := by
  simp [modLaunch]

theorem find?_modLaunch_other (s : State) {n k : Nat} (f : Launch → Launch) (h : k ≠ n) :
    Tab.find? (modLaunch s n f).launches k = Tab.find? s.launches k := by
  simp [modLaunch, h]

@[simp] theorem modLaunch_places (s : State) (n : Nat) (f : Launch → Launch) : (modLaunch s n f).places = s.places := rfl

theorem failLaunch_same (s : State) (n cause : Nat) {tile : Nat} (ht : hit tile) :
    ∃ f, (∀ l, Struck hit l (f l)) ∧ Tab.find? (failLaunch s n 7 cause tile).launches n = (Tab.find? s.launches n).map f :=
  ⟨_, fun l => ⟨rfl, fun h => by simpa [h] using ht, fun h => by simp [h]⟩, find?_modLaunch_same ..⟩

theorem failLaunch_other (s : State) {n k : Nat} (status cause tile : Nat) (h : k ≠ n) :
    Tab.find? (failLaunch s n status cause tile).launches k = Tab.find? s.launches k :=
  find?_modLaunch_other _ _ h

theorem failLaunch_places {s : State} (h : Tab.wf s.places = true) (n status cause tile id : Nat) (p : Placement) :
    Tab.find? (failLaunch s n status cause tile).places id = some p ↔ Tab.find? s.places id = some p ∧ ¬(p.launch = n ∧ p.going = false) := by
  refine (Tab.find?_filter h _ id p).trans (and_congr_right fun _ => ?_)
  simp [imp_iff_not_or]

theorem failLaunch_strikes {s : State} (h : Tab.wf s.places = true) (n cause : Nat) {tile : Nat} (ht : hit tile) :
    Strikes hit s (failLaunch s n 7 cause tile) where
  wf := Tab.risingFrom_sublist List.filter_sublist h
  places id p hp := ((failLaunch_places h ..).1 hp).1
  launches k l hl := by
    by_cases hk : k = n
    · subst hk
      obtain ⟨f, hf, he⟩ := failLaunch_same s k cause ht
      exact ⟨f l, by rw [he, hl]; rfl, .inl (hf l)⟩
    · refine ⟨l, (failLaunch_other s _ _ _ hk).trans hl, .inr ⟨⟨rfl, rfl, rfl, rfl, rfl⟩, fun id p hp hn => ?_⟩⟩
      exact (failLaunch_places h ..).2 ⟨hp, fun hc => hk (hn.symm.trans hc.1)⟩

/-- The placements and launches stand while a set is discarded. -/
theorem discardSet_places (s : State) (id : Nat) (p : Placement) :
    (discardSet s id p).places = s.places ∧ (discardSet s id p).launches = s.launches := by
  unfold discardSet
  split
  · dsimp only
    split <;> exact ⟨rfl, rfl⟩
  · exact ⟨rfl, rfl⟩

theorem Strikes.of_same {s t u : State} (hp : u.places = s.places) (hl : u.launches = s.launches) (h : Strikes hit u t) : Strikes hit s t :=
  ⟨h.wf, fun id p hi => hp ▸ h.places id p hi, fun k l hk => by
    have := h.launches k l (hl ▸ hk)
    rwa [hp] at this⟩

theorem Struck.self {l x : Launch} (h : Struck hit l x) : Struck hit x x := by
  obtain ⟨hw, h0, h1⟩ := h
  refine ⟨hw, fun hx => absurd hx ?_, fun _ => ⟨rfl, rfl⟩⟩
  by_cases hl : l.status = 0
  · have := (h0 hl).1
    omega
  · rwa [(h1 hl).1]

/-- A running placement that ends, once its launch has been struck. -/
theorem dropPlacement_strikes {s : State} (h : Tab.wf s.places = true) {id : Nat} {p : Placement} (hp : Tab.find? s.places id = some p)
    {f : Launch → Launch} (hf : ∀ l, Spared l (f l)) (hw : ∀ l, Tab.find? s.launches p.launch = some l → Struck hit l l) :
    Strikes hit s (modLaunch { s with places := Tab.erase s.places id } p.launch f) where
  wf := Tab.risingFrom_sublist (Tab.erase_sublist ..) h
  places k q hq := by
    rw [modLaunch_places] at hq
    have hk : k ≠ id := by
      rintro rfl
      rw [Tab.find?_erase_same k h] at hq
      cases hq
    rwa [Tab.find?_erase_other _ hk] at hq
  launches k l hl := by
    by_cases hk : k = p.launch
    · subst hk
      exact ⟨f l, by rw [find?_modLaunch_same, hl]; rfl, .inl ((hw l hl).spared (hf l))⟩
    · refine ⟨l, (find?_modLaunch_other _ _ hk).trans hl, .inr ⟨⟨rfl, rfl, rfl, rfl, rfl⟩, fun i q hq hn => ?_⟩⟩
      have hi : i ≠ id := by
        rintro rfl
        rw [hp] at hq
        cases hq
        exact hk hn.symm
      rw [modLaunch_places]
      rwa [Tab.find?_erase_other _ hi]

theorem endPlacement_clears {s : State} (h : Tab.wf s.places = true) (id cause : Nat) {tile : Nat} (ht : hit tile) :
    Clears hit (fun k _ => k = id) s (endPlacement s id 7 cause tile) := by
  unfold endPlacement
  split
  · next hn =>
    refine ⟨.refl h, fun k p hp hk => ?_, fun k p l hp hk => ?_⟩ <;>
    · subst hk
      rw [hn] at hp
      cases hp
  · next p hp =>
    obtain ⟨hplaces, hlaunches⟩ := discardSet_places s id p
    have fails : ∀ u, u.launches = s.launches → ∀ k q l, Tab.find? s.places k = some q → k = id → Tab.find? s.launches q.launch = some l →
        ∃ x, Tab.find? (failLaunch u p.launch 7 cause tile).launches q.launch = some x ∧ Struck hit l x := by
      rintro u hu k q l hq rfl hl
      rw [hp] at hq
      cases hq
      obtain ⟨f, hf, he⟩ := failLaunch_same u p.launch cause ht
      exact ⟨f l, by rw [he, hu, hl]; rfl, hf l⟩
    split
    · next hg =>
      refine ⟨failLaunch_strikes h _ _ ht, ?_, fails s rfl⟩
      rintro k q hq rfl
      obtain ⟨hq', hne⟩ := (failLaunch_places h ..).1 hq
      rw [hp] at hq'
      cases hq'
      exact hne ⟨rfl, by simpa using hg⟩
    · next hg =>
      have hu : Tab.wf (discardSet s id p).places = true := hplaces ▸ h
      have hfail := failLaunch_strikes hu p.launch cause ht
      have hstill : Tab.find? (failLaunch (discardSet s id p) p.launch 7 cause tile).places id = some p :=
        (failLaunch_places hu ..).2 ⟨hplaces ▸ hp, fun hc => hg (by simpa using hc.2)⟩
      have hdrop := dropPlacement_strikes (hit := hit) hfail.wf hstill (f := fun l => { l with live := l.live - 1 })
        (fun _ => ⟨rfl, rfl, rfl, rfl, rfl⟩) fun x hx => by
          obtain ⟨f, hf, he⟩ := failLaunch_same (discardSet s id p) p.launch cause ht
          obtain ⟨l, -, rfl⟩ := Option.map_eq_some_iff.1 (he.symm.trans hx)
          exact (hf l).self
      refine ⟨.of_same hplaces hlaunches (hfail.trans hdrop), ?_, fun k q l hq hk hl => ?_⟩
      · rintro k q hq rfl
        rw [modLaunch_places, Tab.find?_erase_same k hfail.wf] at hq
        cases hq
      · obtain ⟨x, hx, hs⟩ := fails _ hlaunches k q l hq hk hl
        exact hdrop.struck hx hs

/-! #### Tiles, dies and columns that fail -/

theorem failTile_clears {s : State} (h : Tab.wf s.places = true) {tile : Nat} (ht : hit tile) :
    Clears hit (fun _ p => p.tile = tile) s (failTile s tile) := by
  unfold failTile
  refine (clears_foldl _ (fun id _ u hu => endPlacement_clears hu id 0 ht) h).congr fun id p hp => ?_
  have hmem : (id, p) ∈ s.places := Tab.mem_of_find? hp
  constructor
  · rintro ⟨k, hk, rfl⟩
    obtain ⟨⟨k, q⟩, hq, rfl⟩ := List.mem_map.1 hk
    obtain ⟨hq, hqt⟩ := List.mem_filter.1 hq
    have : q = p := Option.some_inj.1 ((Tab.find?_of_mem h hq).symm.trans hp)
    subst this
    simpa using hqt
  · intro hpt
    exact ⟨id, List.mem_map.2 ⟨(id, p), List.mem_filter.2 ⟨hmem, by simpa using hpt⟩, rfl⟩, rfl⟩

theorem failTiles_clears {s : State} (h : Tab.wf s.places = true) (tiles : List Nat) (ht : ∀ t ∈ tiles, hit t) :
    Clears hit (fun _ p => p.tile ∈ tiles) s (tiles.foldl failTile s) :=
  (clears_foldl tiles (fun t hm _ hu => failTile_clears hu (ht t hm)) h).congr fun _ p _ => by simp

/-- Where every placement on some tiles has ended, the tiles have failed. -/
theorem Clears.tilesFailed {s t : State} (h : Clears hit (fun _ p => hit p.tile) s t) : TilesFailed s t hit := by
  refine ⟨h.gone, fun id p l hp ht hl h0 => ?_⟩
  obtain ⟨x, hx, hw, hs, -⟩ := h.fails id p l hp ht hl
  exact ⟨x, hx, (hs h0).1, (hs h0).2, hw⟩

/-- Later failures at the same tiles change nothing in that. -/
theorem Clears.strikes_trans {bad : Nat → Placement → Prop} {s t u : State} (h : Clears hit bad s t) (k : Strikes hit t u) :
    Clears hit bad s u where
  strikes := h.strikes.trans k
  gone id p hp := h.gone id p (k.places id p hp)
  fails id p l hp hb hl := by
    obtain ⟨x, hx, hs⟩ := h.fails id p l hp hb hl
    exact k.struck hx hs

theorem tilesFailed_of_eq {s u t v : State} (hp : u.places = s.places) (hl : u.launches = s.launches) (kp : v.places = t.places)
    (kl : v.launches = t.launches) (h : TilesFailed u t hit) : TilesFailed s v hit := by
  unfold TilesFailed at h ⊢
  rwa [hp, hl, ← kp, ← kl] at h

/-- The units in service and the serialising token. -/
def service (s : State) : Tab Column × List Nat × Nat × Nat := (s.columns, s.dieOut, s.scToken, s.scDone)

theorem columns_of_service {s t : State} (h : service t = service s) : t.columns = s.columns := congrArg (·.1) h
theorem dieOut_of_service {s t : State} (h : service t = service s) : t.dieOut = s.dieOut := congrArg (·.2.1) h
theorem scToken_of_service {s t : State} (h : service t = service s) : t.scToken = s.scToken := congrArg (·.2.2.1) h
theorem scDone_of_service {s t : State} (h : service t = service s) : t.scDone = s.scDone := congrArg (·.2.2.2) h

theorem discardSet_service (s : State) (id : Nat) (p : Placement) : service (discardSet s id p) = service s := by
  unfold discardSet
  split
  · dsimp only
    split <;> rfl
  · rfl

theorem failLaunch_service (s : State) (n status cause tile : Nat) : service (failLaunch s n status cause tile) = service s := rfl

theorem dropPlacement_service (s : State) (id n : Nat) (f : Launch → Launch) :
    service (modLaunch { s with places := Tab.erase s.places id } n f) = service s := rfl

theorem endPlacement_service (s : State) (id status cause tile : Nat) : service (endPlacement s id status cause tile) = service s := by
  unfold endPlacement
  split
  · rfl
  · split
    · exact failLaunch_service ..
    · rw [dropPlacement_service, failLaunch_service, discardSet_service]

theorem failTile_service (s : State) (tile : Nat) : service (failTile s tile) = service s :=
  foldl_keeps service (fun _ _ => endPlacement_service ..) _ s

theorem failTiles_service (s : State) (tiles : List Nat) : service (tiles.foldl failTile s) = service s :=
  foldl_keeps service failTile_service tiles s

theorem execTileFailure_fails {s : State} {tile : Nat} (ht : tile < 256) (hr : (getTile s tile).removed = false) (h : Tab.wf s.places = true) :
    ∃ t, execTileFailure tile s = .next t ∧ (getTile t tile).removed = true ∧ TilesFailed s t (fun n => n = tile) := by
  refine ⟨modTile (failTile s tile) tile fun t => { t with removed := true }, if_neg (by simp [hr]; omega), ?_, ?_⟩
  · rw [getTile_modTile_same]
  · exact tilesFailed_of_eq rfl rfl rfl rfl (failTile_clears (hit := fun n => n = tile) h rfl).tilesFailed

/-! The launches with placements that wait for a die fail with it. -/

theorem failLaunches_strikes {tile : Nat} (ht : hit tile) (cause : Nat) (ids : List Nat) {s : State} (h : Tab.wf s.places = true) :
    Strikes hit s (ids.foldl (fun acc id => failLaunch acc id 7 cause tile) s) ∧ ∀ k ∈ ids, ∀ l, Tab.find? s.launches k = some l →
      ∃ x, Tab.find? (ids.foldl (fun acc id => failLaunch acc id 7 cause tile) s).launches k = some x ∧ Struck hit l x := by
  induction ids generalizing s with
  | nil => exact ⟨.refl h, fun _ hk => absurd hk List.not_mem_nil⟩
  | cons id ids ih =>
    have hone := failLaunch_strikes h id cause ht
    obtain ⟨hrest, hstruck⟩ := ih hone.wf
    refine ⟨hone.trans hrest, fun k hk l hl => ?_⟩
    obtain rfl | hk := List.mem_cons.1 hk
    · obtain ⟨f, hf, he⟩ := failLaunch_same s k cause ht
      exact hrest.struck (by rw [he, hl]; rfl) (hf l)
    · obtain ⟨x, hx, hs | ⟨hs, -⟩⟩ := hone.launches k l hl
      · exact hrest.struck hx hs
      · obtain ⟨y, hy, ks⟩ := hstruck k hk x hx
        exact ⟨y, hy, hs.struck ks⟩

theorem failWaiting_strikes {s : State} (h : Tab.wf s.places = true) {die : Nat} (hd : hit (die * 64)) : Strikes hit s (failWaiting s die) :=
  (failLaunches_strikes hd 0 _ h).1

theorem failWaiting_struck {s : State} (h : Tab.wf s.places = true) {die k : Nat} (hd : hit (die * 64)) {l : Launch}
    (hl : Tab.find? s.launches k = some l) (hw : ∃ p ∈ l.waiting, handedTo l p = some die) :
    ∃ x, Tab.find? (failWaiting s die).launches k = some x ∧ Struck hit l x := by
  refine (failLaunches_strikes hd 0 _ h).2 k ?_ l hl
  refine List.mem_map.2 ⟨(k, l), List.mem_filter.2 ⟨Tab.mem_of_find? hl, ?_⟩, rfl⟩
  simpa using hw

theorem failWaiting_service (s : State) (die : Nat) : service (failWaiting s die) = service s :=
  foldl_keeps service (f := fun acc id => failLaunch acc id 7 0 (die * 64)) (fun _ _ => failLaunch_service ..) _ s

/-- The tiles of a die (R9). -/
def dieTiles (die : Nat) : List Nat := (List.range 64).map (die * 64 + ·)

theorem mem_dieTiles {die n : Nat} : n ∈ dieTiles die ↔ n / 64 = die := by
  simp only [dieTiles, List.mem_map, List.mem_range]
  constructor
  · rintro ⟨k, hk, rfl⟩
    omega
  · exact fun he => ⟨n % 64, by omega, by omega⟩

/-- A die out of service, with the placements on its tiles ended. -/
def dieFailed (s : State) (die : Nat) : State := (dieTiles die).foldl failTile { s with dieOut := s.dieOut ++ [die] }

theorem execDieSchedulerFailure_eq {s : State} {die : Nat} (hd : die < 4) (hn : die ∉ s.dieOut) :
    execDieSchedulerFailure die s = .next (failWaiting (dieFailed s die) die) := by
  rw [dieFailed, dieTiles, List.foldl_map]
  exact if_neg (by simp [hn]; omega)

theorem execDieSchedulerFailure_fails {s : State} {die : Nat} (hd : die < 4) (hn : die ∉ s.dieOut) (h : Tab.wf s.places = true) :
    ∃ t, execDieSchedulerFailure die s = .next t ∧ t.dieOut = s.dieOut ++ [die] ∧ TilesFailed s t (fun n => n / 64 = die) ∧
      ∀ id l, Tab.find? s.launches id = some l → l.status = 0 → (∃ p ∈ l.waiting, handedTo l p = some die) →
        ∃ x, Tab.find? t.launches id = some x ∧ x.status = 7 ∧ x.waiting = [] := by
  have hlead : die * 64 / 64 = die := Nat.mul_div_cancel _ (by decide)
  have hclear : Clears (fun n => n / 64 = die) (fun _ p => p.tile / 64 = die) { s with dieOut := s.dieOut ++ [die] } (dieFailed s die) :=
    (failTiles_clears (s := { s with dieOut := s.dieOut ++ [die] }) h _ fun _ => mem_dieTiles.1).congr fun _ _ _ => mem_dieTiles
  have hwait := failWaiting_strikes (hit := fun n => n / 64 = die) hclear.strikes.wf hlead
  refine ⟨_, execDieSchedulerFailure_eq hd hn, ?_, tilesFailed_of_eq rfl rfl rfl rfl (hclear.strikes_trans hwait).tilesFailed,
    fun id l hl h0 hw => ?_⟩
  · have hs := (failWaiting_service (dieFailed s die) die).trans (failTiles_service _ (dieTiles die))
    exact dieOut_of_service hs
  · have hstruck : ∃ x, Tab.find? (failWaiting (dieFailed s die) die).launches id = some x ∧ Struck (fun n => n / 64 = die) l x := by
      obtain ⟨x, hx, hs | ⟨hs, -⟩⟩ := hclear.strikes.launches id l hl
      · exact hwait.struck hx hs
      · have ⟨_, _, hw', hd', hn'⟩ := hs
        obtain ⟨y, hy, hys⟩ := failWaiting_struck (hit := fun n => n / 64 = die) hclear.strikes.wf hlead hx
          (by simpa only [handedTo, hw', hd', hn'] using hw)
        exact ⟨y, hy, hs.struck hys⟩
    obtain ⟨x, hx, hw', hs, -⟩ := hstruck
    exact ⟨x, hx, (hs h0).1, hw'⟩

/-! #### Traps

A trap writes the tiles, the contexts and what is reported at the root, and nothing else. -/

/-- What a state holds besides. -/
def OutsideTraps {β : Type} (g : State → β) : Prop :=
  ∀ s tiles ctxs ev box, g { s with tiles := tiles, ctxs := ctxs, rootEvent := ev, box := box } = g s

section
variable {β : Type} {g : State → β} (hg : OutsideTraps g)
include hg

theorem setSet_outside (s : State) (t i : Nat) (c : CtxSet) : g (setSet s t i c) = g s := hg s _ s.ctxs s.rootEvent s.box

theorem arrive_outside {s u : State} {t i : Nat} {r : TrapRec} (h : arrive s t i r = some u) : g u = g s := by
  unfold arrive at h
  dsimp only at h
  split at h
  · cases h
    exact setSet_outside hg ..
  · split at h
    · cases h
    · split at h
      · split at h
        · cases h
          exact setSet_outside hg ..
        · cases h
      · split at h
        · cases h
          exact setSet_outside hg ..
        · split at h
          · cases h
            exact setSet_outside hg ..
          · cases h

theorem stopSets_outside (s : State) (cs : List Nat) : g (stopSets s cs) = g s := hg s _ s.ctxs s.rootEvent s.box

theorem modCtx_outside (s : State) (n : Nat) (f : Ctx → Ctx) : g (modCtx s n f) = g s := hg s s.tiles _ s.rootEvent s.box

theorem reportRoot_outside (s : State) (ev : BitVec 64) : g (reportRoot s ev) = g s := hg s s.tiles s.ctxs _ _

theorem reflect_outside (s : State) (t i : Nat) (r : TrapRec) (fuel x : Nat) : g (reflect s t i r fuel x) = g s := by
  induction fuel generalizing s t i r x with
  | zero => rfl
  | succ fuel ih =>
    unfold reflect
    dsimp only
    split
    · rw [reportRoot_outside hg, stopSets_outside hg, modCtx_outside hg]
    · split
      · rw [reportRoot_outside hg, stopSets_outside hg, modCtx_outside hg]
      · split
        · split
          · split
            · next h => rw [arrive_outside hg h, stopSets_outside hg, modCtx_outside hg]
            · rw [ih, stopSets_outside hg, modCtx_outside hg]
          · rw [ih, stopSets_outside hg, modCtx_outside hg]
        · rw [ih, stopSets_outside hg, modCtx_outside hg]

theorem raiseTrap_outside (s : State) (t i : Nat) (r : TrapRec) : g (raiseTrap s t i r) = g s := by
  unfold raiseTrap
  split
  · next h => exact arrive_outside hg h
  · rw [reflect_outside hg, setSet_outside hg]

theorem scLost_outside (s : State) (r : Req) : g (scLost s r) = g (dropReq s r.id) := by
  unfold scLost
  split
  · rw [raiseTrap_outside hg]
    exact setSet_outside hg ..
  · rfl

end

/-! #### A column controller that fails (R280, R294) -/

theorem mem_foldl_scLost {l : List Req} {s : State} {q : Req} (h : q ∈ (l.foldl scLost s).reqs) : q ∈ s.reqs ∧ ∀ r ∈ l, q.id ≠ r.id := by
  induction l generalizing s with
  | nil => exact ⟨h, fun _ hr => absurd hr List.not_mem_nil⟩
  | cons r l ih =>
    obtain ⟨hq, hl⟩ := ih h
    rw [scLost_outside (g := State.reqs) fun _ _ _ _ _ => rfl] at hq
    obtain ⟨hq, hr⟩ := List.mem_filter.1 hq
    exact ⟨hq, List.forall_mem_cons.2 ⟨by simpa using hr, hl⟩⟩

theorem mem_endPlacement_reqs {s : State} {id status cause tile : Nat} {q : Req} (h : q ∈ (endPlacement s id status cause tile).reqs) :
    q ∈ s.reqs := by
  have hd : ∀ p, q ∈ (discardSet s id p).reqs → q ∈ s.reqs := fun p hq => by
    unfold discardSet at hq
    split at hq
    · dsimp only at hq
      split at hq <;> exact (List.mem_filter.1 hq).1
    · exact hq
  unfold endPlacement at h
  split at h
  · exact h
  · split at h
    · exact h
    · exact hd _ h

theorem mem_failTiles_reqs {tiles : List Nat} {s : State} {q : Req} (h : q ∈ (tiles.foldl failTile s).reqs) : q ∈ s.reqs := by
  have htile : ∀ (s : State) (tile : Nat), q ∈ (failTile s tile).reqs → q ∈ s.reqs := fun s tile =>
    List.foldlRecOn _ _ (motive := fun u : State => q ∈ u.reqs → q ∈ s.reqs) id fun _ hu _ _ hq => hu (mem_endPlacement_reqs hq)
  exact List.foldlRecOn tiles failTile (motive := fun u : State => q ∈ u.reqs → q ∈ s.reqs) id (fun u hu t _ hq => hu (htile u t hq)) h

/-- A node after a number of others is the next in service, or a later one is. -/
theorem nextNode_inService (s : State) (fuel n j : Nat) (hj : j ≤ fuel) (h : outNode s ((n + 1 + j) % 192) = false) :
    outNode s (nextNode s fuel n) = false := by
  induction fuel generalizing n j with
  | zero =>
    obtain rfl : j = 0 := by omega
    exact h
  | succ fuel ih =>
    unfold nextNode
    dsimp only
    split
    · next hout =>
      have hne : j ≠ 0 := by
        rintro rfl
        exact absurd (h.symm.trans hout) Bool.false_ne_true
      refine ih _ (j - 1) (by omega) ?_
      rwa [show ((n + 1) % 192 + 1 + (j - 1)) % 192 = (n + 1 + j) % 192 by omega]
    · next hin => exact Bool.eq_false_of_not_eq_true hin

/-- Only a column's controller can be out of service, so the ring always has a next node. -/
theorem nextNode_ne {s : State} {n : Nat} (h : outNode s n = true) : nextNode s 192 n ≠ n := by
  have hin := nextNode_inService s 192 n (63 - n % 48) (by omega) (by
    have : (n + 1 + (63 - n % 48)) % 192 % 48 = 16 := by omega
    simp [outNode, this])
  intro he
  rw [he, h] at hin
  cases hin

/-- The ring of the serialising token closed around a slot's controller. -/
def closeRing (s : State) (slot : Nat) : State :=
  if s.scToken = slot / 16 * 48 + slot % 16 then
    { s with scToken := nextNode s 192 s.scToken, scDone := 0, scAt := tokenComes s (nextNode s 192 s.scToken) }
  else s

/-- A slot removed from service. -/
def removeSlot (s : State) (slot : Nat) : State := closeRing (modColumn s slot fun c => { c with removed := true }) slot

/-- What a closed ring leaves as it is. -/
theorem removeSlot_same (s : State) (slot : Nat) : (removeSlot s slot).reqs = s.reqs ∧ (removeSlot s slot).places = s.places ∧
    (removeSlot s slot).launches = s.launches ∧ (removeSlot s slot).columns = (modColumn s slot fun c => { c with removed := true }).columns := by
  unfold removeSlot closeRing
  split <;> exact ⟨rfl, rfl, rfl, rfl⟩

theorem closeRing_moves {s : State} {slot : Nat} (h : s.scToken = slot / 16 * 48 + slot % 16) (ho : outNode s s.scToken = true) :
    (closeRing s slot).scToken ≠ s.scToken ∧ (closeRing s slot).scDone = 0 := by
  rw [closeRing, if_pos h]
  exact ⟨nextNode_ne ho, rfl⟩

theorem removeSlot_token_elsewhere {s : State} {slot : Nat} (h : s.scToken ≠ slot / 16 * 48 + slot % 16) :
    (removeSlot s slot).scToken = s.scToken ∧ (removeSlot s slot).scDone = s.scDone := by
  have hring : removeSlot s slot = modColumn s slot fun c => { c with removed := true } := if_neg h
  rw [hring]
  exact ⟨rfl, rfl⟩

theorem removeSlot_token_moves {s : State} {slot : Nat} (h : s.scToken = slot / 16 * 48 + slot % 16) :
    (removeSlot s slot).scToken ≠ s.scToken ∧ (removeSlot s slot).scDone = 0 := by
  refine closeRing_moves (s := modColumn s slot fun c => { c with removed := true }) h ?_
  have h0 : (slot / 16 * 48 + slot % 16) % 48 = slot % 16 := by omega
  have h1 : (slot / 16 * 48 + slot % 16) / 48 = slot / 16 := by omega
  have h2 : slot / 16 * 16 + slot % 16 = slot := by omega
  have h3 : slot % 16 < 16 := by omega
  have hs : (modColumn s slot fun c => { c with removed := true }).scToken = slot / 16 * 48 + slot % 16 := h
  rw [hs]
  simp [outNode, h0, h1, h2, h3, modColumn]

theorem execColumnControllerFailure_eq {s : State} {slot : Nat} (h : slot < 64) (hr : (Tab.get Column.reset s.columns slot).removed = false) :
    execColumnControllerFailure slot s =
      .next ((slotTiles slot).foldl failTile ((scOfSlot s slot).foldl scLost (removeSlot s slot))) := by
  have hq : scOfSlot (removeSlot s slot) slot = scOfSlot s slot := by
    rw [scOfSlot, (removeSlot_same s slot).1]
    rfl
  rw [← hq]
  exact if_neg (by simp [hr]; omega)

theorem execColumnControllerFailure_fails {s : State} {slot : Nat} (h : slot < 64) (hr : (Tab.get Column.reset s.columns slot).removed = false)
    (hs : Tab.wf s.places = true) :
    ∃ t, execColumnControllerFailure slot s = .next t ∧ (Tab.get Column.reset t.columns slot).removed = true ∧
      TilesFailed s t (fun n => n ∈ slotTiles slot) ∧
      (s.scToken ≠ slot / 16 * 48 + slot % 16 → t.scToken = s.scToken ∧ t.scDone = s.scDone) ∧
      (s.scToken = slot / 16 * 48 + slot % 16 → t.scToken ≠ s.scToken ∧ t.scDone = 0) ∧ ∀ r ∈ scOfSlot s slot, r ∉ t.reqs := by
  obtain ⟨-, hplaces, hlaunches, hcolumns⟩ := removeSlot_same s slot
  have lost : ∀ {β : Type} {g : State → β}, OutsideTraps g → (∀ s id, g (dropReq s id) = g s) →
      g ((scOfSlot s slot).foldl scLost (removeSlot s slot)) = g (removeSlot s slot) := fun hg hd =>
    foldl_keeps _ (fun u r => (scLost_outside hg u r).trans (hd u r.id)) _ _
  have lplaces := (lost (g := State.places) (fun _ _ _ _ _ => rfl) fun _ _ => rfl).trans hplaces
  have llaunches := (lost (g := State.launches) (fun _ _ _ _ _ => rfl) fun _ _ => rfl).trans hlaunches
  have lservice := (failTiles_service _ (slotTiles slot)).trans (lost (g := service) (fun _ _ _ _ _ => rfl) fun _ _ => rfl)
  refine ⟨_, execColumnControllerFailure_eq h hr, ?_, ?_, fun hne => ?_, fun he => ?_, fun r hrm hrt => ?_⟩
  · rw [columns_of_service lservice, hcolumns]
    simp [modColumn]
  · exact tilesFailed_of_eq lplaces llaunches rfl rfl (failTiles_clears (by rwa [lplaces]) _ fun _ => id).tilesFailed
  · rw [scToken_of_service lservice, scDone_of_service lservice]
    exact removeSlot_token_elsewhere hne
  · rw [scToken_of_service lservice, scDone_of_service lservice]
    exact removeSlot_token_moves he
  · exact (mem_foldl_scLost (mem_failTiles_reqs hrt)).2 r hrm rfl

/-! ### Errors in a column's state, and refused packets (R280, R385) -/

theorem waitersFail_waitersFailed (s : State) (ops : List ReqOp) (pa : Nat) : WaitersFailed s (waitersFail s ops pa) ops pa := by
  intro r hr hw ho hp
  exact List.mem_map.2 ⟨r, hr, if_pos (by simp [hw, ho, hp])⟩

theorem versionError_fails (s : State) (addr : Nat) :
    ∃ t, execUncorrectableStateError (.versioned addr) s = .next t ∧ t.uncorrected = s.uncorrected + 1 ∧
      (vwordOf t (addr / 8 * 8)).poisoned = true ∧ WaitersFailed s t [.ldv, .stv, .reclaim] (addr / 8 * 8) ∧
      ∀ n, n ≠ addr / 8 * 8 → vwordOf t n = vwordOf s n := by
  refine ⟨_, rfl, rfl, ?_, waitersFail_waitersFailed _ _ _, fun n hn => Tab.get_set_other _ _ _ hn⟩
  exact congrArg VWord.poisoned (Tab.get_set_same ..)

theorem dequeOf_putDeque (s : State) (slot n : Nat) (d : Deque) : dequeOf (putDeque s slot n d) slot n = d := by
  simp [dequeOf, putDeque, modColumn]

theorem dequeError_fails (s : State) (slot : Nat) {n : Nat} (hn : n < 16) :
    ∃ t, execUncorrectableStateError (.deque slot n) s = .next t ∧ t.uncorrected = s.uncorrected + 1 ∧
      (dequeOf t slot n).q = [] ∧ (dequeOf t slot n).segs = 0 ∧ (dequeOf t slot n).failed = true ∧
      WaitersFailed s t [.push, .pop, .steal] (locPa (dequeLoc slot n)) := by
  have he : execUncorrectableStateError (.deque slot n) s = .next (dequeError { s with uncorrected := s.uncorrected + 1 } slot n) := by
    rw [execUncorrectableStateError, Nat.mod_eq_of_lt hn]
  have hd := dequeOf_putDeque { s with uncorrected := s.uncorrected + 1 } slot n
    { dequeOf { s with uncorrected := s.uncorrected + 1 } slot n with q := [], segs := 0, failed := true }
  exact ⟨_, he, rfl, congrArg Deque.q hd, congrArg Deque.segs hd, congrArg Deque.failed hd, waitersFail_waitersFailed _ _ _⟩

theorem barrierOf_putBarrier (s : State) (slot n : Nat) (b : Barrier) : barrierOf (putBarrier s slot n b) slot n = b := by
  simp [barrierOf, putBarrier, modColumn]

/-- A thread changed without its status keeps every thread's status. -/
theorem getThread_modThread_st (s : State) (t i n : Nat) {f : Thread → Thread} (hf : ∀ x, (f x).st = x.st) (u j m : Nat) :
    (getThread (modThread s t i n f) u j m).st = (getThread s u j m).st := by
  have hset : ∀ c, (setThread? (modThreadOf c n f) m).st = (setThread? c m).st := fun c => by
    by_cases hm : m = n
    · subst hm
      rw [setThread?_modThreadOf_same, hf]
    · rw [setThread?_modThreadOf_other _ _ hm]
  unfold getThread getSet
  by_cases hu : u = t
  · subst hu
    rw [modThread, modSet, setSet, getTile_modTile_same, getSet]
    by_cases hi : i = 0 <;> by_cases hj : j = 0 <;> simp [putTileSet, tileSet, hi, hj, hset]
  · rw [modThread, modSet, setSet, getTile_modTile_other _ _ hu]

/-- A barrier whose error strikes it, before its waiters trap. -/
def barrierLost (s : State) (slot n : Nat) : State :=
  putBarrier { s with uncorrected := s.uncorrected + 1 } slot n { barrierOf s slot n with bnd := false, arr := 0, parts := [], failed := true }

theorem barrierError_eq (s : State) (slot : Nat) {n : Nat} (hn : n < 16) :
    execUncorrectableStateError (.barrier slot n) s = .next ((barrierOf s slot n).parts.foldl waiterLost (barrierLost s slot n)) := by
  rw [execUncorrectableStateError, Nat.mod_eq_of_lt hn]
  rfl

/-- The participants that do not wait have their arrival dropped, and nothing else. -/
theorem foldl_waiterLost_running (l : List (Nat × Nat × Nat)) (s : State) (h : ∀ p ∈ l, (getThread s p.1 p.2.1 p.2.2).st ≠ .wait) :
    (l.foldl waiterLost s).columns = s.columns ∧ (l.foldl waiterLost s).uncorrected = s.uncorrected := by
  induction l generalizing s with
  | nil => exact ⟨rfl, rfl⟩
  | cons p l ih =>
    have hp : waiterLost s p = modThread s p.1 p.2.1 p.2.2 fun x => { x with fl := { x.fl with arrived := none } } :=
      if_neg (by simpa using h p List.mem_cons_self)
    rw [List.foldl_cons, hp]
    refine ih _ fun q hq => Eq.trans_ne (getThread_modThread_st s p.1 p.2.1 p.2.2 ?_ q.1 q.2.1 q.2.2) (h q (List.mem_cons_of_mem _ hq))
    exact fun _ => rfl

theorem barrierError_running (s : State) (slot : Nat) {n : Nat} (hn : n < 16)
    (h : ∀ p ∈ (barrierOf s slot n).parts, (getThread s p.1 p.2.1 p.2.2).st ≠ .wait) :
    ∃ t, execUncorrectableStateError (.barrier slot n) s = .next t ∧ t.uncorrected = s.uncorrected + 1 ∧
      (barrierOf t slot n).bnd = false ∧ (barrierOf t slot n).parts = [] ∧ (barrierOf t slot n).failed = true := by
  obtain ⟨hc, hu⟩ := foldl_waiterLost_running _ (barrierLost s slot n) h
  refine ⟨_, barrierError_eq s slot hn, hu, ?_⟩
  rw [barrierOf, hc]
  have hb := barrierOf_putBarrier { s with uncorrected := s.uncorrected + 1 } slot n
    { barrierOf s slot n with bnd := false, arr := 0, parts := [], failed := true }
  exact ⟨congrArg Barrier.bnd hb, congrArg Barrier.parts hb, congrArg Barrier.failed hb⟩

theorem barrierError_waiting (s : State) (slot : Nat) {n : Nat} (hn : n < 16) {p : Nat × Nat × Nat} (hp : (barrierOf s slot n).parts = [p])
    (hw : (getThread s p.1 p.2.1 p.2.2).st = .wait) :
    ∃ u r, execUncorrectableStateError (.barrier slot n) s = .next (raiseTrap u p.1 p.2.1 r) ∧ (barrierOf u slot n).bnd = false ∧
      (barrierOf u slot n).failed = true ∧ r.cause = 9 ∧ r.thv = true ∧ r.thr = p.2.2 ∧ r.addr = 0 := by
  have hlost : waiterLost (barrierLost s slot n) p = raiseTrap
      (modThread (barrierLost s slot n) p.1 p.2.1 p.2.2 fun x => { x with fl := { x.fl with arrived := none } }) p.1 p.2.1
      (wordRec 0x09 p.2.2 (fetchPc (getThread (barrierLost s slot n) p.1 p.2.1 p.2.2)) 0 0) := if_pos (beq_iff_eq.2 hw)
  have hb := barrierOf_putBarrier { s with uncorrected := s.uncorrected + 1 } slot n
    { barrierOf s slot n with bnd := false, arr := 0, parts := [], failed := true }
  refine ⟨modThread (barrierLost s slot n) p.1 p.2.1 p.2.2 fun x => { x with fl := { x.fl with arrived := none } },
    wordRec 0x09 p.2.2 (fetchPc (getThread (barrierLost s slot n) p.1 p.2.1 p.2.2)) 0 0, ?_, congrArg Barrier.bnd hb, congrArg Barrier.failed hb, rfl, rfl, rfl, rfl⟩
  rw [barrierError_eq s slot hn, hp, ← hlost]
  rfl

theorem execGateRefusal_counts (s : State) {slot : Nat} (h : slot < 64) :
    ∃ t, execGateRefusal slot s = .next t ∧ t.gateBad = s.gateBad + 1 ∧ t.box.told = s.box.told + 1 ∧ t.mem = s.mem ∧ t.tiles = s.tiles ∧
      t.reqs = s.reqs :=
  ⟨tellHost { s with gateBad := s.gateBad + 1 }, if_pos h, rfl, rfl, rfl, rfl, rfl⟩

/-! ### Partition full swap (R386) -/

theorem haltTile_still {s : State} {n : Nat} (h : (getTile s n).removed = true ∨ tileHalted (getTile s n) = true) : haltTile s n = s :=
  if_pos (by simpa using h.symm)

theorem foldl_haltTile_still (l : List Nat) {s : State} (h : ∀ n ∈ l, (getTile s n).removed = true ∨ tileHalted (getTile s n) = true) :
    l.foldl haltTile s = s := by
  induction l with
  | nil => rfl
  | cons n l ih =>
    rw [List.foldl_cons, haltTile_still (h n List.mem_cons_self)]
    exact ih fun m hm => h m (List.mem_cons_of_mem _ hm)

/-! #### Out -/

/-- Both sets of a tile are empty. -/
def SetsEmpty (s : State) (n : Nat) : Prop := (getSet s n 0).ctx = none ∧ (getSet s n 1).ctx = none

theorem storeOut_tile (s : State) (n u : Nat) : SetsEmpty (storeOut s n u) n := by
  have ht : getTile (storeOut s n u) n = { withStores (getTile s n) Tile.reset with
      clk := ⟨clockTsc (getTile s n).clk s.dcc, s.dcc, (getTile s n).therm, 0⟩, effL := (getTile s n).therm, trans := none } :=
    getTile_setTile_same ..
  unfold SetsEmpty getSet
  rw [ht]
  exact ⟨rfl, rfl⟩

theorem storeOut_other (s : State) {n u m : Nat} (hn : m ≠ n) (hu : m ≠ u) : getTile (storeOut s n u) m = getTile s m :=
  (getTile_setTile_other _ _ hn).trans (getTile_setTile_other _ _ hu)

theorem SetsEmpty.storeOut {s : State} {m n u : Nat} (h : SetsEmpty s m) (hu : m ≠ u) : SetsEmpty (storeOut s n u) m := by
  by_cases hn : m = n
  · subst hn
    exact storeOut_tile s m u
  · unfold SetsEmpty getSet
    rwa [storeOut_other s hn hu]

theorem foldl_storeOut_setsEmpty (l : List (Nat × Nat)) {s : State} {n : Nat} (hu : ∀ x ∈ l, n ≠ x.2)
    (hn : n ∈ l.map Prod.fst ∨ SetsEmpty s n) : SetsEmpty (l.foldl (fun acc x => storeOut acc x.1 x.2) s) n := by
  induction l generalizing s with
  | nil => exact hn.resolve_left List.not_mem_nil
  | cons x l ih =>
    refine ih (fun y hy => hu y (List.mem_cons_of_mem _ hy)) ?_
    obtain hn | hn := hn
    · obtain rfl | hn := List.mem_cons.1 hn
      · exact .inr (storeOut_tile ..)
      · exact .inl hn
    · exact .inr (hn.storeOut (hu x List.mem_cons_self))

theorem partTiles_lt {s : State} {p n : Nat} (h : n ∈ partTiles s p) : n < 256 := by
  obtain ⟨slot, hs, hn⟩ := List.mem_flatMap.1 h
  have hslot : slot < 64 := List.mem_range.1 (List.mem_filter.1 hs).1
  simp only [slotTiles, List.mem_cons, List.not_mem_nil, or_false] at hn
  omega

/-- The numbers under which a partition's tiles are kept. -/
def keptTiles (s : State) (p : Nat) : List (Nat × Nat) := (partTiles s p).map fun t => (t, 1024 + 64 * (s.serial + t))

theorem keptTiles_fst (s : State) (p : Nat) : (keptTiles s p).map Prod.fst = partTiles s p := by
  simp [keptTiles, Function.comp_def]

theorem movePartOut_tiles (s : State) (p : Nat) (b : Bool) :
    (movePartOut s p b).tiles = ((keptTiles s p).foldl (fun acc x => storeOut acc x.1 x.2) { s with serial := s.serial + 256 }).tiles := rfl

theorem movePartOut_setsEmpty (s : State) {p n : Nat} (b : Bool) (hn : n ∈ partTiles s p) : SetsEmpty (movePartOut s p b) n := by
  have h : SetsEmpty ((keptTiles s p).foldl (fun acc x => storeOut acc x.1 x.2) { s with serial := s.serial + 256 }) n := by
    refine foldl_storeOut_setsEmpty _ (fun x hx => ?_) (.inl (by rwa [keptTiles_fst]))
    obtain ⟨t, -, rfl⟩ := List.mem_map.1 hx
    have := partTiles_lt hn
    omega
  unfold SetsEmpty getSet getTile at h ⊢
  rwa [movePartOut_tiles]

/-! #### A swap that is done -/

theorem mem_askDone (s : State) (a : SwapAsk) : a ∉ (askDone s a).swapAsks := by
  unfold askDone
  dsimp only
  split <;> exact fun h => by simpa using (List.mem_filter.1 h).2

theorem askDone_box (s : State) {a : SwapAsk} (h : a.byHost = true) : (askDone s a).box.ended = true ∧ (askDone s a).box.stat = 0 := by
  rw [askDone, if_pos h]
  exact ⟨rfl, rfl⟩

theorem askDone_same (s : State) (a : SwapAsk) : (askDone s a).tiles = s.tiles ∧ (askDone s a).partsOut = s.partsOut := by
  unfold askDone
  dsimp only
  split <;> exact ⟨rfl, rfl⟩

theorem getSet_of_tiles {s t : State} (h : t.tiles = s.tiles) (n i : Nat) : getSet t n i = getSet s n i := by
  rw [getSet, getTile, h]
  rfl

theorem swapOutStep_done {s : State} {a : SwapAsk}
    (h : ∀ n ∈ partTiles s a.part, (getTile s n).removed = true ∨ tileHalted (getTile s n) = true) :
    swapOutStep s a = askDone (movePartOut s a.part a.byHost) a := by
  rw [swapOutStep, foldl_haltTile_still _ h]
  refine if_pos (List.all_eq_true.2 fun n hn => ?_)
  simpa using (h n hn).symm

theorem swapOutStep_moves {s : State} {a : SwapAsk}
    (h : ∀ n ∈ partTiles s a.part, (getTile s n).removed = true ∨ tileHalted (getTile s n) = true) :
    ∃ v, Tab.find? (swapOutStep s a).partsOut a.part = some v ∧ v.byHost = a.byHost ∧ v.tiles.map Prod.fst = partTiles s a.part ∧
      a ∉ (swapOutStep s a).swapAsks ∧ (a.byHost = true → (swapOutStep s a).box.ended = true ∧ (swapOutStep s a).box.stat = 0) ∧
      ∀ n ∈ partTiles s a.part, (getSet (swapOutStep s a) n 0).ctx = none ∧ (getSet (swapOutStep s a) n 1).ctx = none := by
  rw [swapOutStep_done h]
  obtain ⟨htiles, hparts⟩ := askDone_same (movePartOut s a.part a.byHost) a
  refine ⟨_, by rw [hparts]; exact Tab.find?_set_same .., rfl, keptTiles_fst s a.part, mem_askDone _ a, askDone_box _, fun n hn => ?_⟩
  rw [getSet_of_tiles htiles, getSet_of_tiles htiles]
  exact movePartOut_setsEmpty s a.byHost hn

/-! #### In -/

theorem storeIn_tile (s : State) (n u i : Nat) (hi : i = 0 ∨ i = 1) : (getSet (storeIn s n u) n i).ctx = (getSet s u i).ctx := by
  have hset : ∀ (t : Tile) (f : CtxSet → CtxSet) (hw : Tile) (clk : Clock) (e : Bool), (∀ c, (f c).ctx = c.ctx) →
      (tileSet { withStores hw (modActive t f) with clk := clk, effL := e } i).ctx = (tileSet t i).ctx := by
    intro t f hw clk e hf
    unfold modActive activeSet putTileSet tileSet withStores
    obtain rfl | rfl := hi <;> by_cases ha : t.active = 0 <;> simp [ha, hf]
  unfold getSet
  rw [show getTile (storeIn s n u) n = _ from getTile_setTile_same ..]
  exact hset _ _ _ _ _ fun _ => rfl

theorem storeIn_other (s : State) {n u m : Nat} (hn : m ≠ n) (hu : m ≠ u) : getTile (storeIn s n u) m = getTile s m := by
  refine (getTile_setTile_other _ _ hn).trans ?_
  exact congrArg (Option.getD · Tile.reset) (Tab.find?_erase_other s.tiles hu)

theorem foldl_storeIn_other (l : List (Nat × Nat)) {s : State} {m : Nat} (h : ∀ x ∈ l, m ≠ x.1 ∧ m ≠ x.2) :
    getTile (l.foldl (fun acc x => storeIn acc x.1 x.2) s) m = getTile s m := by
  induction l generalizing s with
  | nil => rfl
  | cons x l ih =>
    obtain ⟨h1, h2⟩ := h x List.mem_cons_self
    exact (ih fun y hy => h y (List.mem_cons_of_mem _ hy)).trans (storeIn_other s h1 h2)

/-- What comes back to each tile is what was kept under its number. -/
theorem foldl_storeIn_ctx (l : List (Nat × Nat)) {s : State} (hd : (l.map Prod.fst ++ l.map Prod.snd).Nodup) {i : Nat} (hi : i = 0 ∨ i = 1) :
    ∀ x ∈ l, (getSet (l.foldl (fun acc x => storeIn acc x.1 x.2) s) x.1 i).ctx = (getSet s x.2 i).ctx := by
  induction l generalizing s with
  | nil => exact fun _ hx => absurd hx List.not_mem_nil
  | cons y l ih =>
    have hsub : (l.map Prod.fst ++ l.map Prod.snd).Sublist ((y :: l).map Prod.fst ++ (y :: l).map Prod.snd) :=
      .append (List.sublist_cons_self ..) (List.sublist_cons_self ..)
    obtain ⟨hfst, hsnd, hdis⟩ := List.nodup_append.1 hd
    have hne : ∀ x ∈ l, x.1 ≠ y.1 ∧ x.2 ≠ y.2 ∧ y.1 ≠ x.2 := fun x hx => by
      have h1 := (List.nodup_cons.1 hfst).1
      have h2 := (List.nodup_cons.1 hsnd).1
      exact ⟨fun e => h1 (e ▸ List.mem_map_of_mem hx), fun e => h2 (e ▸ List.mem_map_of_mem hx),
        hdis _ List.mem_cons_self _ (List.mem_cons_of_mem _ (List.mem_map_of_mem hx))⟩
    intro x hx
    rw [List.foldl_cons]
    obtain rfl | hx := List.mem_cons.1 hx
    · have hrest := foldl_storeIn_other l (s := storeIn s x.1 x.2) (m := x.1) fun z hz => ⟨(hne z hz).1.symm, (hne z hz).2.2⟩
      rw [getSet, hrest]
      exact storeIn_tile s x.1 x.2 i hi
    · have hxy : x.2 ≠ y.1 := (hne x hx).2.2.symm
      rw [ih (hd.sublist hsub) x hx, getSet, storeIn_other s hxy (hne x hx).2.1]
      rfl

theorem movePartIn_ctx (s : State) {v : PartSave} (hd : (v.tiles.map Prod.fst ++ v.tiles.map Prod.snd).Nodup) :
    ∀ x ∈ v.tiles, (getSet (movePartIn s v) x.1 0).ctx = (getSet s x.2 0).ctx ∧ (getSet (movePartIn s v) x.1 1).ctx = (getSet s x.2 1).ctx :=
  fun x hx => ⟨foldl_storeIn_ctx v.tiles hd (.inl rfl) x hx, foldl_storeIn_ctx v.tiles hd (.inr rfl) x hx⟩

theorem swapInStep_waits {s : State} {a : SwapAsk} {v : PartSave} (hv : Tab.find? s.partsOut a.part = some v) (hs : slotSharers s a.part ≠ []) :
    swapInStep s a = s := by
  simp [swapInStep, hv, hs]

theorem swapInStep_moves {s : State} {a : SwapAsk} {v : PartSave} (hv : Tab.find? s.partsOut a.part = some v) (hs : slotSharers s a.part = [])
    (hw : Tab.wf s.partsOut = true) (hp : v.part = a.part) :
    Tab.find? (swapInStep s a).partsOut a.part = none ∧ a ∉ (swapInStep s a).swapAsks ∧
      (a.byHost = true → (swapInStep s a).box.ended = true ∧ (swapInStep s a).box.stat = 0) ∧
      ((v.tiles.map Prod.fst ++ v.tiles.map Prod.snd).Nodup → ∀ x ∈ v.tiles, (getSet (swapInStep s a) x.1 0).ctx = (getSet s x.2 0).ctx ∧
        (getSet (swapInStep s a) x.1 1).ctx = (getSet s x.2 1).ctx) := by
  have he : swapInStep s a = askDone (movePartIn s v) a := by simp [swapInStep, hv, hs]
  obtain ⟨htiles, hparts⟩ := askDone_same (movePartIn s v) a
  rw [he]
  refine ⟨?_, mem_askDone _ a, askDone_box _, fun hd x hx => ?_⟩
  · have hout : (movePartIn s v).partsOut = Tab.erase s.partsOut v.part := congrArg Mgmt.partsOut (movePartIn_mgmt s v)
    rw [hparts, hout, hp]
    exact Tab.find?_erase_same _ hw
  · rw [getSet_of_tiles htiles, getSet_of_tiles htiles]
    exact movePartIn_ctx s hd x hx

/-! #### What Summit does of itself -/

theorem execPartitionFullSwap_asked {s : State} {part : Nat} {a : SwapAsk} (hp : part < 12) (hf : entFsw (layoutEntry s part) = true)
    (hb : s.boot = .running) (ha : s.swapAsks.find? (fun x => x.part == part) = some a) :
    a.part = part ∧ execPartitionFullSwap part s = .next (if a.out then swapOutStep s a else swapInStep s a) := by
  refine ⟨by simpa using List.find?_some ha, ?_⟩
  have hc : ¬(12 ≤ part || !entFsw (layoutEntry s part) || s.boot != .running) = true := by simp [hf, hb, hp]
  rw [execPartitionFullSwap, if_neg hc, ha]

theorem execPartitionFullSwap_rotates {s : State} {part : Nat} (hp : part < 12) (hf : entFsw (layoutEntry s part) = true)
    (hb : s.boot = .running) (ha : ∀ x ∈ s.swapAsks, x.part ≠ part) :
    execPartitionFullSwap part s = .next (match rotation s part with | some a => { s with swapAsks := s.swapAsks ++ [a] } | none => s) := by
  have hnone : s.swapAsks.find? (fun x => x.part == part) = none := List.find?_eq_none.2 fun x hx => by simpa using ha x hx
  have hc : ¬(12 ≤ part || !entFsw (layoutEntry s part) || s.boot != .running) = true := by simp [hf, hb, hp]
  rw [execPartitionFullSwap, if_neg hc, hnone]
  dsimp only
  cases rotation s part <;> rfl

theorem rotation_ofHost {s : State} {part : Nat} {v : PartSave} (hv : Tab.find? s.partsOut part = some v) (hh : v.byHost = true) :
    rotation s part = none := by
  simp [rotation, hv, hh]

theorem rotation_in {s : State} {part : Nat} {v : PartSave} (hv : Tab.find? s.partsOut part = some v) (hh : v.byHost = false)
    (hs : slotSharers s part = []) : rotation s part = some ⟨part, false, false⟩ := by
  simp [rotation, hv, hh, hs]

theorem rotation_out {s : State} {part q : Nat} {v : PartSave} (hv : Tab.find? s.partsOut part = none) (hq : q < 12) (hne : q ≠ part)
    (hf : entFsw (layoutEntry s q) = true) (hs : entSlots (layoutEntry s part) &&& entSlots (layoutEntry s q) ≠ 0)
    (hw : Tab.find? s.partsOut q = some v) (hh : v.byHost = false) : rotation s part = some ⟨part, true, false⟩ := by
  unfold rotation
  dsimp only
  rw [hv]
  refine if_pos (List.any_eq_true.2 ⟨q, List.mem_range.2 hq, ?_⟩)
  simp [hne, hf, hs, hw, hh]

/-- What a full swap does in its turn, whatever asked for it. -/
theorem execPartitionFullSwap_turn (s : State) (part : Nat) (hp : part < 12) (hf : entFsw (layoutEntry s part) = true) (hb : s.boot = .running) :
    (∀ a, s.swapAsks.find? (fun x => x.part == part) = some a →
      (a.out = true → (∀ n ∈ partTiles s part, (getTile s n).removed = true ∨ tileHalted (getTile s n) = true) →
        ∃ t v, execPartitionFullSwap part s = .next t ∧ Tab.find? t.partsOut part = some v ∧ v.byHost = a.byHost ∧
          v.tiles.map Prod.fst = partTiles s part ∧ a ∉ t.swapAsks ∧ (a.byHost = true → t.box.ended = true ∧ t.box.stat = 0) ∧
          ∀ n ∈ partTiles s part, (getSet t n 0).ctx = none ∧ (getSet t n 1).ctx = none) ∧
      (∀ v, a.out = false → Tab.find? s.partsOut part = some v → slotSharers s part ≠ [] → execPartitionFullSwap part s = .next s) ∧
      (∀ v, a.out = false → Tab.find? s.partsOut part = some v → slotSharers s part = [] → Tab.wf s.partsOut = true → v.part = part →
        ∃ t, execPartitionFullSwap part s = .next t ∧ Tab.find? t.partsOut part = none ∧ a ∉ t.swapAsks ∧
          (a.byHost = true → t.box.ended = true ∧ t.box.stat = 0) ∧
          ((v.tiles.map Prod.fst ++ v.tiles.map Prod.snd).Nodup → ∀ x ∈ v.tiles, (getSet t x.1 0).ctx = (getSet s x.2 0).ctx ∧
            (getSet t x.1 1).ctx = (getSet s x.2 1).ctx))) := by
  intro a ha
  obtain ⟨rfl, he⟩ := execPartitionFullSwap_asked hp hf hb ha
  rw [he]
  refine ⟨fun ho hn => ?_, fun v ho hv hs => ?_, fun v ho hv hs hw hvp => ?_⟩
  · obtain ⟨v, hmoved⟩ := swapOutStep_moves hn
    exact ⟨_, v, congrArg _ (if_pos ho), hmoved⟩
  · rw [if_neg (by simp [ho]), swapInStep_waits hv hs]
  · exact ⟨_, congrArg _ (if_neg (by simp [ho])), swapInStep_moves hv hs hw hvp⟩

end Sys2Proof.Machine

namespace Sys2Proof

open Sys2Proof.Machine

/-- Settles O57: a lemma for each unit that fails, for each kind of state that an error strikes, and for each turn of a full swap. -/
theorem failuresAndPartitionSwaps : Obligations.FailuresAndPartitionSwaps := by
  intro s
  refine ⟨fun tile ht hr hw => execTileFailure_fails ht hr hw, fun die hd hn hw => execDieSchedulerFailure_fails hd hn hw,
    fun slot hs hr hw => execColumnControllerFailure_fails hs hr hw, fun slot hs => execGateRefusal_counts s hs,
    fun addr => versionError_fails s addr, fun slot n hn => dequeError_fails s slot hn,
    fun slot n hn => ⟨barrierError_running s slot hn, fun p => barrierError_waiting s slot hn⟩,
    fun part hp hf hb => ⟨execPartitionFullSwap_turn s part hp hf hb, fun ha => ?_⟩, fun part hf => ?_⟩
  · have he := execPartitionFullSwap_rotates hp hf hb ha
    refine ⟨fun v hv hh => ?_, fun v hv hh hs => ?_, fun q v hv hq hne hfq hs hvq hh => ?_⟩
    · rw [rotation_ofHost hv hh] at he
      exact he
    · rw [rotation_in hv hh hs] at he
      exact he
    · rw [rotation_out hv hq hne hfq hs hvq hh] at he
      exact he
  · show execPartitionFullSwap part s = .next s
    exact if_pos (by simp [hf])

end Sys2Proof
end

section

namespace Sys2Proof

open Sys2Proof.Machine

/-! ## Words and their fields (R17, R18, R22) -/

/-! ### The opcode map and the instructions -/

/-- What holds of each row of each part of the map holds of every row. -/
theorem forall_mem_opMap {P : OpRow → Prop} (h1 : opMapScalar.Forall P) (h2 : opMapControl.Forall P) (h3 : opMapMemory.Forall P)
    (h4 : opMapVArith.Forall P) (h5 : opMapVMove.Forall P) (h6 : opMapEngine.Forall P) (h7 : opMapSystem.Forall P) :
    ∀ r ∈ opMap, P r := by
  simp only [List.forall_iff_forall_mem] at h1 h2 h3 h4 h5 h6 h7
  simp only [opMap, List.forall_mem_append]
  exact ⟨⟨⟨⟨⟨⟨h1, h2⟩, h3⟩, h4⟩, h5⟩, h6⟩, h7⟩

/-- The parts of the instruction that a row builds (R25); only an ENQ word carries a command. -/
theorem tileParts_build : ∀ r ∈ opMap, ∀ t c, tileParts (r.build t c) = some (r.opc, r.fn, t, if r.md = .enq then c else 0) := by
  apply forall_mem_opMap
  all_goals
    repeat' apply And.intro
    all_goals exact fun _ _ => rfl

/-- Every tile-controller instruction is what its row of the map builds. -/
theorem build_of_tileParts {i : Instr} {opc : Nat} {fn : Option Nat} {t : TWord} {c : Word64} (h : tileParts i = some (opc, fn, t, c)) :
    ∃ r, opMap.find? (fun r => r.opc == opc && r.fn == fn) = some r ∧ r.build t c = i := by
  cases i
  all_goals
    cases h <;> exact ⟨_, rfl, rfl⟩

/-- The map gives each opcode and FN value one row. -/
theorem opRow_of_mem : ∀ r ∈ opMap, ∀ n, r.fn = none ∨ r.fn = some n → opRow r.opc n = some r := by
  apply forall_mem_opMap
  all_goals
    repeat' apply And.intro
    all_goals
      rintro n (h | h)
      all_goals cases h <;> rfl

/-- The same of the rows as the checks find them. -/
theorem find?_row : ∀ r ∈ opMap, opMap.find? (fun x => x.opc == r.opc && x.fn == r.fn) = some r := by
  apply forall_mem_opMap
  all_goals
    repeat' apply And.intro
    all_goals rfl

/-- Where the map shares an opcode out by FN, it does so for each FN value that MOD may hold (check 3). -/
theorem fn_of_mem : ∀ r ∈ opMap, r.fn = none ∨ ∃ k, r.md = .fnMax k ∧ ∀ f ≤ k, opMap.any (fun x => x.opc == r.opc && x.fn == some f) = true := by
  apply forall_mem_opMap
  all_goals
    repeat' apply And.intro
    all_goals first
      | exact .inl rfl
      | exact .inr ⟨_, rfl, by decide⟩

/-- The opcodes are 10-bit numbers. -/
theorem opc_lt : ∀ r ∈ opMap, r.opc < 1024 := by
  apply forall_mem_opMap
  all_goals
    repeat' apply And.intro
    all_goals decide

/-- The word that carries a row's instruction: an ENQ word has the command in its lower half (R17). -/
theorem encodeWord_build : ∀ r ∈ opMap, ∀ t c, encodeWord (r.build t c) =
    some (if r.md = .enq then (packWord r.opc t).extractLsb' 64 64 ++ c else packWord r.opc t) := by
  apply forall_mem_opMap
  all_goals
    repeat' apply And.intro
    all_goals exact fun _ _ => rfl

/-- Only an ENQ word carries a command. -/
theorem build_command : ∀ r ∈ opMap, r.md ≠ .enq → ∀ t c d, r.build t c = r.build t d := by
  apply forall_mem_opMap
  all_goals
    repeat' apply And.intro
    all_goals first
      | exact fun _ _ _ _ => rfl
      | exact fun h => absurd rfl h

/-- An ENQ word has no operands (R25). -/
theorem enq_fields : ∀ r ∈ opMap, r.md = .enq → r.fn = none ∧ r.a.cls = .none ∧ r.b.cls = .none ∧ r.c.cls = .none := by
  apply forall_mem_opMap
  all_goals
    repeat' apply And.intro
    all_goals first
      | exact fun _ => ⟨rfl, rfl, rfl, rfl⟩
      | exact fun h => nomatch h

/-- Where opRow gives a row whose FN is not the word's, the map has no row for the word's FN, and MOD fails check 3. -/
theorem fn_of_opRow {opc n : Nat} {r : OpRow} (h : opRow opc n = some r) :
    r ∈ opMap ∧ r.opc = opc ∧ (r.fn = none ∨ r.fn = some n ∨ ∃ k, r.md = .fnMax k ∧ k < n) := by
  unfold opRow at h
  split at h
  next q hq =>
    cases h
    have hp := List.find?_some hq
    simp only [Bool.and_eq_true, Bool.or_eq_true, beq_iff_eq] at hp
    exact ⟨List.mem_of_find?_eq_some hq, hp.1, hp.2.imp_right .inl⟩
  next hq =>
    have hm := List.mem_of_find?_eq_some h
    have ho : r.opc = opc := by simpa using List.find?_some h
    refine ⟨hm, ho, ?_⟩
    rcases fn_of_mem r hm with hf | ⟨k, hk, hall⟩
    · exact .inl hf
    · refine .inr (.inr ⟨k, hk, Nat.lt_of_not_le fun hle => ?_⟩)
      obtain ⟨x, hx, hxp⟩ := List.any_eq_true.1 (hall n hle)
      have := List.find?_eq_none.1 hq x hx
      simp_all

/-! ### Operands and guards (R17, R22) -/

/-- The number of an operand lies in its class. -/
def InClass : Opnd → Prop
  | .v n => n < 640 | .s n => n < 64 | .p n => n < 24 | .q n => n < 16 | .k n => n < 8 | .zero => True | .lit _ => True

/-- A vector operand that its field accepts lies below 640. -/
theorem lt_of_classOk_v {vlen c n : Nat} {m : Bool} (h : classOk vlen c ⟨.v, m⟩ (.v n) = true) : n < 640 :=
  of_decide_eq_true ((Bool.and_eq_true _ _).mp h).2

theorem inClass_of_classOk {vlen c : Nat} {f : FieldSpec} {o : Opnd} (h : classOk vlen c f o = true) : InClass o := by
  obtain ⟨cls, mark⟩ := f
  cases o with
  | zero => trivial
  | lit v => trivial
  | v n => cases cls <;> first | exact Bool.noConfusion h | exact lt_of_classOk_v h
  | s n => cases cls <;> first | exact Bool.noConfusion h | exact of_decide_eq_true (p := n < _) h
  | p n => cases cls <;> first | exact Bool.noConfusion h | exact of_decide_eq_true (p := n < _) h
  | q n => cases cls <;> first | exact Bool.noConfusion h | exact of_decide_eq_true (p := n < _) h
  | k n => cases cls <;> first | exact Bool.noConfusion h | exact of_decide_eq_true (p := n < _) h

/-- A register operand is read back from its number (R22). -/
theorem opndOf_opndNum {o : Opnd} (h : InClass o) (hl : opndIsLit o = false) : opndOf (opndNum o) = some o := by
  cases o with
  | zero => rfl
  | lit v => cases hl
  | v n => simp only [InClass] at h; simp [opndNum, opndOf, h]
  | s n =>
    change n < _ at h
    change opndOf (0x280 + n) = _
    unfold opndOf
    rw [if_neg (by omega), if_pos (by omega), Nat.add_sub_cancel_left]
  | p n =>
    change n < _ at h
    change opndOf (0x2C0 + n) = _
    unfold opndOf
    rw [if_neg (by omega), if_neg (by omega), if_pos (by omega), Nat.add_sub_cancel_left]
  | q n =>
    change n < _ at h
    change opndOf (0x2E0 + n) = _
    unfold opndOf
    rw [if_neg (by omega), if_neg (by omega), if_neg (by omega), if_pos (by simp; omega), Nat.add_sub_cancel_left]
  | k n =>
    change n < _ at h
    change opndOf (0x2F0 + n) = _
    unfold opndOf
    rw [if_neg (by omega), if_neg (by omega), if_neg (by omega), if_neg (by simp), if_pos (by simp; omega), Nat.add_sub_cancel_left]

theorem opndNum_lt {o : Opnd} (h : InClass o) : opndNum o < 1024 := by
  cases o <;> simp only [InClass] at h <;> simp only [opndNum] <;> omega

/-- The guard of a well-formed word is read back from G and GS (R17). -/
theorem guardOf_guardBits {g : Guard} (h : guardOk g = true) : guardOf (guardBits g).1 (guardBits g).2 = some g ∧ (guardBits g).1 < 32 := by
  cases g with
  | always => exact ⟨rfl, by decide⟩
  | whenTrue n =>
    have hn : n < 24 := of_decide_eq_true h
    exact ⟨by simp [guardOf, guardBits, hn], by simp only [guardBits]; omega⟩
  | whenFalse n =>
    have hn : n < 24 := of_decide_eq_true h
    exact ⟨by simp [guardOf, guardBits, hn], by simp only [guardBits]; omega⟩

/-- What G and GS name passes check 2. -/
theorem guardOk_of_guardOf {n : Nat} {b : Bool} {g : Guard} (h : guardOf n b = some g) : guardOk g = true := by
  unfold guardOf at h
  split at h
  next hn => cases b <;> cases h <;> simpa [guardOk] using hn
  next =>
    split at h <;> cases h
    rfl

/-! ### The fields of a packed word (R17) -/

/-- A word shows the operands of an instruction in its upper half, as packWord lays them out. -/
structure Shows (x : Word128) (opc : Nat) (w : TWord) : Prop where
  opc   : x.extractLsb' 118 10 = BitVec.ofNat 10 opc
  rst   : x.getLsbD 117 = w.rst
  guard : x.extractLsb' 112 5 = BitVec.ofNat 5 (guardBits w.guard).1
  sense : x.getLsbD 111 = (guardBits w.guard).2
  d     : x.extractLsb' 101 10 = BitVec.ofNat 10 (opndNum w.d)
  a     : x.extractLsb' 91 10 = BitVec.ofNat 10 (opndNum w.a)
  b     : x.extractLsb' 81 10 = BitVec.ofNat 10 (opndNum w.b)
  c     : x.extractLsb' 71 10 = BitVec.ofNat 10 (opndNum w.c)
  ls    : x.extractLsb' 69 2 = BitVec.ofNat 2 (litField w).1
  x     : x.extractLsb' 64 5 = w.x

theorem getLsbD_eq_of_extractLsb'_one {n : Nat} {x : BitVec n} {k : Nat} {b : Bool} (h : x.extractLsb' k 1 = BitVec.ofBool b) :
    x.getLsbD k = b := by
  have := congrArg (fun y => y.getLsbD 0) h
  simpa using this

theorem shows_packWord (opc : Nat) (w : TWord) : Shows (packWord opc w) opc w := by
  constructor
  all_goals first
    | apply getLsbD_eq_of_extractLsb'_one
    | skip
  all_goals
    unfold packWord
    repeat rw [BitVec.extractLsb'_append_eq_of_le (by decide)]
    first
      | exact BitVec.extractLsb'_append_eq_right
      | exact BitVec.extractLsb'_eq_self

/-- A word whose lower half is replaced shows the same operands. -/
theorem Shows.replaceLow {x : Word128} {opc : Nat} {w : TWord} (h : Shows x opc w) (c : Word64) : Shows (x.extractLsb' 64 64 ++ c) opc w := by
  have hx : ∀ k n, 64 ≤ k → k + n ≤ 128 → (x.extractLsb' 64 64 ++ c).extractLsb' k n = x.extractLsb' k n := by
    intro k n hk hn
    rw [BitVec.extractLsb'_append_eq_of_le hk]
    ext i hi
    simp only [BitVec.getElem_extractLsb', BitVec.getLsbD_extractLsb']
    rw [decide_eq_true (by omega), Bool.true_and]
    congr 1
    omega
  have hb : ∀ k, 64 ≤ k → k < 128 → (x.extractLsb' 64 64 ++ c).getLsbD k = x.getLsbD k := by
    intro k hk hn
    simpa using congrArg (fun y => y.getLsbD 0) (hx k 1 hk (by omega))
  exact ⟨(hx 118 10 (by decide) (by decide)).trans h.opc, (hb 117 (by decide) (by decide)).trans h.rst,
    (hx 112 5 (by decide) (by decide)).trans h.guard, (hb 111 (by decide) (by decide)).trans h.sense,
    (hx 101 10 (by decide) (by decide)).trans h.d, (hx 91 10 (by decide) (by decide)).trans h.a,
    (hx 81 10 (by decide) (by decide)).trans h.b, (hx 71 10 (by decide) (by decide)).trans h.c,
    (hx 69 2 (by decide) (by decide)).trans h.ls, (hx 64 5 (by decide) (by decide)).trans h.x⟩

/-! ### The decoder on a packed word (R18) -/

theorem opndIsLit_eq_false {o : Opnd} (h : ∀ v, o = .lit v → False) : opndIsLit o = false := by
  cases o with
  | lit v => exact (h v rfl).elim
  | _ => rfl

/-- LS names the literal field of a word, and no other field is a literal (R17). -/
theorem litField_spec {w : TWord} (h : oneLit w = true) :
    (litField w).1 < 4 ∧ ∀ i, i ∈ [1, 2, 3] →
      ((litField w).1 = i → wordField w i = .lit (litField w).2) ∧ ((litField w).1 ≠ i → opndIsLit (wordField w i) = false) := by
  simp only [oneLit, Bool.and_eq_true, Bool.not_eq_true', Bool.and_eq_false_iff] at h
  obtain ⟨⟨⟨-, hab⟩, hac⟩, hbc⟩ := h
  unfold litField
  split
  next v ha =>
    have hb : opndIsLit w.b = false := by simpa [ha, opndIsLit] using hab
    have hc : opndIsLit w.c = false := by simpa [ha, opndIsLit] using hac
    simp [wordField, ha, hb, hc]
  next v hb ha =>
    have hc : opndIsLit w.c = false := by simpa [hb, opndIsLit] using hbc
    simp [wordField, opndIsLit_eq_false ha, hb, hc]
  next v hc ha hb => simp [wordField, opndIsLit_eq_false ha, opndIsLit_eq_false hb, hc]
  next ha hb hc => simp [wordField, opndIsLit_eq_false ha, opndIsLit_eq_false hb, opndIsLit_eq_false hc]

/-- A field that LS selects holds 0x3FF (R18). -/
theorem opndNum_lit {o : Opnd} (v : BitVec 32) (h : o = .lit v) : opndNum o = 0x3FF := by subst h; rfl

theorem Shows.num {x : Word128} {opc : Nat} {w : TWord} (h : Shows x opc w) {i : Nat} (hi : i < 4) :
    x.extractLsb' (101 - 10 * i) 10 = BitVec.ofNat 10 (opndNum (wordField w i)) := by
  match i, hi with
  | 0, _ => exact h.d
  | 1, _ => exact h.a
  | 2, _ => exact h.b
  | 3, _ => exact h.c

/-- An operand field is read back (R21, R22). -/
theorem Shows.fieldOpnd {x : Word128} {opc : Nat} {w : TWord} (h : Shows x opc w) (h1 : oneLit w = true)
    (hv : (litField w).1 ≠ 0 → x.extractLsb' 32 32 = (litField w).2) {i : Nat} (hi : i < 4) (hc : InClass (wordField w i)) :
    fieldOpnd x i = some (wordField w i) := by
  obtain ⟨hlt, hl⟩ := litField_spec h1
  have hnum : (x.extractLsb' (101 - 10 * i) 10).toNat = opndNum (wordField w i) := by
    rw [h.num hi, BitVec.toNat_ofNat, Nat.mod_eq_of_lt (opndNum_lt hc)]
  have hls : (x.extractLsb' 69 2).toNat = (litField w).1 := by
    rw [h.ls, BitVec.toNat_ofNat, Nat.mod_eq_of_lt hlt]
  unfold Sys2Proof.fieldOpnd
  simp only [hnum, hls]
  have hregs : opndIsLit (wordField w i) = false → opndOf (opndNum (wordField w i)) = some (wordField w i) := opndOf_opndNum hc
  rcases Nat.eq_zero_or_pos i with h0 | hpos
  · subst h0
    simp only [oneLit, Bool.and_eq_true, Bool.not_eq_true'] at h1
    exact hregs h1.1.1.1
  · obtain ⟨heq, hne⟩ := hl i (by simp; omega)
    by_cases hi' : (litField w).1 = i
    · have hlit := heq hi'
      rw [if_pos (by simp [hi']; omega), if_pos (opndNum_lit _ hlit), hv (by omega), hlit]
    · rw [if_neg (by simp [hi'])]
      exact hregs (hne hi')

/-- The draft operand of a field that is read back. -/
theorem fieldDraft_of_fieldOpnd {x : Word128} {i : Nat} {o : Opnd} (h : fieldOpnd x i = some o) : fieldDraft x i = o := by
  unfold fieldOpnd at h
  unfold fieldDraft
  dsimp only at h
  split at h
  next hls =>
    split at h <;> cases h
    exact if_pos hls
  next hls => rw [if_neg hls, h, Option.getD_some]

/-- Check 4 passes a word when it passes each field. -/
theorem check4_isNone {vlen : Nat} {r : OpRow} {w : TWord} : (check4 vlen r w).isNone = true ↔ ∀ i < 4, fieldOk vlen r w i = true := by
  simp [check4]

theorem classOk_of_fieldOk {vlen : Nat} {r : OpRow} {w : TWord} {i : Nat} (h : fieldOk vlen r w i = true) :
    classOk vlen (groupLen w) (rowField r i) (wordField w i) = true := ((Bool.and_eq_true _ _).mp h).1

/-- The decoder gives the instruction whose operands a word shows, where they pass the checks (R18). -/
theorem decodeWord_of_shows {feat vlen : Nat} {r : OpRow} {w : TWord} {x : Word128} (hr : r ∈ opMap) (hs : Shows x r.opc w)
    (hg : guardOk w.guard = true) (h1 : oneLit w = true) (h3 : check3Ok feat r w = true) (h4 : (check4 vlen r w).isNone = true)
    (hfn : r.fn = none ∨ r.fn = some (x.extractLsb' 28 4).toNat) (hv : (litField w).1 ≠ 0 → x.extractLsb' 32 32 = (litField w).2)
    (hm : w.modf = if r.md = .enq then 0 else x.extractLsb' 0 32) :
    decodeWord feat vlen x = .ok (r.build w (x.extractLsb' 0 64)) := by
  have h4' := check4_isNone.1 h4
  have hf : ∀ i < 4, fieldOpnd x i = some (wordField w i) := fun i hi =>
    hs.fieldOpnd h1 hv hi (inClass_of_classOk (classOk_of_fieldOk (h4' i hi)))
  obtain ⟨hgo, hgl⟩ := guardOf_guardBits hg
  have hdraft : draftWord x r w.guard = w := by
    simp only [draftWord, hs.rst, hs.x, ← hm, fieldDraft_of_fieldOpnd (hf 0 (by decide)), fieldDraft_of_fieldOpnd (hf 1 (by decide)),
      fieldDraft_of_fieldOpnd (hf 2 (by decide)), fieldDraft_of_fieldOpnd (hf 3 (by decide))]
    rfl
  have hopc : (x.extractLsb' 118 10).toNat = r.opc := by
    rw [hs.opc, BitVec.toNat_ofNat, Nat.mod_eq_of_lt (opc_lt r hr)]
  have hgbits : (x.extractLsb' 112 5).toNat = (guardBits w.guard).1 := by
    rw [hs.guard, BitVec.toNat_ofNat, Nat.mod_eq_of_lt hgl]
  unfold decodeWord
  rw [hopc, opRow_of_mem r hr _ hfn]
  simp only [hgbits, hs.sense, hgo, hdraft, h3]
  have hnone : ((List.range 4).find? fun i => (fieldOpnd x i).isNone || !fieldOk vlen r w i) = none := by
    simp only [List.find?_eq_none, List.mem_range, Bool.or_eq_true, not_or, Bool.not_eq_true, Bool.not_eq_true', Bool.not_eq_false]
    exact fun i hi => ⟨by simp [hf i hi], h4' i hi⟩
  simp [hnone]

/-- What well-formedness says of a tile-controller word of the map. -/
theorem wordWf_iff {feat vlen : Nat} {r : OpRow} (hr : r ∈ opMap) {w : TWord} : wordWf feat vlen r.opc r.fn w = true ↔
    guardOk w.guard = true ∧ oneLit w = true ∧ check3Ok feat r w = true ∧ (check4 vlen r w).isNone = true ∧
      (r.fn = none ∨ r.fn = some (modFn w.modf)) ∧ (r.md = .enq → w.modf = 0) := by
  simp only [wordWf, find?_row r hr, Bool.and_eq_true, Bool.or_eq_true, beq_iff_eq, bne_iff_ne, ne_eq, and_assoc]
  constructor <;> rintro ⟨h1, h2, h3, h4, h5, h6⟩ <;> refine ⟨h1, h2, h3, h4, h5, ?_⟩ <;> tauto

/-- FN of MOD is bits 31 to 28 of the word (R24). -/
theorem modFn_extractLsb' (x : Word128) : modFn (x.extractLsb' 0 32) = (x.extractLsb' 28 4).toNat := by
  simp only [modFn, bits, BitVec.extractLsb'_toNat, Nat.shiftRight_eq_div_pow]
  omega

/-- The literal and MOD of a packed word (R17). -/
theorem packWord_modf (opc : Nat) (w : TWord) : (packWord opc w).extractLsb' 0 32 = w.modf := BitVec.extractLsb'_append_eq_right

theorem packWord_lit (opc : Nat) (w : TWord) : (packWord opc w).extractLsb' 32 32 = (litField w).2 := by
  unfold packWord
  rw [BitVec.extractLsb'_append_eq_of_le (by decide)]
  exact BitVec.extractLsb'_append_eq_right

/-- An unused field takes no literal (R18 check 4). -/
theorem not_lit_of_unused {vlen c : Nat} {f : FieldSpec} {o : Opnd} (h : classOk vlen c f o = true) (hf : f.cls = .none) :
    opndIsLit o = false := by
  obtain ⟨cls, mark⟩ := f
  subst hf
  cases o <;> first | rfl | exact Bool.noConfusion h

/-- An ENQ word holds no literal (R17). -/
theorem litField_enq {vlen : Nat} {r : OpRow} (hr : r ∈ opMap) (he : r.md = .enq) {w : TWord} (h1 : oneLit w = true)
    (h4 : (check4 vlen r w).isNone = true) : (litField w).1 = 0 := by
  obtain ⟨-, ha, hb, hc⟩ := enq_fields r hr he
  have hcls : ∀ i ∈ [1, 2, 3], opndIsLit (wordField w i) = false := by
    intro i hi
    refine not_lit_of_unused (classOk_of_fieldOk (check4_isNone.1 h4 i (by simp at hi; omega))) ?_
    fin_cases hi <;> assumption
  obtain ⟨hlt, hl⟩ := litField_spec h1
  by_contra h0
  have hmem : (litField w).1 ∈ [1, 2, 3] := by simp; omega
  have := hcls _ hmem
  rw [(hl _ hmem).1 rfl] at this
  cases this

/-! ### Decoding and encoding agree -/

/-- The word that carries an ENQ is read back, with its command. -/
theorem decodeWord_enq {feat vlen : Nat} {r : OpRow} {w : TWord} (c : Word64) (hr : r ∈ opMap) (he : r.md = .enq)
    (hwf : wordWf feat vlen r.opc r.fn w = true) :
    decodeWord feat vlen ((packWord r.opc w).extractLsb' 64 64 ++ c) = .ok (r.build w c) := by
  obtain ⟨hg, h1, h3, h4, -, hm⟩ := (wordWf_iff hr).1 hwf
  rw [decodeWord_of_shows hr ((shows_packWord r.opc w).replaceLow c) hg h1 h3 h4 (.inl (enq_fields r hr he).1)
    (fun h => absurd (litField_enq hr he h1 h4) h) (by rw [if_pos he, hm he]), BitVec.extractLsb'_append_eq_right]

/-- The word that carries any other instruction is read back. -/
theorem decodeWord_packWord {feat vlen : Nat} {r : OpRow} {w : TWord} (c : Word64) (hr : r ∈ opMap) (he : r.md ≠ .enq)
    (hwf : wordWf feat vlen r.opc r.fn w = true) : decodeWord feat vlen (packWord r.opc w) = .ok (r.build w c) := by
  obtain ⟨hg, h1, h3, h4, hfn, -⟩ := (wordWf_iff hr).1 hwf
  rw [← packWord_modf r.opc w, modFn_extractLsb'] at hfn
  rw [decodeWord_of_shows hr (shows_packWord r.opc w) hg h1 h3 h4 hfn (fun _ => packWord_lit r.opc w)
    (by rw [if_neg he, packWord_modf]), build_command r hr he]

/-- At most the field that LS selects is a literal in a draft (R17). -/
theorem opndIsLit_fieldDraft {x : Word128} {i : Nat} (h : opndIsLit (fieldDraft x i) = true) : i ≠ 0 ∧ (x.extractLsb' 69 2).toNat = i := by
  unfold fieldDraft at h
  split at h
  next hc => simpa using hc
  next =>
    exfalso
    unfold opndOf at h
    split_ifs at h <;> exact Bool.noConfusion h

theorem oneLit_draftWord (x : Word128) (r : OpRow) (g : Guard) : oneLit (draftWord x r g) = true := by
  have h0 : opndIsLit (fieldDraft x 0) = false := by
    cases h : opndIsLit (fieldDraft x 0) with
    | false => rfl
    | true => exact absurd rfl (opndIsLit_fieldDraft h).1
  have hne : ∀ i j, i ≠ j → (opndIsLit (fieldDraft x i) && opndIsLit (fieldDraft x j)) = false := by
    intro i j hij
    rw [Bool.and_eq_false_iff, ← Bool.not_eq_true, ← Bool.not_eq_true, ← not_and_or]
    exact fun h => hij ((opndIsLit_fieldDraft h.1).2.symm.trans (opndIsLit_fieldDraft h.2).2)
  simp [oneLit, draftWord, h0, hne]

/-- What the decoder accepts has passed the checks of its row (R18). -/
theorem decodeWord_ok {feat vlen : Nat} {x : Word128} {i : Instr} (h : decodeWord feat vlen x = .ok i) :
    ∃ r g, opRow (x.extractLsb' 118 10).toNat (x.extractLsb' 28 4).toNat = some r ∧ guardOk g = true ∧
      check3Ok feat r (draftWord x r g) = true ∧ (check4 vlen r (draftWord x r g)).isNone = true ∧
      i = r.build (draftWord x r g) (x.extractLsb' 0 64) := by
  unfold decodeWord at h
  split at h
  · cases h
  next r hrow =>
    split at h
    · cases h
    next g hg =>
      dsimp only at h
      split at h
      · cases h
      next h3 =>
        split at h
        · cases h
        next h4 =>
          refine ⟨r, g, hrow, guardOk_of_guardOf hg, by simpa using h3, check4_isNone.2 fun j hj => ?_, (Except.ok.inj h).symm⟩
          have := List.find?_eq_none.1 h4 j (List.mem_range.2 hj)
          simp only [Bool.or_eq_true, not_or, Bool.not_eq_true, Bool.not_eq_false'] at this
          exact this.2

/-- A row that opRow gives, whose MOD values hold, is the row of the word's FN. -/
theorem fn_of_check3 {feat : Nat} {x : Word128} {r : OpRow} {g : Guard}
    (hrow : opRow (x.extractLsb' 118 10).toNat (x.extractLsb' 28 4).toNat = some r) (h3 : check3Ok feat r (draftWord x r g) = true) :
    r.fn = none ∨ r.fn = some (modFn (draftWord x r g).modf) := by
  obtain ⟨hr, -, hfn⟩ := fn_of_opRow hrow
  by_cases he : r.md = .enq
  · exact .inl (enq_fields r hr he).1
  · have hm : modFn (draftWord x r g).modf = (x.extractLsb' 28 4).toNat := by
      rw [draftWord, if_neg he, modFn_extractLsb']
    rcases hfn with hn | hs | ⟨k, hk, hlt⟩
    · exact .inl hn
    · exact .inr (hm ▸ hs)
    · simp only [check3Ok, hk, modOk, Bool.and_eq_true, decide_eq_true_eq] at h3
      omega

end Sys2Proof

namespace Sys2Proof

open Sys2Proof.Machine

/-- Settles O10: the row of the map packs the operands into fields, and the decoder reads each field back. -/
theorem decodeReadsBackEncodedWords : Obligations.DecodeReadsBackEncodedWords := by
  intro feat vlen i hp hwf
  obtain ⟨⟨opc, fn, w, c⟩, hi⟩ := Option.isSome_iff_exists.1 hp
  obtain ⟨r, hfind, rfl⟩ := build_of_tileParts hi
  have hr := List.mem_of_find?_eq_some hfind
  simp only [WellFormed, tileParts_build r hr] at hwf
  refine ⟨_, encodeWord_build r hr w c, ?_⟩
  by_cases he : r.md = .enq
  · rw [if_pos he]
    exact decodeWord_enq c hr he hwf
  · rw [if_neg he]
    exact decodeWord_packWord c hr he hwf

/-- Settles O12: the decoder's own checks are those of well-formedness, made of the row that opRow finds. -/
theorem decoderGivesWellFormedWords : Obligations.DecoderGivesWellFormedWords := by
  intro feat vlen x i h
  obtain ⟨r, g, hrow, hg, h3, h4, rfl⟩ := decodeWord_ok h
  have hr := (fn_of_opRow hrow).1
  simp only [WellFormed, tileParts_build r hr]
  exact (wordWf_iff hr).2 ⟨hg, oneLit_draftWord x r g, h3, h4, fn_of_check3 hrow h3, fun he => if_pos he⟩

end Sys2Proof
end

section

namespace Sys2Proof

open Sys2Proof.Machine

/-! ## Commands and moves and their words (R27 to R33) -/

/-! ### Engine commands (R27, R29) -/

/-- The fields of a command word (R27). -/
theorem commandWord_fields (W S : BitVec 8) (E : BitVec 6) (A : BitVec 42) :
    let x : Word64 := W ++ S ++ E ++ A
    x.getLsbD 63 = W.getLsbD 7 ∧ x.extractLsb' 59 4 = W.extractLsb' 3 4 ∧ x.extractLsb' 56 3 = W.extractLsb' 0 3 ∧
      x.getLsbD 55 = S.getLsbD 7 ∧ x.extractLsb' 51 4 = S.extractLsb' 3 4 ∧ x.extractLsb' 48 3 = S.extractLsb' 0 3 ∧
      x.extractLsb' 42 6 = E ∧ x.extractLsb' 0 42 = A := by
  have hw : ∀ k n, (W ++ S ++ E ++ A).extractLsb' (56 + k) n = W.extractLsb' k n := by
    intro k n
    rw [BitVec.extractLsb'_append_eq_of_le (by omega), BitVec.extractLsb'_append_eq_of_le (by omega),
      BitVec.extractLsb'_append_eq_of_le (by omega), show 56 + k - 42 - 6 - 8 = k by omega]
  have hs : ∀ k n, k + n ≤ 8 → (W ++ S ++ E ++ A).extractLsb' (48 + k) n = S.extractLsb' k n := by
    intro k n hk
    rw [BitVec.extractLsb'_append_eq_of_le (by omega), BitVec.extractLsb'_append_eq_of_le (by omega),
      BitVec.extractLsb'_append_eq_of_add_le (by omega), show 48 + k - 42 - 6 = k by omega]
  refine ⟨?_, hw 3 4, hw 0 3, ?_, hs 3 4 (by decide), hs 0 3 (by decide), ?_, BitVec.extractLsb'_append_eq_right⟩
  · simpa using congrArg (fun y => y.getLsbD 0) (hw 7 1)
  · simpa using congrArg (fun y => y.getLsbD 0) (hs 7 1 (by decide))
  · rw [BitVec.extractLsb'_append_eq_of_le (by decide)]
    exact BitVec.extractLsb'_append_eq_right

/-- The token fields of a command are read back (R27). -/
theorem tokenOf_tokenBits (t : Option TokenRef) :
    tokenOf ((tokenBits t).getLsbD 7) ((tokenBits t).extractLsb' 3 4) ((tokenBits t).extractLsb' 0 3) = some t := by
  cases t with
  | none => rfl
  | some t =>
    have hv : (tokenBits (some t)).getLsbD 7 = true := by
      apply getLsbD_eq_of_extractLsb'_one (b := true)
      unfold tokenBits
      rw [BitVec.extractLsb'_append_eq_of_le (by decide), BitVec.extractLsb'_append_eq_of_le (by decide)]
      exact BitVec.extractLsb'_eq_self
    have hq : (tokenBits (some t)).extractLsb' 3 4 = t.queue := by
      unfold tokenBits
      rw [BitVec.extractLsb'_append_eq_of_le (by decide)]
      exact BitVec.extractLsb'_append_eq_right
    have hl : (tokenBits (some t)).extractLsb' 0 3 = t.less1 := BitVec.extractLsb'_append_eq_right
    rw [hv, hq, hl]
    rfl

theorem engineOf_engineNum (e : Engine) : engineOf (engineNum e) = some e := by cases e <;> rfl

/-- What well-formedness says of an engine command (R29). -/
theorem wellFormed_command {feat vlen : Nat} {i : Instr} {e : Engine} {eop : Nat} {c : Cmd} (h : cmdParts i = some (e, eop, c)) :
    WellFormed feat vlen i = (engineHas i && argOk e eop c.arg) := by
  cases i
  all_goals cases h <;> rfl

/-- The operation of an engine command is read back (R27). -/
theorem cmdInstr_of_cmdParts {i : Instr} {e : Engine} {eop : Nat} {c : Cmd} (h : cmdParts i = some (e, eop, c)) (he : engineHas i = true) :
    eop < 64 ∧ cmdInstr e eop c = some i := by
  cases i
  case engineNop e c => cases h; exact ⟨by decide, rfl⟩
  case fireRegion e c => cases h; cases e <;> first | exact ⟨by decide, rfl⟩ | exact Bool.noConfusion he
  case switchPlane e c => cases h; cases e <;> first | exact ⟨by decide, rfl⟩ | exact Bool.noConfusion he
  case abortRegion e c => cases h; cases e <;> first | exact ⟨by decide, rfl⟩ | exact Bool.noConfusion he
  all_goals cases h <;> exact ⟨by decide, rfl⟩

/-- An engine command whose checks hold is read back from its word (R27, R29). -/
theorem decodeCmd_word {i : Instr} {e : Engine} {eop : Nat} {c : Cmd} (h : cmdParts i = some (e, eop, c)) (he : engineHas i = true)
    (ha : argOk e eop c.arg = true) :
    decodeCmd (engineNum e) (tokenBits c.wait ++ tokenBits c.sig ++ BitVec.ofNat 6 eop ++ c.arg) = some i := by
  obtain ⟨hlt, hi⟩ := cmdInstr_of_cmdParts h he
  obtain ⟨h63, h59, h56, h55, h51, h48, h42, h0⟩ := commandWord_fields (tokenBits c.wait) (tokenBits c.sig) (BitVec.ofNat 6 eop) c.arg
  have heop : (BitVec.ofNat 6 eop).toNat = eop := Nat.mod_eq_of_lt hlt
  unfold decodeCmd
  rw [h63, h59, h56, h55, h51, h48, h42, h0, engineOf_engineNum, tokenOf_tokenBits, tokenOf_tokenBits]
  simp only [heop, ha, if_true]
  exact hi

/-! ### Element moves (R30 to R33) -/

/-- The fields of a move word (R30). -/
theorem packMove_fields (fop : Nat) (m : Mv) :
    (packMove fop m).extractLsb' 27 5 = BitVec.ofNat 5 (portNum m.src) ∧ (packMove fop m).extractLsb' 22 5 = BitVec.ofNat 5 (portNum m.dst) ∧
      (packMove fop m).extractLsb' 16 6 = BitVec.ofNat 6 fop ∧ (packMove fop m).extractLsb' 14 2 = BitVec.ofNat 2 (laneNum m.lane) ∧
      (packMove fop m).extractLsb' 12 2 = BitVec.ofNat 2 (tovNum m.tov) ∧ (packMove fop m).extractLsb' 11 1 = BitVec.ofBool m.eob ∧
      (packMove fop m).extractLsb' 10 1 = BitVec.ofBool m.eoh ∧ (packMove fop m).extractLsb' 8 2 = 0#2 ∧
      (packMove fop m).extractLsb' 0 8 = m.imm := by
  unfold packMove
  refine ⟨?_, ?_, ?_, ?_, ?_, ?_, ?_, ?_, ?_⟩
  all_goals
    repeat rw [BitVec.extractLsb'_append_eq_of_le (by decide)]
    first
      | exact BitVec.extractLsb'_append_eq_right
      | exact BitVec.extractLsb'_eq_self

theorem portOf_portNum {p : Port} (h : srcOk p = true ∨ dstOk p = true) : portOf (portNum p) = p ∧ portNum p < 32 := by
  cases p with
  | inp n =>
    have hn : n < 8 := h.elim of_decide_eq_true Bool.noConfusion
    exact ⟨if_pos hn, Nat.lt_trans hn (by decide)⟩
  | out n =>
    have hn : n < 8 := h.elim Bool.noConfusion of_decide_eq_true
    refine ⟨?_, show 8 + n < 32 by omega⟩
    change portOf (8 + n) = _
    unfold portOf
    rw [if_neg (by omega), if_pos (by omega), Nat.add_sub_cancel_left]
  | _ => exact ⟨rfl, by decide⟩

theorem laneOf_laneNum (l : LaneSel) : laneOf (BitVec.ofNat 2 (laneNum l)).toNat = l := by cases l <;> rfl

theorem tovOf_tovNum (t : TypeOverride) : tovOf (BitVec.ofNat 2 (tovNum t)).toNat = t := by cases t <;> rfl

/-- The instruction that a FOP and the fields of a move name (R32). -/
def moveInstr (fop : Nat) (m : Mv) : Option Instr :=
  if fop = 0 then some (plainMove m)
  else
    match m.dst with
    | .aluT => aluOp fop m
    | .mulT => mulOp fop m
    | .sfuT => sfuOp fop m
    | .cvtT => cvtOp fop m
    | .redT => redOp fop m
    | _ => none

theorem decodeMove_eq (w : Word32) :
    decodeMove w = if w.extractLsb' 8 2 != 0 then none else moveInstr (w.extractLsb' 16 6).toNat (moveFields w) := rfl

/-- The fields of a move are read back (R30, R31). -/
theorem moveFields_packMove (fop : Nat) {m : Mv} (hs : srcOk m.src = true) (hd : dstOk m.dst = true) : moveFields (packMove fop m) = m := by
  obtain ⟨hsrc, hdst, -, hlane, htov, heob, heoh, -, himm⟩ := packMove_fields fop m
  obtain ⟨hps, hns⟩ := portOf_portNum (.inl hs)
  obtain ⟨hpd, hnd⟩ := portOf_portNum (.inr hd)
  unfold moveFields
  rw [hsrc, hdst, hlane, htov, himm, getLsbD_eq_of_extractLsb'_one heob, getLsbD_eq_of_extractLsb'_one heoh, laneOf_laneNum, tovOf_tovNum,
    BitVec.toNat_ofNat, BitVec.toNat_ofNat, Nat.mod_eq_of_lt hns, Nat.mod_eq_of_lt hnd, hps, hpd]

theorem decodeMove_packMove {fop : Nat} {m : Mv} (hs : srcOk m.src = true) (hd : dstOk m.dst = true) (hf : fop < 64) :
    decodeMove (packMove fop m) = moveInstr fop m := by
  obtain ⟨-, -, hfop, -, -, -, -, hres, -⟩ := packMove_fields fop m
  rw [decodeMove_eq, hfop, hres, moveFields_packMove fop hs hd, BitVec.toNat_ofNat, Nat.mod_eq_of_lt hf]
  rfl

/-- What well-formedness says of an element move (R33). -/
theorem wellFormed_move {feat vlen : Nat} {i : Instr} {fop : Nat} {trig : Option Port} {m : Mv} (h : moveParts i = some (fop, trig, m)) :
    WellFormed feat vlen i = moveWf i trig m := by
  cases i
  all_goals cases h <;> rfl

/-- What of R33 fixes the operation of a move. -/
theorem moveWf_spec {i : Instr} {trig : Option Port} {m : Mv} (h : moveWf i trig m = true) :
    srcOk m.src = true ∧ dstOk m.dst = true ∧ (∀ p, trig = some p → m.dst = p) ∧ immOk i m = true ∧
      ((∃ o, m.dst = .out o) ∨ ∀ n, i ≠ .guardedMove n ∧ i ≠ .scaleMove n) := by
  unfold moveWf at h
  simp only [Bool.and_eq_true] at h
  obtain ⟨⟨⟨⟨⟨⟨⟨⟨hs, hd⟩, ht⟩, hi⟩, ho⟩, -⟩, -⟩, -⟩, -⟩ := h
  refine ⟨hs, hd, ?_, hi, ?_⟩
  · rintro p rfl
    simpa using ht
  · split at ho
    next n =>
      split at ho
      next o hdo => exact .inl ⟨o, hdo⟩
      next => cases ho
    next n =>
      split at ho
      next o hdo => exact .inl ⟨o, hdo⟩
      next => cases ho
    next hg hs => exact .inr fun n => ⟨hg n, hs n⟩

/-- A bit of IMM as a digit of its number. -/
theorem imm_getLsbD (v : BitVec 8) (k : Nat) : v.getLsbD k = decide (v.toNat / 2 ^ k % 2 = 1) := by
  rw [BitVec.getLsbD, Nat.testBit_eq_decide_div_mod_eq]

/-- IMM of a move without operation tells the three kinds apart (R98). -/
theorem plainMove_move {m : Mv} (h : immOk (.move m) m = true) : plainMove m = .move m := by
  have hv : m.imm.toNat < 16 ∨ m.imm.toNat = 64 := by
    change (if m.lane == .bcast then decide (m.imm.toNat < 16) else if m.src == .konst then decide (m.imm.toNat < 8)
      else if m.src == .dline || m.dst == .dline then decide (m.imm.toNat < 4) else m.imm.toNat == 0 || (m.imm.toNat == 64 && _)) = true at h
    split_ifs at h
    all_goals simp only [decide_eq_true_eq, Bool.or_eq_true, Bool.and_eq_true, beq_iff_eq] at h
    all_goals omega
  unfold plainMove
  split
  · rw [imm_getLsbD, imm_getLsbD, if_neg (by simp; omega), if_neg (by simp; omega)]
  · rfl

theorem plainMove_guardedMove {m : Mv} {o : Nat} (hd : m.dst = .out o) (h : immOk (.guardedMove m) m = true) :
    plainMove m = .guardedMove m := by
  have hv : m.imm.toNat % 64 = 0 ∧ 128 ≤ m.imm.toNat := by
    change (m.imm.toNat % 64 == 0 && decide (128 ≤ m.imm.toNat) && _) = true at h
    simp only [Bool.and_eq_true, beq_iff_eq, decide_eq_true_eq] at h
    exact h.1
  have hlt := m.imm.isLt
  simp only [plainMove, hd, imm_getLsbD]
  rw [if_neg (by simp; omega), if_pos (by simp; omega)]

theorem plainMove_scaleMove {m : Mv} {o : Nat} (hd : m.dst = .out o) (h : immOk (.scaleMove m) m = true) :
    plainMove m = .scaleMove m := by
  have hv : m.imm.toNat % 64 = 32 := by
    change (m.imm.toNat % 64 == 32 && _ && _) = true at h
    simp only [Bool.and_eq_true, beq_iff_eq] at h
    exact h.1.1
  simp only [plainMove, hd, imm_getLsbD]
  rw [if_pos (by simp; omega)]

/-- IMM tells a scale maximum from a maximum (R106). -/
theorem redOp_redMax {m : Mv} (h : immOk (.redMax m) m = true) : redOp 2 m = some (.redMax m) := by
  have hv : m.imm = 0 := BitVec.eq_of_toNat_eq (by simpa [immOk] using h)
  simp [redOp, hv]

theorem redOp_redScaleMax {m : Mv} (h : immOk (.redScaleMax m) m = true) : redOp 2 m = some (.redScaleMax m) := by
  have hv : m.imm.toNat < 128 ∧ 1 ≤ m.imm.toNat % 16 := by
    change (decide (m.imm.toNat < 128) && decide (1 ≤ m.imm.toNat % 16) && _ && _) = true at h
    simp only [Bool.and_eq_true, decide_eq_true_eq] at h
    exact h.1.1
  have h4 : m.imm.extractLsb' 0 4 ≠ 0 := by
    intro h0
    have := congrArg BitVec.toNat h0
    simp [BitVec.extractLsb'_toNat] at this
    omega
  have h7 : m.imm.getLsbD 7 = false := by rw [imm_getLsbD]; simp; omega
  change some (if (m.imm.extractLsb' 0 4 == 0 || m.imm.getLsbD 7) = true then Instr.redMax m else .redScaleMax m) = _
  rw [if_neg (by simpa only [h7, Bool.or_false, beq_iff_eq] using h4)]

/-- A move whose checks hold is the one that its FOP and fields name (R32, R33, R98). -/
theorem moveInstr_of_moveParts {i : Instr} {fop : Nat} {trig : Option Port} {m : Mv} (h : moveParts i = some (fop, trig, m))
    (hwf : moveWf i trig m = true) : fop < 64 ∧ moveInstr fop m = some i := by
  obtain ⟨-, -, ht, hi, ho⟩ := moveWf_spec hwf
  cases i
  case move n => cases h; exact ⟨by decide, congrArg some (plainMove_move hi)⟩
  case guardedMove n =>
    cases h
    obtain ⟨o, hd⟩ := ho.resolve_right fun hn => (hn m).1 rfl
    exact ⟨by decide, congrArg some (plainMove_guardedMove hd hi)⟩
  case scaleMove n =>
    cases h
    obtain ⟨o, hd⟩ := ho.resolve_right fun hn => (hn m).2 rfl
    exact ⟨by decide, congrArg some (plainMove_scaleMove hd hi)⟩
  case redMax n =>
    cases h
    refine ⟨by decide, ?_⟩
    unfold moveInstr
    rw [if_neg (by decide), ht _ rfl]
    exact redOp_redMax hi
  case redScaleMax n =>
    cases h
    refine ⟨by decide, ?_⟩
    unfold moveInstr
    rw [if_neg (by decide), ht _ rfl]
    exact redOp_redScaleMax hi
  all_goals
    cases h
  all_goals
    refine ⟨by decide, ?_⟩
    unfold moveInstr
    rw [if_neg (by decide), ht _ rfl]
    rfl

end Sys2Proof

namespace Sys2Proof

open Sys2Proof.Machine

/-- Settles O11: the fields of a command and of a move are read back, and their codes name the operation again. -/
theorem decodeReadsBackCommandsAndMoves : Obligations.DecodeReadsBackCommandsAndMoves := by
  intro feat vlen i hwf
  refine ⟨fun hp => ?_, fun hp => ?_⟩
  · obtain ⟨⟨e, eop, c⟩, h⟩ := Option.isSome_iff_exists.1 hp
    rw [wellFormed_command h, Bool.and_eq_true] at hwf
    exact ⟨_, _, by rw [encodeCmd, h], decodeCmd_word h hwf.1 hwf.2⟩
  · obtain ⟨⟨fop, trig, m⟩, h⟩ := Option.isSome_iff_exists.1 hp
    rw [wellFormed_move h] at hwf
    obtain ⟨hf, hi⟩ := moveInstr_of_moveParts h hwf
    obtain ⟨hs, hd, -, -, -⟩ := moveWf_spec hwf
    exact ⟨_, by rw [encodeMove, h], (decodeMove_packMove hs hd hf).trans hi⟩

end Sys2Proof
end

section

namespace Sys2Proof

open Sys2Proof.Machine Sys2Proof.Claim

/-! ## What a turn of the step does (R18, R29, R98, R121, R131, R418) -/

/-! ### The step and its turn -/

/-- A step takes the agenda's first turn (R419). -/
theorem step_of_agenda {s : State} {t : Turn} {rest : List Turn} (h : s.agenda = t :: rest) :
    step s = turnStep { s with agenda := rest } t := by
  unfold step
  rw [h]

/-- Outside a thermal shutdown a turn does what it does while the package runs (R399). -/
theorem turnDoes_live {s : State} (t : Turn) (h : s.boot ≠ .shutdown) : turnDoes s t = liveTurn s t := by
  unfold turnDoes
  rw [if_neg (by simpa using h)]

/-- A turn that runs an instruction. -/
theorem step_run {s u : State} {t : Turn} {rest : List Turn} {i : Instr} (h : s.agenda = t :: rest) (hb : s.boot ≠ .shutdown)
    (ht : liveTurn { s with agenda := rest } t = .run u i) : step s = turnOutcome t u i (exec i u) := by
  rw [step_of_agenda h, turnStep, turnDoes_live (s := { s with agenda := rest }) t hb, ht]

/-- A turn that is over with a new state. -/
theorem step_over {s u : State} {t : Turn} {rest : List Turn} (h : s.agenda = t :: rest) (hb : s.boot ≠ .shutdown)
    (ht : liveTurn { s with agenda := rest } t = .over u) : step s = .next u := by
  rw [step_of_agenda h, turnStep, turnDoes_live (s := { s with agenda := rest }) t hb, ht]

/-- A turn other than an issue slot's leaves the outcome of its instruction as it is. -/
theorem turnOutcome_plain {t : Turn} (ht : ∀ was i s, afterTurn t was i s = s) (was : State) (i : Instr)
    (o : Host.Outcome State Fault Refusal) : turnOutcome t was i o = o := by
  cases o with
  | next s => exact congrArg _ (ht was i s)
  | fault f => rfl
  | refused r => rfl

/-! ### Issue slots (R121, R131) -/

theorem fetchPc_of_redo {th : Thread} (h : th.fl.redo = []) : fetchPc th = th.pc := by simp [fetchPc, h]

/-- A thread that repeats no load stands outside its window where its PC does. -/
theorem pcOutside_of_redo {s : State} {tile thr : Nat} (h : (issueThread s tile thr).fl.redo = []) :
    pcOutside s tile (getTile s tile).active thr = decide ((issueSet s tile).ilen ≤ (issueThread s tile thr).pc) := by
  rw [← fetchPc_of_redo h]
  rfl

/-- The next word of a thread that repeats no load is the one at its PC. -/
theorem threadWord_of_redo {s : State} {tile thr : Nat} (h : (issueThread s tile thr).fl.redo = []) :
    threadWord s tile (getTile s tile).active thr = decodeWord (features s) (issueSet s tile).vlen (nextWord s tile thr) := by
  rw [nextWord, ← fetchPc_of_redo h]
  rfl

section
variable {s0 s : State} {tile thr : Nat} {vec : Bool}
  (hs : (if vec then slotAdvance s0 tile else s0) = s) (hfree : slotFree s tile vec = true) (hiss : issuer s tile vec = some thr)
  (hredo : (issueThread s tile thr).fl.redo = [])
include hs hfree hiss hredo

/-- The word of the thread that a slot issues from runs. -/
theorem issueTurn_runs {i : Instr} (hpc : (issueThread s tile thr).pc < (issueSet s tile).ilen)
    (hw : decodeWord (features s) (issueSet s tile).vlen (nextWord s tile thr) = .ok i) :
    issueTurn s0 tile vec = .run (atWord s tile thr) i := by
  have hin := pcOutside_of_redo hredo
  rw [decide_eq_false (Nat.not_le.2 hpc)] at hin
  unfold issueTurn
  simp only [hs, hfree, hiss, hin, threadWord_of_redo hredo, hw]
  rfl

/-- A word that fails a check traps (R18). -/
theorem issueTurn_malformed {m : Malformed} (hpc : (issueThread s tile thr).pc < (issueSet s tile).ilen)
    (hw : decodeWord (features s) (issueSet s tile).vlen (nextWord s tile thr) = .error m) :
    issueTurn s0 tile vec = .over (afterIssue tile vec thr 0 ⟨false, .always, .zero, .zero, .zero, .zero, 0, 0⟩ (atWord s tile thr)
      (raiseTrap (atWord s tile thr) tile (getTile s tile).active (malformedRec thr (issueThread s tile thr).pc m))) := by
  have hin := pcOutside_of_redo hredo
  rw [decide_eq_false (Nat.not_le.2 hpc)] at hin
  have hf : fetchPc (getThread s tile (getTile s tile).active thr) = (issueThread s tile thr).pc := fetchPc_of_redo hredo
  unfold issueTurn
  simp only [hs, hfree, hiss, hin, threadWord_of_redo hredo, hw, hf]
  rfl

/-- A PC at or above ILEN raises the instruction-bound trap, and nothing issues (R121). -/
theorem issueTurn_outside (hpc : (issueSet s tile).ilen ≤ (issueThread s tile thr).pc) :
    issueTurn s0 tile vec = .over (raiseTrap (atWord s tile thr) tile (getTile s tile).active
      (wordRec 0x03 thr (issueThread s tile thr).pc 0 0)) := by
  have hin := pcOutside_of_redo hredo
  rw [decide_eq_true hpc] at hin
  have hf : fetchPc (getThread s tile (getTile s tile).active thr) = (issueThread s tile thr).pc := fetchPc_of_redo hredo
  unfold issueTurn
  simp only [hs, hfree, hiss, hin, hf]
  rfl

end

theorem tokenWait_of_word {s : State} {tile set thr : Nat} {i : Instr} (hw : threadWord s tile set thr = .ok i) (hi : ∀ w, i ≠ .tokw w) :
    tokenWait s tile set thr = false := by
  unfold tokenWait
  rw [hw]
  refine (congrArg (!pcOutside s tile set thr && ·) (?_ : _ = false)).trans (Bool.and_false _)
  cases i
  case tokw w => exact absurd rfl (hi w)
  all_goals rfl

/-- The first turn of slot S issues as its later one does, unless the word is a wait for tokens (R236). -/
theorem issueEarlyTurn_runs {s : State} {tile thr : Nat} {i : Instr} (h : Issues s tile thr false)
    (hw : decodeWord (features s) (issueSet s tile).vlen (nextWord s tile thr) = .ok i) (hi : ∀ w, i ≠ .tokw w) :
    issueEarlyTurn s tile = .run (atWord s tile thr) i := by
  obtain ⟨hfree, hiss, hredo, hpc⟩ := h
  have ht := tokenWait_of_word ((threadWord_of_redo hredo).trans hw) hi
  unfold issueEarlyTurn
  simp only [hiss, ht]
  exact issueTurn_runs (if_neg Bool.false_ne_true) hfree hiss hredo hpc hw

/-! ### The acting thread of an issued word -/

theorem endFence_focus (s : State) : (endFence s).focus = s.focus := by
  unfold endFence
  split
  · rfl
  · dsimp only
    rw [modCurThread_focus]
    split <;> split <;> rfl

theorem settleFence_focus (s : State) : (settleFence s).focus = s.focus := by
  unfold settleFence
  split
  · exact endFence_focus s
  · rfl

theorem atWord_focus (s : State) (tile thr : Nat) : (atWord s tile thr).focus = ⟨tile, (getTile s tile).active, thr, 0, 0⟩ :=
  settleFence_focus _

/-- A word that runs at a turn of an issue slot has then issued from the slot (R131, R169). -/
theorem turnOutcome_issue {t : Turn} {tile thr : Nat} {vec : Bool} (ht : t = .issue tile vec ∨ t = .issueEarly tile ∧ vec = false)
    (s : State) (i : Instr) :
    turnOutcome t (atWord s tile thr) i (exec i (atWord s tile thr)) = runsAndIssues (atWord s tile thr) tile thr vec i := by
  have hthr : (atWord s tile thr).focus.thr = thr := by rw [atWord_focus]
  unfold runsAndIssues
  cases exec i (atWord s tile thr) with
  | fault f => rfl
  | refused r => rfl
  | next u =>
    rcases ht with rfl | ⟨rfl, rfl⟩ <;> simp only [turnOutcome, afterTurn, hthr]

/-! ### Engines, elements and events (R29, R98, R418) -/

theorem commandTurn_runs {s : State} {tile eng : Nat} {i : Instr} (he : edgeNow s tile = true) (hr : (getTile s tile).removed = false)
    (hc : fetchCommand { s with focus := ⟨tile, (getTile s tile).active, 0, eng, 0⟩ } eng = .cmd i) :
    commandTurn s tile eng = .run { s with focus := ⟨tile, (getTile s tile).active, 0, eng, 0⟩ } i := by
  unfold commandTurn
  simp only [he, hr, hc]
  rfl

theorem moveTurn_runs {s : State} {tile elem : Nat} {i : Instr} (hr : (getTile s tile).removed = false)
    (hm : moveReady { s with focus := ⟨tile, (getTile s tile).active, 0, 0, elem⟩ } = true)
    (hd : decodeMove (imgMove (rxImage { s with focus := ⟨tile, (getTile s tile).active, 0, 0, elem⟩ }
      (curRx { s with focus := ⟨tile, (getTile s tile).active, 0, 0, elem⟩ }))
      (curRx { s with focus := ⟨tile, (getTile s tile).active, 0, 0, elem⟩ }).idx) = some i) :
    moveTurn s tile elem = .run { s with focus := ⟨tile, (getTile s tile).active, 0, 0, elem⟩ } i := by
  unfold moveTurn
  simp only [hr, hm, hd]
  rfl

/-! ### The beginning of a tick (R13) -/

/-- What every step of a fold keeps, the fold keeps. -/
theorem foldl_keeps {α β γ : Type} (g : β → γ) (f : β → α → β) (h : ∀ b x, g (f b x) = g b) (l : List α) (b : β) :
    g (l.foldl f b) = g b := by
  induction l generalizing b with
  | nil => rfl
  | cons x l ih => rw [List.foldl_cons, ih, h]

theorem settleRelease_dcc (s : State) (rel : Release) : (settleRelease s rel).2.dcc = s.dcc := by
  unfold settleRelease
  refine foldl_keeps State.dcc _ (fun b p => ?_) _ _
  dsimp only
  split <;> rfl

theorem releaseTick_dcc (s : State) : (releaseTick s).dcc = s.dcc := by
  unfold releaseTick
  rw [foldl_keeps State.dcc gearUpTile fun _ _ => rfl]
  refine foldl_keeps (fun a : State × List Release => a.1.dcc) _ (fun b rel => ?_) _ _
  dsimp only
  split
  · exact settleRelease_dcc b.1 rel
  · rfl

theorem bootStage_dcc (s : State) : (bootStage s).dcc = s.dcc := by
  unfold bootStage
  split
  · rfl
  · unfold verifyImage
    split
    · split <;> rfl
    · rfl
  · rfl

theorem beginTick_dcc (s : State) : (beginTick s).dcc = s.dcc + 1 := by
  change (releaseTick (bootStage { s with dcc := s.dcc + 1 })).dcc = _
  rw [releaseTick_dcc, bootStage_dcc]

end Sys2Proof

namespace Sys2Proof

open Sys2Proof.Machine Sys2Proof.Claim

/-- Settles O7: the decoder evaluated at each word. -/
theorem wordsDecodeToTheirInstructions : Obligations.WordsDecodeToTheirInstructions := by
  unfold Obligations.WordsDecodeToTheirInstructions
  decide +kernel

/-- Settles O8: a turn of a slot runs the decoded word, and the slot is taken as its instruction leaves it. -/
theorem stepRunsTheDecodedWord : Obligations.StepRunsTheDecodedWord := by
  intro s tile thr rest i hb
  constructor
  · intro vec ha s0 ⟨hfree, hiss, hredo, hpc⟩ hw
    rw [step_run ha hb (issueTurn_runs rfl hfree hiss hredo hpc hw), turnOutcome_issue (.inl rfl)]
    rfl
  · intro ha s0 hi hw htok
    rw [step_run ha hb (issueEarlyTurn_runs hi hw htok), turnOutcome_issue (.inr ⟨rfl, rfl⟩)]
    rfl

/-- Settles O9: each turn runs what it holds, and an instruction that is no word leaves the turn's state as it is. -/
theorem stepRunsCommandsMovesAndEvents : Obligations.StepRunsCommandsMovesAndEvents := by
  intro s rest hb s0
  refine ⟨?_, ?_, ?_, fun i ha he => ?_, fun ha => ⟨beginTick s, by rw [step, ha], beginTick_dcc s⟩⟩
  · intro tile eng i ha he hr s1 hc
    rw [step_run ha hb (commandTurn_runs he hr hc), turnOutcome_plain fun _ _ _ => rfl]
    rfl
  · intro tile eng i ha he hr hw s1 hc
    rw [step_run ha hb ((if_neg (by simpa using hw)).trans (commandTurn_runs he hr hc)), turnOutcome_plain fun _ _ _ => rfl]
    rfl
  · intro tile elem i ha hr s1 hm hd
    rw [step_run ha hb (moveTurn_runs hr hm hd), turnOutcome_plain fun _ _ _ => rfl]
    rfl
  · rw [step_run ha hb (if_pos he), turnOutcome_plain fun _ _ _ => rfl]

end Sys2Proof
end

section

namespace Sys2Proof

open Sys2Proof.Machine Sys2Proof.Claim

/-! ## The frame of a word with a scalar guard (R18, R19, R20, R135, R147) -/

/-- Every word whose guard is one bit runs an effect under that guard (R19). -/
theorem exec_runWord : ∀ f ∈ scalarForms ++ predicateForms ++ controlForms ++ unitForms, ∀ w s, ∃ eff, exec (f w) s = .next (runWord w s eff) := by
  simp only [List.forall_mem_append, ← List.forall_iff_forall_mem]
  refine ⟨⟨⟨?_, ?_⟩, ?_⟩, ?_⟩
  all_goals
    repeat' apply And.intro
    all_goals exact fun _ _ => ⟨_, rfl⟩

/-- The next word after one inside the window (R139). -/
theorem goPc_next {s : State} (hr : (curThread s).fl.redo = []) (hn : NextInside s) : goPc s ((curThread s).pc + 1) false = thenNext s :=
  goPc_inside false hr (by omega) (by have : (curThread s).pc + 1 < (curSet s).ilen := hn; omega)

theorem nextInside_issued {w : TWord} {s : State} : NextInside (issued w s) ↔ NextInside s := by
  unfold NextInside issued
  rw [curThread_markRestart, curSet_ilen_markRestart]

/-! ### Restart points (R20, R135) -/

/-- What the words of scalar and predicate arithmetic and of control flow do when they issue: an effect that never leaves the word
unissued, and that the mark of a restart point does not change. -/
def IssuesAnyway (f : TWord → Instr) (w : TWord) : Prop :=
  ∃ eff : State → Res, (∀ s, exec (f w) s = .next (runWord w s eff)) ∧
    (∀ s, exec (f { w with rst := false }) s = .next (runWord { w with rst := false } s eff)) ∧ ∀ s, eff s ≠ .hold

theorem illegalOperand_ne_hold (s : State) : illegalOperand s ≠ .hold := nofun

theorem issuesAnyway_loop (w : TWord) : IssuesAnyway .loop w := by
  refine ⟨_, fun _ => rfl, fun _ => rfl, fun s => ?_⟩
  dsimp only
  split
  · exact illegalOperand_ne_hold s
  · split <;> nofun

theorem issuesAnyway_endl (w : TWord) : IssuesAnyway .endl w := by
  refine ⟨_, fun _ => rfl, fun _ => rfl, fun s => ?_⟩
  dsimp only
  split <;> nofun

theorem issuesAnyway_kset (w : TWord) : IssuesAnyway .kset w := by
  refine ⟨_, fun _ => rfl, fun _ => rfl, fun s => ?_⟩
  dsimp only
  split
  · exact illegalOperand_ne_hold s
  · nofun

theorem issuesAnyway_of_mem (w : TWord) : ∀ f ∈ scalarForms ++ predicateForms ++ [.br, .bri, .call, .loop, .endl, .kset, .yield], IssuesAnyway f w := by
  simp only [List.forall_mem_append, ← List.forall_iff_forall_mem]
  refine ⟨⟨?_, ?_⟩, ?_, ?_, ?_, issuesAnyway_loop w, issuesAnyway_endl w, issuesAnyway_kset w, ?_⟩
  all_goals
    repeat' apply And.intro
    all_goals exact ⟨_, fun _ => rfl, fun _ => rfl, fun _ => nofun⟩

/-- A word whose effect lets it issue takes its snapshot first, and is then the word without the mark (R20). -/
theorem runWord_unmarked {w : TWord} {s : State} {eff : State → Res} (h : ∀ t, eff t ≠ .hold) :
    runWord w s eff = runWord { w with rst := false } (markRestart w s) eff := by
  unfold runWord
  rw [markRestart_none (w := { w with rst := false }) _ rfl, curThread_markRestart]
  dsimp only
  cases he : eff (markRestart w s) with
  | hold => exact absurd he (h _)
  | _ => rfl

/-- The snapshot of a restart point that issues (R135). -/
theorem markRestart_marked {w : TWord} {s : State} (hw : w.rst = true) (hst : (curThread s).st = .run) (hfl : (curThread s).fl = Flight.none) :
    markRestart w s = modCurSet s fun c => snapshotSet c s.focus.thr (curThread s).pc := by
  unfold markRestart
  simp [hw, hst, hfl, Flight.none, fetchPc]

/-- A set read after a set was changed: the changed one, or one that stands. -/
theorem getSet_modSet_cases (s : State) (tile set u i : Nat) (f : CtxSet → CtxSet) :
    (getSet s u i = getSet s tile set ∧ getSet (modSet s tile set f) u i = f (getSet s tile set)) ∨
      getSet (modSet s tile set f) u i = getSet s u i := by
  by_cases hu : u = tile
  · subst hu
    unfold modSet setSet getSet
    rw [getTile_modTile_same]
    unfold tileSet putTileSet
    by_cases hs : set = 0 <;> by_cases hi : i = 0 <;> simp [hs, hi]
  · exact .inr (congrArg (tileSet · i) (getTile_modTile_other s _ hu))

/-- A change of a set that keeps its threads keeps every thread. -/
theorem getThread_modSet {s : State} {tile set : Nat} {f : CtxSet → CtxSet} (hf : ∀ c, (f c).threads = c.threads) (u i n : Nat) :
    getThread (modSet s tile set f) u i n = getThread s u i n := by
  unfold getThread setThread?
  rcases getSet_modSet_cases s tile set u i f with ⟨h1, h2⟩ | h
  · rw [h2, hf, h1]
  · rw [h]

/-- A restart snapshot leaves every thread of every tile as it is. -/
theorem getThread_markRestart (w : TWord) (s : State) (u i n : Nat) : getThread (markRestart w s) u i n = getThread s u i n := by
  unfold markRestart
  dsimp only
  split
  · exact getThread_modSet (fun c => snapshotSet_threads c _ _) u i n
  · rfl

/-- A table listed for the first numbers. -/
theorem get_map_range {α : Type} (d : α) (f : Nat → α) {n k : Nat} (h : k < n) : Tab.get d ((List.range n).map fun e => (e, f e)) k = f k := by
  have find : ∀ (l : List Nat), k ∈ l → Tab.find? (l.map fun e => (e, f e)) k = some (f k) := by
    intro l hl
    induction l with
    | nil => cases hl
    | cons x l ih =>
      simp only [List.map_cons, Tab.find?]
      split
      next hx => rw [hx]
      next hx => exact ih ((List.mem_cons.1 hl).resolve_left hx)
  rw [Tab.get, find _ (List.mem_range.2 h), Option.getD_some]

theorem snapshotted_modCurSet (s : State) :
    Snapshotted s (modCurSet s fun c => snapshotSet c s.focus.thr (curThread s).pc) := by
  unfold Snapshotted
  rw [curSet_modCurSet]
  exact ⟨rfl, rfl, rfl, rfl, rfl, fun e he => get_map_range 0 _ he, fun r hr => get_map_range 0 _ hr, fun n hn => get_map_range 0 _ hn⟩

/-! ### Registers written -/

theorem writeS_focus (s : State) (d : Opnd) (v : BitVec 64) : (writeS s d v).focus = s.focus := by cases d <;> rfl

theorem writeS_pc (s : State) (d : Opnd) (v : BitVec 64) : (curThread (writeS s d v)).pc = (curThread s).pc := by
  cases d <;> simp [writeS]

theorem writeS_fl (s : State) (d : Opnd) (v : BitVec 64) : (curThread (writeS s d v)).fl = (curThread s).fl := by
  cases d <;> simp [writeS]

theorem writeS_ilen (s : State) (d : Opnd) (v : BitVec 64) : (curSet (writeS s d v)).ilen = (curSet s).ilen := by
  cases d with
  | s n =>
    change (curSet (modCurThread s _)).ilen = _
    rw [curSet_modCurThread]
    rfl
  | _ => rfl

/-! ### Words that leave the instruction window (R139, R147) -/

/-- A word that is done, or moves the PC, outside the window takes the trap of its own word, with its effect kept. -/
theorem goPc_leaves {s t : State} {pc : Int} (taken : Bool) (hf : t.focus = s.focus) (hpc : (curThread t).pc = (curThread s).pc)
    (hfl : (curThread t).fl = (curThread s).fl) (hr : (curThread s).fl.redo = []) (hi : (curSet t).ilen = (curSet s).ilen)
    (hout : pc < 0 ∨ ((curSet s).ilen : Int) ≤ pc) :
    goPc t pc taken = raiseTrap t s.focus.tile s.focus.set (wordRec 0x03 s.focus.thr (curThread s).pc 0 0) := by
  rw [goPc_outside taken (by rw [hfl, hr]) (by rw [hi]; exact hout), hf, hpc]

theorem goPc_issued {w : TWord} {s : State} {pc : Int} (taken : Bool) (hr : Runs w s) (hout : pc < 0 ∨ ((curSet s).ilen : Int) ≤ pc) :
    goPc (issued w s) pc taken = raiseTrap (issued w s) s.focus.tile s.focus.set (wordRec 0x03 s.focus.thr (curThread s).pc 0 0) :=
  goPc_leaves taken (markRestart_focus w s) (by rw [curThread_markRestart]) (by rw [curThread_markRestart]) hr.2
    (curSet_ilen_markRestart w s) hout

theorem goPc_writeS_issued {w : TWord} {s : State} {pc : Int} (taken : Bool) (d : Opnd) (v : BitVec 64) (hr : Runs w s)
    (hout : pc < 0 ∨ ((curSet s).ilen : Int) ≤ pc) :
    goPc (writeS (issued w s) d v) pc taken =
      raiseTrap (writeS (issued w s) d v) s.focus.tile s.focus.set (wordRec 0x03 s.focus.thr (curThread s).pc 0 0) :=
  goPc_leaves taken ((writeS_focus ..).trans (markRestart_focus w s)) (by rw [writeS_pc, curThread_markRestart])
    (by rw [writeS_fl, curThread_markRestart]) hr.2 ((writeS_ilen ..).trans (curSet_ilen_markRestart w s)) hout

theorem exec_nop (w : TWord) (s : State) : exec (.nop w) s = .next (runWord w s fun s1 => .done s1) := rfl

theorem exec_add {w : TWord} {s : State} (hg : guardHolds (curThread s) w.guard = true) : exec (.add w) s =
    .next (goPc (writeS (issued w s) w.d (scalarValue w.modf (fun _ _ a b => a + b) (srcA w (issued w s)) (srcB w (issued w s))))
      ((curThread s).pc + 1) false) :=
  congrArg Host.Outcome.next (runWord_done hg rfl)

theorem exec_call (w : TWord) (s : State) : exec (.call w) s =
    .next (runWord w s fun s1 => .jump (writeS s1 w.d (BitVec.ofInt 64 (curPc s1 + 1))) (curPc s1 + (argA w s1).toInt)) := rfl

theorem exec_bri (w : TWord) (s : State) : exec (.bri w) s = .next (runWord w s fun s1 => .jump s1 ((argA w s1).toNat : Int)) := rfl

/-! ### 64-bit signed arithmetic (R141) -/

theorem extw_signed64 (x : BitVec 64) : extw true 64 x.toNat = x.toInt := by
  have hlt := x.isLt
  simp only [extw, sextN, if_true, BitVec.toInt_eq_toNat_cond]
  rw [Nat.mod_eq_of_lt hlt]
  split <;> split <;> omega

theorem extendResult_signed64 (t : Int) : extendResult true 64 t = BitVec.ofInt 64 t := by
  apply BitVec.eq_of_toNat_eq
  change (BitVec.ofInt 64 (sextN (t % (2 ^ 64 : Nat)).toNat 64)).toNat = _
  have h : sextN (t % (2 ^ 64 : Nat)).toNat 64 = t % 2 ^ 64 ∨ sextN (t % (2 ^ 64 : Nat)).toNat 64 = t % 2 ^ 64 - 2 ^ 64 := by
    unfold sextN
    dsimp only
    split <;> omega
  rw [BitVec.toNat_ofInt, BitVec.toNat_ofInt]
  rcases h with h | h <;> rw [h] <;> omega

/-- A literal of S64 is sign-extended (R21). -/
theorem srcA_s64 {w : TWord} (h : w.modf = 0x107) (s : State) : srcA w s = readS false (curThread s) w.a := by
  rw [srcA, typeUnsigned, h]
  rfl

theorem srcB_s64 {w : TWord} (h : w.modf = 0x107) (s : State) : srcB w s = readS false (curThread s) w.b := by
  rw [srcB, typeUnsigned, h]
  rfl

/-- ADD.S64 adds modulo 2^64. -/
theorem scalarValue_add64 (a b : BitVec 64) : scalarValue 0x107 (fun _ _ x y => x + y) a b = a + b := by
  change extendResult true 64 (extw true 64 a.toNat + extw true 64 b.toNat) = _
  rw [extw_signed64, extw_signed64, extendResult_signed64, BitVec.ofInt_add, BitVec.ofInt_toInt, BitVec.ofInt_toInt]

end Sys2Proof

namespace Sys2Proof

open Sys2Proof.Machine Sys2Proof.Claim

/-- Settles O17: a false guard skips the effect, and a marked word is its unmarked form run after the snapshot. -/
theorem guardsAndRestartPoints : Obligations.GuardsAndRestartPoints := by
  constructor
  · intro f w s hf hg hr hn
    obtain ⟨eff, he⟩ := exec_runWord f hf w s
    have hr' : (curThread (issued w s)).fl.redo = [] := by rw [curThread_markRestart, hr]
    rw [he, runWord_skip eff hg, ← goPc_next hr' (nextInside_issued.2 hn), curThread_markRestart]
  · intro f w s hf hw hst hfl
    obtain ⟨eff, he, hu, hh⟩ := issuesAnyway_of_mem w f hf
    refine ⟨markRestart w s, ?_, ?_⟩
    · rw [he, hu, runWord_unmarked hh]
    · refine ⟨?_, ?_, markRestart_dcc w s, getThread_markRestart w s⟩ <;> rw [markRestart_marked hw hst hfl]
      · exact snapshotted_modCurSet s
      · rfl

/-- Settles O18: a malformed word and a PC outside the window stop the issue turn with their trap, and a word that leaves the window
takes it after its effect. -/
theorem fetchFaultsTrap : Obligations.FetchFaultsTrap := by
  refine ⟨?_, ?_, ?_⟩
  · intro s tile thr vec rest m ha hb s0 s1 pc ⟨hfree, hiss, hredo, hpc⟩ hw
    have hset : s1.focus.set = (getTile s0 tile).active := congrArg Focus.set (atWord_focus s0 tile thr)
    refine ⟨⟨false, .always, .zero, .zero, .zero, .zero, 0, 0⟩, ?_⟩
    rw [step_over ha hb (issueTurn_malformed (s := s0) rfl hfree hiss hredo hpc hw), hset]
    rfl
  · intro s tile thr rest ha hb s0 s1 hfree hiss hredo hpc
    have hset : s1.focus.set = (getTile s0 tile).active := congrArg Focus.set (atWord_focus s0 tile thr)
    rw [step_over ha hb (issueTurn_outside (s := s0) rfl hfree hiss hredo hpc), hset]
  · intro w s hr pc trapped
    have hpc : (curThread (issued w s)).pc = pc := by rw [curThread_markRestart]
    have harg : argA w (issued w s) = readS false (curThread s) w.a := by rw [argA, curThread_markRestart]
    refine ⟨fun hi hm => ?_, fun hi _ => ?_, fun _ hout => ?_, fun _ hi => ?_⟩
    · rw [exec_add hr.1, goPc_writeS_issued false _ _ hr (.inr (by omega)), srcA_s64 hm, srcB_s64 hm, hm,
        scalarValue_add64, curThread_markRestart]
    · rw [exec_nop, runWord_done hr.1 rfl, goPc_issued false hr (.inr (by omega))]
    · rw [exec_call, runWord_jump hr.1 rfl, curPc, harg, hpc, goPc_writeS_issued true _ _ hr hout, ← Nat.cast_add_one, BitVec.ofInt_natCast]
    · rw [exec_bri, runWord_jump hr.1 rfl, harg, goPc_issued true hr (.inr (by omega))]

end Sys2Proof
end

section

namespace Sys2Proof

open Sys2Proof.Machine Sys2Proof.Claim

/-! ## Scalar memory words (R26, R152, R153, R156, R284, R299) -/

/-! ### What the issue of a memory word leaves alone -/

/-- What a state has of memory, the focus, and the acting thread's registers and place, another state has too. -/
structure Unmoved (s t : State) : Prop where
  mem    : t.mem = s.mem
  sp     : ∀ u, (getTile t u).sp = (getTile s u).sp
  focus  : t.focus = s.focus
  pc     : (curThread t).pc = (curThread s).pc
  redo   : (curThread t).fl.redo = (curThread s).fl.redo
  sregs  : (curThread t).s = (curThread s).s
  pregs  : (curThread t).p = (curThread s).p
  ilen   : (curSet t).ilen = (curSet s).ilen

theorem Unmoved.refl (s : State) : Unmoved s s := ⟨rfl, fun _ => rfl, rfl, rfl, rfl, rfl, rfl, rfl⟩

theorem Unmoved.trans {s t u : State} (h : Unmoved s t) (k : Unmoved t u) : Unmoved s u :=
  ⟨k.mem.trans h.mem, fun n => (k.sp n).trans (h.sp n), k.focus.trans h.focus,
    k.pc.trans h.pc, k.redo.trans h.redo, k.sregs.trans h.sregs, k.pregs.trans h.pregs, k.ilen.trans h.ilen⟩

/-- Two such states with the same requests. -/
structure IssueFrame (s t : State) : Prop extends Unmoved s t where
  reqs   : t.reqs = s.reqs
  serial : t.serial = s.serial

theorem IssueFrame.refl (s : State) : IssueFrame s s := ⟨.refl s, rfl, rfl⟩

theorem IssueFrame.trans {s t u : State} (h : IssueFrame s t) (k : IssueFrame t u) : IssueFrame s u :=
  ⟨h.toUnmoved.trans k.toUnmoved, k.reqs.trans h.reqs, k.serial.trans h.serial⟩

/-- A change of a set keeps every scratchpad. -/
theorem getTile_modSet_sp (s : State) (tile set u : Nat) (f : CtxSet → CtxSet) : (getTile (modSet s tile set f) u).sp = (getTile s u).sp := by
  by_cases hu : u = tile
  · subst hu
    unfold modSet setSet
    rw [getTile_modTile_same]
    unfold putTileSet
    split <;> rfl
  · exact congrArg Tile.sp (getTile_modTile_other s _ hu)

/-- A change of the acting thread's flight that repeats the same loads. -/
theorem issueFrame_modCurThread (s : State) (f : Thread → Thread)
    (hf : ∀ x, (f x).pc = x.pc ∧ (f x).fl.redo = x.fl.redo ∧ (f x).s = x.s ∧ (f x).p = x.p) :
    IssueFrame s (modCurThread s f) := by
  obtain ⟨hpc, hr, hs, hp⟩ := hf (curThread s)
  refine ⟨⟨rfl, fun u => getTile_modSet_sp .., rfl, ?_, ?_, ?_, ?_, ?_⟩, rfl, rfl⟩
  case refine_5 =>
    rw [curSet_modCurThread]
    rfl
  all_goals
    rw [curThread_modCurThread]
    assumption

theorem issueFrame_markRestart (w : TWord) (s : State) : IssueFrame s (issued w s) := by
  refine ⟨⟨?_, ?_, markRestart_focus w s, ?_, ?_, ?_, ?_, curSet_ilen_markRestart w s⟩, ?_, ?_⟩
  case refine_2 =>
    intro u
    unfold issued markRestart
    dsimp only
    split
    · exact getTile_modSet_sp ..
    · rfl
  case refine_1 | refine_7 | refine_8 =>
    unfold issued markRestart
    dsimp only
    split <;> rfl
  all_goals rw [curThread_markRestart]

theorem learn_tiles (s : State) (k : Nat) (a : Agent) (acq : Bool) (sc : Nat) (l : List SyncRec) :
    ∃ known seen, learn s k a acq sc l = { s with known := known, seen := seen } := by
  unfold learn
  split
  · exact ⟨_, _, rfl⟩
  · split
    · exact ⟨_, _, rfl⟩
    · exact ⟨_, _, rfl⟩

/-- A satisfied fence that is over changes what its thread has learned and publishes, and its flight. -/
theorem issueFrame_endFence (s : State) : IssueFrame s (endFence s) := by
  unfold endFence
  split
  · exact .refl s
  next f _ =>
    dsimp only
    refine IssueFrame.trans ?_ (issueFrame_modCurThread _ _ fun x => ⟨rfl, rfl, rfl, rfl⟩)
    obtain ⟨known, seen, hl⟩ := learn_tiles s (curKey s) (curAgent s) true f.scope (Tab.get [] s.seen (curKey s))
    rw [hl]
    split <;> split <;> exact ⟨⟨rfl, fun _ => rfl, rfl, rfl, rfl, rfl, rfl, rfl⟩, rfl, rfl⟩

theorem issueFrame_memoryBegin (s : State) : IssueFrame s (memoryBegin s) :=
  (issueFrame_endFence s).trans (issueFrame_modCurThread _ _ fun _ => ⟨rfl, rfl, rfl, rfl⟩)

theorem issueFrame_busyUntil (s : State) (d : Opnd) (id : Nat) : IssueFrame s (busyUntil s d id) := by
  cases d with
  | s n => exact issueFrame_modCurThread _ _ fun _ => ⟨rfl, rfl, rfl, rfl⟩
  | _ => exact .refl s

/-! ### The checks of an access (R152, R284) -/

/-- A restart snapshot changes nothing that the checks of an access read. -/
theorem checkAddress_issued (w : TWord) (s : State) (va n : Nat) (nr nw : Bool) (k : AccessKind) :
    checkAddress (issued w s) va n nr nw k = checkAddress s va n nr nw k := by
  have hth : curThread (issued w s) = curThread s := curThread_markRestart w s
  have hset : (curSet (issued w s)).ctx = (curSet s).ctx ∧ (curSet (issued w s)).splen = (curSet s).splen ∧
      (curSet (issued w s)).spbase = (curSet s).spbase := by
    unfold issued markRestart
    dsimp only
    split
    · rw [curSet_modCurSet]
      exact ⟨rfl, rfl, rfl⟩
    · exact ⟨rfl, rfl, rfl⟩
  have hfields : (issued w s).columns = s.columns ∧ (issued w s).ctxs = s.ctxs ∧ (issued w s).tlb = s.tlb := by
    unfold issued markRestart
    dsimp only
    split <;> exact ⟨rfl, rfl, rfl⟩
  obtain ⟨hctx, hlen, hbase⟩ := hset
  obtain ⟨hcol, hctxs, htlb⟩ := hfields
  unfold checkAddress Machine.translate mappingOf physOf getCtx curCtx shareBytes spPhys
  rw [hth, hctx, hlen, hbase, hcol, hctxs, htlb, markRestart_focus]

theorem performedId_issued (w : TWord) (s : State) (g : Agent) (code id : Nat) :
    performedId (issued w s) g code id = performedId s g code id := by
  unfold performedId findReq
  rw [(issueFrame_markRestart w s).reqs]

theorem memoryReady_issued {w : TWord} {s : State} (h : MemoryOpen s) : memoryReady (issued w s) = true := by
  obtain ⟨hfence, hpark⟩ := h
  have hwalks : (issued w s).walks = s.walks := by
    unfold issued markRestart
    dsimp only
    split <;> rfl
  have hf : fenceMet (issued w s) s.focus.tile s.focus.set s.focus.thr = true := by
    rw [← hfence]
    unfold fenceMet
    rw [getThread_markRestart]
    simp only [performedId_issued]
  unfold memoryReady parkedOn curAgent
  rw [markRestart_focus, hf, hwalks, Bool.true_and]
  simpa [parkedOn, curAgent] using hpark

/-! ### The fields of a memory word (R24, R26) -/

theorem bits_eq_extractLsb' {n : Nat} (m : BitVec n) (hi lo : Nat) : bits m.toNat hi lo = (m.extractLsb' lo (hi + 1 - lo)).toNat := by
  rw [bits, BitVec.extractLsb'_toNat, Nat.shiftRight_eq_div_pow]

theorem accessSize_eq (w : TWord) : accessSize w.modf = accessBytes w := congrArg (2 ^ ·) (bits_eq_extractLsb' w.modf 25 24)

theorem modFn_eq (m : BitVec 32) : modFn m = (m.extractLsb' 28 4).toNat := bits_eq_extractLsb' m 31 28

theorem modSx_eq (m : BitVec 32) : modSx m = m.getLsbD 26 := by
  rw [modSx, bit, BitVec.getLsbD, Nat.testBit_eq_decide_div_mod_eq]
  rfl

theorem effAddr_eq (w : TWord) (s : State) :
    effAddr w s = (readS false (curThread s) w.a + readS false (curThread s) w.b).toNat % 2 ^ 56 := by
  rw [effAddr, argA, argB, BitVec.toNat_add]
  omega

/-- The address of an access is the same when the word has issued. -/
theorem accessVa_issued (i : Instr) (w : TWord) (s : State) : accessVa i w (issued w s) = accessVa i w s := by
  unfold accessVa
  rw [curThread_markRestart]

/-! ### What a memory word asks (R153, R156) -/

/-- A request of the acting thread before it is sent: what it says of its access. -/
structure Asks (i : Instr) (w : TWord) (o : ReqOp) (l : Loc) (s s2 : State) (q : Req) : Prop where
  id    : q.id = s2.serial
  agent : q.agent = curAgent s2
  op    : q.op = o
  va    : q.va = accessVa i w s
  loc   : q.loc = l
  size  : q.size = accessBytes w
  pc    : q.pc = fetchPc (curThread s2)
  held  : q.stage = .held
  val   : o ≠ .load → q.val = readS false (curThread s) w.c
  cmp   : o = .cas → q.cmp = readS false (curThread s) w.b
  dst   : ∀ n, o ≠ .store → w.d = .s n → q.dst = .sreg n
  sx    : o ≠ .store → q.sx = w.modf.getLsbD 26

theorem asks_loadReq (w : TWord) (s s2 : State) (loc : Loc) :
    Asks (.ld w) w .load loc s s2 (loadReq s2 w (accessVa (.ld w) w s) loc) where
  id := rfl
  agent := rfl
  op := rfl
  va := rfl
  loc := rfl
  size := accessSize_eq w
  pc := rfl
  held := rfl
  val h := absurd rfl h
  cmp h := nomatch h
  dst n _ h := by simp [loadReq, h]
  sx _ := modSx_eq _

theorem asks_storeReq (w : TWord) (s s2 : State) (loc : Loc) :
    Asks (.st w) w .store loc s s2 (storeReq s2 w (accessVa (.st w) w s) loc (argC w s)) where
  id := rfl
  agent := rfl
  op := rfl
  va := rfl
  loc := rfl
  size := accessSize_eq w
  pc := rfl
  held := rfl
  val _ := rfl
  cmp h := nomatch h
  dst _ h := absurd rfl h
  sx h := absurd rfl h

theorem asks_atomReq {i : Instr} {w : TWord} (op : ReqOp) (s s2 : State) (loc : Loc) {cmp : BitVec 64}
    (hc : op = .cas → cmp = readS false (curThread s) w.b) :
    Asks i w op loc s s2 (atomReq s2 w op (accessVa i w s) loc (argC w s) cmp) where
  id := rfl
  agent := rfl
  op := rfl
  va := rfl
  loc := rfl
  size := accessSize_eq w
  pc := rfl
  held := rfl
  val _ := rfl
  cmp := hc
  dst n _ h := by simp [atomReq, h]
  sx _ := modSx_eq _

/-- Each memory word checks its address and then sends one request, whose answer its destination may await. -/
theorem exec_access {w : TWord} {i : Instr} {nr nw : Bool} {k : AccessKind} {op : ReqOp} (h : (i, nr, nw, k, op) ∈ accessForms w) :
    ∃ go : State → State → Loc → Res,
      (∀ s, exec i s = .next (runWord w s fun s1 => scalarAccess s1 (accessVa i w s1) (accessBytes w) nr nw k (go s1))) ∧
      ∀ s s2 loc, ∃ q d, go s s2 loc = .done (busyUntil (pushReq s2 q) d s2.serial) ∧ Asks i w op loc s s2 q := by
  simp only [accessForms, List.mem_cons, Prod.mk.injEq, List.not_mem_nil, or_false] at h
  rcases h with ⟨rfl, rfl, rfl, rfl, rfl⟩ | ⟨rfl, rfl, rfl, rfl, rfl⟩ | ⟨rfl, rfl, rfl, rfl, rfl⟩ | ⟨rfl, rfl, rfl, rfl, rfl⟩
  · refine ⟨fun s1 s2 loc => .done (busyUntil (pushReq s2 (loadReq s2 w (accessVa (.ld w) w s1) loc)) w.d s2.serial), fun s => ?_,
      fun s s2 loc => ⟨_, _, rfl, asks_loadReq w s s2 loc⟩⟩
    rw [exec, execLd]
    simp only [effAddr_eq, accessSize_eq]
    rfl
  · refine ⟨fun s1 s2 loc => .done (pushReq s2 (storeReq s2 w (accessVa (.st w) w s1) loc (argC w s1))), fun s => ?_,
      fun s s2 loc => ⟨_, .zero, rfl, asks_storeReq w s s2 loc⟩⟩
    rw [exec, execSt]
    simp only [effAddr_eq, accessSize_eq]
    rfl
  · refine ⟨fun s1 s2 loc => .done (busyUntil (pushReq s2 (atomReq s2 w (.atom (w.modf.extractLsb' 28 4).toNat) (accessVa (.atom w) w s1) loc
      (argC w s1) 0)) w.d s2.serial), fun s => ?_, fun s s2 loc => ⟨_, _, rfl, asks_atomReq _ s s2 loc nofun⟩⟩
    rw [exec, execAtom]
    simp only [effAddr_eq, accessSize_eq, modFn_eq]
    rfl
  · refine ⟨fun s1 s2 loc => .done (busyUntil (pushReq s2 (atomReq s2 w .cas (accessVa (.cas w) w s1) loc (argC w s1) (argB w s1))) w.d
      s2.serial), fun s => ?_, fun s s2 loc => ⟨_, _, rfl, asks_atomReq _ s s2 loc fun _ => rfl⟩⟩
    rw [exec, execCas]
    simp only [accessSize_eq]
    rfl

/-! ### Accesses that go on, and those that trap -/

/-- An access that passes its checks goes on when its thread's fence and walk are over (R152). -/
theorem scalarAccess_ok {s : State} {va n : Nat} {nr nw : Bool} {k : AccessKind} {go : State → Loc → Res} {loc : Loc}
    (hr : memoryReady s = true) (ha : va % n = 0) (hc : checkAddress s va n nr nw k = .ok loc) :
    scalarAccess s va n nr nw k go = go (memoryBegin s) loc := by
  simp [scalarAccess, hr, ha, hc]

theorem scalarAccess_misaligned {s : State} {va n : Nat} {nr nw : Bool} {k : AccessKind} {go : State → Loc → Res}
    (hr : memoryReady s = true) (ha : va % n ≠ 0) : scalarAccess s va n nr nw k go = trapAt s 0x04 va := by
  simp [scalarAccess, hr, ha]

theorem scalarAccess_trap {s : State} {va n c : Nat} {nr nw : Bool} {k : AccessKind} {go : State → Loc → Res}
    (hr : memoryReady s = true) (ha : va % n = 0) (hc : checkAddress s va n nr nw k = .trap c) :
    scalarAccess s va n nr nw k go = trapAt s c va := by
  simp [scalarAccess, hr, ha, hc]

/-- A request sent is the last in the list, held or on its way (R299). -/
theorem pushReq_reqs (s : State) (q : Req) :
    ∃ st due, (pushReq s q).reqs = s.reqs ++ [{ q with stage := st, due := due }] ∧ (st = q.stage ∨ st = .sent) := by
  unfold pushReq
  dsimp only
  by_cases h : orderMet { s with serial := s.serial + 1 } q = true
  · simp only [h, if_true]
    exact ⟨_, _, rfl, .inr rfl⟩
  · simp only [h]
    exact ⟨_, _, rfl, .inl rfl⟩

theorem unmoved_pushReq (s : State) (q : Req) : Unmoved s (pushReq s q) := ⟨rfl, fun _ => rfl, rfl, rfl, rfl, rfl, rfl, rfl⟩

/-- The next word follows, with nothing else moved. -/
theorem thenNext_frame (s : State) : (thenNext s).mem = s.mem ∧ (∀ u, (getTile (thenNext s) u).sp = (getTile s u).sp) ∧
    (thenNext s).reqs = s.reqs ∧ (curThread (thenNext s)).pc = (curThread s).pc + 1 ∧ (curThread (thenNext s)).s = (curThread s).s ∧
    (curThread (thenNext s)).p = (curThread s).p := by
  unfold thenNext thenAt
  rw [curThread_modCurThread]
  exact ⟨rfl, fun u => getTile_modSet_sp .., rfl, rfl, rfl, rfl⟩

/-! ### The checks that fail (R152, R284) -/

theorem accessForms_kind {w : TWord} {i : Instr} {nr nw : Bool} {k : AccessKind} {op : ReqOp} (h : (i, nr, nw, k, op) ∈ accessForms w) :
    k ≠ .versioned := by
  simp only [accessForms, List.mem_cons, Prod.mk.injEq, List.not_mem_nil, or_false] at h
  have hord : ordKind w.modf ≠ .versioned := by
    unfold ordKind
    split <;> nofun
  rcases h with ⟨-, -, -, rfl, -⟩ | ⟨-, -, -, rfl, -⟩ | ⟨-, -, -, rfl, -⟩ | ⟨-, -, -, rfl, -⟩
  · exact hord
  · exact hord
  · nofun
  · nofun

/-- An SC access to the scratchpad aperture (R284). -/
theorem checkAddress_aperture_sc {s : State} {va n : Nat} (nr nw : Bool) (ha : apertureBase ≤ va) : checkAddress s va n nr nw .sc = .trap 0x07 := by
  simp [checkAddress, ha]

/-- An access past the context's share (R284). -/
theorem checkAddress_aperture_bound {s : State} {va n : Nat} (nr nw : Bool) {k : AccessKind} (ha : apertureBase ≤ va) (hs : k ≠ .sc)
    (hv : k ≠ .versioned) (hlen : shareBytes (curSet s) < va - apertureBase + n) : checkAddress s va n nr nw k = .trap 0x08 := by
  simp [checkAddress, ha, hs, hv, hlen]

/-- A mapping that does not permit the access (R152). -/
theorem checkAddress_permission {s : State} {va n pa : Nat} {m : Mapping} {nr nw : Bool} (k : AccessKind) (ha : va < apertureBase)
    (ht : translate s s.focus.tile (curCtx s) (curThread s).fl.walked va = .hit pa m)
    (hm : (nr = true ∧ m.r = false) ∨ (nw = true ∧ m.w = false)) : checkAddress s va n nr nw k = .trap 0x06 := by
  unfold checkAddress
  rw [if_neg (Nat.not_le.2 ha), ht]
  exact if_pos (by simpa using hm)

/-- The trap of an access whose word executes (R139, R245). -/
theorem exec_access_traps {w : TWord} {s : State} {i : Instr} {nr nw : Bool} {k : AccessKind} {op : ReqOp}
    (h : (i, nr, nw, k, op) ∈ accessForms w) (hr : Runs w s) {c : Nat}
    (ht : ∀ go, scalarAccess (issued w s) (accessVa i w s) (accessBytes w) nr nw k go = trapAt (issued w s) c (accessVa i w s)) :
    exec i s = wordTraps w s c (accessVa i w s) 0 := by
  obtain ⟨go, he, -⟩ := exec_access h
  rw [he, runWord_trap hr.1 (t := issued w s) (r := wordRec c s.focus.thr (curThread s).pc (accessVa i w s) 0)]
  · rfl
  · rw [accessVa_issued, ht, trapAt, curThread_markRestart, markRestart_focus, fetchPc_of_redo hr.2]

end Sys2Proof

namespace Sys2Proof

open Sys2Proof.Machine Sys2Proof.Claim

/-- Settles O20: the word's request is the last in the list, and nothing that a request's issue touches is memory or a register. -/
theorem memoryWordsSendOneRequest : Obligations.MemoryWordsSendOneRequest := by
  intro w s i nr nw k op loc h hr hn ho ha hc
  obtain ⟨go, he, hgo⟩ := exec_access h
  obtain ⟨q, d, hq, hask⟩ := hgo (issued w s) (memoryBegin (issued w s)) loc
  have hin := (issueFrame_markRestart w s).trans (issueFrame_memoryBegin _)
  generalize hs2 : memoryBegin (issued w s) = s2 at hq hask hin
  obtain ⟨st, due, hp, hst⟩ := pushReq_reqs s2 q
  have hbusy := issueFrame_busyUntil (pushReq s2 q) d s2.serial
  have hdone : scalarAccess (issued w s) (accessVa i w (issued w s)) (accessBytes w) nr nw k (go (issued w s)) =
      .done (busyUntil (pushReq s2 q) d s2.serial) := by
    rw [accessVa_issued, scalarAccess_ok (memoryReady_issued ho) ha (by rw [checkAddress_issued, hc]), hs2, hq]
  have hall := hin.toUnmoved.trans ((unmoved_pushReq s2 q).trans hbusy.toUnmoved)
  have hnext : NextInside (busyUntil (pushReq s2 q) d s2.serial) := by
    unfold NextInside
    rw [hall.pc, hall.ilen]
    exact hn
  obtain ⟨hmem, hsp, hreqs, hpc, hsregs, hpregs⟩ := thenNext_frame (busyUntil (pushReq s2 q) d s2.serial)
  have hexec : exec i s = .next (thenNext (busyUntil (pushReq s2 q) d s2.serial)) := by
    rw [he, runWord_done hr.1 hdone, ← goPc_next (hall.redo.trans hr.2) hnext, hall.pc]
  refine ⟨_, { q with stage := st, due := due }, hexec, ?_, hask.id.trans hin.serial, ?_, hask.op, hask.va.trans (accessVa_issued i w s), hask.loc,
    hask.size, ?_, fun h => ?_, fun h => ?_, hask.dst, hask.sx, ?_, hmem.trans hall.mem, fun u => (hsp u).trans (hall.sp u),
    hpc.trans (by rw [hall.pc]), hsregs.trans hall.sregs, hpregs.trans hall.pregs⟩
  · rw [hreqs, hbusy.reqs, hp, hin.reqs]
  · exact hask.agent.trans (by rw [curAgent, hin.focus])
  · exact hask.pc.trans (by rw [fetchPc_of_redo (hin.redo.trans hr.2), hin.pc])
  · exact (hask.val h).trans (by rw [curThread_markRestart])
  · exact (hask.cmp h).trans (by rw [curThread_markRestart])
  · exact hst.imp_left (·.trans hask.held)

/-- Settles O21: each check of R152 that fails is the trap of the word. -/
theorem scalarAccessChecksTrap : Obligations.ScalarAccessChecksTrap := by
  intro w s i nr nw k op h hr ho va n
  have hready := memoryReady_issued (w := w) ho
  have trap : ∀ c, checkAddress s va n nr nw k = .trap c → va % n = 0 → exec i s = wordTraps w s c va 0 := fun c hc ha =>
    exec_access_traps h hr fun go => scalarAccess_trap hready ha (by rw [checkAddress_issued, hc])
  refine ⟨fun ha => exec_access_traps h hr fun go => scalarAccess_misaligned hready ha, fun ha hap hk hlen => trap _ ?_ ha,
    fun ha hap hk => trap _ ?_ ha, fun pa m ha hap ht hm => trap _ ?_ ha⟩
  · exact checkAddress_aperture_bound nr nw hap hk (accessForms_kind h) hlen
  · exact hk ▸ checkAddress_aperture_sc nr nw hap
  · exact checkAddress_permission k hap ht hm

end Sys2Proof
end

section

namespace Sys2Proof

open Sys2Proof.Machine Sys2Proof.Claim

/-! ## Rounding to nearest (R24, R40, R61, R62)

A magnitude code stands for `m` units of `2 ^ e`, and the next code for the next unit; a magnitude is rounded to a count of units. So the
code lies at most half a unit from the operand on either side, which makes it the nearest of all codes. -/

/-! ### Rationals and powers of two -/

theorem ratio_fracScale (m e : Int) : ratio (fracScale m e) = m * (2 : ℚ) ^ e := by
  unfold ratio fracScale
  split
  next h =>
    obtain ⟨k, rfl⟩ := Int.eq_ofNat_of_zero_le h
    simp
  next h =>
    obtain ⟨k, rfl⟩ : ∃ k : Nat, e = -(k : Int) := ⟨(-e).toNat, by omega⟩
    simp [zpow_neg, div_eq_mul_inv]

theorem ratio_fracNeg (x : Frac) : ratio (fracNeg x) = -ratio x := by
  simp [ratio, fracNeg, neg_div]

/-- The quotient of two numbers lies between the powers of two on either side of the difference of their logarithms. -/
theorem div_between_log2 {n d : Nat} (hn : 0 < n) (hd : 0 < d) :
    (2 : ℚ) ^ ((Nat.log2 n : Int) - Nat.log2 d - 1) ≤ (n : ℚ) / d ∧ (n : ℚ) / d < 2 ^ ((Nat.log2 n : Int) - Nat.log2 d + 1) := by
  have hd' : (0 : ℚ) < d := by exact_mod_cast hd
  have hn1 : (2 : ℚ) ^ Nat.log2 n ≤ n := by exact_mod_cast Nat.log2_self_le hn.ne'
  have hn2 : (n : ℚ) < 2 ^ (Nat.log2 n + 1) := by exact_mod_cast Nat.lt_log2_self
  have hd1 : (2 : ℚ) ^ Nat.log2 d ≤ d := by exact_mod_cast Nat.log2_self_le hd.ne'
  have hd2 : (d : ℚ) < 2 ^ (Nat.log2 d + 1) := by exact_mod_cast Nat.lt_log2_self
  have hpow : ∀ a b : Nat, (2 : ℚ) ^ ((a : Int) - b) * 2 ^ b = 2 ^ a := fun a b => by
    rw [← zpow_natCast, ← zpow_add₀ two_ne_zero, sub_add_cancel, zpow_natCast]
  have hlo := hpow (Nat.log2 n) (Nat.log2 d + 1)
  have hhi := hpow (Nat.log2 n + 1) (Nat.log2 d)
  push_cast at hlo hhi
  rw [← sub_sub] at hlo
  rw [add_sub_right_comm] at hhi
  constructor
  · rw [le_div_iff₀ hd']
    calc (2 : ℚ) ^ ((Nat.log2 n : Int) - Nat.log2 d - 1) * d
        ≤ 2 ^ ((Nat.log2 n : Int) - Nat.log2 d - 1) * 2 ^ (Nat.log2 d + 1) := by gcongr
      _ ≤ n := hlo ▸ hn1
  · rw [div_lt_iff₀ hd']
    calc (n : ℚ) < 2 ^ (Nat.log2 n + 1) := hn2
      _ = 2 ^ ((Nat.log2 n : Int) - Nat.log2 d + 1) * 2 ^ Nat.log2 d := hhi.symm
      _ ≤ 2 ^ ((Nat.log2 n : Int) - Nat.log2 d + 1) * d := by gcongr

/-- The comparison by which floorLog2 decides. -/
theorem two_zpow_le_div_iff (n : Nat) {d : Nat} (hd : 0 < d) (k : Int) :
    (if 0 ≤ k then d * 2 ^ k.toNat ≤ n else d ≤ n * 2 ^ (-k).toNat) ↔ (2 : ℚ) ^ k ≤ (n : ℚ) / d := by
  rw [le_div_iff₀ (by exact_mod_cast hd)]
  split
  next hk =>
    obtain ⟨j, rfl⟩ := Int.eq_ofNat_of_zero_le hk
    rw [zpow_natCast, mul_comm]
    exact_mod_cast Iff.rfl
  next hk =>
    obtain ⟨j, rfl⟩ : ∃ j : Nat, k = -(j : Int) := ⟨(-k).toNat, by omega⟩
    rw [zpow_neg, zpow_natCast, inv_mul_le_iff₀ (by positivity), neg_neg, mul_comm]
    exact_mod_cast Iff.rfl

/-- The exponent of a positive rational (R62). -/
theorem floorLog2_spec {n d : Nat} (hn : 0 < n) (hd : 0 < d) :
    (2 : ℚ) ^ floorLog2 n d ≤ (n : ℚ) / d ∧ (n : ℚ) / d < 2 ^ (floorLog2 n d + 1) := by
  obtain ⟨hlo, hhi⟩ := div_between_log2 hn hd
  have htest := two_zpow_le_div_iff n hd ((Nat.log2 n : Int) - Nat.log2 d)
  have hres : floorLog2 n d = if (2 : ℚ) ^ ((Nat.log2 n : Int) - Nat.log2 d) ≤ (n : ℚ) / d then (Nat.log2 n : Int) - Nat.log2 d
      else (Nat.log2 n : Int) - Nat.log2 d - 1 := by
    simp only [← htest]
    unfold floorLog2
    dsimp only
    split_ifs <;> rfl
  rw [hres]
  split
  next h => exact ⟨h, hhi⟩
  next h => exact ⟨hlo, by rw [sub_add_cancel]; exact not_le.1 h⟩

/-- A magnitude rounded to nearest: within half of the divisor, and even at half (R24 RNE). -/
theorem roundMag_rne (neg : Bool) (n : Nat) {d : Nat} (hd : 0 < d) :
    let m := roundMag neg n d .rne
    2 * (m * d) ≤ 2 * n + d ∧ 2 * n ≤ 2 * (m * d) + d ∧ (m % 2 = 1 → 2 * (m * d) < 2 * n + d ∧ 2 * n < 2 * (m * d) + d) := by
  have hdiv := Nat.div_add_mod n d
  have hlt := Nat.mod_lt n hd
  simp only [roundMag]
  rw [Nat.mul_comm d] at hdiv
  have hs : (n / d + 1) * d = n / d * d + d := Nat.succ_mul ..
  generalize n / d = q at *
  generalize hqd : q * d = a at *
  split
  · rw [hs]; omega
  · split
    · have : q % 2 = 0 ∨ q % 2 = 1 := by omega
      rcases this with h | h <;> rw [h]
      · rw [Nat.add_zero, hqd]; omega
      · rw [hs]; omega
    · rw [hqd]; omega

/-! ### Magnitude codes (R40) -/

/-- The value of a magnitude code. -/
def magOf (f : FloatFmt) (c : Nat) : ℚ := ratio (floatMag f c)

/-- The unit of the codes whose exponent field is `E + 1`, and of the subnormals for `E = 0`. -/
def unitOf (f : FloatFmt) (E : Nat) : ℚ := 2 ^ ((E : Int) + 1 - f.bias - f.fbits)

theorem unitOf_pos (f : FloatFmt) (E : Nat) : 0 < unitOf f E := zpow_pos two_pos _

theorem unitOf_succ (f : FloatFmt) (E : Nat) : unitOf f (E + 1) = 2 * unitOf f E := by
  unfold unitOf
  rw [← zpow_one_add₀ two_ne_zero]
  congr 1
  push_cast
  ring

/-- A code counts units (R40). -/
theorem magOf_units (f : FloatFmt) (E m : Nat) (hE : E = 0 ∨ 2 ^ f.fbits ≤ m) (hm : m ≤ 2 ^ (f.fbits + 1)) :
    magOf f (E * 2 ^ f.fbits + m) = m * unitOf f E := by
  have hpos : 0 < 2 ^ f.fbits := by positivity
  have hnormal : ∀ X k : Nat, k < 2 ^ f.fbits → magOf f ((X + 1) * 2 ^ f.fbits + k) = ((2 ^ f.fbits + k : Nat) : ℚ) * unitOf f X := by
    intro X k hk
    have hx : ((X + 1) * 2 ^ f.fbits + k) / 2 ^ f.fbits = X + 1 := by
      rw [Nat.mul_comm, Nat.mul_add_div hpos, Nat.div_eq_of_lt hk, Nat.add_zero]
    have hr : ((X + 1) * 2 ^ f.fbits + k) % 2 ^ f.fbits = k := by rw [Nat.mul_comm, Nat.mul_add_mod, Nat.mod_eq_of_lt hk]
    unfold magOf floatMag
    simp only [hx, hr]
    rw [if_neg (Nat.succ_ne_zero X), ratio_fracScale]
    push_cast
    rfl
  rw [pow_succ] at hm
  rcases Nat.lt_or_ge m (2 ^ f.fbits) with hlt | hge
  · obtain rfl : E = 0 := hE.resolve_right (by omega)
    have hx : (0 * 2 ^ f.fbits + m) / 2 ^ f.fbits = 0 := by rw [Nat.zero_mul, Nat.zero_add, Nat.div_eq_of_lt hlt]
    have hr : (0 * 2 ^ f.fbits + m) % 2 ^ f.fbits = m := by rw [Nat.zero_mul, Nat.zero_add, Nat.mod_eq_of_lt hlt]
    unfold magOf floatMag
    simp only [hx, hr]
    rw [if_pos trivial, ratio_fracScale, unitOf]
    simp
  · obtain ⟨k, rfl⟩ := Nat.exists_eq_add_of_le hge
    rcases Nat.lt_or_ge k (2 ^ f.fbits) with hk | hk
    · rw [← hnormal E k hk]
      congr 1
      ring
    · obtain rfl : k = 2 ^ f.fbits := by omega
      rw [show E * 2 ^ f.fbits + (2 ^ f.fbits + 2 ^ f.fbits) = (E + 1 + 1) * 2 ^ f.fbits + 0 by ring, hnormal _ 0 hpos, unitOf_succ]
      push_cast
      ring

theorem magOf_zero (f : FloatFmt) : magOf f 0 = 0 := by
  simpa using magOf_units f 0 0 (.inl rfl) (Nat.zero_le _)

/-- Every code counts units, one short of the next binade. -/
theorem exists_units (f : FloatFmt) (c : Nat) : ∃ E m, c = E * 2 ^ f.fbits + m ∧ (E = 0 ∨ 2 ^ f.fbits ≤ m) ∧ m < 2 ^ (f.fbits + 1) := by
  have hpos : 0 < 2 ^ f.fbits := by positivity
  have hdiv := Nat.div_add_mod' c (2 ^ f.fbits)
  have hlt := Nat.mod_lt c hpos
  rw [pow_succ]
  rcases Nat.eq_zero_or_pos (c / 2 ^ f.fbits) with h | h
  · rw [h] at hdiv
    exact ⟨0, c, by simp, .inl rfl, by omega⟩
  · refine ⟨c / 2 ^ f.fbits - 1, 2 ^ f.fbits + c % 2 ^ f.fbits, ?_, .inr (Nat.le_add_right _ _), by omega⟩
    obtain ⟨k, hk⟩ : ∃ k, c / 2 ^ f.fbits = k + 1 := ⟨_, (Nat.succ_pred_eq_of_pos h).symm⟩
    rw [hk] at hdiv ⊢
    rw [Nat.succ_mul] at hdiv
    rw [Nat.add_sub_cancel]
    omega

theorem magOf_strictMono (f : FloatFmt) : StrictMono (magOf f) := by
  refine strictMono_nat_of_lt_succ fun c => ?_
  obtain ⟨E, m, rfl, hE, hm⟩ := exists_units f c
  rw [magOf_units f E m hE hm.le, Nat.add_assoc, magOf_units f E (m + 1) (hE.imp_right fun h => h.trans (Nat.le_succ m)) hm]
  have := unitOf_pos f E
  push_cast
  nlinarith

/-! ### The rounded code (R62) -/

/-- A code lies at no more than half a unit from a magnitude, on either side, and at less if it is odd. -/
structure Halfway (f : FloatFmt) (y : ℚ) (c : Nat) : Prop where
  above : 2 * y ≤ magOf f c + magOf f (c + 1)
  below : 0 < c → magOf f (c - 1) + magOf f c ≤ 2 * y
  odd   : c % 2 = 1 → 2 * y < magOf f c + magOf f (c + 1) ∧ magOf f (c - 1) + magOf f c < 2 * y

/-- Such a code is a nearest one, and an even one where another is as near. -/
theorem Halfway.nearest {f : FloatFmt} {y : ℚ} {c : Nat} (h : Halfway f y c) (k : Nat) :
    |magOf f c - y| ≤ |magOf f k - y| ∧ (|magOf f c - y| = |magOf f k - y| → k ≠ c → c % 2 = 0) := by
  have hmono := magOf_strictMono f
  rcases lt_trichotomy k c with hk | rfl | hk
  · have hprev : magOf f k ≤ magOf f (c - 1) := hmono.monotone (by omega)
    have hlt : magOf f k < magOf f c := hmono hk
    have hb := h.below (by omega)
    have hle : |magOf f c - y| ≤ y - magOf f k := abs_le.2 ⟨by linarith, by linarith⟩
    have hk' : |magOf f k - y| = y - magOf f k := by rw [abs_sub_comm, abs_of_nonneg (by linarith)]
    refine ⟨hle.trans_eq hk'.symm, fun heq _ => ?_⟩
    by_contra hodd
    obtain ⟨-, hb'⟩ := h.odd (by omega)
    rw [hk'] at heq
    rcases abs_cases (magOf f c - y) with ⟨ha, -⟩ | ⟨ha, -⟩ <;> linarith
  · exact ⟨le_rfl, fun _ hne => absurd rfl hne⟩
  · have hnext : magOf f (c + 1) ≤ magOf f k := hmono.monotone hk
    have hlt : magOf f c < magOf f k := hmono hk
    have ha := h.above
    have hle : |magOf f c - y| ≤ magOf f k - y := abs_le.2 ⟨by linarith, by linarith⟩
    have hk' : |magOf f k - y| = magOf f k - y := abs_of_nonneg (by linarith)
    refine ⟨hle.trans_eq hk'.symm, fun heq _ => ?_⟩
    by_contra hodd
    obtain ⟨ha', -⟩ := h.odd (by omega)
    rw [hk'] at heq
    rcases abs_cases (magOf f c - y) with ⟨hb, -⟩ | ⟨hb, -⟩ <;> linarith

/-- A count of units that rounds a magnitude of its binade (R62). -/
theorem halfway_of_units {f : FloatFmt} (hf : 1 ≤ f.fbits) {E m : Nat} {y : ℚ} (hE : E = 0 ∨ 2 ^ f.fbits ≤ m) (hm : m ≤ 2 ^ (f.fbits + 1))
    (hlo : E = 0 ∨ (2 : ℚ) ^ f.fbits * unitOf f E ≤ y) (hhi : y < 2 ^ (f.fbits + 1) * unitOf f E)
    (hu : 2 * y ≤ 2 * m * unitOf f E + unitOf f E) (hd : 2 * m * unitOf f E ≤ 2 * y + unitOf f E)
    (hodd : m % 2 = 1 → 2 * y < 2 * m * unitOf f E + unitOf f E ∧ 2 * m * unitOf f E < 2 * y + unitOf f E) :
    Halfway f y (E * 2 ^ f.fbits + m) := by
  have hmono := magOf_strictMono f
  have hU := unitOf_pos f E
  have hc := magOf_units f E m hE hm
  have hpar : (E * 2 ^ f.fbits + m) % 2 = m % 2 := by
    obtain ⟨k, hk⟩ := Nat.exists_eq_add_of_le hf
    rw [hk, pow_add, pow_one, Nat.mul_left_comm]
    omega
  have habove : 2 * y ≤ magOf f (E * 2 ^ f.fbits + m) + magOf f (E * 2 ^ f.fbits + m + 1) ∧
      (m % 2 = 1 → 2 * y < magOf f (E * 2 ^ f.fbits + m) + magOf f (E * 2 ^ f.fbits + m + 1)) := by
    rcases Nat.lt_or_eq_of_le hm with h | h
    · rw [hc, Nat.add_assoc, magOf_units f E (m + 1) (hE.imp_right (·.trans (Nat.le_succ m))) h]
      push_cast
      exact ⟨by linarith, fun ho => by linarith [(hodd ho).1]⟩
    · have hy : y < magOf f (E * 2 ^ f.fbits + m) := by
        rw [hc, h]
        exact_mod_cast hhi
      have := hmono (Nat.lt_succ_self (E * 2 ^ f.fbits + m))
      exact ⟨by linarith, fun _ => by linarith⟩
  have hbelow : 0 < E * 2 ^ f.fbits + m → magOf f (E * 2 ^ f.fbits + m - 1) + magOf f (E * 2 ^ f.fbits + m) ≤ 2 * y ∧
      (m % 2 = 1 → magOf f (E * 2 ^ f.fbits + m - 1) + magOf f (E * 2 ^ f.fbits + m) < 2 * y) := by
    intro hpos
    by_cases hfirst : E ≠ 0 ∧ m = 2 ^ f.fbits
    · have hy : magOf f (E * 2 ^ f.fbits + m) ≤ y := by
        rw [hc, hfirst.2]
        exact_mod_cast hlo.resolve_left hfirst.1
      have := hmono (Nat.sub_one_lt (Nat.pos_iff_ne_zero.1 hpos))
      exact ⟨by linarith, fun _ => by linarith⟩
    · obtain ⟨k, rfl⟩ : ∃ k, m = k + 1 := by
        refine Nat.exists_eq_succ_of_ne_zero fun h0 => ?_
        rcases hE with rfl | h
        · simp [h0] at hpos
        · have : 0 < 2 ^ f.fbits := by positivity
          omega
      rw [hc, ← Nat.add_assoc, Nat.add_sub_cancel, magOf_units f E k (by omega) (by omega)]
      push_cast at *
      exact ⟨by linarith, fun ho => by linarith [(hodd ho).2]⟩
  refine ⟨habove.1, fun h => (hbelow h).1, fun ho => ?_⟩
  rw [hpar] at ho
  exact ⟨habove.2 ho, (hbelow (by omega)).2 ho⟩

/-- The operands of a rounding to units of `2 ^ e` (R62). -/
theorem exists_roundMag (neg : Bool) (n : Nat) {d : Nat} (hd : 0 < d) (e : Int) :
    ∃ a b : Nat, 0 < b ∧ (a : ℚ) / b * 2 ^ e = (n : ℚ) / d ∧
      (if 0 ≤ e then roundMag neg n (d * 2 ^ e.toNat) .rne else roundMag neg (n * 2 ^ (-e).toNat) d .rne) = roundMag neg a b .rne := by
  have hd' : (d : ℚ) ≠ 0 := by exact_mod_cast hd.ne'
  split
  next h =>
    obtain ⟨j, rfl⟩ := Int.eq_ofNat_of_zero_le h
    refine ⟨_, _, by positivity, ?_, rfl⟩
    push_cast
    rw [zpow_natCast, Int.toNat_natCast]
    field_simp
  next h =>
    obtain ⟨j, rfl⟩ : ∃ j : Nat, e = -(j : Int) := ⟨(-e).toNat, by omega⟩
    refine ⟨_, _, hd, ?_, rfl⟩
    push_cast
    rw [zpow_neg, zpow_natCast, neg_neg, Int.toNat_natCast]
    field_simp

/-- ROUND of R62 gives such a count for every magnitude. -/
theorem roundCode_halfway {f : FloatFmt} (hf : 1 ≤ f.fbits) (neg : Bool) {x : Frac} (hd : 0 < x.den) (hn : x.num ≠ 0) :
    Halfway f ((x.num.natAbs : ℚ) / x.den) (roundCode f neg x .rne) := by
  obtain ⟨hp1, hp2⟩ := floorLog2_spec (Int.natAbs_pos.2 hn) hd
  unfold roundCode
  dsimp only
  generalize floorLog2 x.num.natAbs x.den = p at *
  generalize hqe : (if p < 1 - (f.bias : Int) then 1 - (f.bias : Int) else p) - (f.fbits : Int) = e
  obtain ⟨a, b, hb, hy, hm⟩ := exists_roundMag neg x.num.natAbs hd e
  rw [hm]
  obtain ⟨h1, h2, h3⟩ := roundMag_rne neg a hb
  generalize roundMag neg a b .rne = m at *
  generalize (x.num.natAbs : ℚ) / x.den = y at *
  have hE : 0 ≤ e - (1 - (f.bias : Int) - f.fbits) := by
    split_ifs at hqe <;> omega
  obtain ⟨E, hEe⟩ := Int.eq_ofNat_of_zero_le hE
  rw [hEe, Int.toNat_natCast]
  have hU : (2 : ℚ) ^ e = unitOf f E := by
    unfold unitOf
    congr 1
    omega
  have hpos := unitOf_pos f E
  have hbinade : ∀ k : Nat, (2 : ℚ) ^ k * unitOf f E = 2 ^ (e + k) := fun k => by
    rw [← hU, ← zpow_natCast, ← zpow_add₀ two_ne_zero, add_comm]
  have hhi : y < 2 ^ (f.fbits + 1) * unitOf f E := by
    rw [hbinade]
    refine hp2.trans_le (zpow_le_zpow_right₀ one_le_two ?_)
    push_cast
    split_ifs at hqe <;> omega
  have hlo : E = 0 ∨ (2 : ℚ) ^ f.fbits * unitOf f E ≤ y := by
    rw [hbinade]
    split_ifs at hqe
    · left; omega
    · right
      rwa [← hqe, sub_add_cancel]
  rw [hU] at hy
  have hb' : (0 : ℚ) < b := by exact_mod_cast hb
  have hscale : ∀ u v : Nat, u ≤ v → (u : ℚ) / b * unitOf f E ≤ (v : ℚ) / b * unitOf f E := fun u v h => by gcongr
  have hscale' : ∀ u v : Nat, u < v → (u : ℚ) / b * unitOf f E < (v : ℚ) / b * unitOf f E := fun u v h => by gcongr
  have hmb : ((2 * (m * b) : Nat) : ℚ) / b * unitOf f E = 2 * m * unitOf f E := by
    push_cast; field_simp
  have hab : ((2 * a : Nat) : ℚ) / b * unitOf f E = 2 * y := by
    rw [← hy]; push_cast; ring
  have hmb1 : ((2 * (m * b) + b : Nat) : ℚ) / b * unitOf f E = 2 * m * unitOf f E + unitOf f E := by
    push_cast; field_simp
  have hab1 : ((2 * a + b : Nat) : ℚ) / b * unitOf f E = 2 * y + unitOf f E := by
    rw [← hy]; push_cast; field_simp
  have hu := hscale _ _ h2
  have hd' := hscale _ _ h1
  rw [hmb, hab1] at hd'
  rw [hab, hmb1] at hu
  refine halfway_of_units hf ?_ ?_ hlo hhi hu hd' fun ho => ?_
  · refine hlo.imp_right fun h => ?_
    by_contra hlt
    have : (m : ℚ) + 1 ≤ 2 ^ f.fbits := by exact_mod_cast not_le.1 hlt
    nlinarith
  · by_contra hlt
    have : (2 : ℚ) ^ (f.fbits + 1) + 1 ≤ m := by exact_mod_cast not_le.1 hlt
    nlinarith
  · obtain ⟨h3d, h3u⟩ := h3 ho
    have hu' := hscale' _ _ h3u
    have hd'' := hscale' _ _ h3d
    rw [hab, hmb1] at hu'
    rw [hmb, hab1] at hd''
    exact ⟨hu', hd''⟩

/-! ### Codes with their sign (R40, R62) -/

theorem floatFmt_bounds {t : Ty} {f : FloatFmt} (h : floatFmt t = some f) : 8 ≤ t.width ∧ f.maxc < 2 ^ (t.width - 1) ∧ 1 ≤ f.fbits := by
  cases t <;> simp only [floatFmt, reduceCtorEq, Option.some.injEq] at h <;> subst h <;> decide

/-- A value with a sign. -/
def signed (neg : Bool) (v : ℚ) : ℚ := if neg then -v else v

theorem ratio_eq_signed (x : Frac) : ratio x = signed (decide (x.num < 0)) ((x.num.natAbs : ℚ) / x.den) := by
  unfold ratio signed
  by_cases h : x.num < 0
  · rw [if_pos (decide_eq_true h), Nat.cast_natAbs, abs_of_neg h]
    push_cast
    ring
  · rw [if_neg (by simpa using h), Nat.cast_natAbs, abs_of_nonneg (not_lt.1 h)]

theorem abs_signed_sub_same (neg : Bool) (u v : ℚ) : |signed neg u - signed neg v| = |u - v| := by
  cases neg
  · rfl
  · change |(-u) - (-v)| = _
    rw [neg_sub_neg, abs_sub_comm]

/-- Across zero the distance of two magnitudes is their sum. -/
theorem abs_signed_sub_opposite (neg : Bool) {u v : ℚ} (hu : 0 ≤ u) (hv : 0 ≤ v) : |signed (!neg) u - signed neg v| = u + v := by
  cases neg
  · change |(-u) - v| = _
    rw [← neg_add', abs_neg, abs_of_nonneg (add_nonneg hu hv)]
  · change |u - (-v)| = _
    rw [sub_neg_eq_add, abs_of_nonneg (add_nonneg hu hv)]

section

variable {t : Ty} {f : FloatFmt} (hf : floatFmt t = some f)

include hf

theorem signBit_add_lt (neg : Bool) {k : Nat} (hk : k ≤ f.maxc) : signBit t neg + k < 2 ^ t.width := by
  obtain ⟨hw, hmax, -⟩ := floatFmt_bounds hf
  obtain ⟨n, hn⟩ : ∃ n, t.width = n + 1 := ⟨t.width - 1, by omega⟩
  simp only [signBit, hn, Nat.add_sub_cancel, pow_succ] at *
  split <;> omega

theorem signBit_add_mod_two (neg : Bool) (k : Nat) : (signBit t neg + k) % 2 = k % 2 := by
  obtain ⟨hw, -, -⟩ := floatFmt_bounds hf
  obtain ⟨n, hn⟩ : ∃ n, t.width = n + 2 := ⟨t.width - 2, by omega⟩
  simp only [signBit, hn, Nat.add_succ_sub_one, pow_succ]
  split <;> omega

/-- What a code of a finite magnitude decodes to, with its sign (R40, R47). -/
theorem dec_signBit_add (neg : Bool) {k : Nat} (hk : k < 2 ^ (t.width - 1)) :
    dec t false (signBit t neg + k) =
      if k ≤ f.maxc then (if k = 0 then .zero neg else .real (if neg then fracNeg (floatMag f k) else floatMag f k))
      else if t != .e4 && k = (2 ^ f.ebits - 1) * 2 ^ f.fbits then .inf neg else .nan := by
  obtain ⟨hw, -, -⟩ := floatFmt_bounds hf
  have hpos : 0 < 2 ^ (t.width - 1) := by positivity
  have hlt : signBit t neg + k < 2 ^ t.width := by
    obtain ⟨n, hn⟩ : ∃ n, t.width = n + 1 := ⟨t.width - 1, by omega⟩
    simp only [signBit, hn, Nat.add_sub_cancel, pow_succ] at *
    split <;> omega
  have hmod : (signBit t neg + k) % 2 ^ (t.width - 1) = k := by
    cases neg
    · simpa [signBit] using Nat.mod_eq_of_lt hk
    · simpa [signBit] using Nat.mod_eq_of_lt hk
  have hbit : bit (signBit t neg + k) (t.width - 1) = neg := by
    cases neg
    · simp [bit, signBit, Nat.div_eq_of_lt hk]
    · simp [bit, signBit, Nat.add_div_left _ hpos, Nat.div_eq_of_lt hk]
  unfold dec
  simp only [hf, Nat.mod_eq_of_lt hlt, hmod, hbit, Bool.false_and, Bool.or_false, decide_eq_true_eq]

/-- The value of a code of a finite magnitude. -/
theorem ratio_dec_signBit_add (neg : Bool) {k : Nat} (hk : k ≤ f.maxc) :
    ratio (numFrac (dec t false (signBit t neg + k))) = signed neg (magOf f k) := by
  rw [dec_signBit_add hf neg (hk.trans_lt (floatFmt_bounds hf).2.1), if_pos hk]
  split
  next h0 =>
    subst h0
    cases neg <;> simp [numFrac, magOf_zero, signed, ratio]
  next => cases neg <;> simp [numFrac, signed, ratio_fracNeg, magOf]

/-- Every finite code is such a code. -/
theorem exists_signBit_add {c : Nat} (hc : c < 2 ^ t.width) (hfin : numIsFinite (dec t false c) = true) :
    ∃ neg k, c = signBit t neg + k ∧ k ≤ f.maxc := by
  obtain ⟨hw, -, -⟩ := floatFmt_bounds hf
  have hsplit : ∃ neg k, c = signBit t neg + k ∧ k < 2 ^ (t.width - 1) := by
    obtain ⟨n, hn⟩ : ∃ n, t.width = n + 1 := ⟨t.width - 1, by omega⟩
    simp only [signBit, hn, Nat.add_sub_cancel, pow_succ] at *
    rcases Nat.lt_or_ge c (2 ^ n) with h | h
    · exact ⟨false, c, by simp, h⟩
    · exact ⟨true, c - 2 ^ n, by simp; omega, by omega⟩
  obtain ⟨neg, k, rfl, hk⟩ := hsplit
  refine ⟨neg, k, rfl, ?_⟩
  rw [dec_signBit_add hf neg hk] at hfin
  by_contra hgt
  rw [if_neg hgt] at hfin
  split at hfin <;> cases hfin

/-- A conversion to nearest of a value other than zero, with its denormals kept (R62). -/
theorem convert_rne_real (sat : Bool) (x : Frac) :
    convert .f32 t .rne sat false (.real x) =
      (let neg := decide (x.num < 0)
       let k := roundCode f neg x .rne
       if k ≤ f.maxc then (signBit t neg + k, .none)
       else if sat then (signBit t neg + f.maxc, .ovf)
       else if t = .e4 then (canonNan t, .ovf) else (infCode t f neg, .ovf)) := by
  unfold convert
  rw [hf]
  simp [convFloat]

end

/-- Settles O32: the result is the code of a rounded count of units; a code of the same sign is no nearer, and one of the other sign
lies beyond zero. -/
theorem roundingGivesANearestCode : Obligations.RoundingGivesANearestCode := by
  intro t x c ht hd hn hc r value
  obtain ⟨f, hf⟩ : ∃ f, floatFmt t = some f := by
    simp only [List.mem_cons, List.not_mem_nil, or_false] at ht
    rcases ht with rfl | rfl | rfl | rfl | rfl <;> exact ⟨_, rfl⟩
  have hhalf := roundCode_halfway (floatFmt_bounds hf).2.2 (decide (x.num < 0)) hd hn
  have hr : r = signBit t (decide (x.num < 0)) + min (roundCode f (decide (x.num < 0)) x .rne) f.maxc := by
    change (convert .f32 t .rne true false (.real x)).1 = _
    rw [convert_rne_real hf]
    dsimp only
    split
    next h => rw [min_eq_left h]
    next h => rw [min_eq_right (not_le.1 h).le]; rfl
  have hsame : (convert .f32 t .rne false false (.real x)).2 = .none → roundCode f (decide (x.num < 0)) x .rne ≤ f.maxc := by
    rw [convert_rne_real hf]
    intro h
    by_contra hgt
    simp only [if_neg hgt] at h
    split_ifs at h
  refine ⟨⟨(convert .f32 t .rne false false (.real x)).1, (convert .f32 t .rne false false (.real x)).2, rfl, fun hk => ?_⟩, ?_,
    fun hfin hk => ?_⟩
  · rw [hr, min_eq_left (hsame hk), convert_rne_real hf]
    exact congrArg Prod.fst (if_pos (hsame hk))
  · rw [hr]
    exact signBit_add_lt hf _ (min_le_right _ _)
  · have hle := hsame hk
    rw [min_eq_left hle] at hr
    obtain ⟨neg', k, rfl, hkle⟩ := exists_signBit_add hf hc hfin
    have hvr : value r = signed _ _ := hr ▸ ratio_dec_signBit_add hf _ hle
    have hvc : value (signBit t neg' + k) = signed _ _ := ratio_dec_signBit_add hf neg' hkle
    rw [hvr, hvc, ratio_eq_signed, hr, signBit_add_mod_two hf, abs_signed_sub_same]
    generalize decide (x.num < 0) = neg at *
    generalize roundCode f neg x .rne = c0 at *
    have hy : (0 : ℚ) ≤ (x.num.natAbs : ℚ) / x.den := by positivity
    generalize (x.num.natAbs : ℚ) / x.den = y at *
    have hmono := magOf_strictMono f
    rcases eq_or_ne neg' neg with rfl | hne
    · obtain ⟨hnear, htie⟩ := hhalf.nearest k
      rw [abs_signed_sub_same]
      exact ⟨hnear, fun heq hv => htie heq fun hkc => hv (by rw [hkc])⟩
    · obtain rfl : neg' = !neg := by cases neg <;> cases neg' <;> simp_all
      obtain ⟨hnear, htie⟩ := hhalf.nearest 0
      have hk0 : 0 ≤ magOf f k := (magOf_zero f).symm.le.trans (hmono.monotone (Nat.zero_le k))
      rw [magOf_zero, zero_sub, abs_neg, abs_of_nonneg hy] at hnear htie
      rw [abs_signed_sub_opposite neg hk0 hy]
      refine ⟨by linarith, fun heq hv => ?_⟩
      have hkz : magOf f k = 0 := by linarith
      rcases Nat.eq_zero_or_pos c0 with h0 | h0
      · rw [h0]
      · exact htie (by linarith) h0.ne

end Sys2Proof
end

section

namespace Sys2Proof

open Sys2Proof.Machine Sys2Proof.Claim

/-! ## The acting element (R30, R67, R68, R97)

A change of the acting element, of its running reaction, and of the lanes of its ports. -/

/-! ### An element changed -/

theorem elemOfSet_modElem (s : State) (tile set elem e : Nat) (f : Elem → Elem) :
    elemOfSet (getSet (modElem s tile set elem f) tile set) e =
      if e = elem then f (elemOfSet (getSet s tile set) elem) else elemOfSet (getSet s tile set) e := by
  unfold modElem setElem
  rw [getSet_modSet_same]
  exact Tab.get_set ..

@[simp] theorem elemOfSet_modElem_same (s : State) (tile set elem : Nat) (f : Elem → Elem) :
    elemOfSet (getSet (modElem s tile set elem f) tile set) elem = f (elemOfSet (getSet s tile set) elem) := by
  rw [elemOfSet_modElem, if_pos rfl]

theorem getTile_modSet_planes (s : State) (tile set u : Nat) (f : CtxSet → CtxSet) :
    (getTile (modSet s tile set f) u).planes = (getTile s u).planes := by
  by_cases hu : u = tile
  · subst hu
    unfold modSet setSet
    rw [getTile_modTile_same]
    unfold putTileSet
    split <;> rfl
  · exact congrArg Tile.planes (getTile_modTile_other s _ hu)

@[simp] theorem curElem_modCurElem (s : State) (f : Elem → Elem) : curElem (modCurElem s f) = f (curElem s) :=
  elemOfSet_modElem_same ..

theorem elemOfSet_modCurElem_other {s : State} {f : Elem → Elem} {e : Nat} (h : e ≠ s.focus.elem) :
    elemOfSet (curSet (modCurElem s f)) e = elemOfSet (curSet s) e :=
  (elemOfSet_modElem ..).trans (if_neg h)

@[simp] theorem modCurElem_focus (s : State) (f : Elem → Elem) : (modCurElem s f).focus = s.focus := rfl

@[simp] theorem modRx_focus (s : State) (f : Reaction → Reaction) : (modRx s f).focus = s.focus := rfl

/-- The image of a reaction is that of its plane (R98). -/
theorem rxImage_congr {s t : State} {r q : Reaction} (hf : t.focus = s.focus) (hp : (curTile t).planes = (curTile s).planes)
    (hr : q.plane = r.plane) : rxImage t q = rxImage s r := by
  unfold rxImage imageOf
  rw [hf, hp, hr]

/-! ### The running reaction -/

/-- The running reaction is the oldest that is not done (R67). -/
theorem exists_running {s : State} (h : moveReady s = true) : runningRx (curElem s) = some (curRx s) ∧ (curRx s).done = false := by
  obtain ⟨hsome, -⟩ := Bool.and_eq_true_iff.1 h
  obtain ⟨r, hr⟩ := Option.isSome_iff_exists.1 hsome
  have hcur : curRx s = r := by rw [curRx, hr, Option.getD_some]
  have hd := List.find?_some hr
  rw [hcur]
  exact ⟨hr, by simpa using hd⟩

/-- The reactions with the running one changed, where it stays the running one. -/
theorem find?_modRunning {f : Reaction → Reaction} {l : List Reaction} {r : Reaction} (h : (l.find? fun r => !r.done) = some r)
    (hf : (f r).done = false) : ((modRunning f l).find? fun r => !r.done) = some (f r) := by
  induction l with
  | nil => cases h
  | cons x l ih =>
    rw [modRunning]
    cases hx : x.done
    · obtain rfl : x = r := by simpa [List.find?, hx] using h
      simp [hf]
    · simpa [List.find?, hx] using ih (by simpa [List.find?, hx] using h)

theorem modRunning_modRunning {f g : Reaction → Reaction} (hg : ∀ r, (g r).done = r.done) (l : List Reaction) :
    modRunning f (modRunning g l) = modRunning (fun r => f (g r)) l := by
  induction l with
  | nil => rfl
  | cons x l ih =>
    cases hx : x.done
    · simp [modRunning, hx, hg]
    · simp [modRunning, hx, ih]

theorem modRunning_id (l : List Reaction) : modRunning id l = l := by
  induction l with
  | nil => rfl
  | cons x l ih =>
    rw [modRunning, ih]
    exact ite_self _

/-- The reactions around the running one. -/
theorem modRunning_split {l : List Reaction} {r : Reaction} (h : (l.find? fun r => !r.done) = some r) :
    ∃ pre post, (∀ z ∈ pre, z.done = true) ∧ ∀ f, modRunning f l = pre ++ f r :: post := by
  induction l with
  | nil => cases h
  | cons x l ih =>
    cases hx : x.done
    · obtain rfl : x = r := by simpa [List.find?, hx] using h
      exact ⟨[], l, by simp, fun f => by simp [modRunning, hx]⟩
    · obtain ⟨pre, post, hpre, hf⟩ := ih (by simpa [List.find?, hx] using h)
      exact ⟨x :: pre, post, by simpa [hx] using hpre, fun f => by simp [modRunning, hx, hf]⟩

/-! ### What a move changes -/

/-- A change of a reaction within its bundle: its place, its kind and what it has consumed and ended stand. -/
structure WithinBundle (r q : Reaction) : Prop where
  inst   : q.inst = r.inst
  idx    : q.idx = r.idx
  mov    : q.mov = r.mov
  bundle : q.bundle = r.bundle
  done   : q.done = r.done
  before : q.before = r.before
  exd    : q.exd = r.exd
  ends   : q.ends = r.ends

/-- What a move changes before the reaction goes past it: ports of the acting element, and `h` of its running reaction. -/
structure MoveEffect (s t : State) (h : Reaction → Reaction) : Prop where
  focus  : t.focus = s.focus
  mem    : t.mem = s.mem
  sp     : (curTile t).sp = (curTile s).sp
  rxs    : (curElem t).rxs = modRunning h (curElem s).rxs
  lines  : (curElem t).lines = (curElem s).lines
  fault  : (curElem t).fault = (curElem s).fault
  others : ∀ e, e ≠ s.focus.elem → elemOfSet (curSet t) e = elemOfSet (curSet s) e
  within : ∀ r, WithinBundle r (h r)

theorem WithinBundle.refl (r : Reaction) : WithinBundle r r := ⟨rfl, rfl, rfl, rfl, rfl, rfl, rfl, rfl⟩

theorem moveEffect_modCurElem (s : State) {g : Elem → Elem} {h : Reaction → Reaction} (hr : ∀ e, (g e).rxs = modRunning h e.rxs)
    (hl : ∀ e, (g e).lines = e.lines) (hf : ∀ e, (g e).fault = e.fault) (hw : ∀ r, WithinBundle r (h r)) :
    MoveEffect s (modCurElem s g) h where
  focus  := rfl
  mem    := rfl
  sp     := getTile_modSet_sp ..
  rxs    := by rw [curElem_modCurElem, hr]
  lines  := by rw [curElem_modCurElem, hl]
  fault  := by rw [curElem_modCurElem, hf]
  others := fun _ he => elemOfSet_modCurElem_other he
  within := hw

theorem moveEffect_modRx (s : State) {h : Reaction → Reaction} (hw : ∀ r, WithinBundle r (h r)) : MoveEffect s (modRx s h) h :=
  moveEffect_modCurElem s (fun _ => rfl) (fun _ => rfl) (fun _ => rfl) hw

theorem MoveEffect.refl (s : State) : MoveEffect s s id :=
  ⟨rfl, rfl, rfl, (modRunning_id _).symm, rfl, rfl, fun _ _ => rfl, WithinBundle.refl⟩

theorem MoveEffect.trans {s t u : State} {h k : Reaction → Reaction} (a : MoveEffect s t h) (b : MoveEffect t u k) :
    MoveEffect s u fun r => k (h r) where
  focus  := b.focus.trans a.focus
  mem    := b.mem.trans a.mem
  sp     := b.sp.trans a.sp
  rxs    := by rw [b.rxs, a.rxs, modRunning_modRunning fun r => (a.within r).done]
  lines  := b.lines.trans a.lines
  fault  := b.fault.trans a.fault
  others := fun e he => (b.others e (a.focus ▸ he)).trans (a.others e he)
  within := fun r =>
    have ha := a.within r
    have hb := b.within (h r)
    ⟨hb.inst.trans ha.inst, hb.idx.trans ha.idx, hb.mov.trans ha.mov, hb.bundle.trans ha.bundle, hb.done.trans ha.done,
      hb.before.trans ha.before, hb.exd.trans ha.exd, hb.ends.trans ha.ends⟩

/-- The running reaction after a change of it that leaves it running. -/
theorem running_of_rxs {s t : State} {h : Reaction → Reaction} (hs : moveReady s = true) (hr : (curElem t).rxs = modRunning h (curElem s).rxs)
    (hd : (h (curRx s)).done = false) : runningRx (curElem t) = some (h (curRx s)) ∧ curRx t = h (curRx s) := by
  have hrun : runningRx (curElem t) = some (h (curRx s)) := by
    unfold runningRx
    rw [hr]
    exact find?_modRunning (exists_running hs).1 hd
  exact ⟨hrun, by rw [curRx, hrun, Option.getD_some]⟩

section

variable {s t : State} {h : Reaction → Reaction} (hs : moveReady s = true) (a : MoveEffect s t h)

include hs a

theorem MoveEffect.curRx_eq : curRx t = h (curRx s) :=
  (running_of_rxs hs a.rxs (((a.within _).done).trans (exists_running hs).2)).2

theorem MoveEffect.ready : moveReady t = true := by
  have hrun := (running_of_rxs hs a.rxs (((a.within _).done).trans (exists_running hs).2)).1
  obtain ⟨-, hf⟩ := Bool.and_eq_true_iff.1 hs
  unfold moveReady reactionFault
  rw [hrun, a.fault]
  exact hf

end

/-! ### A move executed -/

/-- A reaction past its move, the bundle going on. -/
def onward (r : Reaction) : Reaction := { r with idx := r.idx + 1, mov := r.mov + 1 }

theorem openBundle_opened {s : State} (h : (curRx s).opnds = true) : openBundle s = s := by
  unfold openBundle
  dsimp only
  rw [if_pos h]

theorem runMove_goes_on {m : Mv} {s : State} (eff : State → State) (ho : (curRx s).opnds = true) (he : m.eob = false) :
    runMove m s eff = modRx (eff s) onward := by
  unfold runMove
  dsimp only
  rw [if_neg (by simp [he]), openBundle_opened ho]
  rfl

section

variable {s t : State} {h : Reaction → Reaction} (hs : moveReady s = true) (a : MoveEffect s t h)

include hs a

theorem MoveEffect.curRx_onward : curRx (modRx t onward) = onward (h (curRx s)) := by
  rw [← a.curRx_eq hs]
  exact (running_of_rxs (t := modRx t onward) (h := onward) (a.ready hs) (by rw [modRx, curElem_modCurElem])
    (exists_running (a.ready hs)).2).2

/-- A move within a bundle leaves everything but the acting element as it is. -/
theorem MoveEffect.movedOn : MovedOn s (modRx t onward) := by
  have hrx := a.curRx_onward hs
  have hw := a.within (curRx s)
  have hd := (exists_running hs).2
  unfold MovedOn
  rw [hrx]
  refine ⟨congrArg (· + 1) hw.idx, congrArg (· + 1) hw.mov, hw.bundle, hw.done.trans hd, hw.inst, hw.before, ?_, ?_, a.mem, ?_, ?_⟩
  · rw [modRx, curElem_modCurElem]
    exact a.lines
  · rw [modRx, curElem_modCurElem]
    exact a.fault
  · exact (getTile_modSet_sp ..).trans a.sp
  · exact fun e he => (elemOfSet_modCurElem_other (a.focus ▸ he)).trans (a.others e he)

end

theorem curElem_modRx_ports (s : State) (f : Reaction → Reaction) : (curElem (modRx s f)).ports = (curElem s).ports := by
  rw [modRx, curElem_modCurElem]

theorem port_modRx (s : State) (f : Reaction → Reaction) (k : Nat) : port (modRx s f) k = port s k := by
  unfold port
  rw [curElem_modRx_ports]

/-! ### Elements of a word of 512 bits -/

theorem packElems_lt (w : Nat) (l : List Nat) : packElems w l < 2 ^ (w * l.length) := by
  induction l with
  | nil => simp [packElems]
  | cons x l ih =>
    have hx : x % 2 ^ w < 2 ^ w := Nat.mod_lt _ (by positivity)
    rw [packElems, List.length_cons, Nat.mul_succ, pow_add, Nat.mul_comm (2 ^ (w * l.length))]
    calc x % 2 ^ w + 2 ^ w * packElems w l < 2 ^ w + 2 ^ w * packElems w l := by omega
      _ = 2 ^ w * (packElems w l + 1) := by ring
      _ ≤ _ := Nat.mul_le_mul_left _ ih

/-- An element of a packed list. -/
theorem packElems_elem (w : Nat) (l : List Nat) (i : Nat) : packElems w l / 2 ^ (w * i) % 2 ^ w = l.getD i 0 % 2 ^ w := by
  have hpos : 0 < 2 ^ w := by positivity
  induction l generalizing i with
  | nil => simp [packElems]
  | cons x l ih =>
    have hx : x % 2 ^ w < 2 ^ w := Nat.mod_lt _ hpos
    cases i with
    | zero => simp [packElems]
    | succ i =>
      rw [packElems, Nat.mul_succ, Nat.add_comm (w * i), pow_add, ← Nat.div_div_eq_div_mul, Nat.add_mul_div_left _ _ hpos,
        Nat.div_eq_of_lt hx, Nat.zero_add, ih, List.getD_cons_succ]

theorem toNat_extract_elem (v : BitVec 512) (w e : Nat) : (v.extractLsb' (w * e) w).toNat = elemOf512 v w e := by
  rw [BitVec.extractLsb'_toNat, Nat.shiftRight_eq_div_pow, elemOf512]

theorem toNat_lane (v : BitVec 512) (l : Nat) : (lane v l).toNat = laneOf512 v l := toNat_extract_elem v 32 l

theorem lane_packLanes (f : Nat → Nat) {l : Nat} (h : l < 16) : lane (packLanes f) l = BitVec.ofNat 32 (f l) := by
  apply BitVec.eq_of_toNat_eq
  have hlt := packElems_lt 32 ((List.range 16).map f)
  rw [List.length_map, List.length_range, show 32 * 16 = 512 from rfl] at hlt
  rw [toNat_lane, laneOf512, packLanes, BitVec.toNat_ofNat, BitVec.toNat_ofNat, Nat.mod_eq_of_lt hlt, packElems_elem, List.getD_eq_getElem?_getD,
    List.getElem?_map, List.getElem?_range h]
  rfl

theorem ofNat_laneOf512 (v : BitVec 512) (l : Nat) : BitVec.ofNat 32 (laneOf512 v l) = lane v l := by
  rw [← toNat_lane, BitVec.ofNat_toNat, BitVec.setWidth_eq]

theorem lane_mergeLanes (mask : Nat) (new old : BitVec 512) {l : Nat} (h : l < 16) :
    lane (mergeLanes mask new old) l = if bit mask l then lane new l else lane old l := by
  rw [mergeLanes, lane_packLanes _ h]
  split <;> exact ofNat_laneOf512 ..

theorem lane_spreadLane (v : Nat) {l : Nat} (h : l < 16) : lane (spreadLane v) l = BitVec.ofNat 32 v := lane_packLanes _ h

theorem lane_zero (l : Nat) : lane 0 l = 0 := BitVec.extractLsb'_zero ..

/-- The lanes of a LANE field (R97). -/
theorem bit_laneMask (m : Mv) {l : Nat} (h : l < 16) : bit (laneMask m.lane) l = laneSel m l := by
  unfold laneSel
  cases m.lane <;> interval_cases l <;> rfl

/-! ### The value that a move carries (R31, R68, R76, R83, R97) -/

theorem bits_from_zero (v hi : Nat) : bits v hi 0 = v % 2 ^ (hi + 1) := by simp [bits]

/-- The item at a place of a delay line. -/
def itemAt (l : List LineEntry) (n : Nat) : BitVec 512 :=
  match l[n]? with
  | some x => if x.kind = 1 then x.item else 0
  | none => 0

theorem itemAt_eq_drop (l : List LineEntry) (n : Nat) :
    (match l.drop n with | x :: _ => if x.kind = 1 then x.item else 0 | [] => (0 : BitVec 512)) = itemAt l n := by
  rw [itemAt, ← List.head?_drop]
  cases l.drop n <;> rfl

theorem dlineValue_eq (e : Elem) (rx : Reaction) (d : Nat) :
    dlineValue e rx d =
      (let ahead := e.rxs.takeWhile fun r => r.inst != rx.inst
       let entered (r : Reaction) : LineEntry := ((Tab.find? r.lines d).map fun v => (⟨1, v, []⟩ : LineEntry)).getD ⟨0, 0, []⟩
       match (lineOf e d ++ ahead.map entered)[ahead.length]? with
       | some l => if l.kind = 1 then l.item else 0
       | none => 0) := by
  refine (itemAt_eq_drop ..).trans (congrArg (itemAt · _) (congrArg (lineOf e d ++ ·) (List.map_congr_left fun r _ => ?_)))
  cases Tab.find? r.lines d <;> rfl

theorem sourceValue_eq {s : State} {m : Mv} (h : isSource m.src = true) :
    sourceValue (rxImage s (curRx s)) (curElem s) (curRx s) m = srcValue s m := by
  obtain ⟨src, dst, lane, tov, eob, eoh, imm⟩ := m
  cases src
  case inp n => rfl
  case konst => exact congrArg (imgConst _) (bits_from_zero ..)
  case dline => exact (congrArg (dlineValue _ _) (bits_from_zero ..)).trans (dlineValue_eq ..)
  case aluR | mulR | sfuR | cvtR | redR | zero => rfl
  all_goals cases h

theorem lane_movedValue {s : State} {m : Mv} (h : isSource m.src = true) {l : Nat} (hl : l < 16) :
    lane (movedValue (rxImage s (curRx s)) (curElem s) (curRx s) m) l = srcLane s m l := by
  unfold movedValue srcLane
  rw [sourceValue_eq h]
  dsimp only
  split
  · rw [lane_spreadLane _ hl, ofNat_laneOf512]
    exact congrArg (lane _) (bits_from_zero ..)
  · rfl

end Sys2Proof
end

section

namespace Sys2Proof

open Sys2Proof.Machine Sys2Proof.Claim

/-! ## Moves and bundles of a reaction (R30, R68, R97, R98, R113, R115, R116) -/

/-! ### Moves without operation (R97, R98) -/

section

variable {m : Mv} (s : State)

theorem moveData_out {o : Nat} (h : m.dst = .out o) :
    moveData m s = modRx s fun r =>
      { r with outs := Tab.set r.outs o (mergeLanes (laneMask m.lane) (movedValue (rxImage s (curRx s)) (curElem s) (curRx s) m) 0) } := by
  unfold moveData
  rw [h]

theorem moveData_dline (h : m.dst = .dline) :
    moveData m s = modRx s fun r =>
      { r with lines := Tab.set r.lines (bits m.imm.toNat 1 0)
                 (mergeLanes (laneMask m.lane) (movedValue (rxImage s (curRx s)) (curElem s) (curRx s) m) 0) } := by
  unfold moveData
  rw [h]

theorem moveData_element (h : ∀ o, m.dst ≠ .out o) (hl : m.dst ≠ .dline) :
    moveData m s = modCurElem s fun e => writeOperand (rxImage s (curRx s)) (curRx s) e m := by
  unfold moveData
  split
  next o ho => exact absurd ho (h o)
  next hd => exact absurd hd hl
  next => rfl

end

theorem writeOperand_rxs (im : Image) (rx : Reaction) (e : Elem) (m : Mv) : (writeOperand im rx e m).rxs = e.rxs := by
  unfold writeOperand
  split <;> rfl

theorem writeOperand_lines (im : Image) (rx : Reaction) (e : Elem) (m : Mv) : (writeOperand im rx e m).lines = e.lines := by
  unfold writeOperand
  split <;> rfl

theorem writeOperand_fault (im : Image) (rx : Reaction) (e : Elem) (m : Mv) : (writeOperand im rx e m).fault = e.fault := by
  unfold writeOperand
  split <;> rfl

theorem writeOperand_ports (im : Image) (rx : Reaction) (e : Elem) (m : Mv) (k : Nat) :
    Tab.get 0 (writeOperand im rx e m).ports k =
      if operandKey m.dst = some k then mergeLanes (laneMask m.lane) (movedValue im e rx m) (Tab.get 0 e.ports k) else Tab.get 0 e.ports k := by
  unfold writeOperand
  cases h : operandKey m.dst with
  | none => simp
  | some j =>
    by_cases hk : k = j
    · subst hk
      simp [portAt]
    · rw [if_neg (by simpa using fun e => hk e.symm)]
      exact Tab.get_set_other 0 e.ports _ hk

theorem withinBundle_outs (f : Reaction → Tab (BitVec 512)) (r : Reaction) : WithinBundle r { r with outs := f r } :=
  ⟨rfl, rfl, rfl, rfl, rfl, rfl, rfl, rfl⟩

theorem withinBundle_lines (f : Reaction → Tab (BitVec 512)) (r : Reaction) : WithinBundle r { r with lines := f r } :=
  ⟨rfl, rfl, rfl, rfl, rfl, rfl, rfl, rfl⟩

theorem withinBundle_scales (f : Reaction → Tab (BitVec 64)) (r : Reaction) : WithinBundle r { r with scales := f r } :=
  ⟨rfl, rfl, rfl, rfl, rfl, rfl, rfl, rfl⟩

/-- Whatever its destination, a move within a bundle changes nothing but the ports, the outputs and the delay lines of its reaction. -/
theorem exists_moveData_effect (m : Mv) (s : State) :
    ∃ h, MoveEffect s (moveData m s) h ∧ ∀ r, (h r).trigs = r.trigs ∧ (h r).scales = r.scales := by
  by_cases ho : ∃ o, m.dst = .out o
  · obtain ⟨o, ho⟩ := ho
    rw [moveData_out s ho]
    exact ⟨_, moveEffect_modRx s (withinBundle_outs _), fun _ => ⟨rfl, rfl⟩⟩
  · by_cases hl : m.dst = .dline
    · rw [moveData_dline s hl]
      exact ⟨_, moveEffect_modRx s (withinBundle_lines _), fun _ => ⟨rfl, rfl⟩⟩
    · refine ⟨id, ?_, fun _ => ⟨rfl, rfl⟩⟩
      rw [moveData_element s (fun o h => ho ⟨o, h⟩) hl]
      exact moveEffect_modCurElem s (fun e => (writeOperand_rxs ..).trans (modRunning_id _).symm) (fun e => writeOperand_lines ..)
        (fun e => writeOperand_fault ..) WithinBundle.refl

theorem moveScale_out {m : Mv} (s : State) {o : Nat} (h : m.dst = .out o) :
    moveScale m s = modRx s fun r =>
      { r with scales := Tab.set r.scales o ((sourceValue (rxImage s (curRx s)) (curElem s) (curRx s) m).setWidth 64) } := by
  unfold moveScale
  rw [h]

theorem exists_moveScale_effect (m : Mv) (s : State) : ∃ h, MoveEffect s (moveScale m s) h := by
  by_cases ho : ∃ o, m.dst = .out o
  · obtain ⟨o, ho⟩ := ho
    rw [moveScale_out s ho]
    exact ⟨_, moveEffect_modRx s (withinBundle_scales _)⟩
  · refine ⟨id, ?_⟩
    have : moveScale m s = s := by
      unfold moveScale
      dsimp only
      split
      next o h => exact absurd ⟨o, h⟩ ho
      next => rfl
    rw [this]
    exact MoveEffect.refl s

/-- The guard of a move, off or on (R98). -/
theorem guardPasses_eq (m : Mv) (s : State) :
    guardPasses m s = (!m.imm.getLsbD 7 || ((lane (Tab.get 0 (curRx s).before 7) 0 != 0) == m.imm.getLsbD 6)) := by
  have hzero : (laneOf512 (Tab.get 0 (curRx s).before 7) 0 != 0) = (lane (Tab.get 0 (curRx s).before 7) 0 != 0) := by
    rw [← toNat_lane, Bool.eq_iff_iff, bne_iff_ne, bne_iff_ne, Ne, Ne, ← BitVec.toNat_inj]
    rfl
  rw [guardPasses, hzero]

/-- A move, guarded or not, that writes (R98). -/
theorem exec_move_writes {m : Mv} {s : State} (h : Moves m s) {i : Instr}
    (hi : i = .move m ∨ i = .guardedMove m ∧ guardPasses m s = true) : exec i s = .next (modRx (moveData m s) onward) := by
  obtain ⟨hready, hopen, -, heob⟩ := h
  rcases hi with rfl | ⟨rfl, hg⟩
  · change execMove m s = _
    rw [execMove, if_pos hready, runMove_goes_on _ hopen heob]
  · change execGuardedMove m s = _
    rw [execGuardedMove, if_pos hready, runMove_goes_on _ hopen heob, if_pos hg]

/-- A guarded move or scale move whose guard does not pass (R98). -/
theorem exec_move_skips {m : Mv} {s : State} (h : Moves m s) {i : Instr} (hi : i = .guardedMove m ∨ i = .scaleMove m)
    (hg : guardPasses m s = false) : exec i s = .next (modRx s onward) := by
  obtain ⟨hready, hopen, -, heob⟩ := h
  have hng : ¬ guardPasses m s = true := by rw [hg]; exact Bool.false_ne_true
  rcases hi with rfl | rfl
  · change execGuardedMove m s = _
    rw [execGuardedMove, if_pos hready, runMove_goes_on _ hopen heob, if_neg hng]
  · change execScaleMove m s = _
    rw [execScaleMove, if_pos hready, runMove_goes_on _ hopen heob, if_neg hng]

theorem exec_scaleMove_writes {m : Mv} {s : State} (h : Moves m s) (hg : guardPasses m s = true) :
    exec (.scaleMove m) s = .next (modRx (moveScale m s) onward) := by
  obtain ⟨hready, hopen, -, heob⟩ := h
  change execScaleMove m s = _
  rw [execScaleMove, if_pos hready, runMove_goes_on _ hopen heob, if_pos hg]

section

variable {m : Mv} {s : State} (hm : Moves m s)

include hm

/-- The lanes of what a move writes over an item (R97). -/
theorem lane_moved (old : BitVec 512) {l : Nat} (hl : l < 16) :
    lane (mergeLanes (laneMask m.lane) (movedValue (rxImage s (curRx s)) (curElem s) (curRx s) m) old) l =
      if laneSel m l then srcLane s m l else lane old l := by
  obtain ⟨-, -, hsrc, -⟩ := hm
  rw [lane_mergeLanes _ _ _ hl, bit_laneMask m hl, lane_movedValue hsrc hl]

/-- What the running reaction is after a move that changes it alone. -/
theorem curRx_modRx_onward {f : Reaction → Reaction} (hf : ∀ r, WithinBundle r (f r)) : curRx (modRx (modRx s f) onward) = onward (f (curRx s)) :=
  (moveEffect_modRx s hf).curRx_onward hm.1

theorem moveData_to_output {o : Nat} (h : m.dst = .out o) :
    let t := modRx (moveData m s) onward
    (∀ l < 16, lane (Tab.get 0 (curRx t).outs o) l = if laneSel m l then srcLane s m l else 0) ∧
      (∀ x, x ≠ o → Tab.get 0 (curRx t).outs x = Tab.get 0 (curRx s).outs x) ∧ (curElem t).ports = (curElem s).ports := by
  intro t
  have ht : t = modRx (moveData m s) onward := rfl
  rw [moveData_out s h] at ht
  have hrx : curRx t = _ := ht ▸ curRx_modRx_onward hm (withinBundle_outs _)
  rw [hrx]
  refine ⟨fun l hl => ?_, fun x hx => Tab.get_set_other 0 _ _ hx, ?_⟩
  · exact (congrArg (lane · l) (Tab.get_set_same 0 _ _ _)).trans ((lane_moved hm 0 hl).trans (by rw [lane_zero]))
  · rw [ht, curElem_modRx_ports, curElem_modRx_ports]

theorem moveData_to_line (h : m.dst = .dline) {l : Nat} (hl : l < 16) :
    lane (Tab.get 0 (curRx (modRx (moveData m s) onward)).lines (m.imm.toNat % 4)) l = if laneSel m l then srcLane s m l else 0 := by
  rw [moveData_dline s h, curRx_modRx_onward hm (withinBundle_lines _), bits_from_zero]
  exact (congrArg (lane · l) (Tab.get_set_same 0 _ _ _)).trans ((lane_moved hm 0 hl).trans (by rw [lane_zero]))

theorem moveData_to_operand {p : Port} {k : Nat} (hk : operandKey p = some k) (h : m.dst = p) :
    let t := modRx (moveData m s) onward
    (∀ l < 16, lane (port t k) l = if laneSel m l then srcLane s m l else lane (port s k) l) ∧
      (∀ x, x ≠ k → port t x = port s x) ∧ (curRx t).outs = (curRx s).outs := by
  intro t
  have ht : t = modRx (modCurElem s fun e => writeOperand (rxImage s (curRx s)) (curRx s) e m) onward := by
    rw [← moveData_element s (fun o ho => by rw [← h, ho] at hk; cases hk) (fun hd => by rw [← h, hd] at hk; cases hk)]
  have heff : MoveEffect s (modCurElem s fun e => writeOperand (rxImage s (curRx s)) (curRx s) e m) id :=
    moveEffect_modCurElem s (fun e => (writeOperand_rxs ..).trans (modRunning_id _).symm) (fun e => writeOperand_lines ..)
      (fun e => writeOperand_fault ..) WithinBundle.refl
  have hport : ∀ x, port t x = if some k = some x then _ else port s x := fun x => by
    rw [ht, port_modRx, port, curElem_modCurElem, writeOperand_ports, h, hk]
    rfl
  refine ⟨fun l hl => ?_, fun x hx => ?_, ?_⟩
  · rw [hport, if_pos rfl]
    exact lane_moved hm _ hl
  · rw [hport, if_neg (by simpa using hx.symm)]
  · rw [ht, heff.curRx_onward hm.1]
    rfl

theorem moveScale_to_output {o : Nat} (h : m.dst = .out o) :
    let t := modRx (moveScale m s) onward
    MovedOn s t ∧ (curRx t).outs = (curRx s).outs ∧ (curElem t).ports = (curElem s).ports ∧
      Tab.get 0 (curRx t).scales o = (srcValue s m).extractLsb' 0 64 ∧
      ∀ x, x ≠ o → Tab.get 0 (curRx t).scales x = Tab.get 0 (curRx s).scales x := by
  obtain ⟨hready, -, hsrc, -⟩ := id hm
  rw [moveScale_out s h]
  intro t
  have hrx : curRx t = _ := curRx_modRx_onward hm (withinBundle_scales _)
  refine ⟨(moveEffect_modRx s (withinBundle_scales _)).movedOn hready, ?_, ?_, ?_, fun x hx => ?_⟩
  · rw [hrx]
    rfl
  · exact (curElem_modRx_ports ..).trans (curElem_modRx_ports ..)
  · rw [hrx]
    refine (Tab.get_set_same 0 _ _ _).trans ?_
    rw [sourceValue_eq hsrc, BitVec.setWidth_eq_extractLsb' (by omega)]
  · rw [hrx]
    exact Tab.get_set_other 0 _ _ hx

end

/-! ### A bundle opened (R68) -/

theorem movedValue_congr (im : Image) {e x : Elem} (rx : Reaction) (m : Mv) (hr : e.rxs = x.rxs) (hl : e.lines = x.lines) :
    movedValue im e rx m = movedValue im x rx m := by
  unfold movedValue sourceValue dlineValue olderThan lineOf
  rw [hr, hl]

section

variable (im : Image) (rx : Reaction) (l : List Mv) (e : Elem)

theorem foldl_writeOperand_rxs : (l.foldl (writeOperand im rx) e).rxs = e.rxs := foldl_keeps _ _ (writeOperand_rxs im rx) l e

theorem foldl_writeOperand_lines : (l.foldl (writeOperand im rx) e).lines = e.lines := foldl_keeps _ _ (writeOperand_lines im rx) l e

theorem foldl_writeOperand_fault : (l.foldl (writeOperand im rx) e).fault = e.fault := foldl_keeps _ _ (writeOperand_fault im rx) l e

end

/-- The operand ports that some moves write: one that none names, and one that one names. -/
theorem foldl_writeOperand_ports (im : Image) (rx : Reaction) (k : Nat) (l : List Mv) (e : Elem) :
    ((l.filter fun x => operandKey x.dst == some k) = [] →
      Tab.get 0 (l.foldl (writeOperand im rx) e).ports k = Tab.get 0 e.ports k) ∧
    ∀ n, (l.filter fun x => operandKey x.dst == some k) = [n] →
      Tab.get 0 (l.foldl (writeOperand im rx) e).ports k = mergeLanes (laneMask n.lane) (movedValue im e rx n) (Tab.get 0 e.ports k) := by
  induction l generalizing e with
  | nil => exact ⟨fun _ => rfl, fun n h => by cases h⟩
  | cons x l ih =>
    obtain ⟨ih0, ih1⟩ := ih (writeOperand im rx e x)
    have hport := writeOperand_ports im rx e x k
    rw [List.foldl_cons, List.filter_cons]
    by_cases hx : operandKey x.dst = some k
    · rw [if_pos (by simpa using hx)]
      rw [if_pos hx] at hport
      refine ⟨fun h => (List.cons_ne_nil _ _ h).elim, fun n h => ?_⟩
      obtain ⟨rfl, hnil⟩ := List.cons.inj h
      rw [ih0 hnil, hport]
    · rw [if_neg (by simpa using hx)]
      rw [if_neg hx] at hport
      refine ⟨fun h => (ih0 h).trans hport, fun n h => ?_⟩
      rw [ih1 n h, hport, movedValue_congr im rx n (writeOperand_rxs ..) (writeOperand_lines ..)]

/-- The running reaction as its bundle opens. -/
def opened (s : State) (r : Reaction) : Reaction := { r with before := (curElem s).ports, opnds := true }

section

variable {s : State} (hs : moveReady s = true) (ho : (curRx s).opnds = false)

include hs

theorem curRx_opened : curRx (modRx s (opened s)) = opened s (curRx s) :=
  (running_of_rxs hs (t := modRx s (opened s)) (h := opened s) (by rw [modRx, curElem_modCurElem]) (exists_running hs).2).2

include ho

theorem openBundle_eq :
    openBundle s = modCurElem (modRx s (opened s)) fun e =>
      (bundleMoves (rxImage s (curRx s)) (curRx s).idx 4).foldl (writeOperand (rxImage s (curRx s)) (opened s (curRx s))) e := by
  have him : rxImage (modRx s (opened s)) (opened s (curRx s)) = rxImage s (curRx s) :=
    rxImage_congr rfl (getTile_modSet_planes ..) rfl
  unfold openBundle
  dsimp only
  rw [if_neg (by simp [ho])]
  change (modCurElem (modRx s (opened s)) fun e =>
    (bundleMoves (rxImage (modRx s (opened s)) (curRx (modRx s (opened s)))) (curRx s).idx 4).foldl
      (writeOperand (rxImage (modRx s (opened s)) (curRx (modRx s (opened s)))) (curRx (modRx s (opened s)))) e) = _
  rw [curRx_opened hs, him]

theorem openBundle_rxs : (curElem (openBundle s)).rxs = modRunning (opened s) (curElem s).rxs := by
  rw [openBundle_eq hs ho, curElem_modCurElem, foldl_writeOperand_rxs, modRx, curElem_modCurElem]

theorem openBundle_lines : (curElem (openBundle s)).lines = (curElem s).lines := by
  rw [openBundle_eq hs ho, curElem_modCurElem, foldl_writeOperand_lines, modRx, curElem_modCurElem]

theorem openBundle_fault : (curElem (openBundle s)).fault = (curElem s).fault := by
  rw [openBundle_eq hs ho, curElem_modCurElem, foldl_writeOperand_fault, modRx, curElem_modCurElem]

theorem curRx_openBundle : curRx (openBundle s) = opened s (curRx s) :=
  (running_of_rxs hs (openBundle_rxs hs ho) (exists_running hs).2).2

theorem moveReady_openBundle : moveReady (openBundle s) = true := by
  obtain ⟨-, hf⟩ := Bool.and_eq_true_iff.1 hs
  unfold moveReady reactionFault
  rw [(running_of_rxs hs (openBundle_rxs hs ho) (exists_running hs).2).1, openBundle_fault hs ho]
  exact hf

theorem rxImage_openBundle : rxImage (openBundle s) (curRx (openBundle s)) = rxImage s (curRx s) := by
  rw [curRx_openBundle hs ho]
  refine rxImage_congr ?_ ?_ rfl <;> rw [openBundle_eq hs ho]
  · rfl
  · exact (getTile_modSet_planes ..).trans (getTile_modSet_planes ..)

/-- The operand ports as the bundle opens: those that none of its moves names, and those that one names (R68, R97). -/
theorem port_openBundle (k : Nat) :
    let ws := (bundleMoves (rxImage s (curRx s)) (curRx s).idx 4).filter fun x => operandKey x.dst == some k
    (ws = [] → port (openBundle s) k = port s k) ∧
    ∀ n, ws = [n] → isSource n.src = true → ∀ l < 16,
      lane (port (openBundle s) k) l = if laneSel n l then srcLane (openBundle s) n l else lane (port s k) l := by
  intro ws
  have hport : port (openBundle s) k = Tab.get 0 ((bundleMoves (rxImage s (curRx s)) (curRx s).idx 4).foldl
      (writeOperand (rxImage s (curRx s)) (opened s (curRx s))) (curElem (modRx s (opened s)))).ports k := by
    rw [openBundle_eq hs ho, port, curElem_modCurElem]
  have hbefore : Tab.get 0 (curElem (modRx s (opened s))).ports k = port s k := port_modRx ..
  obtain ⟨hnone, hone⟩ := foldl_writeOperand_ports (rxImage s (curRx s)) (opened s (curRx s)) k
    (bundleMoves (rxImage s (curRx s)) (curRx s).idx 4) (curElem (modRx s (opened s)))
  refine ⟨fun h => (hport.trans (hnone h)).trans hbefore, fun n h hsrc l hl => ?_⟩
  have hval : movedValue (rxImage s (curRx s)) (curElem (modRx s (opened s))) (opened s (curRx s)) n =
      movedValue (rxImage (openBundle s) (curRx (openBundle s))) (curElem (openBundle s)) (curRx (openBundle s)) n := by
    rw [rxImage_openBundle hs ho, curRx_openBundle hs ho]
    refine movedValue_congr _ _ n ?_ ?_
    · rw [openBundle_rxs hs ho, modRx, curElem_modCurElem]
    · rw [openBundle_lines hs ho, modRx, curElem_modCurElem]
  rw [hport, hone n h, hbefore, lane_mergeLanes _ _ _ hl, bit_laneMask n hl, hval, lane_movedValue hsrc hl]

end

/-! ### The effect of each move and trigger (R30, R32) -/

/-- What a move or trigger does within its bundle. -/
def moveEff : Instr → State → State
  | .move m => moveData m
  | .guardedMove m => fun s => if guardPasses m s then moveData m s else s
  | .scaleMove m => fun s => if guardPasses m s then moveScale m s else s
  | .aluAdd m => trigger m 1 1 (aluTyped 1)
  | .aluSub m => trigger m 1 2 (aluTyped 2)
  | .aluMin m => trigger m 1 3 (aluTyped 3)
  | .aluMax m => trigger m 1 4 (aluTyped 4)
  | .aluAnd m => trigger m 1 5 (aluRaw 5)
  | .aluOr m => trigger m 1 6 (aluRaw 6)
  | .aluXor m => trigger m 1 7 (aluRaw 7)
  | .aluShl m => trigger m 1 8 (aluRaw 8)
  | .aluShr m => trigger m 1 9 (aluRaw 9)
  | .aluSar m => trigger m 1 10 (aluRaw 10)
  | .aluAbs m => trigger m 1 11 (aluTyped 11)
  | .aluNeg m => trigger m 1 12 (aluTyped 12)
  | .aluCmpeq m => trigger m 1 13 (aluTyped 13)
  | .aluCmplt m => trigger m 1 14 (aluTyped 14)
  | .aluCmple m => trigger m 1 15 (aluTyped 15)
  | .aluSel m => trigger m 1 16 (aluRaw 16)
  | .aluPass m => trigger m 1 17 (aluRaw 17)
  | .mulMul m => trigger m 2 1 (mulTyped 1)
  | .mulMuls m => trigger m 2 2 mulScaled
  | .mulFma m => trigger m 2 3 (mulTyped 3)
  | .mulDiv m => trigger m 2 4 (mulTyped 4)
  | .sfuRcp m => trigger m 3 1 (sfuTyped 1)
  | .sfuSqrt m => trigger m 3 2 (sfuTyped 2)
  | .sfuRsq m => trigger m 3 3 (sfuTyped 3)
  | .sfuExp2 m => trigger m 3 4 (sfuTyped 4)
  | .sfuLog2 m => trigger m 3 5 (sfuTyped 5)
  | .sfuTanh m => trigger m 3 6 (sfuTyped 6)
  | .sfuSig m => trigger m 3 7 (sfuTyped 7)
  | .sfuLut m => trigger m 3 8 sfuTable
  | .cvtCvt m => trigger m 4 1 cvtTyped
  | .cvtDeq m => trigger m 4 2 cvtDequant
  | .cvtQnt m => trigger m 4 3 cvtQuant
  | .redSum m => trigger m 5 1 redSumOp
  | .redMax m => trigger m 5 2 (redExtreme true)
  | .redScaleMax m => trigger m 5 2 redScale
  | .redMin m => trigger m 5 3 (redExtreme false)
  | .redCnt m => trigger m 5 4 redCount
  | .redSteer m => trigger m 5 5 redSteerOp
  | .redMerge m => triggerMerge m
  | .redAcc m => trigger m 5 7 redAccOp
  | .redFlush m => trigger m 5 8 redFlushOp
  | _ => id

theorem exec_moveForm {i : Mv → Instr} (hi : i ∈ moveForms) (m : Mv) (s : State) :
    exec (i m) s = if moveReady s then .next (runMove m s (moveEff (i m))) else .next s := by
  refine (List.forall_iff_forall_mem (l := moveForms)
    (p := fun i => ∀ m s, exec (i m) s = if moveReady s then .next (runMove m s (moveEff (i m))) else .next s)).1 ?_ i hi m s
  repeat' apply And.intro
  all_goals exact fun _ _ => rfl

/-- What a move does depends not on whether it is its bundle's last. -/
theorem moveEff_eob {i : Mv → Instr} (hi : i ∈ moveForms) (m : Mv) : moveEff (i { m with eob := false }) = moveEff (i m) := by
  refine (List.forall_iff_forall_mem (l := moveForms)
    (p := fun i => ∀ m : Mv, moveEff (i { m with eob := false }) = moveEff (i m))).1 ?_ i hi m
  repeat' apply And.intro
  all_goals exact fun _ => rfl

/-- What the operation of a trigger of the acting element reads. -/
def curCtx (s : State) (m : Mv) : TrigCtx := trigCtx s s.focus.tile s.focus.set s.focus.elem m (laneMask m.lane) none

/-- The running reaction with what a trigger signalled. -/
def signalled (unit fop : Nat) (c : TrigCtx) (r : Nat × TrigOut) (x : Reaction) : Reaction :=
  { x with trigs := x.trigs ++ [trigRec x.mov unit fop c r] }

/-- The acting element with a result port written. -/
def withResult (unit : Nat) (v : BitVec 512) (e : Elem) : Elem := { e with ports := Tab.set e.ports (resultKey unit) v }

theorem trigger_eq (m : Mv) (unit fop : Nat) (op : TrigOp) (s : State) :
    trigger m unit fop op s =
      modRx (modCurElem s (withResult unit (op (curCtx s m)).2.res)) (signalled unit fop (curCtx s m) (op (curCtx s m))) := rfl

theorem withinBundle_signalled (unit fop : Nat) (c : TrigCtx) (r : Nat × TrigOut) (x : Reaction) : WithinBundle x (signalled unit fop c r x) :=
  ⟨rfl, rfl, rfl, rfl, rfl, rfl, rfl, rfl⟩

theorem moveEffect_withResult (s : State) (unit : Nat) (v : BitVec 512) : MoveEffect s (modCurElem s (withResult unit v)) id :=
  moveEffect_modCurElem s (fun _ => (modRunning_id _).symm) (fun _ => rfl) (fun _ => rfl) WithinBundle.refl

/-- A trigger changes its result port, and what its reaction has signalled. -/
theorem moveEffect_trigger (m : Mv) (unit fop : Nat) (op : TrigOp) (s : State) :
    MoveEffect s (trigger m unit fop op s) (signalled unit fop (curCtx s m) (op (curCtx s m))) := by
  rw [trigger_eq]
  exact (moveEffect_withResult s unit _).trans (moveEffect_modRx _ (withinBundle_signalled unit fop _ _))

theorem getTile_modChan_same (s : State) (tile key : Nat) (f : Chan → Chan) :
    getTile (modChan s tile key f) tile = { getTile s tile with chans := Tab.set (getTile s tile).chans key (f (chanOf (getTile s tile) key)) } :=
  getTile_modTile_same ..

theorem getTile_modChan_other (s : State) {tile u : Nat} (key : Nat) (f : Chan → Chan) (h : u ≠ tile) :
    getTile (modChan s tile key f) u = getTile s u := getTile_modTile_other s _ h

theorem getSet_modChan (s : State) (tile key u i : Nat) (f : Chan → Chan) : getSet (modChan s tile key f) u i = getSet s u i := by
  unfold getSet
  by_cases h : u = tile
  · subst h
    rw [getTile_modChan_same]
    rfl
  · rw [getTile_modChan_other s key f h]

theorem getTile_modChan_sp (s : State) (tile key u : Nat) (f : Chan → Chan) : (getTile (modChan s tile key f) u).sp = (getTile s u).sp := by
  by_cases h : u = tile
  · subst h
    rw [getTile_modChan_same]
  · rw [getTile_modChan_other s key f h]

theorem moveEffect_modChan (s : State) (tile key : Nat) (f : Chan → Chan) : MoveEffect s (modChan s tile key f) id := by
  have hset : curSet (modChan s tile key f) = curSet s := getSet_modChan ..
  have hel : curElem (modChan s tile key f) = curElem s := congrArg (elemOfSet · s.focus.elem) hset
  exact ⟨rfl, rfl, getTile_modChan_sp .., by rw [hel, modRunning_id], by rw [hel], by rw [hel], fun _ _ => by rw [hset], WithinBundle.refl⟩

theorem moveEffect_freeKept (s : State) (tile set elem : Nat) (m : Option Nat) : MoveEffect s (freeKept s tile set elem m) id := by
  cases m with
  | none => exact MoveEffect.refl s
  | some i => exact moveEffect_modChan s tile (chanKey set elem i) fun c => { c with kept := c.kept - 1 }

/-- A reaction whose MERGE has taken its item (R109). -/
def merged (r : Reaction) : Reaction := { r with merge := none }

/-- The channels after a MERGE: the slot of its item given back, and the held items left (R109). -/
def mergedChans (s : State) (c : TrigCtx) : State :=
  modChan (freeKept s s.focus.tile s.focus.set s.focus.elem c.rx.merge) s.focus.tile (chanKey s.focus.set s.focus.elem (bits c.imm 2 0)) fun x =>
    { x with held := if laneOf512 c.val 0 = 2 then (mergeQueue c).tail else mergeQueue c }

theorem moveEffect_mergedChans (s : State) (c : TrigCtx) : MoveEffect s (mergedChans s c) id :=
  (moveEffect_freeKept ..).trans (k := id) (moveEffect_modChan ..)

theorem mergeHeld_eq (s : State) (c : TrigCtx) :
    mergeHeld s s.focus.tile s.focus.set s.focus.elem c = modRx (mergedChans s c) merged := by
  unfold modRx modCurElem
  rw [(moveEffect_mergedChans s c).focus]
  rfl

theorem withinBundle_merged (r : Reaction) : WithinBundle r (merged r) := ⟨rfl, rfl, rfl, rfl, rfl, rfl, rfl, rfl⟩

theorem moveEffect_mergeHeld (s : State) (c : TrigCtx) : MoveEffect s (mergeHeld s s.focus.tile s.focus.set s.focus.elem c) merged := by
  rw [mergeHeld_eq]
  exact (moveEffect_mergedChans s c).trans (moveEffect_modRx _ withinBundle_merged)

theorem exists_triggerMerge_effect (m : Mv) (s : State) : ∃ h, MoveEffect s (triggerMerge m s) h := by
  have htrig := moveEffect_trigger m 5 6 redMergeOp s
  unfold triggerMerge
  dsimp only
  split
  · refine ⟨_, htrig.trans (k := merged) ?_⟩
    rw [← htrig.focus]
    exact moveEffect_mergeHeld ..
  · exact ⟨_, htrig⟩

theorem exists_moveEff_effect {i : Mv → Instr} (hi : i ∈ moveForms) (m : Mv) (s : State) : ∃ h, MoveEffect s (moveEff (i m) s) h := by
  refine (List.forall_iff_forall_mem (l := moveForms) (p := fun i => ∀ m s, ∃ h, MoveEffect s (moveEff (i m) s) h)).1 ?_ i hi m s
  have hdata : ∀ m s, ∃ h, MoveEffect s (moveData m s) h := fun m s =>
    have ⟨h, heff, _⟩ := exists_moveData_effect m s
    ⟨h, heff⟩
  have hguard : ∀ (b : Bool) (t : State) (s : State), (∃ h, MoveEffect s t h) → ∃ h, MoveEffect s (if b then t else s) h := fun b t s h => by
    cases b
    · exact ⟨id, MoveEffect.refl s⟩
    · exact h
  refine ⟨hdata, fun m s => hguard _ _ s (hdata m s), fun m s => hguard _ _ s (exists_moveScale_effect m s), ?_⟩
  repeat' apply And.intro
  all_goals first | exact fun m s => ⟨_, moveEffect_trigger m _ _ _ s⟩ | exact exists_triggerMerge_effect

/-! ### The last move of a bundle (R68) -/

/-- The bundle of a move, open: the reaction stands where it stood. -/
theorem openBundle_place {s : State} (hs : moveReady s = true) :
    moveReady (openBundle s) = true ∧ (curElem (openBundle s)).fault = (curElem s).fault ∧ (curRx (openBundle s)).idx = (curRx s).idx ∧
      (curRx (openBundle s)).mov = (curRx s).mov ∧ (curRx (openBundle s)).bundle = (curRx s).bundle := by
  cases ho : (curRx s).opnds
  · rw [curRx_openBundle hs ho]
    exact ⟨moveReady_openBundle hs ho, openBundle_fault hs ho, rfl, rfl, rfl⟩
  · rw [openBundle_opened ho]
    exact ⟨hs, rfl, rfl, rfl, rfl⟩

theorem runMove_last {m : Mv} (s : State) (eff : State → State) (h : m.eob = true) :
    runMove m s eff = closeBundle (eff (openBundle s)) m.eoh := by
  unfold runMove
  dsimp only
  rw [if_pos h]

theorem runMove_inner {m : Mv} (s : State) (eff : State → State) (h : m.eob = false) :
    runMove m s eff = modRx (eff (openBundle s)) onward := by
  unfold runMove
  dsimp only
  rw [if_neg (by simp [h])]
  rfl

/-- Two changes of the running reaction, one beside the other. -/
theorem runningChanged_modRx {s : State} (hs : moveReady s = true) {f g : Reaction → Reaction} {rel : Reaction → Reaction → Prop}
    (hf : (f (curRx s)).done = false) (hrel : rel (f (curRx s)) (g (curRx s))) :
    RunningChanged (curElem (modRx s f)) (curElem (modRx s g)) rel := by
  obtain ⟨pre, post, hpre, hsplit⟩ := modRunning_split (exists_running hs).1
  refine ⟨pre, f (curRx s), g (curRx s), post, ?_, ?_, hpre, hf, hrel⟩
  · rw [modRx, curElem_modCurElem]
    exact hsplit f
  · rw [modRx, curElem_modCurElem]
    exact hsplit g

/-- The last move of a bundle against the same move within one (R68, R113). -/
theorem last_move_closes {i : Mv → Instr} (hi : i ∈ moveForms) {m : Mv} {s : State} (hs : moveReady s = true) (he : m.eob = true) :
    ∃ t u, exec (i { m with eob := false }) s = .next t ∧ exec (i m) s = .next u ∧
      (curElem u).ports = (curElem t).ports ∧ (curElem u).fault = (curElem s).fault ∧
      RunningChanged (curElem t) (curElem u) fun r q =>
        q.trigs = [] ∧ q.opnds = false ∧ q.mov = 0 ∧ q.bundle = (curRx s).bundle + 1 ∧ q.idx = (curRx s).idx + 1 ∧ q.done = m.eoh ∧
        q.outs = r.outs ∧ q.exd = r.exd ∧ q.inst = r.inst ∧
        ∃ k, q.ends = r.ends ++ [k] ∧ k.trigs = r.trigs ∧ k.ports = (curElem t).ports ∧ k.outs = r.outs ∧ k.idx = (curRx s).idx ∧
          k.mov = (curRx s).mov := by
  obtain ⟨hready, hfault, hidx, hmov, hbundle⟩ := openBundle_place hs
  obtain ⟨h, heff⟩ := exists_moveEff_effect hi m (openBundle s)
  have hw := heff.within (curRx (openBundle s))
  rw [← heff.curRx_eq hready] at hw
  refine ⟨modRx (moveEff (i m) (openBundle s)) onward, closeBundle (moveEff (i m) (openBundle s)) m.eoh, ?_, ?_, ?_, ?_, ?_⟩
  · rw [exec_moveForm hi, if_pos hs, runMove_inner s _ rfl, moveEff_eob hi]
  · rw [exec_moveForm hi, if_pos hs, runMove_last s _ he]
  · exact (curElem_modRx_ports ..).trans (curElem_modRx_ports ..).symm
  · refine Eq.trans ?_ (heff.fault.trans hfault)
    unfold closeBundle
    rw [modRx, curElem_modCurElem]
  · refine runningChanged_modRx (heff.ready hready) (exists_running (heff.ready hready)).2
      ⟨rfl, rfl, rfl, congrArg (· + 1) (hw.bundle.trans hbundle), congrArg (· + 1) (hw.idx.trans hidx), rfl, rfl, rfl, rfl, _, rfl, rfl, ?_, rfl,
        hw.idx.trans hidx, hw.mov.trans hmov⟩
    exact (curElem_modRx_ports ..).symm

end Sys2Proof
end

section

namespace Sys2Proof

open Sys2Proof.Machine Sys2Proof.Claim

/-! ## The stages of a reaction (R66, R113, R116)

A trap leaves the elements alone; the oldest reaction enters its next stage and its bundle is examined. -/

/-! ### A trap leaves the elements of every set (R246) -/

theorem setSet_elems {s : State} {t i : Nat} {c : CtxSet} (h : c.elems = (getSet s t i).elems) (u j : Nat) :
    (getSet (setSet s t i c) u j).elems = (getSet s u j).elems := by
  rcases getSet_modSet_cases s t i u j (fun _ => c) with ⟨h1, h2⟩ | h1
  · exact (congrArg CtxSet.elems h2).trans (h.trans (congrArg CtxSet.elems h1).symm)
  · exact congrArg CtxSet.elems h1

theorem enterTrap_elems (c : CtxSet) (r : TrapRec) : (enterTrap c r).elems = c.elems := by
  unfold enterTrap
  split <;> rfl

theorem presentAt_elems (c : CtxSet) (tsc : Nat) (r : TrapRec) : (presentAt c tsc r).elems = c.elems := rfl

theorem arrive_elems {s s1 : State} {t i : Nat} {r : TrapRec} (h : arrive s t i r = some s1) (u j : Nat) :
    (getSet s1 u j).elems = (getSet s u j).elems := by
  unfold arrive at h
  dsimp only at h
  have hc := enterTrap_elems (getSet s t i) r
  split at h
  · cases h
    exact setSet_elems hc u j
  · split_ifs at h <;> cases h <;> exact setSet_elems (by exact hc) u j

theorem stopSets_elems (s : State) (cs : List Nat) (u j : Nat) : (getSet (stopSets s cs) u j).elems = (getSet s u j).elems := by
  have hask : ∀ c : CtxSet, (match c.ctx with
      | some x => if cs.contains x then { c with stopReq := true } else c
      | none => c).elems = c.elems := fun c => by
    split
    · split <;> rfl
    · rfl
  unfold getSet getTile stopSets Tab.get
  rw [Tab.find?_mapAll]
  cases Tab.find? s.tiles u with
  | none => rfl
  | some t =>
    by_cases hj : j = 0
    · subst hj
      exact hask t.set0
    · simp only [Option.map_some, Option.getD_some, tileSet, if_neg hj]
      exact hask t.set1

theorem reflect_elems (s : State) (t i : Nat) (r : TrapRec) (fuel x u j : Nat) :
    (getSet (reflect s t i r fuel x) u j).elems = (getSet s u j).elems := by
  induction fuel generalizing s t i r x with
  | zero => rfl
  | succ fuel ih =>
    have hstop : ∀ f cs, (getSet (stopSets (modCtx s x f) cs) u j).elems = (getSet s u j).elems := fun f cs => stopSets_elems ..
    unfold reflect
    dsimp only
    split
    · exact hstop ..
    · split
      · exact hstop ..
      · split
        · split
          · split
            next h => exact (arrive_elems h u j).trans (hstop ..)
            next => exact (ih ..).trans (hstop ..)
          · exact (ih ..).trans (hstop ..)
        · exact (ih ..).trans (hstop ..)

theorem raiseTrap_elems (s : State) (t i : Nat) (r : TrapRec) (u j : Nat) : (getSet (raiseTrap s t i r) u j).elems = (getSet s u j).elems := by
  unfold raiseTrap
  split
  next h => exact arrive_elems h u j
  next => exact (reflect_elems ..).trans (setSet_elems (enterTrap_elems ..) u j)

theorem elemOfSet_raiseTrap (s : State) (t i : Nat) (r : TrapRec) (u j e : Nat) :
    elemOfSet (getSet (raiseTrap s t i r) u j) e = elemOfSet (getSet s u j) e := by
  unfold elemOfSet
  rw [raiseTrap_elems]

/-! ### The causes of a bundle's triggers (R113, R114) -/

theorem bit_eq_testBit (v n : Nat) : bit v n = v.testBit n := by
  rw [bit, Nat.testBit_eq_decide_div_mod_eq]
  rfl

theorem elxenOf_eq (c : CtxSet) (e : Nat) : elxenOf c e = enables c e := by
  unfold elxenOf enables
  dsimp only
  split <;> rw [bits_eq_extractLsb', show 4 * (e % 16) + 3 + 1 - 4 * (e % 16) = 4 by omega]

/-- The cause of a trigger under some enables. -/
theorem trigCause_eq (en : Nat) (t : TrigRec) : (trigCause en t).map Prod.fst = if causeOf en t = 0 then none else some (causeOf en t) := by
  unfold trigCause causeOf
  simp only [bit_eq_testBit]
  by_cases h : t.alw = 0
  · simp only [h, bne_self_eq_false, Bool.false_eq_true, if_false, ne_eq, not_true_eq_false]
    split_ifs <;> simp_all
  · simp [h]

theorem trigCause_isSome (en : Nat) (t : TrigRec) : (trigCause en t).isSome = (causeOf en t != 0) := by
  rw [← Option.isSome_map (f := Prod.fst), trigCause_eq]
  split <;> simp_all

theorem trigCause_fst {en : Nat} {t : TrigRec} (h : causeOf en t ≠ 0) : ((trigCause en t).getD (0, 0)).1 = causeOf en t := by
  have := trigCause_eq en t
  rw [if_neg h] at this
  obtain ⟨p, hp, hc⟩ := Option.map_eq_some_iff.1 this
  rw [hp, Option.getD_some, hc]

/-- The triggers from the first that faults on. -/
theorem faultingFrom_eq (en : Nat) (l : List TrigRec) : faultingFrom en l = l.dropWhile fun q => !(causeOf en q != 0) := by
  induction l with
  | nil => rfl
  | cons t l ih =>
    rw [faultingFrom, trigCause_isSome, ih, List.dropWhile_cons]
    cases causeOf en t != 0 <;> rfl

theorem faultingFrom_none {en : Nat} {l : List TrigRec} (h : (l.find? fun q => causeOf en q != 0) = none) : faultingFrom en l = [] := by
  rw [faultingFrom_eq, List.dropWhile_eq_nil_iff]
  intro q hq
  have := List.find?_eq_none.1 h q hq
  simpa using this

theorem faultingFrom_some {en : Nat} {l : List TrigRec} {q : TrigRec} (h : (l.find? fun q => causeOf en q != 0) = some q) :
    ∃ rest, faultingFrom en l = q :: rest := by
  have hhead : (faultingFrom en l).head? = some q := by
    rw [faultingFrom_eq, ← List.find?_eq_head?_dropWhile_not, h]
  cases hl : faultingFrom en l with
  | nil => rw [hl] at hhead; cases hhead
  | cons x rest =>
    rw [hl] at hhead
    exact ⟨rest, by rw [Option.some.inj hhead]⟩

/-! ### The fault record of a trigger (R115) -/

theorem extract_ofNat (n lo w : Nat) {v : Nat} (h : n % 2 ^ 64 / 2 ^ lo % 2 ^ w = v % 2 ^ w) :
    (BitVec.ofNat 64 n).extractLsb' lo w = BitVec.ofNat w v := by
  apply BitVec.eq_of_toNat_eq
  rw [BitVec.extractLsb'_toNat, Nat.shiftRight_eq_div_pow, BitVec.toNat_ofNat, BitVec.toNat_ofNat, h]

/-- The fields of the fault word of a trigger. -/
theorem faultWord_fields (cause elem hnd bnd mov inp unit fop lmask : Nat) :
    let w := faultWord cause elem hnd bnd mov inp false false unit fop lmask
    w.extractLsb' 60 4 = BitVec.ofNat 4 cause ∧ w.extractLsb' 55 5 = BitVec.ofNat 5 elem ∧ w.extractLsb' 50 2 = BitVec.ofNat 2 bnd ∧
      w.extractLsb' 48 2 = BitVec.ofNat 2 mov ∧ w.extractLsb' 40 3 = BitVec.ofNat 3 unit ∧ w.extractLsb' 34 6 = BitVec.ofNat 6 fop ∧
      w.getLsbD 44 = false := by
  intro w
  have hbit : w.getLsbD 44 = (w.extractLsb' 44 1).getLsbD 0 := by simp
  rw [hbit]
  unfold w faultWord
  simp only [flagAt, Bool.false_eq_true, if_false]
  refine ⟨extract_ofNat _ _ _ ?_, extract_ofNat _ _ _ ?_, extract_ofNat _ _ _ ?_, extract_ofNat _ _ _ ?_, extract_ofNat _ _ _ ?_,
    extract_ofNat _ _ _ ?_, ?_⟩
  case refine_7 =>
    rw [extract_ofNat _ _ _ (v := 0)]
    · rfl
    · omega
  all_goals omega

/-! ### The oldest reaction at a step (R66, R82) -/

/-- A reaction as it enters its next stage at a step. -/
def entered (tsc : Nat) (r : Reaction) : Reaction := { r with stage := r.stage + 1, since := tsc }

/-- A reaction whose bundle has been passed. -/
def passed (r : Reaction) : Reaction := { r with exd := r.exd + 1 }

section

variable {e : Elem} {r : Reaction} {ys : List Reaction} {tsc : Nat} (hx : e.rxs = r :: ys) (hf : e.fault = none) (hh : r.half = false)

include hx hf hh

theorem mayAdvance_oldest (hs : r.since < tsc) (he : r.exd < 4) (hst : r.stage = r.exd + 2) : mayAdvance e 0 tsc = true := by
  have hr : reactionFault e = false := by rw [reactionFault, hf]
  have hw : rxWidth r = 1 := by rw [rxWidth, hh]; rfl
  unfold mayAdvance
  simp only [hx, List.getElem?_cons_zero, hr, hw, Bool.false_and, Bool.not_false, Bool.and_true, Bool.and_eq_true, decide_eq_true_eq]
  omega

theorem examineDue_oldest {k : BundleEnd} (hs : r.since = tsc) (hst : r.stage = r.exd + 3) (hk : r.ends[r.exd]? = some k) :
    examineDue e 0 tsc = true := by
  have hr : reactionFault e = false := by rw [reactionFault, hf]
  have hw : rxWidth r = 1 := by rw [rxWidth, hh]; rfl
  have hlen : r.exd < r.ends.length := (List.getElem?_eq_some_iff.1 hk).1
  unfold examineDue
  simp only [hx, List.getElem?_cons_zero, hr, hw, Bool.false_and, Bool.not_false, Bool.and_true, Bool.and_eq_true, Bool.or_eq_true,
    decide_eq_true_eq, beq_iff_eq]
  omega

end

section

variable {s : State} {tile set elem : Nat}

/-- A place that no reaction has is passed over. -/
theorem stageRx_absent {n : Nat} (h : (elemOfSet (getSet s tile set) elem).rxs.length ≤ n) : stageRx tile set elem s n = s := by
  have hnone := List.getElem?_eq_none h
  unfold stageRx mayAdvance examineDue
  simp only [hnone, Bool.false_eq_true, if_false]

/-- The stages of an element after its oldest reaction's, where no other is left. -/
theorem stages_of_oldest (h : (elemOfSet (getSet (stageRx tile set elem s 0) tile set) elem).rxs.length ≤ 1) :
    (List.range 5).foldl (stageRx tile set elem) s = stageRx tile set elem s 0 := by
  change stageRx tile set elem (stageRx tile set elem (stageRx tile set elem (stageRx tile set elem (stageRx tile set elem s 0) 1) 2) 3) 4 = _
  rw [stageRx_absent h, stageRx_absent (n := 2) (by omega), stageRx_absent (n := 3) (by omega), stageRx_absent (n := 4) (by omega)]

theorem getSet_modElem (f : Elem → Elem) :
    getSet (modElem s tile set elem f) tile set =
      { getSet s tile set with elems := Tab.set (getSet s tile set).elems elem (f (elemOfSet (getSet s tile set) elem)) } :=
  getSet_modSet_same ..

theorem regions_modElem (f : Elem → Elem) : (getSet (modElem s tile set elem f) tile set).regions = (getSet s tile set).regions := by
  rw [getSet_modElem]

theorem slotOfElem_congr {c d : CtxSet} (h : d.regions = c.regions) (e : Nat) : slotOfElem d e = slotOfElem c e := by
  unfold slotOfElem regionOf
  rw [h]

variable {r : Reaction} {ys : List Reaction} {k : BundleEnd} (hx : (elemOfSet (getSet s tile set) elem).rxs = r :: ys)

include hx

theorem examineStage_passes (hk : r.ends[r.exd]? = some k) (ht : faultingFrom (elxenOf (getSet s tile set) elem) k.trigs = []) :
    examineStage s tile set elem 0 = modElem s tile set elem fun x => modNth x 0 passed := by
  unfold examineStage
  simp only [hx, List.getElem?_cons_zero, hk, ht]
  rfl

theorem examineStage_faults {q : TrigRec} {rest : List TrigRec} (hk : r.ends[r.exd]? = some k)
    (ht : faultingFrom (elxenOf (getSet s tile set) elem) k.trigs = q :: rest) :
    examineStage s tile set elem 0 = stopAt s tile set elem 0 r k q rest := by
  unfold examineStage
  simp only [hx, List.getElem?_cons_zero, hk, ht]

/-- The oldest reaction enters its next stage, and its bundle is examined. -/
theorem stageRx_oldest (hf : (elemOfSet (getSet s tile set) elem).fault = none) (hh : r.half = false) (hs : r.since < tscOf s tile)
    (he : r.exd < 4) (hst : r.stage = r.exd + 2) (hk : r.ends[r.exd]? = some k) :
    stageRx tile set elem s 0 =
      examineStage (modElem s tile set elem fun x => modNth x 0 (entered (tscOf s tile))) tile set elem 0 := by
  unfold stageRx
  dsimp only
  rw [if_pos (mayAdvance_oldest hx hf hh hs he hst), if_pos]
  · rfl
  refine examineDue_oldest (r := entered (tscOf s tile) r) (ys := ys) (k := k) ?_ ?_ hh rfl (congrArg (· + 1) hst) hk
  · rw [elemOfSet_modElem_same, modNth, hx]
    rfl
  · rw [elemOfSet_modElem_same]
    exact hf

end

/-! ### A reaction stopped at a trigger (R113, R115, R116) -/

/-- A fold of changes of channels leaves the sets. -/
theorem getSet_foldl_modChan {α : Type} (step : State → α → State)
    (h : ∀ acc x, step acc x = acc ∨ ∃ tile key f, step acc x = modChan acc tile key f)
    (l : List α) (s : State) (u j : Nat) : getSet (l.foldl step s) u j = getSet s u j :=
  foldl_keeps (fun s => getSet s u j) step
    (fun acc x => by
      rcases h acc x with hx | ⟨tile, key, f, hx⟩ <;> rw [hx]
      exact getSet_modChan ..) l s

/-- The younger reactions squashed: the instant of the first is the element's again. -/
theorem squash_inst (s : State) (tile set elem : Nat) (rs : List Reaction) (held : Option Nat) :
    (elemOfSet (getSet (squash s tile set elem rs held) tile set) elem).inst =
      (rs.head?.map Reaction.inst).getD (elemOfSet (getSet s tile set) elem).inst := by
  cases rs with
  | nil => rfl
  | cons r rs =>
    unfold squash
    dsimp only
    rw [elemOfSet_modElem_same]
    rfl

theorem squash_regions (s : State) (tile set elem : Nat) (rs : List Reaction) (held : Option Nat) :
    (getSet (squash s tile set elem rs held) tile set).regions = (getSet s tile set).regions := by
  cases rs with
  | nil => rfl
  | cons r rs =>
    unfold squash
    dsimp only
    refine (regions_modElem _).trans (congrArg CtxSet.regions (getSet_foldl_modChan _ (fun acc x => ?_) _ s _ _))
    split
    · exact .inl rfl
    · exact .inr ⟨_, _, _, rfl⟩

/-- A fault of an element is a trap of its region's slot (R117). -/
theorem faultElem_eq {s : State} {tile set elem : Nat} (f : ElemFault) {c : CtxSet} (h : (getSet s tile set).regions = c.regions) :
    faultElem s tile set elem f = raiseTrap (modElem s tile set elem fun x => { x with fault := some f }) tile set
      (unitRec 0x14 2 0 ((slotOfElem c elem).getD 0) 0 0 f.w0 f.w1) := by
  unfold faultElem
  rw [slotOfElem_congr h]

/-- What stands when the oldest reaction of an element has faulted at a trigger. -/
theorem stopAt_oldest {s : State} {tile set elem : Nat} {r0 : Reaction} {ys : List Reaction}
    (hx : (elemOfSet (getSet s tile set) elem).rxs = r0 :: ys) (r : Reaction) (k : BundleEnd) {q : TrigRec} (rest : List TrigRec)
    (hq : causeOf (elxenOf (getSet s tile set) elem) q ≠ 0) :
    ∃ u mask inp, let f := trigFault elem (stopRx r r.exd k (q :: rest)) q (causeOf (elxenOf (getSet s tile set) elem) q) mask inp
      stopAt s tile set elem 0 r k q rest =
        raiseTrap u tile set (unitRec 0x14 2 0 ((slotOfElem (getSet s tile set) elem).getD 0) 0 0 f.w0 f.w1) ∧
      let y := elemOfSet (getSet u tile set) elem
      y.fault = some f ∧ y.ports = k.ports ∧ y.inst = (ys.head?.map Reaction.inst).getD (elemOfSet (getSet s tile set) elem).inst ∧
        y.rxs = [stopRx r r.exd k (q :: rest)] := by
  have hheld : ∀ (held : Option Nat) (l : List (Nat × List (BitVec 512) × Nat)), getSet (l.foldl (fun acc p =>
      if (chanOf (getTile acc tile) (chanKey set elem p.1)) == Chan.empty then acc
      else modChan acc tile (chanKey set elem p.1) fun c => { c with held := p.2.1, kept := p.2.2 }) (squash s tile set elem ys held)) tile set =
      getSet (squash s tile set elem ys held) tile set := fun held l => by
    refine getSet_foldl_modChan _ (fun acc p => ?_) ..
    split
    · exact .inl rfl
    · exact .inr ⟨_, _, _, rfl⟩
  unfold stopAt
  simp only [hx, List.drop_succ_cons, List.drop_zero, List.take_zero, List.nil_append, trigCause_fst hq]
  refine ⟨_, _, _, faultElem_eq _ ?_, ?_, ?_, ?_, ?_⟩
  · rw [regions_modElem, hheld, squash_regions]
  · rw [elemOfSet_modElem_same]
  · rw [elemOfSet_modElem_same, elemOfSet_modElem_same]
  · rw [elemOfSet_modElem_same, elemOfSet_modElem_same, hheld, squash_inst]
  · rw [elemOfSet_modElem_same, elemOfSet_modElem_same]

/-! ### An element's turn (R66, R72) -/

/-- Statuses that reach stage 2 change the inputs alone. -/
theorem resolveIn_inputs (t : Tile) (set elem : Nat) (im : Image) (tsc : Nat) (e : Elem) (i : Nat) :
    ∃ ins, resolveIn t set elem im tsc e i = { e with ins := ins } := by
  unfold resolveIn
  dsimp only
  split
  · split
    · exact ⟨_, rfl⟩
    · split <;> exact ⟨_, rfl⟩
  · exact ⟨_, rfl⟩

theorem foldl_resolveIn_inputs (t : Tile) (set elem : Nat) (im : Image) (tsc : Nat) (l : List Nat) (e : Elem) :
    ∃ ins, l.foldl (resolveIn t set elem im tsc) e = { e with ins := ins } := by
  induction l generalizing e with
  | nil => exact ⟨_, rfl⟩
  | cons i l ih =>
    obtain ⟨ins, h⟩ := resolveIn_inputs t set elem im tsc e i
    obtain ⟨ins', h'⟩ := ih { e with ins := ins }
    exact ⟨ins', by rw [List.foldl_cons, h, h']⟩

/-- An element's turn: some statuses reach stage 2, and its reactions move on. -/
theorem exists_stageTurn {s : State} {tile : Nat} (elem : Nat) (h : Acts s tile) :
    ∃ ins, stageTurn s tile elem = (List.range 5).foldl (stageRx tile (getTile s tile).active elem)
      (modElem s tile (getTile s tile).active elem fun e => { e with ins := ins }) := by
  obtain ⟨hedge, hrem⟩ := h
  obtain ⟨ins, hins⟩ := foldl_resolveIn_inputs (getTile s tile) (getTile s tile).active elem (imageNow s tile (getTile s tile).active elem)
    (tscOf s tile) (connected (imageNow s tile (getTile s tile).active elem)) (elemOfSet (getSet s tile (getTile s tile).active) elem)
  refine ⟨ins, ?_⟩
  unfold stageTurn
  simp only [hedge, hrem, Bool.not_true, Bool.or_false, Bool.false_eq_true, if_false]
  exact congrArg (fun e => (List.range 5).foldl (stageRx tile (getTile s tile).active elem) (setElem s tile (getTile s tile).active elem e)) hins

theorem elxenOf_modElem (s : State) (tile set elem : Nat) (f : Elem → Elem) (e : Nat) :
    elxenOf (getSet (modElem s tile set elem f) tile set) e = elxenOf (getSet s tile set) e := by
  rw [getSet_modElem]
  rfl

/-- The turn of an element whose oldest reaction comes to the stage of a bundle. -/
theorem exists_stageTurn_examines {s : State} {tile elem : Nat} {r : Reaction} {ys : List Reaction} {k : BundleEnd} (ha : Acts s tile)
    (hx : (elemOfSet (actSet s tile) elem).rxs = r :: ys) (hf : (elemOfSet (actSet s tile) elem).fault = none) (hh : r.half = false)
    (hs : r.since < tscOf s tile) (he : r.exd < 4) (hst : r.stage = r.exd + 2) (hk : r.ends[r.exd]? = some k) :
    ∃ s1 s2 ins, stageTurn s tile elem = (List.range 5).foldl (stageRx tile (getTile s tile).active elem) s1 ∧
      stageRx tile (getTile s tile).active elem s1 0 = examineStage s2 tile (getTile s tile).active elem 0 ∧
      elemOfSet (getSet s2 tile (getTile s tile).active) elem =
        { elemOfSet (actSet s tile) elem with ins := ins, rxs := entered (tscOf s tile) r :: ys } ∧
      elxenOf (getSet s2 tile (getTile s tile).active) elem = enables (actSet s tile) elem ∧
      (getSet s2 tile (getTile s tile).active).regions = (actSet s tile).regions := by
  obtain ⟨ins, hturn⟩ := exists_stageTurn elem ha
  refine ⟨_, _, ins, hturn, stageRx_oldest (r := r) (ys := ys) (k := k) ?_ ?_ hh ?_ he hst hk, ?_, ?_, ?_⟩
  · rw [elemOfSet_modElem_same]
    exact hx
  · rw [elemOfSet_modElem_same]
    exact hf
  · exact hs.trans_eq (tscOf_modSet ..).symm
  · rw [elemOfSet_modElem_same, elemOfSet_modElem_same, modNth]
    rw [show tscOf (modElem s tile (getTile s tile).active elem _) tile = tscOf s tile from tscOf_modSet ..]
    change { elemOfSet (actSet s tile) elem with ins := ins, rxs := (elemOfSet (actSet s tile) elem).rxs.modify 0 (entered (tscOf s tile)) } = _
    rw [hx]
    rfl
  · rw [elxenOf_modElem, elxenOf_modElem, elxenOf_eq]
    rfl
  · rw [regions_modElem, regions_modElem]
    rfl

/-- A bundle that signals nothing enabled is passed (R113). -/
theorem stageTurn_passes {s : State} {tile elem : Nat} {r : Reaction} {k : BundleEnd} (ha : Acts s tile)
    (hx : (elemOfSet (actSet s tile) elem).rxs = [r]) (hf : (elemOfSet (actSet s tile) elem).fault = none) (hh : r.half = false)
    (hs : r.since < tscOf s tile) (he : r.exd < 4) (hst : r.stage = r.exd + 2) (hk : r.ends[r.exd]? = some k)
    (hq : (k.trigs.find? fun q => causeOf (enables (actSet s tile) elem) q != 0) = none) :
    let y := elemOfSet (getSet (stageTurn s tile elem) tile (getTile s tile).active) elem
    y.rxs = [{ r with exd := r.exd + 1, stage := r.stage + 1, since := tscOf s tile }] ∧ y.fault = none ∧
      y.ports = (elemOfSet (actSet s tile) elem).ports := by
  obtain ⟨s1, s2, ins, hturn, hex, hel, hen, -⟩ := exists_stageTurn_examines ha hx hf hh hs he hst hk
  have hrxs : (elemOfSet (getSet s2 tile (getTile s tile).active) elem).rxs = [entered (tscOf s tile) r] := by rw [hel]
  rw [examineStage_passes hrxs hk (by rw [hen]; exact faultingFrom_none hq)] at hex
  have hres : elemOfSet (getSet (stageRx tile (getTile s tile).active elem s1 0) tile (getTile s tile).active) elem =
      { elemOfSet (actSet s tile) elem with ins := ins, rxs := [passed (entered (tscOf s tile) r)] } := by
    rw [hex, elemOfSet_modElem_same, hel]
    rfl
  intro y
  have hy : y = _ := (congrArg (fun t => elemOfSet (getSet t tile (getTile s tile).active) elem)
    (hturn.trans (stages_of_oldest (by rw [hres]; exact le_rfl)))).trans hres
  rw [hy]
  exact ⟨rfl, hf, rfl⟩

/-- A bundle whose first enabled trigger faults stops its reaction there, and younger ones are squashed (R113, R115, R116). -/
theorem stageTurn_faults {s : State} {tile elem : Nat} {r : Reaction} {ys : List Reaction} {k : BundleEnd} {q : TrigRec} (ha : Acts s tile)
    (hx : (elemOfSet (actSet s tile) elem).rxs = r :: ys) (hf : (elemOfSet (actSet s tile) elem).fault = none) (hh : r.half = false)
    (hs : r.since < tscOf s tile) (he : r.exd < 4) (hst : r.stage = r.exd + 2) (hk : r.ends[r.exd]? = some k)
    (hq : (k.trigs.find? fun q => causeOf (enables (actSet s tile) elem) q != 0) = some q) :
    ∃ u mask inp rest, let z := stopRx (entered (tscOf s tile) r) r.exd k (q :: rest)
      let f := trigFault elem z q (causeOf (enables (actSet s tile) elem) q) mask inp
      stageTurn s tile elem = raiseTrap u tile (getTile s tile).active
        (unitRec 0x14 2 0 ((slotOfElem (actSet s tile) elem).getD 0) 0 0 f.w0 f.w1) ∧
      let y := elemOfSet (getSet u tile (getTile s tile).active) elem
      y.fault = some f ∧ y.ports = k.ports ∧ y.inst = (ys.head?.map Reaction.inst).getD (elemOfSet (actSet s tile) elem).inst ∧ y.rxs = [z] := by
  obtain ⟨s1, s2, ins, hturn, hex, hel, hen, hreg⟩ := exists_stageTurn_examines ha hx hf hh hs he hst hk
  have hrxs : (elemOfSet (getSet s2 tile (getTile s tile).active) elem).rxs = entered (tscOf s tile) r :: ys := by rw [hel]
  obtain ⟨rest, hfrom⟩ := faultingFrom_some hq
  rw [examineStage_faults hrxs hk (by rw [hen]; exact hfrom)] at hex
  have hcause : causeOf (enables (actSet s tile) elem) q ≠ 0 := by simpa using List.find?_some hq
  obtain ⟨u, mask, inp, hstop, hfault, hports, hinst, hone⟩ := stopAt_oldest hrxs (entered (tscOf s tile) r) k rest (by rw [hen]; exact hcause)
  rw [hen, slotOfElem_congr hreg] at hstop
  rw [hen] at hfault
  refine ⟨u, mask, inp, rest, ?_, hfault, hports, ?_, hone⟩
  · have hres := hex.trans hstop
    refine hturn.trans ((stages_of_oldest ?_).trans hres)
    rw [hres, elemOfSet_raiseTrap, hone]
    exact le_rfl
  · rw [hinst, hel]

end Sys2Proof
end

section

namespace Sys2Proof

open Sys2Proof.Machine Sys2Proof.Claim

/-! ## Moves and bundles: the obligation -/

/-- The data moves of an open bundle. -/
theorem dataMoves_carry {m : Mv} {s : State} (hm : Moves m s) {i : Instr} (hi : i = .move m ∨ i = .guardedMove m ∧ guardPasses m s = true) :
    ∃ t, exec i s = .next t ∧ MovedOn s t ∧ (curRx t).trigs = (curRx s).trigs ∧ (curRx t).scales = (curRx s).scales ∧
      (∀ o, m.dst = .out o → (∀ l < 16, lane (Tab.get 0 (curRx t).outs o) l = if laneSel m l then srcLane s m l else 0) ∧
        (∀ x, x ≠ o → Tab.get 0 (curRx t).outs x = Tab.get 0 (curRx s).outs x) ∧ (curElem t).ports = (curElem s).ports) ∧
      (m.dst = .dline → ∀ l < 16, lane (Tab.get 0 (curRx t).lines (m.imm.toNat % 4)) l = if laneSel m l then srcLane s m l else 0) ∧
      (∀ p k, (p, k) ∈ [(Port.aluO, 0), (.mulO, 2), (.redO, 6)] → m.dst = p →
        (∀ l < 16, lane (port t k) l = if laneSel m l then srcLane s m l else lane (port s k) l) ∧
        (∀ x, x ≠ k → port t x = port s x) ∧ (curRx t).outs = (curRx s).outs) := by
  obtain ⟨h, heff, hkeep⟩ := exists_moveData_effect m s
  obtain ⟨htrigs, hscales⟩ := hkeep (curRx s)
  have hrx := heff.curRx_onward hm.1
  refine ⟨_, exec_move_writes hm hi, heff.movedOn hm.1, ?_, ?_, fun o ho => moveData_to_output hm ho, fun hd l hl => moveData_to_line hm hd hl, ?_⟩
  · rw [hrx]
    exact htrigs
  · rw [hrx]
    exact hscales
  · intro p k hpk hd
    refine moveData_to_operand hm ?_ hd
    simp only [List.mem_cons, Prod.mk.injEq, List.not_mem_nil, or_false] at hpk
    rcases hpk with ⟨rfl, rfl⟩ | ⟨rfl, rfl⟩ | ⟨rfl, rfl⟩ <;> rfl

/-- Settles O49: a move changes its destination in the running reaction or the ports; the first and the last move open and close the
bundle; and the turn of the element's stages examines it. -/
theorem movesAndBundlesOfAReaction : Obligations.MovesAndBundlesOfAReaction := by
  intro m s
  refine ⟨fun hm => ?_, fun i hi hs ho => ?_, fun i hi hs he => last_move_closes hi hs he, fun tile e rest r ys k hb hag ha _ => ?_⟩
  · intro passes
    have hguard : m.imm.getLsbD 7 = false ∨ passes = true ↔ guardPasses m s = true := by
      rw [guardPasses_eq, Bool.or_eq_true, Bool.not_eq_true']
    refine ⟨fun i hi => dataMoves_carry hm (hi.imp_right fun h => ⟨h.1, hguard.1 h.2⟩), fun i hi h7 hp => ?_, fun o ho hp => ?_⟩
    · have hrx := (MoveEffect.refl s).curRx_onward hm.1
      have hg : guardPasses m s = false := by
        rw [Bool.eq_false_iff, Ne, ← hguard, h7, hp]
        simp
      refine ⟨_, exec_move_skips hm hi hg, (MoveEffect.refl s).movedOn hm.1, ?_, ?_, curElem_modRx_ports ..⟩ <;> rw [hrx] <;> rfl
    · exact ⟨_, exec_scaleMove_writes hm (hguard.1 hp), moveScale_to_output hm ho⟩
  · have hrx := curRx_openBundle hs ho
    have hready := moveReady_openBundle hs ho
    have hopen : (curRx (openBundle s)).opnds = true := by rw [hrx]; rfl
    refine ⟨openBundle s, ?_, hready, hopen, ?_, ?_, ?_, ?_, port_openBundle hs ho⟩
    · rw [exec_moveForm hi, exec_moveForm hi, if_pos hs, if_pos hready]
      unfold runMove
      rw [openBundle_opened hopen]
    all_goals
      rw [hrx]
      rfl
  · intro set x en hx hf hh hsince hexd hst hk
    have hstep : step s = .next (stageTurn { s with agenda := rest } tile e) := step_over hag hb rfl
    refine ⟨fun hq hys => ?_, fun q hq => ?_⟩
    · subst hys
      exact ⟨_, hstep, stageTurn_passes (s := { s with agenda := rest }) ha hx hf hh hsince hexd hst hk hq⟩
    · obtain ⟨u, mask, inp, tl, hturn, hfault, hports, hinst, hone⟩ :=
        stageTurn_faults (s := { s with agenda := rest }) ha hx hf hh hsince hexd hst hk hq
      obtain ⟨hcause, helem, hbnd, hmov, hunit, hfop, hstg⟩ := faultWord_fields (causeOf en q) e
        (rxHandler (stopRx (entered (tscOf s tile) r) r.exd k (q :: tl))) r.exd q.mov (if causeOf en q = 8 then inp else 0) q.unit q.fop mask
      exact ⟨u, _, hstep.trans (congrArg _ hturn), ⟨hfault, hports, hinst, _, hone, rfl, rfl, rfl, rfl, rfl⟩, hcause, helem, hbnd, hmov, hunit, hfop,
        hstg, rfl⟩

end Sys2Proof
end

section

namespace Sys2Proof

open Sys2Proof.Machine Sys2Proof.Claim

/-! ## What a trigger writes and signals (R96, R97, R104, R113)

The elements of a result port, the masks of conditions, and the outcome of a trigger from what its operation gives. -/

/-! ### An element of a port replaced (R104) -/

/-- The bits of a word with element `e` of width `w` replaced. -/
theorem testBit_setElem512 (v : BitVec 512) {w e : Nat} (x : Nat) (h : w * e + w ≤ 512) (j : Nat) :
    (setElem512 v w e x).toNat.testBit j =
      if w * e ≤ j ∧ j < w * e + w then x.testBit (j - w * e) else v.toNat.testBit j := by
  obtain ⟨lo, hlo⟩ : ∃ lo, lo = v.toNat % 2 ^ (w * e) := ⟨_, rfl⟩
  obtain ⟨up, hup⟩ : ∃ up, up = v.toNat / 2 ^ (w * e) := ⟨_, rfl⟩
  have hl : lo < 2 ^ (w * e) := hlo ▸ Nat.mod_lt _ (by positivity)
  have hsplit : v.toNat = 2 ^ (w * e) * up + lo := by rw [hlo, hup, Nat.div_add_mod]
  have hnew : v.toNat - elemOf512 v w e * 2 ^ (w * e) + x % 2 ^ w * 2 ^ (w * e) =
      2 ^ (w * e) * (2 ^ w * (up / 2 ^ w) + x % 2 ^ w) + lo := by
    have hel : elemOf512 v w e = up % 2 ^ w := by rw [elemOf512, hup]
    have hdiv := Nat.div_add_mod up (2 ^ w)
    rw [hel, hsplit]
    have hle : up % 2 ^ w * 2 ^ (w * e) ≤ 2 ^ (w * e) * up := by
      rw [Nat.mul_comm]
      exact Nat.mul_le_mul_left _ (Nat.mod_le ..)
    have hmul : 2 ^ (w * e) * up = 2 ^ (w * e) * (2 ^ w * (up / 2 ^ w)) + up % 2 ^ w * 2 ^ (w * e) := by
      rw [Nat.mul_comm (up % 2 ^ w), ← Nat.mul_add, hdiv]
    rw [Nat.mul_add, Nat.mul_comm (x % 2 ^ w)]
    omega
  have hlt : 2 ^ (w * e) * (2 ^ w * (up / 2 ^ w) + x % 2 ^ w) + lo < 2 ^ 512 := by
    obtain ⟨d, hd⟩ := Nat.exists_eq_add_of_le h
    have hup : up / 2 ^ w < 2 ^ d := by
      rw [hup, Nat.div_div_eq_div_mul, ← pow_add, Nat.div_lt_iff_lt_mul (by positivity), ← pow_add, Nat.add_comm d, ← hd]
      exact v.isLt
    have hx := Nat.mod_lt x (y := 2 ^ w) (by positivity)
    calc 2 ^ (w * e) * (2 ^ w * (up / 2 ^ w) + x % 2 ^ w) + lo
        < 2 ^ (w * e) * (2 ^ w * (up / 2 ^ w) + x % 2 ^ w) + 2 ^ (w * e) := by omega
      _ ≤ 2 ^ (w * e) * (2 ^ w * (up / 2 ^ w + 1)) := by
        rw [← Nat.mul_succ, Nat.mul_succ]
        exact Nat.mul_le_mul_left _ (Nat.add_le_add_left hx _)
      _ ≤ 2 ^ (w * e) * (2 ^ w * 2 ^ d) := Nat.mul_le_mul_left _ (Nat.mul_le_mul_left _ hup)
      _ = 2 ^ 512 := by rw [hd, pow_add, pow_add, Nat.mul_assoc]
  rw [setElem512, hnew, BitVec.toNat_ofNat, Nat.mod_eq_of_lt hlt, Nat.testBit_two_pow_mul_add _ hl,
    Nat.testBit_two_pow_mul_add _ (Nat.mod_lt _ (by positivity)),
    Nat.testBit_mod_two_pow, Nat.testBit_div_two_pow, hsplit, Nat.testBit_two_pow_mul_add _ hl]
  by_cases h1 : j < w * e
  · rw [if_pos h1, if_pos h1, if_neg (by omega)]
  · by_cases h2 : j < w * e + w
    · rw [if_neg h1, if_pos (show j - w * e < w by omega), if_pos (show w * e ≤ j ∧ j < w * e + w by omega),
        decide_eq_true (show j - w * e < w by omega), Bool.true_and]
    · rw [if_neg h1, if_neg (show ¬ j - w * e < w by omega), if_neg (show ¬ (w * e ≤ j ∧ j < w * e + w) by omega), if_neg h1]
      congr 1
      omega

theorem testBit_elemOf512 (v : BitVec 512) (w e j : Nat) : (elemOf512 v w e).testBit j = (decide (j < w) && v.toNat.testBit (w * e + j)) := by
  rw [elemOf512, Nat.testBit_mod_two_pow, Nat.testBit_div_two_pow, Nat.add_comm j]

/-- What an element reads after one is replaced. -/
theorem elemOf512_setElem512 (v : BitVec 512) {w e : Nat} (x e' : Nat) (h : w * e + w ≤ 512) :
    elemOf512 (setElem512 v w e x) w e' = if e' = e then x % 2 ^ w else elemOf512 v w e' := by
  apply Nat.eq_of_testBit_eq
  intro j
  rw [testBit_elemOf512, testBit_setElem512 v x h]
  by_cases hj : j < w
  · rcases Nat.lt_trichotomy e' e with he | rfl | he
    · have := Nat.mul_le_mul_left w he
      rw [Nat.mul_succ] at this
      rw [if_neg (by omega), if_neg he.ne, testBit_elemOf512]
    · rw [if_pos (by omega), if_pos rfl, Nat.testBit_mod_two_pow, Nat.add_sub_cancel_left]
    · have := Nat.mul_le_mul_left w he
      rw [Nat.mul_succ] at this
      rw [if_neg (by omega), if_neg he.ne', testBit_elemOf512]
  · rw [decide_eq_false hj, Bool.false_and]
    split
    · rw [Nat.testBit_mod_two_pow, decide_eq_false hj, Bool.false_and]
    · rw [testBit_elemOf512, decide_eq_false hj, Bool.false_and]

theorem ofNat_elemOf512 (v : BitVec 512) (w e : Nat) : BitVec.ofNat w (elemOf512 v w e) = v.extractLsb' (w * e) w := by
  rw [← toNat_extract_elem, BitVec.ofNat_toNat, BitVec.setWidth_eq]

theorem extract_setElem512 (v : BitVec 512) {w e : Nat} (x e' : Nat) (h : w * e + w ≤ 512) :
    (setElem512 v w e x).extractLsb' (w * e') w = if e' = e then BitVec.ofNat w x else v.extractLsb' (w * e') w := by
  rw [← ofNat_elemOf512, elemOf512_setElem512 v x e' h]
  split
  · apply BitVec.eq_of_toNat_eq
    rw [BitVec.toNat_ofNat, BitVec.toNat_ofNat, Nat.mod_mod]
  · exact ofNat_elemOf512 ..

/-! ### Lanes and their conditions (R97, R113) -/

/-- The lanes of a mask with what an operation gives on each. -/
def lanesOf (mask : Nat) (f : Nat → Nat × Cnd) : List (Nat × Nat × Cnd) := ((List.range 16).filter fun i => bit mask i).map fun i => (i, f i)

theorem two_pow_dvd_cndMask (k : Cnd) (f : Nat → Nat × Cnd) (n : Nat) (xs : List Nat) (h : ∀ x ∈ xs, n ≤ x) :
    2 ^ n ∣ cndMask k (xs.map fun i => (i, f i)) := by
  induction xs with
  | nil => exact dvd_zero _
  | cons x xs ih =>
    refine dvd_add ?_ (ih fun y hy => h y (List.mem_cons_of_mem _ hy))
    split
    · exact pow_dvd_pow 2 (h x List.mem_cons_self)
    · exact dvd_zero _

/-- The mask of a condition holds the lanes that signal it. -/
theorem testBit_cndMask (k : Cnd) (f : Nat → Nat × Cnd) {xs : List Nat} (hs : xs.Pairwise (· < ·)) (j : Nat) :
    (cndMask k (xs.map fun i => (i, f i))).testBit j = (decide (j ∈ xs) && (f j).2 == k) := by
  induction xs with
  | nil => simp [cndMask]
  | cons x xs ih =>
    obtain ⟨hx, hs⟩ := List.pairwise_cons.1 hs
    obtain ⟨q, hq⟩ := two_pow_dvd_cndMask k f (x + 1) xs hx
    have hor : cndMask k ((x :: xs).map fun i => (i, f i)) =
        cndMask k (xs.map fun i => (i, f i)) ||| (if (f x).2 = k then 2 ^ x else 0) := by
      rw [List.map_cons, cndMask, Nat.add_comm, hq]
      refine Nat.two_pow_add_eq_or_of_lt ?_ q
      split
      · exact Nat.pow_lt_pow_right (by omega) (Nat.lt_succ_self x)
      · positivity
    rw [hor, Nat.testBit_or, ih hs]
    by_cases hj : j = x
    · subst hj
      have : j ∉ xs := fun h => absurd (hx j h) (lt_irrefl j)
      by_cases hk : (f j).2 = k <;> simp [hk, this]
    · have : (if (f x).2 = k then 2 ^ x else 0 : Nat).testBit j = false := by
        split
        · rw [Nat.testBit_two_pow, decide_eq_false (Ne.symm hj)]
        · exact Nat.zero_testBit j
      rw [this, Bool.or_false]
      simp [hj]

theorem mem_lanes {mask j : Nat} : (j ∈ (List.range 16).filter fun i => bit mask i) ↔ j < 16 ∧ bit mask j = true := by
  rw [List.mem_filter, List.mem_range]

theorem getLsbD_cndMask (m : Mv) (k : Cnd) (f : Nat → Nat × Cnd) {l : Nat} (hl : l < 16) :
    (BitVec.ofNat 16 (cndMask k (lanesOf (laneMask m.lane) f))).getLsbD l = (laneSel m l && (f l).2 == k) := by
  have hmem : decide (l ∈ (List.range 16).filter fun i => bit (laneMask m.lane) i) = laneSel m l := by
    rw [← bit_laneMask m hl, Bool.eq_iff_iff, decide_eq_true_iff, mem_lanes, and_iff_right hl]
  rw [BitVec.getLsbD_ofNat, decide_eq_true hl, Bool.true_and, lanesOf, testBit_cndMask k f (List.pairwise_lt_range.filter _), hmem]

/-- What a trigger's operation gives on the lanes of its move: the elements of its result port, and the conditions of each lane. -/
structure OnLanes (m : Mv) (old : BitVec 512) (wd base : Nat) (f : Nat → BitVec wd × Cnd) (o : TrigOut) : Prop where
  res : ∀ e < 512 / wd, o.res.extractLsb' (wd * e) wd =
    if base ≤ e ∧ e < base + 16 ∧ laneSel m (e - base) = true then (f (e - base)).1 else old.extractLsb' (wd * e) wd
  cnd : ∀ l < 16, (BitVec.ofNat 16 o.nar).getLsbD l = (laneSel m l && (f l).2 == .nar) ∧
    (BitVec.ofNat 16 o.inv).getLsbD l = (laneSel m l && (f l).2 == .inv) ∧ (BitVec.ofNat 16 o.dz).getLsbD l = (laneSel m l && (f l).2 == .dz) ∧
    (BitVec.ofNat 16 o.ovf).getLsbD l = (laneSel m l && (f l).2 == .ovf)

/-- A code and its condition as a lane's result. -/
def asBits (wd : Nat) (r : Nat × Cnd) : BitVec wd × Cnd := (BitVec.ofNat wd r.1, r.2)

theorem onLanes_congr {m : Mv} {old : BitVec 512} {wd base : Nat} {f g : Nat → BitVec wd × Cnd} {o : TrigOut} (h : OnLanes m old wd base f o)
    (hfg : ∀ l < 16, f l = g l) : OnLanes m old wd base g o where
  res := fun e he => by
    rw [h.res e he]
    split
    next hc => rw [hfg _ (by omega)]
    next => rfl
  cnd := fun l hl => hfg l hl ▸ h.cnd l hl

/-- What is found under a lane of the mask. -/
theorem find?_lanesOf {mask e : Nat} (g : Nat → Nat × Cnd) (he : e < 16) (hb : bit mask e = true) :
    ((lanesOf mask g).find? fun p => p.1 == e) = some (e, g e) := by
  have hmem : (e, g e) ∈ lanesOf mask g := List.mem_map.2 ⟨e, mem_lanes.2 ⟨he, hb⟩, rfl⟩
  obtain ⟨p, hp⟩ := Option.isSome_iff_exists.1 (List.find?_isSome.2 ⟨_, hmem, beq_self_eq_true e⟩ :
    ((lanesOf mask g).find? fun p => p.1 == e).isSome = true)
  obtain ⟨i, -, hi⟩ := List.mem_map.1 (List.mem_of_find?_eq_some hp)
  have hie : p.1 = e := by simpa using List.find?_some hp
  rw [hp, ← hi, show i = e from (congrArg Prod.fst hi).trans hie]

/-- A lane-wise operation on 32-bit lanes (R97). -/
theorem onLanes_laneWise (m : Mv) (old : BitVec 512) (g : Nat → Nat × Cnd) :
    OnLanes m old 32 0 (fun l => asBits 32 (g l)) (laneWise (laneMask m.lane) old g) where
  res := fun e he => by
    have he : e < 16 := he
    refine (lane_mergeLanes _ _ _ he).trans ?_
    rw [bit_laneMask m he, Nat.sub_zero]
    by_cases hsel : laneSel m e = true
    · rw [if_pos hsel, if_pos ⟨Nat.zero_le _, by omega, hsel⟩, lane_packLanes _ he]
      exact congrArg (fun r : Option (Nat × Nat × Cnd) => BitVec.ofNat 32 ((r.map fun p => p.2.1).getD 0))
        (find?_lanesOf g he (by rw [bit_laneMask m he]; exact hsel))
    · rw [if_neg hsel, if_neg (fun h => hsel h.2.2)]
      rfl
  cnd := fun l hl => ⟨getLsbD_cndMask m .nar g hl, getLsbD_cndMask m .inv g hl, getLsbD_cndMask m .dz g hl, getLsbD_cndMask m .ovf g hl⟩

/-- Elements of a part replaced one after another (R104). -/
theorem extract_foldl_setElem512 {w base : Nat} (hw : w * (base + 16) ≤ 512) (f : Nat → Nat × Cnd) (xs : List Nat) (hx : ∀ x ∈ xs, x < 16)
    (old : BitVec 512) (e : Nat) :
    ((xs.map fun i => (i, f i)).foldl (fun acc x => setElem512 acc w (base + x.1) x.2.1) old).extractLsb' (w * e) w =
      if base ≤ e ∧ e - base ∈ xs then BitVec.ofNat w (f (e - base)).1 else old.extractLsb' (w * e) w := by
  induction xs generalizing old with
  | nil => simp
  | cons x xs ih =>
    have hfit : w * (base + x) + w ≤ 512 := by
      rw [← Nat.mul_succ]
      exact (Nat.mul_le_mul_left w (by have := hx x List.mem_cons_self; omega)).trans hw
    rw [List.map_cons, List.foldl_cons, ih fun y hy => hx y (List.mem_cons_of_mem _ hy), extract_setElem512 _ _ _ hfit]
    by_cases hxs : base ≤ e ∧ e - base ∈ xs
    · rw [if_pos hxs, if_pos ⟨hxs.1, List.mem_cons_of_mem _ hxs.2⟩]
    · rw [if_neg hxs]
      by_cases he : e = base + x
      · subst he
        rw [if_pos rfl, if_pos ⟨Nat.le_add_right .., by rw [Nat.add_sub_cancel_left]; exact List.mem_cons_self⟩, Nat.add_sub_cancel_left]
      · rw [if_neg he, if_neg]
        rintro ⟨hb, hm⟩
        rcases List.mem_cons.1 hm with h | h
        · omega
        · exact hxs ⟨hb, h⟩

/-- The conversions of a part (R104). -/
theorem onLanes_convertPart (m : Mv) (old : BitVec 512) {p : Nat} {t : Ty} (hp : partOk t p = true) (g : Nat → Nat × Cnd) :
    OnLanes m old t.width (if t.width = 32 then 0 else 16 * p) (fun l => asBits t.width (g l)) (convertPart (laneMask m.lane) p t old g) := by
  unfold convertPart
  by_cases hw : t.width = 32
  · rw [if_pos hw, if_pos hw, hw]
    exact onLanes_laneWise m old g
  · rw [if_neg hw, if_neg hw]
    have hfit : t.width * (16 * p + 16) ≤ 512 := by
      unfold partOk at hp
      rw [Bool.or_eq_true, beq_iff_eq, decide_eq_true_eq, or_iff_right hw] at hp
      have := Nat.mul_le_mul_left t.width hp
      have := Nat.mul_div_le 32 t.width
      rw [Nat.mul_succ] at *
      nlinarith
    refine ⟨fun e he => ?_, fun l hl => ⟨getLsbD_cndMask m .nar g hl, getLsbD_cndMask m .inv g hl, getLsbD_cndMask m .dz g hl,
      getLsbD_cndMask m .ovf g hl⟩⟩
    refine (extract_foldl_setElem512 hfit g _ (fun x hx => (mem_lanes.1 hx).1) old e).trans (if_congr ?_ rfl rfl)
    rw [mem_lanes]
    constructor
    · rintro ⟨hb, hl, hbit⟩
      exact ⟨hb, by omega, by rwa [← bit_laneMask m hl]⟩
    · rintro ⟨hb, hl, hsel⟩
      exact ⟨hb, by omega, by rwa [bit_laneMask m (by omega)]⟩

/-! ### What a trigger reads (R96, R97) -/

section

variable {m : Mv} {s : State} (hm : Moves m s)

include hm

theorem lane_curCtx_val {l : Nat} (hl : l < 16) : lane (curCtx s m).val l = srcLane s m l :=
  lane_movedValue (s := s) hm.2.2.1 hl

theorem laneOf512_curCtx_val {l : Nat} (hl : l < 16) : laneOf512 (curCtx s m).val l = (srcLane s m l).toNat := by
  rw [← toNat_lane, lane_curCtx_val hm hl]

/-- Without a broadcast a trigger's value is its source's. -/
theorem curCtx_val (hb : m.lane ≠ .bcast) : (curCtx s m).val = srcValue s m := by
  change movedValue (rxImage s (curRx s)) (curElem s) (curRx s) m = _
  unfold movedValue
  dsimp only
  rw [if_neg hb, sourceValue_eq hm.2.2.1]

end

theorem laneOf512_port (s : State) (k l : Nat) : laneOf512 (port s k) l = (lane (port s k) l).toNat := (toNat_lane ..).symm

theorem curCtx_imm {m : Mv} (s : State) (hb : m.lane ≠ .bcast) : (curCtx s m).imm = m.imm.toNat := by
  change (if m.lane = .bcast then 0 else m.imm.toNat) = _
  rw [if_neg hb]

/-- The type by which a trigger works (R96). -/
theorem curCtx_ty {s : State} {m : Mv} {ty : Ty} (h : OpType s m ty) : (curCtx s m).ty = ty.code := by
  change operationType (curRx s) m = _
  unfold OpType at h
  unfold operationType
  cases htov : m.tov <;> rw [htov] at h
  case inForce =>
    rcases h with ⟨n, hn, hty⟩ | ⟨hn, rfl⟩
    · rw [hn]
      exact hty
    · cases hsrc : m.src
      case inp n => exact absurd hsrc (hn n)
      all_goals rfl
  all_goals
    subst h
    rfl

theorem ofCode_code (ty : Ty) : Ty.ofCode ty.code = some ty := by cases ty <;> rfl

theorem code_lt (ty : Ty) : ty.code < 16 := by cases ty <;> decide

theorem code_injective : Function.Injective Ty.code := fun a b h => by
  have := (ofCode_code a).symm.trans ((congrArg Ty.ofCode h).trans (ofCode_code b))
  exact Option.some.inj this

/-! ### The outcome of a trigger (R68, R97, R113) -/

/-- An instruction that is a trigger of a unit. -/
def IsTrigger (m : Mv) (i : Instr) (unit fop : Nat) (op : TrigOp) : Prop :=
  ∀ s, exec i s = if moveReady s then .next (runMove m s (trigger m unit fop op)) else .next s

section

variable {m : Mv} {s : State} {i : Instr} {unit fop : Nat} {op : TrigOp} (hi : IsTrigger m i unit fop op) (hm : Moves m s)

include hi hm

theorem exec_trigger : exec i s = .next (modRx (trigger m unit fop op s) onward) := by
  obtain ⟨hready, hopen, -, heob⟩ := hm
  rw [hi s, if_pos hready, runMove_goes_on _ hopen heob]

omit hi in
theorem curRx_trigger_onward :
    curRx (modRx (trigger m unit fop op s) onward) = onward (signalled unit fop (curCtx s m) (op (curCtx s m)) (curRx s)) :=
  (moveEffect_trigger m unit fop op s).curRx_onward hm.1

omit hi in
theorem movedOn_trigger : MovedOn s (modRx (trigger m unit fop op s) onward) := (moveEffect_trigger m unit fop op s).movedOn hm.1

omit hi hm in
/-- The result port after a trigger, and the others. -/
theorem port_trigger_onward (k : Nat) :
    port (modRx (trigger m unit fop op s) onward) k = if k = resultKey unit then (op (curCtx s m)).2.res else port s k := by
  rw [port_modRx, trigger_eq, port_modRx, port, curElem_modCurElem]
  exact Tab.get_set ..

/-- A trigger whose operation works on its lanes. -/
theorem computes_of_onLanes {wd base : Nat} {f : Nat → BitVec wd × Cnd} (h0 : (op (curCtx s m)).1 = 0)
    (h : OnLanes m (port s (resultKey unit)) wd base f (op (curCtx s m)).2) : Computes m s i (resultKey unit) wd base f := by
  refine ⟨_, trigRec (curRx s).mov unit fop (curCtx s m) (op (curCtx s m)), exec_trigger hi hm, movedOn_trigger hm, ?_, h0, rfl, fun k hk => ?_,
    fun e he => ?_, h.cnd⟩
  · rw [curRx_trigger_onward hm]
    rfl
  · rw [port_trigger_onward, if_neg hk]
  · rw [port_trigger_onward, if_pos rfl]
    exact h.res e he

/-- A trigger that gives one result for all lanes (R106). -/
theorem reduces_of_spread {r : Nat × Cnd} (h : op (curCtx s m) = (0, spreadOut r)) (hu : resultKey unit = 7) :
    Reduces s i (asBits 32 r) := by
  have hmask : ∀ k, BitVec.ofNat 16 (if r.2 = k then 0xFFFF else 0) = if r.2 = k then 0xFFFF else 0 := fun k => by split <;> rfl
  refine ⟨_, trigRec (curRx s).mov unit fop (curCtx s m) (op (curCtx s m)), exec_trigger hi hm, movedOn_trigger hm, ?_, ?_, fun k hk => ?_,
    fun l hl => ?_, ?_⟩
  · rw [curRx_trigger_onward hm]
    rfl
  · rw [h]
    rfl
  · rw [port_trigger_onward, if_neg (hu ▸ hk)]
  · rw [port_trigger_onward, if_pos hu.symm, h]
    exact lane_spreadLane _ hl
  · rw [h]
    exact ⟨hmask .nar, hmask .inv, hmask .dz, hmask .ovf⟩

omit hi in
/-- A trigger that faults and leaves its result port (R59, R96, R109). -/
theorem signals_of_exec {cause : Nat} (he : exec i s = .next (modRx (trigger m unit fop op s) onward))
    (h : op (curCtx s m) = (cause, plainOut (port s (resultKey unit)))) : Signals s i cause := by
  refine ⟨_, trigRec (curRx s).mov unit fop (curCtx s m) (op (curCtx s m)), he, movedOn_trigger hm, ?_, ?_, fun k l _ => ?_⟩
  · rw [curRx_trigger_onward hm]
    rfl
  · rw [h]
    rfl
  · rw [port_trigger_onward, h]
    split
    next hk => rw [hk]; rfl
    next => rfl

theorem signals_of_fault {cause : Nat} (h : op (curCtx s m) = (cause, plainOut (port s (resultKey unit)))) : Signals s i cause :=
  signals_of_exec hm (exec_trigger hi hm) h

end

/-- An operation on a type that its unit accepts (R96). -/
theorem onType_allowed {c : TrigCtx} {ty : Ty} (unit : Nat) {ok : List Nat} (f : Ty → TrigOut) (hty : c.ty = ty.code) (h : ty.code ∈ ok) :
    onType c unit ok f = (0, f ty) := by
  unfold onType
  rw [hty, if_pos (List.contains_iff_mem.2 h), ofCode_code, Option.getD_some]

theorem onType_refused {c : TrigCtx} {ty : Ty} (unit : Nat) {ok : List Nat} (f : Ty → TrigOut) (hty : c.ty = ty.code) (h : ty.code ∉ ok) :
    onType c unit ok f = (7, plainOut (portAt c.e (resultKey unit))) := by
  unfold onType
  rw [hty, if_neg (by rwa [List.contains_iff_mem])]

end Sys2Proof
end

section

namespace Sys2Proof

open Sys2Proof.Machine Sys2Proof.Claim

/-! ## The ALU, the multiplier and the integer reductions (R99 to R101, R106 to R108) -/

/-! ### Numbers of lanes (R46, R99) -/

theorem asBits_f32Result (x : Machine.Num × Cnd) : asBits 32 (f32Result x) = rounded x := by
  unfold f32Result rounded
  rcases convert .f32 .f32 .rne true false x.1 with ⟨c, k⟩
  rfl

/-- The integer types of a lane, signed and unsigned (R96). -/
def IntType (ty : Ty) (sg : Bool) : Prop := (ty, sg) ∈ [(Ty.s32, true), (.z32, false)]

theorem ofNat_wrapI (t : Int) : BitVec.ofNat 32 (wrapI t 32) = BitVec.ofInt 32 t := by
  apply BitVec.eq_of_toNat_eq
  rw [BitVec.toNat_ofNat, BitVec.toNat_ofInt, wrapI]
  omega

section

variable {ty : Ty} {sg : Bool} (ht : IntType ty sg)

include ht

theorem intType_cases : ty = .s32 ∧ sg = true ∨ ty = .z32 ∧ sg = false := by simpa [IntType] using ht

theorem code_of_intType : ty.code ∈ [0, 7, 11] := by rcases intType_cases ht with ⟨rfl, -⟩ | ⟨rfl, -⟩ <;> decide

theorem ne_f32_of_intType : ty ≠ .f32 := by rcases intType_cases ht with ⟨rfl, -⟩ | ⟨rfl, -⟩ <;> decide

theorem laneInt_toNat (x : BitVec 32) : laneInt ty x.toNat = num sg x := by
  have hlt := x.isLt
  rcases intType_cases ht with ⟨rfl, rfl⟩ | ⟨rfl, rfl⟩
  · change sextN x.toNat 32 = x.toInt
    rw [BitVec.toInt_eq_toNat_cond, sextN]
    split_ifs <;> omega
  · change ((x.toNat % 2 ^ 32 : Nat) : Int) = x.toNat
    omega

theorem intRange_eq : intRange ty.isSigned 32 = (least sg 32, greatest sg 32) := by
  rcases intType_cases ht with ⟨rfl, rfl⟩ | ⟨rfl, rfl⟩ <;> rfl

theorem asBits_boundInt (t : Int) : asBits 32 (boundInt ty t) = bounded sg t := by
  unfold boundInt bounded clamp
  rw [intRange_eq ht]
  dsimp only
  by_cases h1 : t < least sg 32
  · rw [if_pos h1, if_pos h1, if_neg (by omega)]
    exact congrArg (·, Cnd.ovf) (ofNat_wrapI _)
  · by_cases h2 : greatest sg 32 < t
    · rw [if_neg h1, if_pos h2, if_neg h1, if_pos h2, if_neg (by omega)]
      exact congrArg (·, Cnd.ovf) (ofNat_wrapI _)
    · rw [if_neg h1, if_neg h2, if_neg h1, if_neg h2, if_pos (by omega)]
      exact congrArg (·, Cnd.none) (ofNat_wrapI _)

theorem asBits_arith_int (f : Machine.Num → Machine.Num → Machine.Num × Cnd) (g : Int → Int → Int) (a b : BitVec 32) :
    asBits 32 (arith ty f g a.toNat b.toNat) = bounded sg (g (num sg a) (num sg b)) := by
  unfold arith
  rw [if_neg (ne_f32_of_intType ht), laneInt_toNat ht, laneInt_toNat ht, asBits_boundInt ht]

theorem asBits_compareLane_int (c : Cond) (a b : BitVec 32) :
    asBits 32 (compareLane ty c a.toNat b.toNat) = (if intCond c (num sg a) (num sg b) then 0xFFFFFFFF else 0, .none) := by
  unfold compareLane
  dsimp only
  rw [if_neg (ne_f32_of_intType ht), laneInt_toNat ht, laneInt_toNat ht]
  cases intCond c (num sg a) (num sg b) <;> rfl

theorem asBits_divLane (a b : BitVec 32) :
    asBits 32 (divLane ty a.toNat b.toNat) =
      if num sg b = 0 then (BitVec.ofInt 32 (if 0 ≤ num sg a then greatest sg 32 else least sg 32), .dz)
      else bounded sg (Int.tdiv (num sg a) (num sg b)) := by
  unfold divLane
  rw [intRange_eq ht, laneInt_toNat ht, laneInt_toNat ht]
  dsimp only
  split
  · exact congrArg (·, Cnd.dz) (ofNat_wrapI _)
  · exact asBits_boundInt ht _

end

theorem asBits_compareLane_f32 (c : Cond) (a b : BitVec 32) :
    asBits 32 (compareLane .f32 c a.toNat b.toNat) =
      (if numCond c (dec .f32 false a.toNat) (dec .f32 false b.toNat) then 0xFFFFFFFF else 0, .none) := by
  unfold compareLane
  dsimp only
  rw [if_pos rfl]
  cases numCond c _ _ <;> rfl

/-! ### The units on their lanes (R100, R101, R107) -/

theorem mulTyped_eq (fop : Nat) (c : TrigCtx) :
    mulTyped fop c = onType c 2 [0, 7, 11] fun t => laneWise c.lanes (portAt c.e 3) fun l =>
      mulLane fop t (laneOf512 (portAt c.e 2) l) (laneOf512 c.val l) (laneOf512 (imgConst c.im (bits c.imm 2 0)) l) := rfl

section

variable {m : Mv} {s : State} {i : Instr} {fop : Nat} (hm : Moves m s) {f : Nat → BitVec 32 × Cnd}

include hm

theorem computes_of_laneWise {unit : Nat} {op : TrigOp} (hi : IsTrigger m i unit fop op) {g : Nat → Nat × Cnd}
    (hop : op (curCtx s m) = (0, laneWise (laneMask m.lane) (port s (resultKey unit)) g)) (hf : ∀ l < 16, asBits 32 (g l) = f l) :
    Computes m s i (resultKey unit) 32 0 f := by
  refine computes_of_onLanes hi hm (by rw [hop]) ?_
  rw [hop]
  exact onLanes_congr (onLanes_laneWise ..) hf

theorem computes_aluTyped (hi : IsTrigger m i 1 fop (aluTyped fop)) {ty : Ty} (hty : OpType s m ty) (hok : ty.code ∈ [0, 7, 11])
    (hf : ∀ l, asBits 32 (aluLane fop ty (lane (port s 0) l).toNat (srcLane s m l).toNat 0) = f l) : Computes m s i 1 32 0 f := by
  refine computes_of_laneWise hm (unit := 1) hi (onType_allowed 1 _ (curCtx_ty hty) hok) fun l hl => ?_
  rw [laneOf512_curCtx_val hm hl, ← toNat_lane]
  exact hf l

theorem computes_aluRaw (hi : IsTrigger m i 1 fop (aluRaw fop))
    (hf : ∀ l k, (m.lane ≠ .bcast → k = (lane (imgConst (rxImage s (curRx s)) (m.imm.toNat % 8)) l).toNat) →
      asBits 32 (aluLane fop .f32 (lane (port s 0) l).toNat (srcLane s m l).toNat k) = f l) : Computes m s i 1 32 0 f := by
  refine computes_of_laneWise hm (unit := 1) hi rfl fun l hl => ?_
  rw [laneOf512_curCtx_val hm hl, ← toNat_lane, ← toNat_lane]
  refine hf l _ fun hb => ?_
  rw [curCtx_imm s hb, bits_from_zero]
  rfl

theorem computes_mulTyped (hi : IsTrigger m i 2 fop (mulTyped fop)) {ty : Ty} (hty : OpType s m ty) (hok : ty.code ∈ [0, 7, 11])
    (hf : ∀ l k, (m.lane ≠ .bcast → k = (lane (imgConst (rxImage s (curRx s)) (m.imm.toNat % 8)) l).toNat) →
      asBits 32 (mulLane fop ty (lane (port s 2) l).toNat (srcLane s m l).toNat k) = f l) : Computes m s i 3 32 0 f := by
  refine computes_of_laneWise hm (unit := 2) hi ((mulTyped_eq ..).trans (onType_allowed 2 _ (curCtx_ty hty) hok)) fun l hl => ?_
  rw [laneOf512_curCtx_val hm hl, ← toNat_lane, ← toNat_lane]
  refine hf l _ fun hb => ?_
  rw [curCtx_imm s hb, bits_from_zero]
  rfl

theorem computes_redAcc {ty : Ty} (hty : OpType s m ty) (hok : ty.code ∈ [0, 7, 11])
    (hf : ∀ l, asBits 32 (aluLane 1 ty (lane (port s 7) l).toNat (srcLane s m l).toNat 0) = f l) : Computes m s (.redAcc m) 7 32 0 f := by
  refine computes_of_laneWise hm (unit := 5) (fop := 7) (op := redAccOp) (fun _ => rfl) (onType_allowed 5 _ (curCtx_ty hty) hok) fun l hl => ?_
  rw [laneOf512_curCtx_val hm hl, ← toNat_lane]
  exact hf l

/-- An operation of the reduction unit on raw lanes. -/
theorem computes_redLanes (g : Nat → Nat × Cnd) {op : TrigOp} (hi : IsTrigger m i 5 fop op)
    (hop : op (curCtx s m) = (0, laneWise (laneMask m.lane) (port s 7) fun l => g (laneOf512 (curCtx s m).val l)))
    (hf : ∀ l, asBits 32 (g (srcLane s m l).toNat) = f l) : Computes m s i 7 32 0 f := by
  refine computes_of_laneWise hm (unit := 5) hi hop fun l hl => ?_
  rw [laneOf512_curCtx_val hm hl]
  exact hf l

/-! ### The arithmetic triggers -/

/-- The F32 operations (R99). -/
theorem floatTriggers_compute (hty : OpType s m .f32) {o r : Nat} {g : Machine.Num → Machine.Num → Machine.Num → Machine.Num × Cnd}
    (h : (i, o, r, g) ∈ floatTriggers m) (hk : i = .mulFma m → m.lane ≠ .bcast) :
    Computes m s i r 32 0 fun l => rounded (g (dec .f32 false (lane (port s o) l).toNat) (dec .f32 false (srcLane s m l).toNat)
      (dec .f32 false (lane (imgConst (rxImage s (curRx s)) (m.imm.toNat % 8)) l).toNat)) := by
  have alu : ∀ {i fop f}, IsTrigger m i 1 fop (aluTyped fop) →
      (∀ l, asBits 32 (aluLane fop .f32 (lane (port s 0) l).toNat (srcLane s m l).toNat 0) = f l) → Computes m s i 1 32 0 f :=
    fun hi hf => computes_aluTyped hm hi hty (by decide) hf
  have mul : ∀ {i fop f}, IsTrigger m i 2 fop (mulTyped fop) →
      (∀ l k, (m.lane ≠ .bcast → k = (lane (imgConst (rxImage s (curRx s)) (m.imm.toNat % 8)) l).toNat) →
        asBits 32 (mulLane fop .f32 (lane (port s 2) l).toNat (srcLane s m l).toNat k) = f l) → Computes m s i 3 32 0 f :=
    fun hi hf => computes_mulTyped hm hi hty (by decide) hf
  refine (List.forall_iff_forall_mem (l := floatTriggers m) (p := fun x => (x.1 = .mulFma m → m.lane ≠ .bcast) →
    Computes m s x.1 x.2.2.1 32 0 fun l => rounded (x.2.2.2 (dec .f32 false (lane (port s x.2.1) l).toNat) (dec .f32 false (srcLane s m l).toNat)
      (dec .f32 false (lane (imgConst (rxImage s (curRx s)) (m.imm.toNat % 8)) l).toNat)))).1 ?_ _ h hk
  refine ⟨fun _ => ?_, fun _ => ?_, fun _ => ?_, fun _ => ?_, fun _ => ?_, fun _ => ?_, fun _ => ?_, fun hb => ?_, fun _ => ?_, fun _ => ?_⟩
  case refine_8 => exact mul (fop := 3) (fun _ => rfl) fun l k hk => by rw [hk (hb rfl)]; exact asBits_f32Result _
  case refine_7 => exact mul (fop := 1) (fun _ => rfl) fun l k _ => asBits_f32Result _
  case refine_9 => exact mul (fop := 4) (fun _ => rfl) fun l k _ => asBits_f32Result _
  case refine_10 => exact computes_redAcc hm hty (by decide) fun l => asBits_f32Result _
  all_goals exact alu (fun _ => rfl) fun l => asBits_f32Result _

/-- The integer operations (R99). -/
theorem intTriggers_compute {ty : Ty} {sg : Bool} (ht : IntType ty sg) (hty : OpType s m ty) {o r : Nat} {g : Int → Int → Int → Int}
    (h : (i, o, r, g) ∈ intTriggers m) (hk : i = .mulFma m → m.lane ≠ .bcast) :
    Computes m s i r 32 0 fun l => bounded sg (g (num sg (lane (port s o) l)) (num sg (srcLane s m l))
      (num sg (lane (imgConst (rxImage s (curRx s)) (m.imm.toNat % 8)) l))) := by
  have alu : ∀ {i fop f}, IsTrigger m i 1 fop (aluTyped fop) →
      (∀ l, asBits 32 (aluLane fop ty (lane (port s 0) l).toNat (srcLane s m l).toNat 0) = f l) → Computes m s i 1 32 0 f :=
    fun hi hf => computes_aluTyped hm hi hty (code_of_intType ht) hf
  have mul : ∀ {i fop f}, IsTrigger m i 2 fop (mulTyped fop) →
      (∀ l k, (m.lane ≠ .bcast → k = (lane (imgConst (rxImage s (curRx s)) (m.imm.toNat % 8)) l).toNat) →
        asBits 32 (mulLane fop ty (lane (port s 2) l).toNat (srcLane s m l).toNat k) = f l) → Computes m s i 3 32 0 f :=
    fun hi hf => computes_mulTyped hm hi hty (code_of_intType ht) hf
  refine (List.forall_iff_forall_mem (l := intTriggers m) (p := fun x => (x.1 = .mulFma m → m.lane ≠ .bcast) →
    Computes m s x.1 x.2.2.1 32 0 fun l => bounded sg (x.2.2.2 (num sg (lane (port s x.2.1) l)) (num sg (srcLane s m l))
      (num sg (lane (imgConst (rxImage s (curRx s)) (m.imm.toNat % 8)) l))))).1 ?_ _ h hk
  refine ⟨fun _ => ?_, fun _ => ?_, fun _ => ?_, fun _ => ?_, fun _ => ?_, fun _ => ?_, fun _ => ?_, fun hb => ?_, fun _ => ?_⟩
  case refine_3 =>
    exact alu (fop := 3) (fun _ => rfl) fun l => (asBits_arith_int ht ..).trans (congrArg (bounded sg) (min_def ..).symm)
  case refine_4 =>
    exact alu (fop := 4) (fun _ => rfl) fun l => (asBits_arith_int ht ..).trans (congrArg (bounded sg) (max_def ..).symm)
  case refine_5 =>
    refine alu (fop := 11) (fun _ => rfl) fun l => (asBits_arith_int ht ..).trans (congrArg (bounded sg) ?_)
    split
    next hn => exact (abs_of_neg hn).symm
    next hn => exact (abs_of_nonneg (not_lt.1 hn)).symm
  case refine_7 => exact mul (fop := 1) (fun _ => rfl) fun l k _ => asBits_arith_int ht ..
  case refine_8 =>
    refine mul (fop := 3) (fun _ => rfl) fun l k hk => ?_
    rw [mulLane, if_neg (ne_f32_of_intType ht), hk (hb rfl), laneInt_toNat ht, laneInt_toNat ht, laneInt_toNat ht, asBits_boundInt ht]
  case refine_9 => exact computes_redAcc hm hty (code_of_intType ht) fun l => asBits_arith_int ht ..
  all_goals exact alu (fun _ => rfl) fun l => asBits_arith_int ht ..

theorem computes_mulDiv_int {ty : Ty} {sg : Bool} (ht : IntType ty sg) (hty : OpType s m ty) :
    Computes m s (.mulDiv m) 3 32 0 fun l =>
      let a := num sg (lane (port s 2) l)
      let b := num sg (srcLane s m l)
      if b = 0 then (BitVec.ofInt 32 (if 0 ≤ a then greatest sg 32 else least sg 32), .dz) else bounded sg (Int.tdiv a b) := by
  refine computes_mulTyped hm (fop := 4) (fun _ => rfl) hty (code_of_intType ht) fun l k _ => ?_
  have hdiv : ∀ a b, mulLane 4 ty a b k = divLane ty a b := fun a b => if_neg (ne_f32_of_intType ht)
  rw [hdiv, asBits_divLane ht]

/-- The comparisons, of either kind (R100). -/
theorem compareTriggers_compute {ty : Ty} (hty : OpType s m ty) (hok : ty.code ∈ [0, 7, 11]) {c : Cond} (h : (i, c) ∈ compareTriggers m)
    (hf : ∀ l, asBits 32 (compareLane ty c (lane (port s 0) l).toNat (srcLane s m l).toNat) = f l) : Computes m s i 1 32 0 f := by
  simp only [compareTriggers, List.mem_cons, Prod.mk.injEq, List.not_mem_nil, or_false] at h
  rcases h with ⟨rfl, rfl⟩ | ⟨rfl, rfl⟩ | ⟨rfl, rfl⟩
  · exact computes_aluTyped hm (fop := 13) (fun _ => rfl) hty hok hf
  · exact computes_aluTyped hm (fop := 14) (fun _ => rfl) hty hok hf
  · exact computes_aluTyped hm (fop := 15) (fun _ => rfl) hty hok hf

end

/-! ### Raw lanes (R100, R107, R108) -/

theorem ofNat_eq_of_toNat {n : Nat} {x : BitVec 32} (h : n = x.toNat) : BitVec.ofNat 32 n = x := by
  rw [h, BitVec.ofNat_toNat, BitVec.setWidth_eq]

/-- A raw lane has no condition. -/
theorem asBits_raw {n : Nat} {x : BitVec 32} (h : n = x.toNat) : asBits 32 (n, Cnd.none) = (x, Cnd.none) :=
  congrArg (·, Cnd.none) (ofNat_eq_of_toNat h)

theorem sextN_toNat (x : BitVec 32) : sextN x.toNat 32 = x.toInt := laneInt_toNat (ty := .s32) (sg := true) List.mem_cons_self x

theorem sshiftRight_eq (x : BitVec 32) (n : Nat) : BitVec.ofNat 32 (wrapI (sextN x.toNat 32 / ((2 ^ n : Nat) : Int)) 32) = x.sshiftRight n := by
  rw [ofNat_wrapI, sextN_toNat, BitVec.sshiftRight, Int.shiftRight_eq_div_pow]

theorem toNat_ne_zero {x : BitVec 32} : (x.toNat != 0) = true ↔ x ≠ 0 := by
  rw [bne_iff_ne, Ne, Ne, ← BitVec.toNat_inj]
  rfl

/-- The operations on raw lanes. -/
theorem rawTriggers_compute {m : Mv} {s : State} (hm : Moves m s) {i : Instr} {o r : Nat} {g : BitVec 32 → BitVec 32 → BitVec 32 → BitVec 32}
    (h : (i, o, r, g) ∈ rawTriggers m) (hk : i = .aluSel m → m.lane ≠ .bcast) :
    Computes m s i r 32 0 fun l => (g (lane (port s o) l) (srcLane s m l)
      (lane (imgConst (rxImage s (curRx s)) (m.imm.toNat % 8)) l), .none) := by
  refine (List.forall_iff_forall_mem (l := rawTriggers m) (p := fun x => (x.1 = .aluSel m → m.lane ≠ .bcast) →
    Computes m s x.1 x.2.2.1 32 0 fun l => (x.2.2.2 (lane (port s x.2.1) l) (srcLane s m l)
      (lane (imgConst (rxImage s (curRx s)) (m.imm.toNat % 8)) l), .none))).1 ?_ _ h hk
  refine ⟨fun _ => ?_, fun _ => ?_, fun _ => ?_, fun _ => ?_, fun _ => ?_, fun _ => ?_, fun hb => ?_, fun _ => ?_, fun _ => ?_, fun _ => ?_⟩
  · exact computes_aluRaw hm (fop := 5) (fun _ => rfl) fun l k _ => asBits_raw (BitVec.toNat_and ..).symm
  · exact computes_aluRaw hm (fop := 6) (fun _ => rfl) fun l k _ => asBits_raw (BitVec.toNat_or ..).symm
  · exact computes_aluRaw hm (fop := 7) (fun _ => rfl) fun l k _ => asBits_raw (BitVec.toNat_xor ..).symm
  · refine computes_aluRaw hm (fop := 8) (fun _ => rfl) fun l k _ => asBits_raw ?_
    rw [BitVec.toNat_shiftLeft, Nat.shiftLeft_eq]
  · refine computes_aluRaw hm (fop := 9) (fun _ => rfl) fun l k _ => asBits_raw ?_
    rw [BitVec.toNat_ushiftRight, Nat.shiftRight_eq_div_pow]
  · exact computes_aluRaw hm (fop := 10) (fun _ => rfl) fun l k _ => congrArg (·, Cnd.none) (sshiftRight_eq ..)
  · refine computes_aluRaw hm (fop := 16) (fun _ => rfl) fun l k hk => asBits_raw ?_
    rw [hk (hb rfl), apply_ite BitVec.toNat]
    exact if_congr toNat_ne_zero rfl rfl
  · exact computes_aluRaw hm (fop := 17) (fun _ => rfl) fun l k _ => asBits_raw rfl
  · refine computes_redLanes hm (fun x => (if x != 0 then 0xFFFFFFFF else 0, .none)) (fop := 5) (op := redSteerOp) (fun _ => rfl) rfl fun l =>
      asBits_raw ?_
    rw [apply_ite BitVec.toNat]
    exact if_congr toNat_ne_zero rfl rfl
  · exact computes_redLanes hm (fun x => (x, .none)) (fop := 8) (op := redFlushOp) (fun _ => rfl) rfl fun l => asBits_raw rfl

/-! ### Reductions of integers (R106) -/

/-- The lanes that a move computes. -/
def selected (m : Mv) : List Nat := (List.range 16).filter fun l => laneSel m l

theorem lt_of_mem_selected {m : Mv} {l : Nat} (h : l ∈ selected m) : l < 16 := List.mem_range.1 (List.mem_filter.1 h).1

theorem selected_ne_nil (m : Mv) : selected m ≠ [] := by
  unfold selected laneSel
  cases m.lane <;> decide

section

variable {m : Mv} {s : State} (hm : Moves m s)

include hm

theorem selLanes_curCtx : selLanes (laneMask m.lane) (curCtx s m).val = (selected m).map fun l => (srcLane s m l).toNat := by
  have hsel : (List.range 16).filter (fun i => bit (laneMask m.lane) i) = selected m :=
    List.filter_congr fun i hi => bit_laneMask m (List.mem_range.1 hi)
  rw [selLanes, hsel]
  exact List.map_congr_left fun l hl => laneOf512_curCtx_val hm (lt_of_mem_selected hl)

/-- A typed operation of the reduction unit. -/
theorem reduces_of_typed {i : Instr} {fop : Nat} {ok : List Nat} {g : Ty → List Nat → TrigOut} {ty : Ty} {r : Nat × Cnd}
    (hi : IsTrigger m i 5 fop fun c => onType c 5 ok fun t => g t (selLanes c.lanes c.val)) (hty : OpType s m ty) (hok : ty.code ∈ ok)
    (hg : g ty ((selected m).map fun l => (srcLane s m l).toNat) = spreadOut r) : Reduces s i (asBits 32 r) := by
  refine reduces_of_spread hi hm ?_ rfl
  refine (onType_allowed 5 _ (curCtx_ty hty) hok).trans (congrArg (Prod.mk 0) ?_)
  rw [← hg, ← selLanes_curCtx hm]
  rfl

variable {ty : Ty} {sg : Bool} (ht : IntType ty sg) (hty : OpType s m ty)

include ht hty

theorem redSum_int : Reduces s (.redSum m) (bounded sg ((selected m).map fun l => num sg (srcLane s m l)).sum) := by
  rw [← asBits_boundInt ht]
  refine reduces_of_typed hm (fop := 1) (g := sumOut) (fun _ => rfl) hty (code_of_intType ht) ?_
  rw [sumOut, if_neg (ne_f32_of_intType ht), List.map_map, List.sum_eq_foldl]
  congr 4
  exact funext fun l => laneInt_toNat ht _

omit hm ht hty in
theorem num_le_greatest (sg : Bool) (x : BitVec 32) : num sg x ≤ greatest sg 32 ∧ least sg 32 ≤ num sg x := by
  have hlt := x.isLt
  cases sg
  · simp only [num, greatest, least, Bool.false_eq_true, if_false]
    omega
  · have h1 := BitVec.toInt_lt (x := x)
    have h2 := BitVec.le_toInt x
    simp only [num, greatest, least, if_true]
    omega

omit hm hty in
/-- MIN and MAX of integers: the values compared one after another from the first. -/
theorem extremeOut_int (wantMax : Bool) (x : BitVec 32) (xs : List (BitVec 32)) :
    extremeOut ty wantMax ((x :: xs).map BitVec.toNat) =
      spreadOut (wrapI ((xs.map (num sg)).foldl (fun a b => if wantMax then max a b else min a b) (num sg x)) 32, .none) := by
  have hmap : (xs.map BitVec.toNat).map (laneInt ty) = xs.map (num sg) := by
    rw [List.map_map]
    exact List.map_congr_left fun y _ => laneInt_toNat ht y
  unfold extremeOut
  rw [if_neg (ne_f32_of_intType ht)]
  simp only [List.map_cons, hmap, laneInt_toNat ht, max_def, min_def]

theorem redMin_int : Reduces s (.redMin m)
    (BitVec.ofInt 32 (((selected m).map fun l => num sg (srcLane s m l)).foldl min (greatest sg 32)), .none) := by
  obtain ⟨l, ls, hl⟩ := List.exists_cons_of_ne_nil (selected_ne_nil m)
  have hfirst : ((selected m).map fun l => num sg (srcLane s m l)).foldl min (greatest sg 32) =
      ((ls.map (srcLane s m)).map (num sg)).foldl min (num sg (srcLane s m l)) := by
    rw [hl, List.map_cons, List.foldl_cons, min_eq_right (num_le_greatest ..).1, List.map_map]
    rfl
  rw [hfirst, ← ofNat_wrapI]
  refine reduces_of_typed hm (fop := 3) (g := fun t => extremeOut t false) (r := (_, .none)) (fun _ => rfl) hty (code_of_intType ht) ?_
  refine Eq.trans ?_ (extremeOut_int ht false (srcLane s m l) (ls.map (srcLane s m)))
  rw [hl, ← List.map_cons (f := srcLane s m), List.map_map]
  rfl

theorem redMax_int : Reduces s (.redMax m)
    (BitVec.ofInt 32 (((selected m).map fun l => num sg (srcLane s m l)).foldl max (least sg 32)), .none) := by
  obtain ⟨l, ls, hl⟩ := List.exists_cons_of_ne_nil (selected_ne_nil m)
  have hfirst : ((selected m).map fun l => num sg (srcLane s m l)).foldl max (least sg 32) =
      ((ls.map (srcLane s m)).map (num sg)).foldl max (num sg (srcLane s m l)) := by
    rw [hl, List.map_cons, List.foldl_cons, max_eq_right (num_le_greatest ..).2, List.map_map]
    rfl
  rw [hfirst, ← ofNat_wrapI]
  refine reduces_of_typed hm (fop := 2) (g := fun t => extremeOut t true) (r := (_, .none)) (fun _ => rfl) hty (code_of_intType ht) ?_
  refine Eq.trans ?_ (extremeOut_int ht true (srcLane s m l) (ls.map (srcLane s m)))
  rw [hl, ← List.map_cons (f := srcLane s m), List.map_map]
  rfl

omit ht hty in
/-- CNT (R106). -/
theorem redCnt_counts : Reduces s (.redCnt m) (BitVec.ofNat 32 ((selected m).countP fun l => srcLane s m l != 0), .none) := by
  refine reduces_of_spread (fop := 4) (op := redCount) (r := (_, .none)) (fun _ => rfl) hm (congrArg (Prod.mk 0) ?_) rfl
  change cntOut (selLanes (laneMask m.lane) (curCtx s m).val) = _
  rw [selLanes_curCtx hm, cntOut, List.filter_map, List.length_map, ← List.countP_eq_length_filter]
  congr 2
  refine List.countP_congr fun l _ => ?_
  rw [Function.comp_apply, toNat_ne_zero, bne_iff_ne]

end

end Sys2Proof
end

section

namespace Sys2Proof

open Sys2Proof.Machine Sys2Proof.Claim

/-! ## Conversions, scaled products, type faults and MERGE (R58, R59, R96, R101, R104, R105, R109) -/

/-! ### Parts and codes (R58, R104) -/

theorem partOk_iff (t : Ty) (p : Nat) : partOk t p = true ↔ t.width = 32 ∨ p * t.width < 32 := by
  rw [partOk, Bool.or_eq_true, beq_iff_eq, decide_eq_true_eq]
  cases t <;> simp only [Ty.width, true_or] <;> omega

theorem bits_type {n : Nat} {t : Ty} {p : Nat} (h : n = t.code + p * 16) : bits n 3 0 = t.code := by
  have := code_lt t
  rw [bits_from_zero, h]
  omega

theorem bits_part {n : Nat} {t : Ty} {p : Nat} (h : n = t.code + p * 16) (hp : p < 8) : bits n 6 4 = p := by
  have := code_lt t
  rw [bits, h]
  omega

theorem codeOf_eq (codes : BitVec 64) (b : Nat) : codeOf codes b = (codes.extractLsb' (8 * b) 8).toNat := by
  rw [codeOf, bits_eq_extractLsb', show 8 * b + 7 + 1 - 8 * b = 8 by omega]

theorem codeOf_setWidth (v : BitVec 512) {b : Nat} (h : b < 8) : codeOf (v.setWidth 64) b = (v.extractLsb' (8 * b) 8).toNat := by
  rw [codeOf_eq, BitVec.extractLsb'_setWidth_of_le (by omega)]

theorem asBits_convLane (src t : Ty) (v : Machine.Num) :
    asBits t.width (convLane src t v) =
      (let y := convert src t .rne true false v
       (BitVec.ofNat t.width y.1, if v = .nar then .nar else y.2)) := by
  unfold convLane asBits
  dsimp only
  split <;> rfl

section

variable {m : Mv} {s : State} (hm : Moves m s) (hb : m.lane ≠ .bcast)

include hm hb

theorem elemOf512_curCtx_val (w e : Nat) : elemOf512 (curCtx s m).val w e = ((srcValue s m).extractLsb' (w * e) w).toNat := by
  rw [curCtx_val hm hb, toNat_extract_elem]

/-- CVT (R104). -/
theorem computes_cvt {src dst : Ty} (hty : OpType s m src) {p : Nat} (hp : p < 8) (himm : m.imm.toNat = dst.code + p * 16)
    (hs : src.width = 32 ∨ p * src.width < 32) (hd : dst.width = 32 ∨ p * dst.width < 32) :
    Computes m s (.cvtCvt m) 5 dst.width (if dst.width = 32 then 0 else 16 * p) fun l =>
      let v := dec src false (if src.width = 32 then (srcLane s m l).toNat else ((srcValue s m).extractLsb' (src.width * (16 * p + l)) src.width).toNat)
      let y := convert src dst .rne true false v
      (BitVec.ofNat _ y.1, if v = .nar then .nar else y.2) := by
  have hop : cvtTyped (curCtx s m) = (0, cvtPart (laneMask m.lane) p src dst (curCtx s m).val (port s 5)) := by
    unfold cvtTyped
    rw [curCtx_ty hty, ofCode_code, curCtx_imm s hb, bits_type himm, bits_part himm hp, ofCode_code]
    dsimp only
    rw [if_pos (by rw [(partOk_iff ..).2 hs, (partOk_iff ..).2 hd]; rfl)]
    rfl
  refine computes_of_onLanes (unit := 4) (fop := 1) (op := cvtTyped) (fun _ => rfl) hm (by rw [hop]) ?_
  rw [hop]
  refine onLanes_congr (onLanes_convertPart m _ ((partOk_iff ..).2 hd) _) fun l hl => ?_
  rw [asBits_convLane, laneOf512_curCtx_val hm hl, elemOf512_curCtx_val hm hb]

/-- A part that a type does not have (R104). -/
theorem cvt_signals {src dst : Ty} (hty : OpType s m src) {p : Nat} (hp : p < 8) (himm : m.imm.toNat = dst.code + p * 16)
    (h : src.width ≠ 32 ∧ 32 ≤ p * src.width ∨ dst.width ≠ 32 ∧ 32 ≤ p * dst.width) : Signals s (.cvtCvt m) 7 := by
  refine signals_of_fault (unit := 4) (fop := 1) (op := cvtTyped) (fun _ => rfl) hm ?_
  unfold cvtTyped
  rw [curCtx_ty hty, ofCode_code, curCtx_imm s hb, bits_type himm, bits_part himm hp, ofCode_code]
  dsimp only
  rw [if_neg]
  · rfl
  · rw [Bool.and_eq_true, partOk_iff, partOk_iff]
    omega

/-- QNT (R105). -/
theorem computes_qnt (hty : OpType s m .f32) {ty : Ty} (h1 : 1 ≤ ty.code) (h6 : ty.code ≤ 6) {p : Nat} (hp : p < 8)
    (himm : m.imm.toNat = ty.code + p * 16) (hpart : p * ty.width < 32) :
    Computes m s (.cvtQnt m) 5 ty.width (16 * p) fun l =>
      let code := ((Tab.get 0 (curRx s).before 7).extractLsb' (8 * ((16 * p + l) / 32)) 8).toNat
      if code = 0xFF then (BitVec.ofNat _ (canonNan ty), .none) else if code = 0 then (0, .none)
      else (let y := convert .f32 ty .rne true false (numDiv (dec .f32 false (srcLane s m l).toNat) (.real (scaleValue code))).1
            (BitVec.ofNat _ y.1, y.2)) := by
  have hw : ty.width ≠ 32 := by cases ty <;> simp [Ty.code, Ty.width] at *
  have hop : cvtQuant (curCtx s m) = (0, qntPart (laneMask m.lane) p ty ((Tab.get 0 (curRx s).before 7).setWidth 64) (curCtx s m).val (port s 5)) := by
    unfold cvtQuant
    rw [onType_allowed 4 _ (curCtx_ty hty) (by decide), curCtx_imm s hb, bits_type himm, bits_part himm hp, ofCode_code, Option.getD_some]
    rfl
  refine computes_of_onLanes (unit := 4) (fop := 3) (op := cvtQuant) (fun _ => rfl) hm (by rw [hop]) ?_
  rw [hop]
  have honl := onLanes_convertPart m (port s 5) ((partOk_iff ty p).2 (.inr hpart))
    fun l => quantise ty (laneOf512 (curCtx s m).val l) (codeOf ((Tab.get 0 (curRx s).before 7).setWidth 64) ((16 * p + l) / 32))
  rw [if_neg hw] at honl
  refine onLanes_congr honl fun l hl => ?_
  rw [laneOf512_curCtx_val hm hl, codeOf_setWidth _ (by omega), quantise]
  dsimp only
  split_ifs <;> rfl

end

/-! ### Scaled operands (R58, R59, R101, R104) -/

/-- The codes of an input in force: none without scales, and those latched under them. -/
theorem inputCodes_eq {m : Mv} {s : State} {n : Nat} {v : InState} (hsrc : m.src = .inp n) (hv : v = Tab.get InState.reset (curRx s).ins n) :
    inputCodes (curCtx s m) = if v.sm = 0 then (none, false) else if v.latched then (some v.codes, false) else (none, true) := by
  change (match m.src with
    | .inp n =>
      let v := Tab.get InState.reset (curRx s).ins n
      if v.sm = 0 then (none, false) else if v.latched then (some v.codes, false) else (none, true)
    | _ => (none, false)) = _
  rw [hsrc, hv]

/-- DEQ of one element (R104). -/
def deqLane (src : Ty) (codes : Option (BitVec 64)) (e x : Nat) : Nat × Cnd :=
  match codes with
  | none => convLane src .f32 (dec src false x)
  | some c =>
    let r := convert src .f32 .rne true false (sv src x (codeOf c (e / 32)))
    if dec src false x = .nar then (r.1, .nar) else r

theorem asBits_deqLane (src : Ty) (v : InState) (e x : Nat) :
    asBits 32 (deqLane src (if v.sm = 0 then none else some v.codes) e x) =
      (let y := convert src .f32 .rne true false
         (if v.sm = 0 then dec src false x else sv src x (v.codes.extractLsb' (8 * (e / 32)) 8).toNat)
       (BitVec.ofNat 32 y.1, if dec src false x = .nar then .nar else y.2)) := by
  by_cases hs : v.sm = 0
  · rw [if_pos hs, if_pos hs]
    exact asBits_convLane src .f32 _
  · rw [if_neg hs, if_neg hs, deqLane, codeOf_eq]
    dsimp only
    split <;> rfl

section

variable {m : Mv} {s : State} (hm : Moves m s) {n : Nat} {v : InState} (hsrc : m.src = .inp n) (hv : v = Tab.get InState.reset (curRx s).ins n)

include hm hsrc hv

/-- DEQ (R104). -/
theorem computes_deq (hb : m.lane ≠ .bcast) {src : Ty} (hty : v.ty = src.code) {p : Nat} (hp : p < 8) (himm : m.imm.toNat = p * 16)
    (hpart : src.width = 32 ∨ p * src.width < 32) (hcodes : v.sm = 0 ∨ v.latched = true) :
    Computes m s (.cvtDeq m) 5 32 0 fun l =>
      let e := (if src.width = 32 then 0 else 16 * p) + l
      let x := ((srcValue s m).extractLsb' (src.width * e) src.width).toNat
      let y := convert src .f32 .rne true false (if v.sm = 0 then dec src false x else sv src x (v.codes.extractLsb' (8 * (e / 32)) 8).toNat)
      (BitVec.ofNat _ y.1, if dec src false x = .nar then .nar else y.2) := by
  have hin : inputCodes (curCtx s m) = (if v.sm = 0 then none else some v.codes, false) := by
    rw [inputCodes_eq hsrc hv]
    split
    · rfl
    · rw [if_pos (hcodes.resolve_left ‹_›)]
  have hst : sourceType (curCtx s m) = src.code := by
    change (match m.src with | .inp n => (Tab.get InState.reset (curRx s).ins n).ty | _ => 0) = _
    rw [hsrc, ← hty, hv]
  have hop : cvtDequant (curCtx s m) = (0, laneWise (laneMask m.lane) (port s 5) fun l =>
      deqLane src (if v.sm = 0 then none else some v.codes) (partBase src p + l) (elemOf512 (curCtx s m).val src.width (partBase src p + l))) := by
    unfold cvtDequant
    rw [hin, hst, ofCode_code, curCtx_imm s hb, bits_part (t := .f32) (p := p) (by rw [himm]; exact (Nat.zero_add _).symm) hp]
    dsimp only
    rw [if_neg Bool.false_ne_true, if_pos ((partOk_iff ..).2 hpart)]
    split <;> rfl
  refine computes_of_laneWise hm (unit := 4) (fop := 2) (op := cvtDequant) (fun _ => rfl) hop fun l _ => ?_
  rw [asBits_deqLane, elemOf512_curCtx_val hm hb]
  rfl

/-- Scales that are wanted and have not come (R59). -/
theorem unlatched_signals (hs : v.sm ≠ 0) (hl : v.latched = false) : Signals s (.mulMuls m) 6 ∧ Signals s (.cvtDeq m) 6 := by
  have hin : (inputCodes (curCtx s m)).2 = true := by rw [inputCodes_eq hsrc hv, if_neg hs, if_neg (by simp [hl])]
  exact ⟨signals_of_fault (unit := 2) (fop := 2) (op := mulScaled) (fun _ => rfl) hm (if_pos hin),
    signals_of_fault (unit := 4) (fop := 2) (op := cvtDequant) (fun _ => rfl) hm (if_pos hin)⟩

/-- MULS (R101). -/
theorem computes_muls (hty : OpType s m .f32) (hcodes : v.sm = 0 ∨ v.latched = true) {f : Nat → BitVec 32 × Cnd}
    (hf : ∀ l, asBits 32 (mulsLane (if v.sm = 0 then none else some (v.codes.extractLsb' 0 8).toNat) (srcLane s m l).toNat) = f l) :
    Computes m s (.mulMuls m) 3 32 0 f := by
  have hin : inputCodes (curCtx s m) = (if v.sm = 0 then none else some v.codes, false) := by
    rw [inputCodes_eq hsrc hv]
    split
    · rfl
    · rw [if_pos (hcodes.resolve_left ‹_›)]
  have hop : mulScaled (curCtx s m) = (0, laneWise (laneMask m.lane) (port s 3) fun l =>
      mulsLane (if v.sm = 0 then none else some (v.codes.extractLsb' 0 8).toNat) (laneOf512 (curCtx s m).val l)) := by
    unfold mulScaled
    rw [hin, if_neg Bool.false_ne_true, onType_allowed 2 _ (curCtx_ty hty) (by decide), apply_ite (Option.map _)]
    dsimp only [Option.map_some, Option.map_none]
    rw [codeOf_eq]
    rfl
  refine computes_of_laneWise hm (unit := 2) (fop := 2) (op := mulScaled) (fun _ => rfl) hop fun l hl => ?_
  rw [laneOf512_curCtx_val hm hl]
  exact hf l

end

/-! ### A type that a unit does not accept (R96) -/

theorem sfuTable_eq (c : TrigCtx) :
    sfuTable c = onType c 3 [0] fun _ => laneWise c.lanes (portAt c.e 4) fun l =>
      (lutFn (fun i => (Tab.get (0 : BitVec 32) (Tab.get ⟨[], none⟩ c.luts (lutMap c.im (bits c.imm 1 0))).entries i).toNat) (laneOf512 c.val l), .none) :=
  rfl

theorem type_refused {m : Mv} {s : State} (hm : Moves m s) {ty : Ty} (hty : OpType s m ty) (hne : ty ∉ [Ty.f32, .s32, .z32]) :
    ∀ i ∈ moveForms.drop 3, i m ∉ (rawTriggers m).map (fun x => x.1) ++ [.cvtCvt m, .cvtDeq m, .redCnt m, .redMerge m, .mulMuls m] →
      Signals s (i m) 7 := by
  have hthree : ty.code ∉ [0, 7, 11] := by cases ty <;> simp [Ty.code] at hne ⊢
  have hone : ty.code ∉ [0] := fun h => hthree (List.mem_cons.2 (.inl (List.mem_singleton.1 h)))
  have exempt : ∀ {i : Instr}, i ∈ (rawTriggers m).map (fun x => x.1) ++ [.cvtCvt m, .cvtDeq m, .redCnt m, .redMerge m, .mulMuls m] →
      i ∉ (rawTriggers m).map (fun x => x.1) ++ [.cvtCvt m, .cvtDeq m, .redCnt m, .redMerge m, .mulMuls m] → Signals s i 7 :=
    fun h hn => absurd h hn
  have one : ∀ {i unit fop op} (f : Ty → TrigOut) {p : Prop}, IsTrigger m i unit fop op → op (curCtx s m) = onType (curCtx s m) unit [0] f →
      p → Signals s i 7 := fun f _ hi hop _ => signals_of_fault hi hm (hop.trans (onType_refused _ _ (curCtx_ty hty) hone))
  have three : ∀ {i unit fop op} (f : Ty → TrigOut) {p : Prop}, IsTrigger m i unit fop op →
      op (curCtx s m) = onType (curCtx s m) unit [0, 7, 11] f → p → Signals s i 7 :=
    fun f _ hi hop _ => signals_of_fault hi hm (hop.trans (onType_refused _ _ (curCtx_ty hty) hthree))
  have alu : ∀ {i fop} {p : Prop}, IsTrigger m i 1 fop (aluTyped fop) → p → Signals s i 7 := fun hi => three _ hi rfl
  have mul : ∀ {i fop} {p : Prop}, IsTrigger m i 2 fop (mulTyped fop) → p → Signals s i 7 := fun hi => three _ hi (mulTyped_eq ..)
  have sfu : ∀ {i fop} {p : Prop}, IsTrigger m i 3 fop (sfuTyped fop) → p → Signals s i 7 := fun hi => one _ hi rfl
  refine (List.forall_iff_forall_mem (p := fun i : Mv → Instr =>
    i m ∉ (rawTriggers m).map (fun x => x.1) ++ [.cvtCvt m, .cvtDeq m, .redCnt m, .redMerge m, .mulMuls m] → Signals s (i m) 7)).1 ?_
  exact ⟨alu fun _ => rfl, alu fun _ => rfl, alu fun _ => rfl, alu fun _ => rfl,
    exempt (by simp [rawTriggers]), exempt (by simp [rawTriggers]), exempt (by simp [rawTriggers]),
    exempt (by simp [rawTriggers]), exempt (by simp [rawTriggers]), exempt (by simp [rawTriggers]),
    alu fun _ => rfl, alu fun _ => rfl, alu fun _ => rfl, alu fun _ => rfl, alu fun _ => rfl,
    exempt (by simp [rawTriggers]), exempt (by simp [rawTriggers]),
    mul fun _ => rfl, exempt (by simp [rawTriggers]), mul fun _ => rfl, mul fun _ => rfl,
    sfu fun _ => rfl, sfu fun _ => rfl, sfu fun _ => rfl, sfu fun _ => rfl, sfu fun _ => rfl, sfu fun _ => rfl, sfu fun _ => rfl,
    one _ (fun _ => rfl) (sfuTable_eq _),
    exempt (by simp [rawTriggers]), exempt (by simp [rawTriggers]), one _ (fun _ => rfl) rfl,
    three _ (fun _ => rfl) rfl, three _ (fun _ => rfl) rfl, one _ (fun _ => rfl) rfl, three _ (fun _ => rfl) rfl,
    exempt (by simp [rawTriggers]), exempt (by simp [rawTriggers]), exempt (by simp [rawTriggers]),
    three _ (fun _ => rfl) rfl,
    exempt (by simp [rawTriggers])⟩

end Sys2Proof
end

section

namespace Sys2Proof

open Sys2Proof.Machine Sys2Proof.Claim

/-! ## MERGE (R109) -/

theorem getTile_modSet_chans (s : State) (tile set u : Nat) (f : CtxSet → CtxSet) :
    (getTile (modSet s tile set f) u).chans = (getTile s u).chans := by
  by_cases hu : u = tile
  · subst hu
    unfold modSet setSet
    rw [getTile_modTile_same]
    unfold putTileSet
    split <;> rfl
  · exact congrArg Tile.chans (getTile_modTile_other s _ hu)

theorem chans_modRx (s : State) (f : Reaction → Reaction) : (curTile (modRx s f)).chans = (curTile s).chans := getTile_modSet_chans ..

/-- A trigger leaves the channels of its tile. -/
theorem chans_trigger (m : Mv) (unit fop : Nat) (op : TrigOp) (s : State) : (curTile (trigger m unit fop op s)).chans = (curTile s).chans := by
  rw [trigger_eq, chans_modRx]
  exact getTile_modSet_chans ..

theorem getSet_freeKept (s : State) (tile set elem : Nat) (m : Option Nat) (u j : Nat) : getSet (freeKept s tile set elem m) u j = getSet s u j := by
  cases m with
  | none => rfl
  | some i => exact getSet_modChan s tile (chanKey set elem i) u j fun c => { c with kept := c.kept - 1 }

theorem port_mergedChans (s : State) (c : TrigCtx) (k : Nat) : port (mergedChans s c) k = port s k := by
  have hset : curSet (mergedChans s c) = curSet s := by
    unfold curSet
    rw [(moveEffect_mergedChans s c).focus]
    exact (getSet_modChan ..).trans (getSet_freeKept ..)
  unfold port curElem
  rw [hset, (moveEffect_mergedChans s c).focus]

/-- The channel of a MERGE's input after it: the items left, and the slot of its own item given back. -/
theorem chanOf_mergedChans (s : State) (c : TrigCtx) :
    let x := chanOf (curTile (mergedChans s c)) (chanKey s.focus.set s.focus.elem (bits c.imm 2 0))
    x.held = (if laneOf512 c.val 0 = 2 then (mergeQueue c).tail else mergeQueue c) ∧
      (c.rx.merge = some (bits c.imm 2 0) → x.kept = (chanOf (curTile s) (chanKey s.focus.set s.focus.elem (bits c.imm 2 0))).kept - 1) := by
  have hget : ∀ (t : State) (tile key : Nat) (f : Chan → Chan), chanOf (getTile (modChan t tile key f) tile) key = f (chanOf (getTile t tile) key) :=
    fun t tile key f => by
      rw [getTile_modChan_same]
      exact Tab.get_set_same ..
  intro x
  have hx : x = _ := (congrArg (fun t => chanOf (getTile (mergedChans s c) t) _) (congrArg Focus.tile (moveEffect_mergedChans s c).focus)).trans
    (hget ..)
  rw [hx]
  refine ⟨rfl, fun h => ?_⟩
  rw [h]
  exact congrArg Chan.kept (hget s s.focus.tile _ fun c => { c with kept := c.kept - 1 })

section

variable {m : Mv} {s : State} (hm : Moves m s)

include hm

theorem exec_redMerge : exec (.redMerge m) s = .next (modRx (triggerMerge m s) onward) := by
  obtain ⟨hready, hopen, -, heob⟩ := hm
  change execRedMerge m s = _
  rw [execRedMerge, if_pos hready, runMove_goes_on _ hopen heob]

/-- A MERGE that faults takes nothing (R109). -/
theorem redMerge_signals (h : redMergeOp (curCtx s m) = (8, plainOut (port s 7))) :
    Signals s (.redMerge m) 8 ∧ ∃ t, exec (.redMerge m) s = .next t ∧ (curTile t).chans = (curTile s).chans := by
  have heff : triggerMerge m s = trigger m 5 6 redMergeOp s := if_neg (by
    change ¬ (redMergeOp (curCtx s m)).1 = 0
    rw [h]
    exact Nat.succ_ne_zero 7)
  have hexec := exec_redMerge hm
  rw [heff] at hexec
  exact ⟨signals_of_exec hm hexec h, _, hexec, (chans_modRx ..).trans (chans_trigger ..)⟩

/-- A MERGE that gives a value of RED.R (R109). -/
theorem redMerge_gives {r : BitVec 512} (h : redMergeOp (curCtx s m) = (0, plainOut r)) :
    let t := modRx (triggerMerge m s) onward
    MovedOn s t ∧ (curRx t).merge = none ∧ (∀ k, port t k = if k = 7 then r else port s k) ∧
      chanOf (curTile t) (chanKey s.focus.set s.focus.elem (bits (curCtx s m).imm 2 0)) =
        chanOf (curTile (mergedChans (trigger m 5 6 redMergeOp s) (curCtx s m))) (chanKey s.focus.set s.focus.elem (bits (curCtx s m).imm 2 0)) := by
  have htrig := moveEffect_trigger m 5 6 redMergeOp s
  have heff : triggerMerge m s = modRx (mergedChans (trigger m 5 6 redMergeOp s) (curCtx s m)) merged := by
    rw [← mergeHeld_eq, htrig.focus]
    exact if_pos (congrArg Prod.fst h)
  have hall := htrig.trans ((moveEffect_mergedChans _ (curCtx s m)).trans (moveEffect_modRx _ withinBundle_merged))
  rw [heff]
  intro t
  refine ⟨hall.movedOn hm.1, ?_, fun k => ?_, ?_⟩
  · rw [show curRx t = _ from hall.curRx_onward hm.1]
    rfl
  · rw [port_modRx, port_modRx, port_mergedChans, trigger_eq, port_modRx, port, curElem_modCurElem, h]
    exact Tab.get_set ..
  · unfold chanOf
    rw [chans_modRx, chans_modRx]

variable (hb : m.lane ≠ .bcast)

/-- The items from which a MERGE takes: those held, and the one present (R109). -/
def mergeItems (s : State) (inp : Nat) : List (BitVec 512) :=
  (chanOf (curTile s) (chanKey s.focus.set s.focus.elem inp)).held ++
    (if (curRx s).stat.getD inp false then [Tab.get 0 (curRx s).items inp] else [])

omit hm in
include hb in
theorem mergeQueue_curCtx : mergeQueue (curCtx s m) = mergeItems s (m.imm.toNat % 8) := by
  unfold mergeQueue
  rw [curCtx_imm s hb, bits_from_zero]
  rfl

include hb

/-- What a MERGE gives, by its control (R109). -/
theorem redMergeOp_curCtx :
    redMergeOp (curCtx s m) =
      if 2 < (srcLane s m 0).toNat ∨ (srcLane s m 0).toNat = 2 ∧ mergeItems s (m.imm.toNat % 8) = [] then (8, plainOut (port s 7))
      else if (srcLane s m 0).toNat = 1 then (0, plainOut (mergeLanes (laneMask m.lane) (port s 6) (port s 7)))
      else if (srcLane s m 0).toNat = 2 then
        (0, plainOut (mergeLanes (laneMask m.lane) ((mergeItems s (m.imm.toNat % 8)).headD 0) (port s 7)))
      else (0, plainOut (port s 7)) := by
  unfold redMergeOp
  rw [mergeQueue_curCtx hb, laneOf512_curCtx_val hm (by omega)]
  refine if_congr ?_ rfl rfl
  rw [Bool.or_eq_true, Bool.and_eq_true, decide_eq_true_eq, decide_eq_true_eq, List.isEmpty_iff]

/-- A MERGE with control 0, 1 or 2 (R109). -/
theorem redMerge_takes {v : BitVec 512} {rest : List (BitVec 512)}
    (h : srcLane s m 0 = 0 ∧ v = port s 7 ∧ rest = mergeItems s (m.imm.toNat % 8) ∨
      srcLane s m 0 = 1 ∧ v = port s 6 ∧ rest = mergeItems s (m.imm.toNat % 8) ∨
      srcLane s m 0 = 2 ∧ mergeItems s (m.imm.toNat % 8) = v :: rest) :
    redMergeOp (curCtx s m) = (0, plainOut (if srcLane s m 0 = 0 then port s 7 else mergeLanes (laneMask m.lane) v (port s 7))) ∧
      (if laneOf512 (curCtx s m).val 0 = 2 then (mergeQueue (curCtx s m)).tail else mergeQueue (curCtx s m)) = rest := by
  rw [redMergeOp_curCtx hm hb, mergeQueue_curCtx hb, laneOf512_curCtx_val hm (by omega)]
  rcases h with ⟨hc, rfl, rfl⟩ | ⟨hc, rfl, rfl⟩ | ⟨hc, hq⟩
  · rw [hc]
    exact ⟨rfl, rfl⟩
  · rw [hc]
    exact ⟨rfl, rfl⟩
  · rw [hc, hq]
    refine ⟨?_, rfl⟩
    rw [if_neg (by simp)]
    rfl

omit hm hb in
/-- The lanes of RED.R after such a MERGE. -/
theorem lane_redMerge {v : BitVec 512} (h : srcLane s m 0 = 0 → v = port s 7) {l : Nat} (hl : l < 16) :
    lane (if srcLane s m 0 = 0 then port s 7 else mergeLanes (laneMask m.lane) v (port s 7)) l =
      if laneSel m l then lane v l else lane (port s 7) l := by
  split
  next hc => rw [h hc, ite_self]
  next => rw [lane_mergeLanes _ _ _ hl, bit_laneMask m hl]

theorem redMerge_result {v : BitVec 512} {rest : List (BitVec 512)}
    (h : srcLane s m 0 = 0 ∧ v = port s 7 ∧ rest = mergeItems s (m.imm.toNat % 8) ∨
      srcLane s m 0 = 1 ∧ v = port s 6 ∧ rest = mergeItems s (m.imm.toNat % 8) ∨
      srcLane s m 0 = 2 ∧ mergeItems s (m.imm.toNat % 8) = v :: rest) :
    ∃ t, exec (.redMerge m) s = .next t ∧ MovedOn s t ∧
      (chanOf (curTile t) (chanKey s.focus.set s.focus.elem (m.imm.toNat % 8))).held = rest ∧ (curRx t).merge = none ∧
      ((curRx s).merge = some (m.imm.toNat % 8) → (chanOf (curTile t) (chanKey s.focus.set s.focus.elem (m.imm.toNat % 8))).kept =
        (chanOf (curTile s) (chanKey s.focus.set s.focus.elem (m.imm.toNat % 8))).kept - 1) ∧
      (∀ k, k ≠ 7 → port t k = port s k) ∧ ∀ l < 16, lane (port t 7) l = if laneSel m l then lane v l else lane (port s 7) l := by
  obtain ⟨hop, hrest⟩ := redMerge_takes hm hb h
  obtain ⟨hmoved, hnone, hport, hchan⟩ := redMerge_gives hm hop
  have hfocus := (moveEffect_trigger m 5 6 redMergeOp s).focus
  obtain ⟨hheld, hkept⟩ := chanOf_mergedChans (trigger m 5 6 redMergeOp s) (curCtx s m)
  have himm : bits (curCtx s m).imm 2 0 = m.imm.toNat % 8 :=
    (congrArg (bits · 2 0) (curCtx_imm s hb)).trans (bits_from_zero ..)
  rw [hfocus] at hheld hkept
  rw [himm] at hchan hheld hkept
  refine ⟨_, exec_redMerge hm, hmoved, ?_, hnone, fun hmerge => ?_, fun k hk => ?_, fun l hl => ?_⟩
  · rw [hchan, hheld, hrest]
  · rw [hchan, hkept hmerge]
    unfold chanOf
    rw [chans_trigger]
  · rw [hport, if_neg hk]
  · rw [hport, if_pos rfl]
    refine lane_redMerge (fun hc => ?_) hl
    rcases h with ⟨-, hv, -⟩ | ⟨h1, -⟩ | ⟨h2, -⟩
    · exact hv
    · rw [hc] at h1
      exact absurd h1 (by decide)
    · rw [hc] at h2
      exact absurd h2 (by decide)

/-- A MERGE with another control, or with nothing to take (R109). -/
theorem redMerge_faults (h : (srcLane s m 0).toNat > 2 ∨ srcLane s m 0 = 2 ∧ mergeItems s (m.imm.toNat % 8) = []) :
    Signals s (.redMerge m) 8 ∧ ∃ t, exec (.redMerge m) s = .next t ∧ (curTile t).chans = (curTile s).chans := by
  refine redMerge_signals hm ?_
  rw [redMergeOp_curCtx hm hb, if_pos]
  refine h.imp_right fun ⟨hc, hq⟩ => ⟨?_, hq⟩
  rw [hc]
  rfl

end

end Sys2Proof
end

section

namespace Sys2Proof

open Sys2Proof.Machine Sys2Proof.Claim

/-! ## Binary32 lanes: NaNs, functions, the table, and reductions (R41, R99, R102, R103, R106) -/

/-! ### What a binary32 code decodes to (R40, R41, R47) -/

/-- A binary32 code is a sign and a magnitude code. -/
theorem exists_magnitude (x : BitVec 32) : ∃ neg k, k < 2 ^ 31 ∧ x.toNat = signBit .f32 neg + k := by
  have hlt := x.isLt
  rcases Nat.lt_or_ge x.toNat (2 ^ 31) with h | h
  · exact ⟨false, x.toNat, h, (Nat.zero_add _).symm⟩
  · refine ⟨true, x.toNat - 2 ^ 31, by omega, ?_⟩
    change x.toNat = 2 ^ 31 + (x.toNat - 2 ^ 31)
    omega

theorem floatFmt_f32 : floatFmt .f32 = some f32Fmt := rfl

/-- What the code decodes to, by its magnitude code. -/
theorem dec_f32 (neg : Bool) {k : Nat} (hk : k < 2 ^ 31) :
    dec .f32 false (signBit .f32 neg + k) =
      if k ≤ 0x7F7FFFFF then (if k = 0 then .zero neg else .real (if neg then fracNeg (floatMag f32Fmt k) else floatMag f32Fmt k))
      else if k = 0x7F800000 then .inf neg else .nan := by
  rw [dec_signBit_add floatFmt_f32 neg hk]
  exact if_congr Iff.rfl rfl (if_congr (Bool.and_eq_true_iff.trans ((and_iff_right rfl).trans decide_eq_true_iff)) rfl rfl)

theorem isNan32_eq {x : BitVec 32} {neg : Bool} {k : Nat} (hk : k < 2 ^ 31) (hx : x.toNat = signBit .f32 neg + k) :
    isNan32 x = decide (0x7F800000 < k) := by
  have hexp : x.extractLsb' 23 8 = 0xFF ↔ k / 2 ^ 23 = 255 := by
    rw [← BitVec.toNat_inj, BitVec.extractLsb'_toNat, Nat.shiftRight_eq_div_pow, hx]
    cases neg <;> simp only [signBit, Ty.width, if_true, Bool.false_eq_true, if_false] <;> change _ = 255 ↔ _ <;> omega
  have hfrac : x.extractLsb' 0 23 = 0 ↔ k % 2 ^ 23 = 0 := by
    rw [← BitVec.toNat_inj, BitVec.extractLsb'_toNat, Nat.shiftRight_eq_div_pow, hx]
    cases neg <;> simp only [signBit, Ty.width, if_true, Bool.false_eq_true, if_false] <;> change _ = 0 ↔ _ <;> omega
  rw [isNan32, Bool.eq_iff_iff, Bool.and_eq_true, beq_iff_eq, bne_iff_ne, Ne, hexp, hfrac, decide_eq_true_eq]
  omega

theorem dec_of_isNan32 {x : BitVec 32} (h : isNan32 x = true) : dec .f32 false x.toNat = .nan := by
  obtain ⟨neg, k, hk, hx⟩ := exists_magnitude x
  rw [isNan32_eq hk hx, decide_eq_true_eq] at h
  rw [hx, dec_f32 neg hk, if_neg (by omega), if_neg (by omega)]

theorem numIsNan_dec (x : BitVec 32) : numIsNan (dec .f32 false x.toNat) = isNan32 x := by
  cases h : isNan32 x
  · obtain ⟨neg, k, hk, hx⟩ := exists_magnitude x
    rw [isNan32_eq hk hx, decide_eq_false_iff_not] at h
    rw [hx, dec_f32 neg hk]
    split_ifs <;> first | rfl | omega
  · rw [dec_of_isNan32 h]
    rfl

theorem asBits_canonF32 (x : BitVec 32) : asBits 32 (canonF32 x.toNat, Cnd.none) = (canonical x, Cnd.none) := by
  unfold canonF32 canonical
  rw [numIsNan_dec]
  cases isNan32 x
  · exact asBits_raw rfl
  · rfl

/-! ### The special functions (R102) -/

theorem asBits_sfuLane_nan (fop : Nat) {x : BitVec 32} (h : isNan32 x = true) : asBits 32 (sfuLane fop x.toNat) = (0x7FC00000, .none) := by
  unfold sfuLane
  rw [dec_of_isNan32 h]
  rfl

/-- The square root of a rational whose scaled value is a square. -/
theorem sqrtRound_of_square {x y : Frac} {qe : Int} {n : Nat}
    (hq : (if floorLog2 x.num.natAbs x.den / 2 < -126 then -126 else floorLog2 x.num.natAbs x.den / 2) - 23 - 2 = qe)
    (hy : fracShift x (-(2 * qe)) = y) (hn : y.num.natAbs / y.den = n * n) :
    sqrtRound .f32 f32Fmt .rne true false x = convFloat .f32 f32Fmt .rne true false
      (numOf false (fracShift ⟨((2 * n + (if n * n * y.den = y.num.natAbs then 0 else 1) : Nat) : Int), 2⟩ qe)) := by
  subst hq hy
  unfold sqrtRound
  dsimp only
  rw [← Nat.sqrt_eq n, ← hn]
  rfl

theorem sfuFn_sqrt {x : Frac} (fallback : Nat) (h : ¬ x.num < 0) :
    sfuFn 2 .f32 f32Fmt .rne true false fallback (.real x) = sqrtRound .f32 f32Fmt .rne true false x := if_neg h

theorem sfuFn_rsq {x : Frac} (fallback : Nat) (h : ¬ x.num < 0) :
    sfuFn 3 .f32 f32Fmt .rne true false fallback (.real x) = sqrtRound .f32 f32Fmt .rne true false (fracDiv ⟨1, 1⟩ x) := if_neg h

theorem dec_four : dec .f32 false (0x40800000 : BitVec 32).toNat = .real ⟨8388608, 2097152⟩ := rfl

theorem sfuSqrt_four : asBits 32 (sfuLane 2 (0x40800000 : BitVec 32).toNat) = (0x40000000, .none) := by
  unfold sfuLane
  rw [dec_four, sfuFn_sqrt _ (by decide), sqrtRound_of_square (y := ⟨2361183241434822606848, 2097152⟩) (qe := -24) (n := 33554432) rfl rfl rfl]
  rfl

theorem sfuRsq_four : asBits 32 (sfuLane 3 (0x40800000 : BitVec 32).toNat) = (0x3F000000, .none) := by
  unfold sfuLane
  rw [dec_four, sfuFn_rsq _ (by decide), sqrtRound_of_square (y := ⟨9444732965739290427392, 8388608⟩) (qe := -26) (n := 33554432) rfl rfl rfl]
  rfl

/-- The special cases of a function. -/
theorem sfuTriggers_special {m : Mv} {i : Instr} {tab : List (BitVec 32 × BitVec 32 × Cnd)} (h : (i, tab) ∈ sfuTriggers m) :
    ∃ fop, IsTrigger m i 3 fop (sfuTyped fop) ∧ ∀ e ∈ tab, asBits 32 (sfuLane fop e.1.toNat) = e.2 := by
  have special : ∀ (fop : Nat) (tab : List (BitVec 32 × BitVec 32 × Cnd)), tab.Forall (fun e => asBits 32 (sfuLane fop e.1.toNat) = e.2) →
      ∀ e ∈ tab, asBits 32 (sfuLane fop e.1.toNat) = e.2 := fun _ _ h => List.forall_iff_forall_mem.1 h
  refine (List.forall_iff_forall_mem (l := sfuTriggers m) (p := fun x => ∃ fop, IsTrigger m x.1 3 fop (sfuTyped fop) ∧
    ∀ e ∈ x.2, asBits 32 (sfuLane fop e.1.toNat) = e.2)).1 ?_ _ h
  exact ⟨⟨1, fun _ => rfl, special 1 _ ⟨rfl, rfl, rfl, rfl, rfl⟩⟩, ⟨2, fun _ => rfl, special 2 _ ⟨rfl, rfl, rfl, sfuSqrt_four⟩⟩,
    ⟨3, fun _ => rfl, special 3 _ ⟨rfl, rfl, rfl, rfl, sfuRsq_four⟩⟩, ⟨4, fun _ => rfl, special 4 _ ⟨rfl, rfl, rfl, rfl⟩⟩,
    ⟨5, fun _ => rfl, special 5 _ ⟨rfl, rfl, rfl, rfl, rfl⟩⟩, ⟨6, fun _ => rfl, special 6 _ ⟨rfl, rfl, rfl, rfl⟩⟩,
    ⟨7, fun _ => rfl, special 7 _ ⟨rfl, rfl, rfl⟩⟩⟩

end Sys2Proof
end

section

namespace Sys2Proof

open Sys2Proof.Machine Sys2Proof.Claim

/-! ## Greatest and least binary32 lanes (R99, R106) -/

/-! ### A code is what its value rounds to (R40, R62) -/

theorem fracScale_den_pos (m e : Int) : 0 < (fracScale m e).den := by
  unfold fracScale
  split
  · exact Nat.one_pos
  · exact Nat.two_pow_pos _

theorem floatMag_den_pos (f : FloatFmt) (k : Nat) : 0 < (floatMag f k).den := by
  unfold floatMag
  dsimp only
  split <;> exact fracScale_den_pos ..

theorem fracScale_num_nonneg {m : Int} (e : Int) (h : 0 ≤ m) : 0 ≤ (fracScale m e).num := by
  unfold fracScale
  split
  · positivity
  · exact h

theorem floatMag_num_nonneg (f : FloatFmt) (k : Nat) : 0 ≤ (floatMag f k).num := by
  unfold floatMag
  dsimp only
  split <;> exact fracScale_num_nonneg _ (Int.natCast_nonneg _)

theorem magOf_pos (f : FloatFmt) {k : Nat} (h : 0 < k) : 0 < magOf f k := by
  rw [← magOf_zero f]
  exact magOf_strictMono f h

theorem floatMag_num_pos (f : FloatFmt) {k : Nat} (h : 0 < k) : 0 < (floatMag f k).num := by
  refine lt_of_le_of_ne (floatMag_num_nonneg f k) fun h0 => ?_
  have := magOf_pos f h
  rw [magOf, ratio, ← h0] at this
  simp at this

/-- A real that a code stands for, with its sign. -/
def withSign (neg : Bool) (x : Frac) : Frac := if neg then fracNeg x else x

theorem withSign_den (neg : Bool) (x : Frac) : (withSign neg x).den = x.den := by cases neg <;> rfl

theorem natAbs_withSign (neg : Bool) (x : Frac) : (withSign neg x).num.natAbs = x.num.natAbs := by
  cases neg
  · rfl
  · exact Int.natAbs_neg x.num

theorem withSign_neg {neg : Bool} {x : Frac} (h : 0 < x.num) : decide ((withSign neg x).num < 0) = neg := by
  cases neg
  · exact decide_eq_false (by change ¬ x.num < 0; omega)
  · exact decide_eq_true (by change -x.num < 0; omega)

theorem fracAbs_withSign (neg : Bool) {x : Frac} (h : 0 ≤ x.num) : fracAbs (withSign neg x) = x := by
  unfold fracAbs
  rw [natAbs_withSign, withSign_den, Int.natAbs_of_nonneg h]

/-- The value of a code rounds to the code. -/
theorem roundCode_floatMag {f : FloatFmt} (hf : 1 ≤ f.fbits) (neg sgn : Bool) {k : Nat} (h : 0 < k) :
    roundCode f sgn (withSign neg (floatMag f k)) .rne = k := by
  have hnum := floatMag_num_pos f h
  have hval : ((withSign neg (floatMag f k)).num.natAbs : ℚ) / (withSign neg (floatMag f k)).den = magOf f k := by
    rw [natAbs_withSign, withSign_den, magOf, ratio, Nat.cast_natAbs, abs_of_pos hnum]
  have hnear := ((roundCode_halfway hf sgn (x := withSign neg (floatMag f k)) (by rw [withSign_den]; exact floatMag_den_pos f k)
    (by rw [Ne, ← Int.natAbs_eq_zero, natAbs_withSign]; omega)).nearest k).1
  rw [hval, sub_self, abs_zero, abs_nonpos_iff, sub_eq_zero] at hnear
  exact (magOf_strictMono f).injective hnear

/-- What a binary32 code other than a NaN decodes to. -/
theorem dec_cases {x : BitVec 32} (h : isNan32 x = false) :
    ∃ neg k, x.toNat = signBit .f32 neg + k ∧ (k = 0 ∧ dec .f32 false x.toNat = .zero neg ∨
      k = 0x7F800000 ∧ dec .f32 false x.toNat = .inf neg ∨
      0 < k ∧ k ≤ 0x7F7FFFFF ∧ dec .f32 false x.toNat = .real (withSign neg (floatMag f32Fmt k))) := by
  obtain ⟨neg, k, hk, hx⟩ := exists_magnitude x
  rw [isNan32_eq hk hx, decide_eq_false_iff_not] at h
  refine ⟨neg, k, hx, ?_⟩
  rw [hx, dec_f32 neg hk]
  by_cases h0 : k = 0
  · exact .inl ⟨h0, by rw [if_pos (by omega), if_pos h0]⟩
  · by_cases h1 : k ≤ 0x7F7FFFFF
    · exact .inr (.inr ⟨by omega, h1, by rw [if_pos h1, if_neg h0]; rfl⟩)
    · exact .inr (.inl ⟨by omega, by rw [if_neg h1, if_pos (by omega)]⟩)

/-- A result that is the value of a code is the code (R62). -/
theorem f32Result_dec {x : BitVec 32} (h : isNan32 x = false) : asBits 32 (f32Result (dec .f32 false x.toNat, .none)) = (x, .none) := by
  obtain ⟨neg, k, hx, ⟨rfl, hd⟩ | ⟨rfl, hd⟩ | ⟨h0, h1, hd⟩⟩ := dec_cases h
  all_goals rw [asBits_f32Result, hd]
  · refine congrArg (·, Cnd.none) (ofNat_eq_of_toNat ?_)
    rw [hx]
    rfl
  · refine congrArg (·, Cnd.none) (ofNat_eq_of_toNat ?_)
    rw [hx]
    rfl
  · have hc : convert .f32 .f32 .rne true false (.real (withSign neg (floatMag f32Fmt k))) = (signBit .f32 neg + k, .none) := by
      rw [convert_rne_real floatFmt_f32]
      dsimp only
      rw [roundCode_floatMag (by decide) neg _ h0, withSign_neg (floatMag_num_pos _ h0)]
      exact if_pos h1
    unfold rounded
    dsimp only
    rw [hc]
    exact congrArg (·, Cnd.none) (ofNat_eq_of_toNat hx.symm)

/-! ### The order of values (R106, R144) -/

/-- The place of a value other than a NaN in the order of the values. -/
def place (v : Machine.Num) : WithBot (WithTop ℚ) :=
  match v with
  | .inf true => ⊥
  | .inf false => ((⊤ : WithTop ℚ) : WithBot (WithTop ℚ))
  | v => ((ratio (numFrac v) : WithTop ℚ) : WithBot (WithTop ℚ))

/-- A value that a code other than a NaN stands for. -/
def Ordered (v : Machine.Num) : Prop := numIsNan v = false ∧ 0 < (numFrac v).den

theorem fracLt_iff {x y : Frac} (hx : 0 < x.den) (hy : 0 < y.den) : fracLt x y = true ↔ ratio x < ratio y := by
  have hx' : (0 : ℚ) < x.den := by exact_mod_cast hx
  have hy' : (0 : ℚ) < y.den := by exact_mod_cast hy
  unfold fracLt ratio
  rw [decide_eq_true_iff, div_lt_div_iff₀ hx' hy']
  exact_mod_cast Iff.rfl

theorem numCmp_eq {a b : Machine.Num} (ha : Ordered a) (hb : Ordered b) :
    numCmp a b = if place a < place b then .lt else if place b < place a then .gt else .eq := by
  obtain ⟨ha, hda⟩ := ha
  obtain ⟨hb, hdb⟩ := hb
  have hfin : ∀ x y : Frac, 0 < x.den → 0 < y.den →
      (if fracLt x y then Ordering.lt else if fracLt y x then .gt else .eq) =
        if ((ratio x : WithTop ℚ) : WithBot (WithTop ℚ)) < ((ratio y : WithTop ℚ) : WithBot (WithTop ℚ)) then .lt
        else if ((ratio y : WithTop ℚ) : WithBot (WithTop ℚ)) < ((ratio x : WithTop ℚ) : WithBot (WithTop ℚ)) then .gt else .eq := fun x y hx hy => by
    simp only [fracLt_iff hx hy, fracLt_iff hy hx, WithBot.coe_lt_coe, WithTop.coe_lt_coe]
  have htop : ∀ q : ℚ, ((q : WithTop ℚ) : WithBot (WithTop ℚ)) < place (.inf false) := fun q => WithBot.coe_lt_coe.2 (WithTop.coe_lt_top q)
  have hbot : ∀ q : ℚ, place (.inf true) < ((q : WithTop ℚ) : WithBot (WithTop ℚ)) := fun q => WithBot.bot_lt_coe _
  have hinf : ∀ (n : Bool) (q : ℚ), (if n then Ordering.lt else .gt) =
      if place (.inf n) < ((q : WithTop ℚ) : WithBot (WithTop ℚ)) then .lt
      else if ((q : WithTop ℚ) : WithBot (WithTop ℚ)) < place (.inf n) then .gt else .eq := fun n q => by
    cases n
    · exact ((if_neg (htop q).not_gt).trans (if_pos (htop q))).symm
    · exact (if_pos (hbot q)).symm
  have hinf' : ∀ (n : Bool) (q : ℚ), (if n then Ordering.gt else .lt) =
      if ((q : WithTop ℚ) : WithBot (WithTop ℚ)) < place (.inf n) then .lt
      else if place (.inf n) < ((q : WithTop ℚ) : WithBot (WithTop ℚ)) then .gt else .eq := fun n q => by
    cases n
    · exact (if_pos (htop q)).symm
    · exact ((if_neg (hbot q).not_gt).trans (if_pos (hbot q))).symm
  cases a with
  | nan => cases ha
  | nar => cases ha
  | inf x =>
    cases b with
    | nan => cases hb
    | nar => cases hb
    | inf y => cases x <;> cases y <;> simp [numCmp, place]
    | zero y => exact hinf x _
    | real y => exact hinf x _
  | zero x =>
    cases b with
    | nan => cases hb
    | nar => cases hb
    | inf y => exact hinf' y _
    | zero y => exact hfin _ _ hda hdb
    | real y => exact hfin _ _ hda hdb
  | real x =>
    cases b with
    | nan => cases hb
    | nar => cases hb
    | inf y => exact hinf' y _
    | zero y => exact hfin _ _ hda hdb
    | real y => exact hfin _ _ hda hdb

theorem numCond_le_iff {a b : Machine.Num} (ha : Ordered a) (hb : Ordered b) : numCond .le a b = true ↔ place a ≤ place b := by
  unfold numCond
  dsimp only
  rw [ha.1, hb.1, numCmp_eq ha hb]
  rcases lt_trichotomy (place a) (place b) with h | h | h
  · simp [h, h.le]
  · simp [h]
  · simp [h, h.not_gt, h.not_ge]

/-- The place that MIN or MAX of two values has. -/
theorem numMinMax_spec (hi : Bool) {a b : Machine.Num} (ha : Ordered a) (hb : Ordered b) :
    (numMinMax hi a b = a ∨ numMinMax hi a b = b) ∧
      if hi then place a ≤ place (numMinMax hi a b) ∧ place b ≤ place (numMinMax hi a b)
      else place (numMinMax hi a b) ≤ place a ∧ place (numMinMax hi a b) ≤ place b := by
  unfold numMinMax
  rw [ha.1, hb.1, numCmp_eq ha hb]
  rcases lt_trichotomy (place a) (place b) with h | h | h
  · cases hi <;> simp [h, h.le]
  · cases hi <;> cases numNeg? a <;> simp [h]
  · cases hi <;> simp [h, h.le, h.not_gt]

/-- MIN or MAX of some values is one of them, and none goes beyond it (R106). -/
theorem extremeNum_spec (hi : Bool) {l : List Machine.Num} (hl : l ≠ []) (ho : ∀ v ∈ l, Ordered v) :
    extremeNum hi l ∈ l ∧ ∀ v ∈ l, if hi then place v ≤ place (extremeNum hi l) else place (extremeNum hi l) ≤ place v := by
  induction l with
  | nil => exact absurd rfl hl
  | cons x t ih =>
    cases t with
    | nil =>
      refine ⟨List.mem_cons_self, fun v hv => ?_⟩
      rw [List.mem_singleton.1 hv]
      cases hi <;> exact le_rfl
    | cons y t =>
      obtain ⟨hmem, hbound⟩ := ih (List.cons_ne_nil _ _) fun v hv => ho v (List.mem_cons_of_mem _ hv)
      obtain ⟨hone, hplace⟩ := numMinMax_spec hi (ho x List.mem_cons_self) (ho _ (List.mem_cons_of_mem _ hmem))
      change numMinMax hi x (extremeNum hi (y :: t)) ∈ _ ∧ ∀ v ∈ _, if hi then place v ≤ place (numMinMax hi x (extremeNum hi (y :: t)))
        else place (numMinMax hi x (extremeNum hi (y :: t))) ≤ place v
      refine ⟨?_, fun v hv => ?_⟩
      · rcases hone with h | h <;> rw [h]
        · exact List.mem_cons_self
        · exact List.mem_cons_of_mem _ hmem
      · rcases List.mem_cons.1 hv with rfl | hv
        · cases hi
          · exact hplace.1
          · exact hplace.1
        · have hb := hbound v hv
          cases hi
          · exact hplace.2.trans hb
          · exact le_trans hb hplace.2

theorem numMinMax_nan (hi : Bool) {a b : Machine.Num} (h : numIsNan a = true ∨ numIsNan b = true) : numMinMax hi a b = .nan := by
  unfold numMinMax
  rw [if_pos (Bool.or_eq_true_iff.2 h)]

theorem extremeNum_nan (hi : Bool) {l : List Machine.Num} {v : Machine.Num} (hv : v ∈ l) (hn : numIsNan v = true) :
    numIsNan (extremeNum hi l) = true := by
  induction l with
  | nil => cases hv
  | cons x t ih =>
    cases t with
    | nil => rwa [← List.mem_singleton.1 hv]
    | cons y t =>
      have : extremeNum hi (x :: y :: t) = .nan := numMinMax_nan hi ((List.mem_cons.1 hv).imp (fun h : v = x => h ▸ hn) ih)
      rw [this]
      rfl

/-! ### The decoded lanes -/

theorem ordered_dec {x : BitVec 32} (h : isNan32 x = false) : Ordered (dec .f32 false x.toNat) := by
  refine ⟨(numIsNan_dec x).trans h, ?_⟩
  obtain ⟨neg, k, -, ⟨-, hd⟩ | ⟨-, hd⟩ | ⟨-, -, hd⟩⟩ := dec_cases h <;> rw [hd]
  · exact Nat.one_pos
  · exact Nat.one_pos
  · rw [numFrac, withSign_den]
    exact floatMag_den_pos ..

theorem asBits_f32Result_nan {v : Machine.Num} (h : numIsNan v = true) : asBits 32 (f32Result (v, .none)) = (0x7FC00000, .none) := by
  cases v with
  | nan => rfl
  | nar => rfl
  | zero | real | inf => cases h

section

variable {m : Mv} {s : State} (hm : Moves m s) (hty : OpType s m .f32)

include hm hty

/-- SUM of binary32 lanes (R106). -/
theorem redSum_f32 : Reduces s (.redSum m) (rounded (numSum .rne ((selected m).map fun l => dec .f32 false (srcLane s m l).toNat))) := by
  rw [← asBits_f32Result]
  refine reduces_of_typed hm (fop := 1) (g := sumOut) (fun _ => rfl) hty (by decide) ?_
  rw [sumOut, if_pos rfl, List.map_map]
  rfl

/-- MIN and MAX of binary32 lanes (R106). -/
theorem redExtreme_f32 {i : Instr} {hi : Bool} (h : (i, hi) ∈ [(Instr.redMin m, false), (.redMax m, true)]) :
    ∃ r, Reduces s i (r, .none) ∧ ((∃ l ∈ selected m, isNan32 (srcLane s m l) = true) → r = 0x7FC00000) ∧
      ((∀ l ∈ selected m, isNan32 (srcLane s m l) = false) → (∃ l ∈ selected m, r = srcLane s m l) ∧
        ∀ l ∈ selected m, if hi then numCond .le (dec .f32 false (srcLane s m l).toNat) (dec .f32 false r.toNat) = true
          else numCond .le (dec .f32 false r.toNat) (dec .f32 false (srcLane s m l).toNat) = true) := by
  obtain ⟨vals, hvals⟩ : ∃ vals, vals = (selected m).map fun l => dec .f32 false (srcLane s m l).toNat := ⟨_, rfl⟩
  have hred : Reduces s i (asBits 32 (f32Result (extremeNum hi vals, .none))) := by
    have hout : extremeOut .f32 hi ((selected m).map fun l => (srcLane s m l).toNat) = spreadOut (f32Result (extremeNum hi vals, .none)) := by
      rw [extremeOut, if_pos rfl, List.map_map, hvals]
      rfl
    simp only [List.mem_cons, Prod.mk.injEq, List.not_mem_nil, or_false] at h
    rcases h with ⟨rfl, rfl⟩ | ⟨rfl, rfl⟩
    · exact reduces_of_typed hm (fop := 3) (g := fun t => extremeOut t false) (fun _ => rfl) hty (by decide) hout
    · exact reduces_of_typed hm (fop := 2) (g := fun t => extremeOut t true) (fun _ => rfl) hty (by decide) hout
  by_cases hnan : ∃ l ∈ selected m, isNan32 (srcLane s m l) = true
  · obtain ⟨l, hl, hn⟩ := hnan
    have hmem : dec .f32 false (srcLane s m l).toNat ∈ vals := hvals ▸ List.mem_map.2 ⟨l, hl, rfl⟩
    rw [asBits_f32Result_nan (extremeNum_nan hi hmem ((numIsNan_dec _).trans hn))] at hred
    exact ⟨_, hred, fun _ => rfl, fun hno => absurd hn (by rw [hno l hl]; exact Bool.false_ne_true)⟩
  · have hnum : ∀ l ∈ selected m, isNan32 (srcLane s m l) = false := fun l hl => by
      by_contra hn
      exact hnan ⟨l, hl, by simpa using hn⟩
    obtain ⟨hmem, hbound⟩ := extremeNum_spec hi (l := vals) (by rw [hvals, Ne, List.map_eq_nil_iff]; exact selected_ne_nil m) fun v hv => by
      obtain ⟨l, hl, rfl⟩ := List.mem_map.1 (hvals ▸ hv)
      exact ordered_dec (hnum l hl)
    obtain ⟨k, hk, hext⟩ : ∃ k ∈ selected m, dec .f32 false (srcLane s m k).toNat = extremeNum hi vals :=
      List.mem_map.1 (by rw [← hvals]; exact hmem)
    rw [← hext, f32Result_dec (hnum k hk)] at hred
    refine ⟨_, hred, fun hn => absurd hn hnan, fun _ => ⟨⟨k, hk, rfl⟩, fun l hl => ?_⟩⟩
    have hb := hbound (dec .f32 false (srcLane s m l).toNat) (hvals ▸ List.mem_map.2 ⟨l, hl, rfl⟩)
    rw [← hext] at hb
    rw [numCond_le_iff (ordered_dec (hnum l hl)) (ordered_dec (hnum k hk)), numCond_le_iff (ordered_dec (hnum k hk)) (ordered_dec (hnum l hl))]
    exact hb

end

end Sys2Proof
end

section

namespace Sys2Proof

open Sys2Proof.Machine Sys2Proof.Claim

/-! ## The table, the scale maximum, and the obligation on triggers (R96 to R109) -/

/-! ### The table (R103) -/

theorem lutAt_nan (entry : Nat → Nat) {x : BitVec 32} (h : isNan32 x = true) : lutAt entry x.toNat = 0x7FC00000 := by
  unfold lutAt
  rw [dec_of_isNan32 h]
  rfl

/-- The points of the table at which no two entries are mixed. -/
theorem lutAt_points (entry : Nat → Nat) {x : BitVec 32} {n : Nat}
    (h : (x, n) ∈ [((0xFF800000 : BitVec 32), 0), (0x7F800000, 255), (0xC1000000, 0), (0, 128), (0x3F800000, 144), (0x41000000, 255)]) :
    lutAt entry x.toNat = entry n := by
  simp only [List.mem_cons, Prod.mk.injEq, List.not_mem_nil, or_false] at h
  rcases h with ⟨rfl, rfl⟩ | ⟨rfl, rfl⟩ | ⟨rfl, rfl⟩ | ⟨rfl, rfl⟩ | ⟨rfl, rfl⟩ | ⟨rfl, rfl⟩ <;> rfl

section

variable {m : Mv} {s : State} (hm : Moves m s) (hty : OpType s m .f32)

include hm hty

/-- LUT (R103). -/
theorem sfuLut_computes (hb : m.lane ≠ .bcast) :
    ∃ g : Nat → BitVec 32, Computes m s (.sfuLut m) 4 32 0 (fun l => (g l, .none)) ∧
      let y (n : Nat) : BitVec 32 := Tab.get 0 (Tab.get ⟨[], none⟩ (curTile s).luts (lutMap (rxImage s (curRx s)) (m.imm.toNat % 4))).entries n
      (∀ l < 16, isNan32 (srcLane s m l) = true → g l = 0x7FC00000) ∧
      ∀ x n, (x, n) ∈ [((0xFF800000 : BitVec 32), 0), (0x7F800000, 255), (0xC1000000, 0), (0, 128), (0x3F800000, 144), (0x41000000, 255)] →
        ∀ l < 16, srcLane s m l = x → g l = canonical (y n) := by
  refine ⟨fun l => BitVec.ofNat 32 (lutFn (fun i => (Tab.get (0 : BitVec 32) (Tab.get ⟨[], none⟩ (curTile s).luts
    (lutMap (rxImage s (curRx s)) (m.imm.toNat % 4))).entries i).toNat) (srcLane s m l).toNat), ?_, fun l _ hn => ?_, fun x n hx l _ hl => ?_⟩
  · refine computes_of_laneWise hm (unit := 3) (fop := 8) (op := sfuTable) (fun _ => rfl)
      ((sfuTable_eq _).trans (onType_allowed 3 _ (curCtx_ty hty) (by decide))) fun l hl => ?_
    rw [laneOf512_curCtx_val hm hl, curCtx_imm s hb, bits_from_zero]
    rfl
  · exact congrArg (BitVec.ofNat 32) (lutAt_nan _ hn)
  · dsimp only
    rw [hl, lutFn, lutAt_points _ hx]
    exact congrArg Prod.fst (asBits_canonF32 _)

/-- The functions (R102). -/
theorem sfu_computes {i : Instr} {tab : List (BitVec 32 × BitVec 32 × Cnd)} (h : (i, tab) ∈ sfuTriggers m) :
    ∃ g : Nat → BitVec 32 × Cnd, Computes m s i 4 32 0 g ∧
      (∀ x r c l, (x, r, c) ∈ tab → l < 16 → srcLane s m l = x → g l = (r, c)) ∧
      ∀ l < 16, isNan32 (srcLane s m l) = true → g l = (0x7FC00000, .none) := by
  obtain ⟨fop, hi, htab⟩ := sfuTriggers_special h
  refine ⟨fun l => asBits 32 (sfuLane fop (srcLane s m l).toNat), ?_, fun x r c l hx _ hl => ?_, fun l _ hn => asBits_sfuLane_nan fop hn⟩
  · refine computes_of_laneWise hm (unit := 3) hi (onType_allowed 3 _ (curCtx_ty hty) (by decide)) fun l hl => ?_
    rw [laneOf512_curCtx_val hm hl]
  · dsimp only
    rw [hl]
    exact htab _ hx

end

/-! ### The scale maximum (R106, R181) -/

/-- What the greatest magnitude of some values is: none without a finite value other than zero, else one's that no other passes. -/
structure Greatest (l : List Machine.Num) (a : Option Frac) : Prop where
  none : a = .none → ∀ x, .real x ∉ l
  some : ∀ b, a = .some b → ∃ x, .real x ∈ l ∧ b = fracAbs x ∧ ∀ y, .real y ∈ l → |ratio y| ≤ |ratio x|

theorem ratio_fracAbs (x : Frac) : ratio (fracAbs x) = |ratio x| := by
  unfold ratio fracAbs
  rw [abs_div, Nat.abs_cast, Int.natCast_natAbs, Int.cast_abs]

theorem greatestMag_append (l : List Machine.Num) (v : Machine.Num) :
    greatestMag (l ++ [v]) = match v, greatestMag l with
      | .real x, none => some (fracAbs x)
      | .real x, some a => if fracLt a (fracAbs x) then some (fracAbs x) else some a
      | _, a => a := by
  unfold greatestMag
  rw [List.foldl_append]
  rfl

theorem greatest_greatestMag {l : List Machine.Num} (hd : ∀ x, .real x ∈ l → 0 < x.den) : Greatest l (greatestMag l) := by
  induction l using List.reverseRecOn with
  | nil => exact ⟨fun _ _ => List.not_mem_nil, fun b h => by cases h⟩
  | append_singleton l v ih =>
    have ih := ih fun x hx => hd x (List.mem_append_left _ hx)
    rw [greatestMag_append]
    have hkeep : (∀ x, v ≠ .real x) → Greatest (l ++ [v]) (greatestMag l) := fun hv => by
      have hmem : ∀ x, .real x ∈ l ++ [v] ↔ .real x ∈ l := fun x => by
        rw [List.mem_append, List.mem_singleton, or_iff_left fun h => hv x h.symm]
      exact ⟨fun h x => (hmem x).not.2 (ih.none h x), fun b h => by simpa only [hmem] using ih.some b h⟩
    cases v with
    | real x =>
      have hlast : Machine.Num.real x ∈ l ++ [.real x] := List.mem_append_right _ List.mem_cons_self
      have hmem : ∀ y, .real y ∈ l ++ [.real x] → .real y ∈ l ∨ y = x := fun y hy =>
        (List.mem_append.1 hy).imp_right fun h => by simpa using h
      cases hg : greatestMag l with
      | none =>
        refine ⟨fun h => by (cases h), fun b hb => ?_⟩
        obtain rfl := Option.some.inj hb
        exact ⟨x, hlast, rfl, fun y hy => ((hmem y hy).resolve_left (ih.none hg y)) ▸ le_rfl⟩
      | some a =>
        obtain ⟨z, hz, rfl, hmax⟩ := ih.some a hg
        have hlt := fracLt_iff (x := fracAbs z) (y := fracAbs x) (hd z (List.mem_append_left _ hz)) (hd x hlast)
        rw [ratio_fracAbs, ratio_fracAbs] at hlt
        dsimp only
        by_cases h : |ratio z| < |ratio x|
        · rw [if_pos (hlt.2 h)]
          refine ⟨fun h => by (cases h), fun b hb => ?_⟩
          obtain rfl := Option.some.inj hb
          refine ⟨x, hlast, rfl, fun y hy => ?_⟩
          rcases hmem y hy with hy | rfl
          · exact (hmax y hy).trans h.le
          · exact le_rfl
        · rw [if_neg (hlt.not.2 h)]
          refine ⟨fun h => by (cases h), fun b hb => ?_⟩
          obtain rfl := Option.some.inj hb
          refine ⟨z, List.mem_append_left _ hz, rfl, fun y hy => ?_⟩
          rcases hmem y hy with hy | rfl
          · exact hmax y hy
          · exact not_lt.1 h
    | zero n => exact hkeep fun x h => by cases h
    | inf n => exact hkeep fun x h => by cases h
    | nan => exact hkeep fun x h => by cases h
    | nar => exact hkeep fun x h => by cases h

/-- The values of binary32 codes of one magnitude have one representation. -/
theorem dec_real {x : BitVec 32} {q : Frac} (h : dec .f32 false x.toNat = .real q) :
    ∃ neg k, q = withSign neg (floatMag f32Fmt k) := by
  have hn : isNan32 x = false := by rw [← numIsNan_dec, h]; rfl
  obtain ⟨neg, k, -, ⟨-, hd⟩ | ⟨-, hd⟩ | ⟨-, -, hd⟩⟩ := dec_cases hn <;> rw [h] at hd
  · cases hd
  · cases hd
  · exact ⟨neg, k, Machine.Num.real.inj hd⟩

theorem fracAbs_unique {x y : BitVec 32} {p q : Frac} (hp : dec .f32 false x.toNat = .real p) (hq : dec .f32 false y.toNat = .real q)
    (h : |ratio p| = |ratio q|) : fracAbs p = fracAbs q := by
  obtain ⟨n, j, rfl⟩ := dec_real hp
  obtain ⟨n', k, rfl⟩ := dec_real hq
  rw [← ratio_fracAbs, ← ratio_fracAbs] at h
  rw [fracAbs_withSign n (floatMag_num_nonneg ..), fracAbs_withSign n' (floatMag_num_nonneg ..)] at *
  rw [(magOf_strictMono f32Fmt).injective h]

section

variable {m : Mv} {s : State} (hm : Moves m s) (hty : OpType s m .f32)

include hm hty

/-- The scale maximum (R106): the code that the greatest magnitude gives, 0x7C without one. -/
theorem redScaleMax_codes (hb : m.lane ≠ .bcast) {ty : Ty} {j : Nat} (hj : j < 8) (himm : m.imm.toNat = ty.code + j * 16) :
    ∃ t code, exec (.redScaleMax m) s = .next t ∧ MovedOn s t ∧ (∀ k, k ≠ 7 → port t k = port s k) ∧
      (∀ e < 64, (port t 7).extractLsb' (8 * e) 8 = if e = j then BitVec.ofNat 8 code else (port s 7).extractLsb' (8 * e) 8) ∧
      ((∀ l ∈ selected m, ∀ x, dec .f32 false (srcLane s m l).toNat ≠ .real x) → code = 0x7C) ∧
      (∀ k ∈ selected m, ∀ x, dec .f32 false (srcLane s m k).toNat = .real x →
        (∀ l ∈ selected m, ∀ y, dec .f32 false (srcLane s m l).toNat = .real y → |ratio y| ≤ |ratio x|) →
        code = encScale (.real (fracDiv (fracAbs x) (maxF ty))) .rup) := by
  obtain ⟨vals, hvals⟩ : ∃ vals, vals = (selected m).map fun l => dec .f32 false (srcLane s m l).toNat := ⟨_, rfl⟩
  have hop : redScale (curCtx s m) = (0, plainOut (setElem512 (port s 7) 8 j (blockScale ty .rup vals))) := by
    unfold redScale
    rw [onType_allowed 5 _ (curCtx_ty hty) (by decide), curCtx_imm s hb, bits_type himm, bits_part himm hj, ofCode_code, Option.getD_some,
      scaleMaxOut, show (curCtx s m).lanes = laneMask m.lane from rfl, selLanes_curCtx hm, List.map_map, hvals]
    rfl
  have hreal : ∀ x, .real x ∈ vals → ∃ l ∈ selected m, dec .f32 false (srcLane s m l).toNat = .real x := fun x hx => by
    rw [hvals] at hx
    exact List.mem_map.1 hx
  have hmem : ∀ l ∈ selected m, ∀ x, dec .f32 false (srcLane s m l).toNat = .real x → .real x ∈ vals := fun l hl x hx => by
    rw [hvals, ← hx]
    exact List.mem_map_of_mem hl
  have hgreat := greatest_greatestMag (l := vals) fun x hx => by
    obtain ⟨l, -, hd⟩ := hreal x hx
    obtain ⟨n, k, rfl⟩ := dec_real hd
    rw [withSign_den]
    exact floatMag_den_pos ..
  refine ⟨_, blockScale ty .rup vals, exec_trigger (unit := 5) (fop := 2) (op := redScale) (fun _ => rfl) hm, movedOn_trigger hm, fun k hk => ?_,
    fun e he => ?_, fun hnone => ?_, fun k hk x hx hmax => ?_⟩
  · exact (port_trigger_onward k).trans (if_neg hk)
  · rw [show port _ 7 = _ from (port_trigger_onward 7).trans (if_pos rfl), hop]
    exact extract_setElem512 _ _ _ (by omega)
  · unfold blockScale
    cases hg : greatestMag vals with
    | none => rfl
    | some a =>
      obtain ⟨x, hx, -⟩ := hgreat.some a hg
      obtain ⟨l, hl, hd⟩ := hreal x hx
      exact absurd hd (hnone l hl x)
  · unfold blockScale
    cases hg : greatestMag vals with
    | none => exact absurd (hmem k hk x hx) (hgreat.none hg x)
    | some a =>
      obtain ⟨z, hz, rfl, hzmax⟩ := hgreat.some a hg
      obtain ⟨l, hl, hd⟩ := hreal z hz
      dsimp only
      rw [fracAbs_unique hd hx (le_antisymm (hmax l hl z hd) (hzmax x (hmem k hk x hx)))]

end

/-! ### The obligation -/

section

variable {m : Mv} {s : State} (hm : Moves m s)

include hm

/-- MULS without scales, with them, and where they have not come (R59, R101). -/
theorem muls_cases (hty : OpType s m .f32) {n : Nat} (hn : m.src = .inp n) {v : InState} (hv : v = Tab.get InState.reset (curRx s).ins n) :
    (v.sm = 0 → Computes m s (.mulMuls m) 3 32 0 fun l => (canonical (srcLane s m l), .none)) ∧
    (v.sm ≠ 0 → v.latched = true → Computes m s (.mulMuls m) 3 32 0 fun l =>
      rounded (sv .f32 (srcLane s m l).toNat (v.codes.extractLsb' 0 8).toNat, .none)) ∧
    (v.sm ≠ 0 → v.latched = false → Signals s (.mulMuls m) 6 ∧ Signals s (.cvtDeq m) 6) := by
  refine ⟨fun h0 => computes_muls hm hn hv hty (.inl h0) fun l => ?_, fun h0 hl => computes_muls hm hn hv hty (.inr hl) fun l => ?_,
    unlatched_signals hm hn hv⟩
  · rw [if_pos h0]
    exact asBits_canonF32 _
  · rw [if_neg h0]
    exact asBits_f32Result _

end

/-- Settles O50: each trigger by its unit's rule on a lane, carried to the result port and the conditions of its lanes. -/
theorem triggersComputeOnTheirLanes : Obligations.TriggersComputeOnTheirLanes := by
  intro m s hm im kon fl imm sel
  refine ⟨fun i o r f h hk hty => floatTriggers_compute hm hty h hk, fun ty sg ht hty => ?_, fun hty => ?_,
    fun ty hne hty => type_refused hm hty hne, fun i o r f h hk => rawTriggers_compute hm h hk, fun src dst hty p hp hb himm => ?_,
    fun n src p v hn hv hty hp hb himm hpart hcodes => computes_deq hm hn hv hb hty hp himm hpart hcodes, redCnt_counts hm, fun hb => ?_⟩
  · exact ⟨fun i o r f h hk => intTriggers_compute hm ht hty h hk, computes_mulDiv_int hm ht hty,
      fun i c h => compareTriggers_compute hm hty (code_of_intType ht) h fun l => asBits_compareLane_int ht c _ _,
      redSum_int hm ht hty, redMin_int hm ht hty, redMax_int hm ht hty⟩
  · exact ⟨fun i c h => compareTriggers_compute hm hty (by decide) h fun l => asBits_compareLane_f32 c _ _,
      fun i tab h => sfu_computes hm hty h, fun hb => sfuLut_computes hm hty hb, fun n hn v hv => muls_cases hm hty hn hv,
      fun ty h1 h6 p hp hb himm hpart => computes_qnt hm hb hty h1 h6 hp himm hpart, redSum_f32 hm hty,
      fun i hi h => redExtreme_f32 hm hty h, fun ty _ _ j hj hb himm => redScaleMax_codes hm hty hb hj himm⟩
  · exact ⟨computes_cvt hm hb hty hp himm, cvt_signals hm hb hty hp himm⟩
  · exact ⟨fun v rest h => redMerge_result hm hb h, redMerge_faults hm hb⟩

end Sys2Proof
end

section

namespace Sys2Proof

open Sys2Proof.Machine Sys2Proof.Claim

/-! ## Vector words that write a group (R19, R39, R168, R170, R171) -/

/-! ### Elements of a vector register (R39) -/

theorem testBit_packElems (w : Nat) (l : List Nat) {j : Nat} (i : Nat) (hj : j < w) :
    (packElems w l).testBit (w * i + j) = (l.getD i 0).testBit j := by
  have h := congrArg (Nat.testBit · j) (packElems_elem w l i)
  simpa only [Nat.testBit_mod_two_pow, Nat.testBit_div_two_pow, hj, decide_true, Bool.true_and, Nat.add_comm j] using h

theorem testBit_elemOf (v : BitVec 1024) {w j : Nat} (e : Nat) (hj : j < w) : (elemOf v w e).testBit j = v.getLsbD (w * e + j) := by
  rw [elemOf, Nat.testBit_mod_two_pow, Nat.testBit_div_two_pow, decide_eq_true hj, Bool.true_and, Nat.add_comm j]
  rfl

theorem toNat_extract_elemOf (v : BitVec 1024) (w e : Nat) : (v.extractLsb' (w * e) w).toNat = elemOf v w e := by
  rw [BitVec.extractLsb'_toNat, Nat.shiftRight_eq_div_pow, elemOf]

/-- An element's bits lie inside the register. -/
theorem element_inside {w e j : Nat} (he : e < 1024 / w) (hj : j < w) : w * e + j < 1024 :=
  calc w * e + j < w * (e + 1) := by rw [Nat.mul_succ]; omega
    _ ≤ w * (1024 / w) := Nat.mul_le_mul_left _ he
    _ ≤ 1024 := Nat.mul_div_le ..

theorem extract_ofNat_packElems {w e : Nat} (l : List Nat) (he : e < 1024 / w) :
    (BitVec.ofNat 1024 (packElems w l)).extractLsb' (w * e) w = BitVec.ofNat w (l.getD e 0) := by
  refine BitVec.eq_of_getLsbD_eq fun j hj => ?_
  simp only [BitVec.getLsbD_extractLsb', BitVec.getLsbD_ofNat, hj, element_inside he hj, decide_true, Bool.true_and]
  exact testBit_packElems w l e hj

theorem extract_packReg {w e : Nat} (f : Nat → Nat) (he : e < 1024 / w) : (packReg w f).extractLsb' (w * e) w = BitVec.ofNat w (f e) := by
  rw [packReg, extract_ofNat_packElems _ he, List.getD_eq_getElem?_getD, List.getElem?_map, elemsPer, List.getElem?_range he]
  rfl

/-- A lane mask decides bit by bit (R19). -/
theorem getLsbD_maskLanes (mask : BitVec 32) (zl : Bool) (old new : BitVec 1024) {k : Nat} (hk : k < 1024) :
    (maskLanes mask zl old new).getLsbD k =
      if mask.getLsbD (k / 32) then new.getLsbD k else if zl then false else old.getLsbD k := by
  have hd : 32 * (k / 32) + k % 32 = k := Nat.div_add_mod k 32
  have hm : k % 32 < 32 := Nat.mod_lt _ (by decide)
  have hl : k / 32 < 32 := by omega
  have hbit := testBit_packElems 32 ((List.range 32).map fun i =>
    if mask.getLsbD i then elemOf new 32 i else if zl then 0 else elemOf old 32 i) (k / 32) hm
  rw [hd, List.getD_eq_getElem?_getD, List.getElem?_map, List.getElem?_range hl, Option.map_some, Option.getD_some] at hbit
  rw [maskLanes, BitVec.getLsbD_ofNat, decide_eq_true hk, Bool.true_and, hbit]
  split_ifs
  · rw [testBit_elemOf _ _ hm, hd]
  · exact Nat.zero_testBit _
  · rw [testBit_elemOf _ _ hm, hd]

/-- The elements of a lane share its fate, where the width divides a lane (R19, R168). -/
theorem extract_maskLanes {w e : Nat} (hw : w ∣ 32) (mask : BitVec 32) (zl : Bool) (old new : BitVec 1024) (he : e < 1024 / w) :
    (maskLanes mask zl old new).extractLsb' (w * e) w =
      if mask.getLsbD (w * e / 32) then new.extractLsb' (w * e) w else if zl then 0 else old.extractLsb' (w * e) w := by
  obtain ⟨c, hc⟩ := hw
  refine BitVec.eq_of_getLsbD_eq fun j hj => ?_
  have hlane : (w * e + j) / 32 = w * e / 32 := by
    rw [hc, ← Nat.div_div_eq_div_mul, ← Nat.div_div_eq_div_mul, Nat.mul_add_div (by omega), Nat.div_eq_of_lt hj,
      Nat.mul_div_cancel_left _ (by omega), Nat.add_zero]
  rw [BitVec.getLsbD_extractLsb', decide_eq_true hj, Bool.true_and, getLsbD_maskLanes _ _ _ _ (element_inside he hj), hlane]
  split_ifs
  · simp [hj]
  · simp
  · simp [hj]

/-! ### Source groups (R21, R22) -/

/-- A literal in every element of a register. -/
theorem foldl_replicates (w x n : Nat) (hx : x < 2 ^ w) :
    (List.range n).foldl (fun acc _ => acc * 2 ^ w + x) 0 = packElems w (List.replicate n x) := by
  induction n with
  | zero => rfl
  | succ n ih =>
    rw [List.range_succ, List.foldl_append, ih, List.replicate_succ, packElems, Nat.mod_eq_of_lt hx]
    simp only [List.foldl_cons, List.foldl_nil]
    ring

theorem extract_literal {w e x : Nat} (hx : x < 2 ^ w) (he : e < 1024 / w) :
    (BitVec.ofNat 1024 ((List.range (1024 / w)).foldl (fun acc _ => acc * 2 ^ w + x) 0)).extractLsb' (w * e) w = BitVec.ofNat w x := by
  rw [foldl_replicates w x _ hx, extract_ofNat_packElems _ he, List.getD_eq_getElem?_getD, List.getElem?_replicate, if_pos he]
  rfl

/-- An element of a source register is the element of its group (R21, R39). -/
theorem extract_srcReg (s : State) {w e : Nat} (o : Opnd) (j : Nat) (he : e < 1024 / w) :
    (srcReg s w o j).extractLsb' (w * e) w = vsrc w s o j e := by
  have hz : (0 : BitVec 1024).extractLsb' (w * e) w = 0 := BitVec.extractLsb'_zero ..
  cases o with
  | v n => exact congrArg (fun k => (Tab.get 0 (curTile s).vregs k).extractLsb' (w * e) w) rfl
  | lit v =>
    unfold srcReg readV vsrc
    dsimp only
    split
    next h =>
      subst h
      exact (extract_literal v.isLt he).trans (by rw [BitVec.ofNat_toNat])
    next =>
      refine (extract_literal (Nat.mod_lt _ (Nat.two_pow_pos w)) he).trans (BitVec.eq_of_toNat_eq ?_)
      simp
  | _ => exact hz

/-! ### What a vector word leaves alone -/

/-- A field of a tile that stands outside its sets survives a change of a set. -/
theorem getTile_modSet_field {α : Type} (P : Tile → α) (hP : ∀ x i c, P (putTileSet x i c) = P x) (s : State) (tile set u : Nat)
    (f : CtxSet → CtxSet) : P (getTile (modSet s tile set f) u) = P (getTile s u) := by
  by_cases hu : u = tile
  · subst hu
    unfold modSet setSet
    rw [getTile_modTile_same, hP]
  · exact congrArg P (getTile_modTile_other s _ hu)

theorem putTileSet_vregs (t : Tile) (i : Nat) (c : CtxSet) : (putTileSet t i c).vregs = t.vregs := by
  unfold putTileSet; split <;> rfl

theorem putTileSet_acc (t : Tile) (i : Nat) (c : CtxSet) : (putTileSet t i c).acc = t.acc := by
  unfold putTileSet; split <;> rfl

/-- Two states that differ, of what a vector word may reach, in vector registers alone. -/
structure VecUnmoved (s t : State) : Prop where
  focus  : t.focus = s.focus
  mem    : t.mem = s.mem
  reqs   : t.reqs = s.reqs
  sp     : (curTile t).sp = (curTile s).sp
  acc    : (curTile t).acc = (curTile s).acc
  thread : curThread t = curThread s
  ilen   : (curSet t).ilen = (curSet s).ilen
  vbase  : (curSet t).vbase = (curSet s).vbase

theorem VecUnmoved.refl (s : State) : VecUnmoved s s := ⟨rfl, rfl, rfl, rfl, rfl, rfl, rfl, rfl⟩

theorem VecUnmoved.trans {s t u : State} (h : VecUnmoved s t) (k : VecUnmoved t u) : VecUnmoved s u :=
  ⟨k.focus.trans h.focus, k.mem.trans h.mem, k.reqs.trans h.reqs, k.sp.trans h.sp, k.acc.trans h.acc, k.thread.trans h.thread,
    k.ilen.trans h.ilen, k.vbase.trans h.vbase⟩

/-- Two such states with the same vector registers. -/
structure VecFrame (s t : State) : Prop extends VecUnmoved s t where
  vregs : (curTile t).vregs = (curTile s).vregs

theorem VecFrame.refl (s : State) : VecFrame s s := ⟨.refl s, rfl⟩

theorem VecFrame.trans {s t u : State} (h : VecFrame s t) (k : VecFrame t u) : VecFrame s u :=
  ⟨h.toVecUnmoved.trans k.toVecUnmoved, k.vregs.trans h.vregs⟩

theorem VecFrame.vreg {s t : State} (h : VecFrame s t) (n : Nat) : vreg t n = vreg s n := by
  unfold Claim.vreg
  rw [h.vregs, h.vbase]

theorem vecFrame_modCurSet (s : State) {f : CtxSet → CtxSet} (ht : ∀ c, (f c).threads = c.threads) (hi : ∀ c, (f c).ilen = c.ilen)
    (hv : ∀ c, (f c).vbase = c.vbase) : VecFrame s (modCurSet s f) where
  focus  := rfl
  mem    := rfl
  reqs   := rfl
  sp     := getTile_modSet_sp ..
  acc    := getTile_modSet_field _ putTileSet_acc ..
  thread := getThread_modSet ht ..
  ilen   := by rw [curSet_modCurSet, hi]
  vbase  := by rw [curSet_modCurSet, hv]
  vregs  := getTile_modSet_field _ putTileSet_vregs ..

theorem vecFrame_markRestart (w : TWord) (s : State) : VecFrame s (markRestart w s) := by
  unfold markRestart
  dsimp only
  split
  · exact vecFrame_modCurSet s (fun _ => rfl) (fun _ => rfl) fun _ => rfl
  · exact .refl s

theorem vecFrame_vectorDone (s : State) : VecFrame s (vectorDone s) := by
  unfold vectorDone clearResume
  split
  · exact vecFrame_modCurSet s (fun _ => rfl) (fun _ => rfl) fun _ => rfl
  · refine VecFrame.trans (t := modCurSet s fun c => { c with vprog := 0 }) ?_ ?_ <;>
      exact vecFrame_modCurSet _ (fun _ => rfl) (fun _ => rfl) fun _ => rfl

/-- The restart snapshot leaves the register at which a group word begins (R135, R171). -/
theorem startReg_markRestart (w : TWord) (s : State) : startReg (markRestart w s) = vstart s := by
  have h : startReg (markRestart w s) = startReg s := by
    unfold markRestart
    dsimp only
    split
    · unfold startReg
      rw [curSet_modCurSet]
      rfl
    · rfl
  rw [h, startReg, vstart]
  simp only [List.contains_iff_mem]

/-- The lanes of a word's guard (R19). -/
theorem guardMask_lane (w : TWord) (s : State) {l : Nat} (h : l < 32) : (guardMask (curThread s) w.guard).getLsbD l = laneOn w s l := by
  unfold guardMask laneOn
  cases w.guard with
  | always => exact (BitVec.getLsbD_allOnes (v := 32) (i := l)).trans (decide_eq_true h)
  | whenTrue n => rfl
  | whenFalse n => simp [h]

/-! ### A group written register by register (R170) -/

section

variable (s : State) (n j : Nat) (v : BitVec 1024)

theorem curTile_writeV : curTile (writeV s (.v n) j v) = { curTile s with vregs := Tab.set (curTile s).vregs ((curSet s).vbase + (n + j)) v } :=
  getTile_modTile_same ..

theorem curSet_writeV : curSet (writeV s (.v n) j v) = curSet s :=
  (congrArg (tileSet · s.focus.set) (curTile_writeV s n j v) :)

theorem vecUnmoved_writeV : VecUnmoved s (writeV s (.v n) j v) where
  focus  := rfl
  mem    := rfl
  reqs   := rfl
  sp     := by rw [curTile_writeV]
  acc    := by rw [curTile_writeV]
  thread := (congrArg (setThread? · s.focus.thr) (curSet_writeV s n j v) :)
  ilen   := by rw [curSet_writeV]
  vbase  := by rw [curSet_writeV]

end

/-- The registers of a group from `start` below `k` have been given the values of `g`; nothing else that a vector word may reach
has changed. -/
structure GroupWritten (s : State) (n start k : Nat) (g : Nat → BitVec 1024) (t : State) : Prop extends VecUnmoved s t where
  regs : ∀ r, Tab.get 0 (curTile t).vregs r =
    if (curSet s).vbase + n + start ≤ r ∧ r < (curSet s).vbase + n + k then g (r - ((curSet s).vbase + n))
    else Tab.get 0 (curTile s).vregs r

section

variable {s t : State} {n start k : Nat} {g : Nat → BitVec 1024}

theorem groupWritten_none (s : State) (n start : Nat) (g : Nat → BitVec 1024) : GroupWritten s n start 0 g s :=
  ⟨.refl s, fun _ => (if_neg (by omega)).symm⟩

/-- A register of the group before it is written. -/
theorem GroupWritten.vreg_later (h : GroupWritten s n start k g t) {m : Nat} (hm : m < n ∨ n + k ≤ m) : vreg t m = vreg s m := by
  unfold vreg
  rw [h.vbase, h.regs, if_neg (by omega)]

theorem GroupWritten.skip (h : GroupWritten s n start k g t) (hk : k < start) : GroupWritten s n start (k + 1) g t :=
  ⟨h.toVecUnmoved, fun r => by rw [h.regs, if_neg (by omega), if_neg (by omega)]⟩

theorem GroupWritten.write (h : GroupWritten s n start k g t) (hk : start ≤ k) : GroupWritten s n start (k + 1) g (writeV t (.v n) k (g k)) := by
  refine ⟨h.toVecUnmoved.trans (vecUnmoved_writeV ..), fun r => ?_⟩
  rw [curTile_writeV, Tab.get_set, h.regs, h.vbase]
  by_cases hr : r = (curSet s).vbase + (n + k)
  · subst hr
    rw [if_pos rfl, if_pos (by omega), show (curSet s).vbase + (n + k) - ((curSet s).vbase + n) = k by omega]
  · rw [if_neg hr]
    exact if_congr (by omega) rfl rfl

/-- A group written register by register: each value may be read off the state in which the ones before it are written (R170). -/
theorem groupWritten_foldl {step : State → Nat → State} (len : Nat)
    (h : ∀ t j, GroupWritten s n start j g t → start ≤ j → j < len → step t j = writeV t (.v n) j (g j)) :
    GroupWritten s n start len g (((List.range len).filter fun j => start ≤ j).foldl step s) := by
  induction len with
  | zero => exact groupWritten_none ..
  | succ k ih =>
    have hk := ih fun t j ht hs hj => h t j ht hs (by omega)
    rw [List.range_succ, List.filter_append, List.foldl_append]
    by_cases hs : start ≤ k
    · rw [List.filter_cons_of_pos (by simpa using hs), List.filter_nil, List.foldl_cons, List.foldl_nil, h _ _ hk hs k.lt_succ_self]
      exact hk.write hs
    · rw [List.filter_cons_of_neg (by simpa using hs)]
      exact hk.skip (by omega)

theorem GroupWritten.vreg_group (h : GroupWritten s n start k g t) {j : Nat} (hj : j < k) :
    vreg t (n + j) = if start ≤ j then g j else vreg s (n + j) := by
  unfold vreg
  rw [h.vbase, h.regs, show (curSet s).vbase + (n + j) - ((curSet s).vbase + n) = j by omega]
  exact if_congr (by omega) rfl rfl

theorem GroupWritten.vregs_outside (h : GroupWritten s n start k g t) {r : Nat}
    (hr : ¬((curSet s).vbase + n ≤ r ∧ r < (curSet s).vbase + n + k)) : Tab.get 0 (curTile t).vregs r = Tab.get 0 (curTile s).vregs r := by
  rw [h.regs, if_neg (by omega)]

end

/-- A source register of a word whose groups are equal or apart stands until its own turn (R18, R170). -/
theorem srcReg_of_groupWritten {w : TWord} (hg : GroupsApart w) {s t : State} {n start j : Nat} {g : Nat → BitVec 1024} (hd : w.d = .v n)
    (h : GroupWritten s n start j g t) (hj : j < groupLen w) {o : Opnd} (ho : o ∈ [w.a, w.b, w.c]) (wd : Nat) :
    srcReg t wd o j = srcReg s wd o j := by
  cases o with
  | v m =>
    have hapart := hg _ ho
    rw [hd] at hapart
    exact h.vreg_later (m := m + j) (by omega)
  | _ => rfl

/-! ### Words that work element by element (R168, R176) -/

theorem runVector_done {w : TWord} {s t : State} {eff : BitVec 32 → State → Res}
    (h : eff (guardMask (curThread s) w.guard) (markRestart w s) = .done t) :
    runVector w s eff = goPc t ((curThread s).pc + 1) false := by
  unfold runVector finishWord
  simp only [h, curThread_markRestart]

/-- The next word follows a vector word that is done. -/
theorem goPc_vector {s t : State} (h : VecUnmoved s t) (hr : VRuns s) :
    ∃ f : Thread → Thread, goPc t ((curThread s).pc + 1) false = modCurThread t f ∧ (∀ x, (f x).s = x.s) ∧ (∀ x, (f x).p = x.p) ∧
      (∀ x, (f x).pc = (curThread s).pc + 1) ∧ ∀ x, (f x).st = .run := by
  obtain ⟨hredo, hin⟩ := hr
  unfold NextInside at hin
  refine ⟨_, goPc_inside false (by rw [h.thread, hredo]) (by omega) (by rw [h.ilen]; omega), fun _ => rfl, fun _ => rfl, fun _ => ?_, fun _ => rfl⟩
  exact Int.toNat_natCast ((curThread s).pc + 1)

/-- What a vector word that ends in `t` leaves alone. -/
theorem vFrame_of_unmoved {w : TWord} {s t : State} {f : Thread → Thread} (h : VecUnmoved s t) (hs : ∀ x, (f x).s = x.s) (hp : ∀ x, (f x).p = x.p)
    (hpc : ∀ x, (f x).pc = (curThread s).pc + 1) (hst : ∀ x, (f x).st = .run)
    (hv : ∀ r, (∀ n, w.d = .v n → ¬((curSet s).vbase + n ≤ r ∧ r < (curSet s).vbase + n + groupLen w)) →
      Tab.get 0 (curTile t).vregs r = Tab.get 0 (curTile s).vregs r) : VFrame w s (modCurThread t f) := by
  refine ⟨h.mem, h.reqs, (getTile_modSet_sp ..).trans h.sp, (getTile_modSet_field _ putTileSet_acc ..).trans h.acc, ?_, ?_,
    fun k _ => ?_, fun k _ => ?_, fun r hr => ?_⟩
  · rw [curThread_modCurThread, hpc]
  · rw [curThread_modCurThread, hst]
  · rw [curThread_modCurThread, hs, h.thread]
  · rw [curThread_modCurThread, hp, h.thread]
  · exact (congrArg (Tab.get 0 · r) (getTile_modSet_field _ putTileSet_vregs ..)).trans (hv r hr)

/-- The element of a word that works element by element, as its operation gives it. -/
def elementOf (w : TWord) (s : State) (wd : Nat) (f : Nat → Nat → Nat → Nat) (j e : Nat) : BitVec wd :=
  BitVec.ofNat wd (f (vsrc wd s w.a j e).toNat (vsrc wd s w.b j e).toNat (vsrc wd s w.c j e).toNat)

/-- Register `j` of such a word's result before its mask. -/
def elementReg (w : TWord) (s : State) (f : Nat → Nat → Nat → Nat) (j : Nat) : BitVec 1024 :=
  let n := (modTy w.modf).width
  packReg n fun e => f (elemOf (srcReg s n w.a j) n e) (elemOf (srcReg s n w.b j) n e) (elemOf (srcReg s n w.c j) n e)

theorem extract_elementReg (w : TWord) (s : State) (f : Nat → Nat → Nat → Nat) (j : Nat) {wd e : Nat} (hw : (modTy w.modf).width = wd)
    (he : e < 1024 / wd) : (elementReg w s f j).extractLsb' (wd * e) wd = elementOf w s wd f j e := by
  subst hw
  unfold elementReg elementOf
  simp only [extract_packReg _ he, ← toNat_extract_elemOf, extract_srcReg s _ j he]

theorem VecFrame.srcReg {s t : State} (h : VecFrame s t) (wd : Nat) (o : Opnd) (j : Nat) : srcReg t wd o j = srcReg s wd o j := by
  cases o with
  | v m => exact h.vreg (m + j)
  | _ => rfl

/-- The result of a word that works element by element, register by register and lane by lane (R19, R170). -/
theorem groupWritten_elements {w : TWord} (hg : GroupsApart w) (s : State) (mask : BitVec 32) (f : Nat → Nat → Nat → Nat) {n : Nat} (hd : w.d = .v n) :
    GroupWritten s n (startReg s) (groupLen w) (fun j => maskLanes mask (modZl w.modf) (vreg s (n + j)) (elementReg w s f j))
      (writeGroup w mask s fun t j _ => elementReg w t f j) := by
  refine groupWritten_foldl (groupLen w) fun t j ht _ hj => ?_
  have hreg : elementReg w t f j = elementReg w s f j := by
    unfold elementReg
    simp only [srcReg_of_groupWritten hg hd ht hj (List.mem_cons_self ..), srcReg_of_groupWritten hg hd ht hj (o := w.b) (by simp),
      srcReg_of_groupWritten hg hd ht hj (o := w.c) (by simp)]
  have hold : srcReg t 32 (.v n) j = vreg s (n + j) := ht.vreg_later (m := n + j) (by omega)
  dsimp only
  rw [hd, hreg, hold]

/-- A destination that is no vector group takes nothing (R22). -/
theorem writeGroup_discards {w : TWord} (hd : ∀ n, w.d ≠ .v n) (mask : BitVec 32) (s : State) (new : State → Nat → BitVec 1024 → BitVec 1024) :
    writeGroup w mask s new = s := by
  have hv : ∀ t j v, writeV t w.d j v = t := fun t j v => by
    unfold writeV
    split
    next n h => exact absurd h (hd n)
    next => rfl
  exact foldl_keeps id _ (fun t j => hv t j _) _ s

theorem modZl_eq (m : BitVec 32) : modZl m = m.getLsbD 13 := bit_eq_testBit ..

/-- An element of a group written under the word's mask (R19, R171). -/
theorem extract_written {w : TWord} {s t : State} {f : Nat → Nat → Nat → Nat} {n j e wd : Nat}
    (h : GroupWritten s n (startReg s) (groupLen w)
      (fun j => maskLanes (guardMask (curThread s) w.guard) (modZl w.modf) (vreg s (n + j)) (elementReg w s f j)) t)
    (hw : (modTy w.modf).width = wd) (h32 : wd ∣ 32) (hj : j < groupLen w) (he : e < 1024 / wd) :
    (vreg t (n + j)).extractLsb' (wd * e) wd =
      if startReg s ≤ j ∧ laneOn w s (wd * e / 32) = true then elementOf w s wd f j e
      else if startReg s ≤ j ∧ w.modf.getLsbD 13 = true then 0 else (vreg s (n + j)).extractLsb' (wd * e) wd := by
  have hlane : wd * e / 32 < 32 := Nat.div_lt_of_lt_mul (element_inside (j := 0) he (Nat.pos_of_dvd_of_pos h32 (by decide)))
  rw [h.vreg_group hj]
  by_cases hs : startReg s ≤ j
  · simp only [hs, if_true, true_and, extract_maskLanes h32 _ _ _ _ he, guardMask_lane w s hlane, extract_elementReg w s f j hw he, modZl_eq]
  · simp only [hs, if_false, false_and]

theorem VecFrame.laneOn {s t : State} (h : VecFrame s t) (w : TWord) (l : Nat) : laneOn w t l = laneOn w s l := by
  unfold Claim.laneOn
  rw [h.thread]

theorem VecFrame.elementOf {s t : State} (h : VecFrame s t) (w : TWord) (wd : Nat) (f : Nat → Nat → Nat → Nat) (j e : Nat) :
    elementOf w t wd f j e = elementOf w s wd f j e := by
  have hsrc : ∀ o, vsrc wd t o j e = vsrc wd s o j e := fun o => by
    cases o with
    | v m => exact congrArg (BitVec.extractLsb' (wd * e) wd) (h.vreg (m + j))
    | _ => rfl
  unfold Sys2Proof.elementOf
  simp only [hsrc]

theorem elementWord_eq (w : TWord) (f : Nat → Nat → Nat → Nat) (s : State) :
    elementWord w f s = .next (goPc (vectorDone (writeGroup w (guardMask (curThread s) w.guard) (markRestart w s) fun t j _ => elementReg w t f j))
      ((curThread s).pc + 1) false) :=
  congrArg Host.Outcome.next (runVector_done (eff := fun mask s1 => .done (vectorDone (writeGroup w mask s1 fun t j _ => elementReg w t f j))) rfl)

/-- A word that works element by element writes its group so (R168, R170, R171, R176). -/
theorem elementWord_writes {w : TWord} {s : State} {i : Instr} {f : Nat → Nat → Nat → Nat} (hexec : exec i s = elementWord w f s)
    (hg : GroupsApart w) (hr : VRuns s) {wd : Nat} (hw : (modTy w.modf).width = wd) (h32 : wd ∣ 32) :
    VWrites w s i wd (elementOf w s wd f) := by
  have hm := vecFrame_markRestart w s
  obtain ⟨t, ht⟩ : ∃ t, t = writeGroup w (guardMask (curThread s) w.guard) (markRestart w s) fun t j _ => elementReg w t f j := ⟨_, rfl⟩
  have hd := vecFrame_vectorDone t
  have hwritten : ∀ n, w.d = .v n → GroupWritten (markRestart w s) n _ _ _ t := fun n hn => ht ▸ groupWritten_elements hg _ _ f hn
  have hunmoved : VecUnmoved s t := by
    by_cases hv : ∃ n, w.d = .v n
    · obtain ⟨n, hn⟩ := hv
      exact hm.toVecUnmoved.trans (hwritten n hn).toVecUnmoved
    · rw [ht, writeGroup_discards fun n hn => hv ⟨n, hn⟩]
      exact hm.toVecUnmoved
  obtain ⟨next, hnext, hS, hP, hpc, hst⟩ := goPc_vector (hunmoved.trans hd.toVecUnmoved) hr
  refine ⟨modCurThread (vectorDone t) next, ?_, vFrame_of_unmoved (hunmoved.trans hd.toVecUnmoved) hS hP hpc hst fun r hout => ?_,
    fun n hn j hj e he => ?_⟩
  · rw [hexec, ← hnext, elementWord_eq, ht]
  · rw [hd.vregs]
    by_cases hv : ∃ n, w.d = .v n
    · obtain ⟨n, hn⟩ := hv
      exact ((hwritten n hn).vregs_outside (by rw [hm.vbase]; exact hout n hn)).trans (congrArg (Tab.get 0 · r) hm.vregs)
    · rw [ht, writeGroup_discards fun n hn => hv ⟨n, hn⟩, hm.vregs]
  · have hreg : vreg (modCurThread (vectorDone t) next) (n + j) = vreg t (n + j) := by
      refine Eq.trans ?_ (hd.vreg (n + j))
      unfold vreg
      rw [curSet_modCurThread, show (curTile (modCurThread (vectorDone t) next)).vregs = _ from getTile_modSet_field _ putTileSet_vregs ..]
      rfl
    have hx := hwritten n hn
    rw [← curThread_markRestart w s] at hx
    rw [hreg, extract_written hx hw h32 hj he, startReg_markRestart, hm.vreg, hm.laneOn, hm.elementOf]

end Sys2Proof
end

section

namespace Sys2Proof

open Sys2Proof.Machine Sys2Proof.Claim

/-! ## Floating vector words (R42, R62, R102, R174, R176, R177) -/

/-! ### The fields of a floating vector word's MOD (R24, R173) -/

theorem fields_vfmod : ∀ ty ∈ [Ty.f32, .f16, .b16], ∀ rm < 4, ∀ sat ftz z : Bool, let m := vfmod ty.code rm sat ftz z
    modTy m = ty ∧ modRound m = Rm.ofCode rm ∧ modSat m = sat ∧ modFtz m = ftz := by decide

/-- The formats of a floating vector word have infinities (R40, R173). -/
theorem floatFmt_of_vector {ty : Ty} (h : ty ∈ [Ty.f32, .f16, .b16]) : ∃ fmt, floatFmt ty = some fmt ∧ ty ≠ .e4 ∧ ty.isInt = false ∧ ty.width ∣ 32 := by
  simp only [List.mem_cons, List.not_mem_nil, or_false] at h
  rcases h with rfl | rfl | rfl <;> exact ⟨_, rfl, by decide⟩

/-! ### The arithmetic (R174, R176) -/

/-- Under a floating type the element operation rounds the exact result once (R174). -/
theorem varith_float {m : BitVec 32} (h : (modTy m).isInt = false) (f : Machine.Num → Machine.Num → Machine.Num → Machine.Num)
    (g : Int → Int → Int → Int) (a b c : Nat) : varith m f g a b c = vround m (f (vdec m a) (vdec m b) (vdec m c)) := by
  unfold varith
  rw [h]
  rfl

theorem execVdiv_float {w : TWord} (h : (modTy w.modf).isInt = false) (s : State) :
    execVdiv w s = elementWord w (varith w.modf (fun x y _ => (numDiv x y).1) fun x _ _ => x) s := by
  unfold execVdiv
  simp only [h, Bool.false_eq_true, if_false]

/-- The reciprocal is the rounded quotient, with the infinities of a zero operand and the zeros of an infinite one (R102, R177). -/
theorem vfunction_rcp {m : BitVec 32} {fmt : FloatFmt} (hf : floatFmt (modTy m) = some fmt) (h4 : modTy m ≠ .e4) (x : Nat) :
    vfunction 1 m x = vround m (numDiv (.real ⟨1, 1⟩) (vdec m x)).1 := by
  unfold vfunction vround convert
  simp only [hf]
  cases vdec m x with
  | inf neg => cases neg <;> rfl
  | zero neg =>
    have hinf : ∀ b, convFloat (modTy m) fmt (modRound m) (modSat m) (modFtz m) (.inf b) = (infCode (modTy m) fmt b, .none) := fun b => if_neg h4
    cases neg <;> exact (congrArg Prod.fst (hinf _)).symm
  | _ => rfl

/-- Each floating operation computes its exact result on the decoded elements and rounds it (R174, R176). -/
theorem vecReals_elementWord {w : TWord} {fmt : FloatFmt} (hf : floatFmt (modTy w.modf) = some fmt) (h4 : modTy w.modf ≠ .e4)
    (hi : (modTy w.modf).isInt = false) {i : Instr} {f : Machine.Num → Machine.Num → Machine.Num → Machine.Num}
    (h : (i, f) ∈ vecReals w (modRound w.modf)) :
    ∃ g, (∀ s, exec i s = elementWord w g s) ∧ ∀ a b c, g a b c = vround w.modf (f (vdec w.modf a) (vdec w.modf b) (vdec w.modf c)) := by
  refine (List.forall_iff_forall_mem (l := vecReals w (modRound w.modf)) (p := fun x => ∃ g, (∀ s, exec x.1 s = elementWord w g s) ∧
    ∀ a b c, g a b c = vround w.modf (x.2 (vdec w.modf a) (vdec w.modf b) (vdec w.modf c)))).1 ?_ _ h
  have arith : ∀ (i : Instr) (ex : State → Host.Outcome State Fault Refusal) (f : Machine.Num → Machine.Num → Machine.Num → Machine.Num)
      (g : Int → Int → Int → Int), (∀ s, exec i s = ex s) → (∀ s, ex s = elementWord w (varith w.modf f g) s) →
      ∃ g, (∀ s, exec i s = elementWord w g s) ∧ ∀ a b c, g a b c = vround w.modf (f (vdec w.modf a) (vdec w.modf b) (vdec w.modf c)) :=
    fun i ex f g hi' he => ⟨_, fun s => (hi' s).trans (he s), varith_float hi f g⟩
  refine ⟨arith _ (execVadd w) _ _ (fun _ => rfl) fun _ => rfl, arith _ (execVsub w) _ _ (fun _ => rfl) fun _ => rfl,
    arith _ (execVmul w) _ _ (fun _ => rfl) fun _ => rfl, ?_, arith _ (execVfma w) _ _ (fun _ => rfl) fun _ => rfl,
    arith _ (execVfms w) _ _ (fun _ => rfl) fun _ => rfl, arith _ (execVmin w) _ _ (fun _ => rfl) fun _ => rfl,
    arith _ (execVmax w) _ _ (fun _ => rfl) fun _ => rfl, arith _ (execVabs w) _ _ (fun _ => rfl) fun _ => rfl,
    arith _ (execVneg w) _ _ (fun _ => rfl) fun _ => rfl, ?_⟩
  · exact arith _ (execVdiv w) _ _ (fun _ => rfl) (execVdiv_float hi)
  · exact ⟨fun a _ _ => vfunction 1 w.modf a, fun s => (rfl : exec (.vrcp w) s = execVrcp w s), fun a _ _ => vfunction_rcp hf h4 a⟩

/-! ### The functions in binary32 (R102, R177) -/

/-- A function of R102 on a binary32 element, rounded to the nearest code without saturation. -/
def binary32Fn (fn x : Nat) : Nat := (sfuFn fn .f32 f32Fmt .rne false false (Config.sfuFallback (fn + 8) x) (dec .f32 false x)).1

theorem vfunction_binary32 (fn : Nat) {m : BitVec 32} (hm : modTy m = .f32 ∧ modRound m = .rne ∧ modSat m = false ∧ modFtz m = false) (x : Nat) :
    vfunction fn m x = binary32Fn fn x := by
  obtain ⟨hty, hrm, hsat, hftz⟩ := hm
  unfold vfunction vdec
  rw [hty, hrm, hsat, hftz]
  rfl

theorem binary32Fn_nan (fn : Nat) {x : BitVec 32} (h : isNan32 x = true) : binary32Fn fn x.toNat = 0x7FC00000 := by
  unfold binary32Fn
  rw [dec_of_isNan32 h]
  rfl

/-- The square root of a rational whose scaled value is a square. -/
theorem sqrtRound_exact {x y : Frac} {qe : Int} {n : Nat}
    (hq : (if floorLog2 x.num.natAbs x.den / 2 < -126 then -126 else floorLog2 x.num.natAbs x.den / 2) - 23 - 2 = qe)
    (hy : fracShift x (-(2 * qe)) = y) (hn : y.num.natAbs / y.den = n * n) :
    sqrtRound .f32 f32Fmt .rne false false x = convFloat .f32 f32Fmt .rne false false
      (numOf false (fracShift ⟨((2 * n + (if n * n * y.den = y.num.natAbs then 0 else 1) : Nat) : Int), 2⟩ qe)) := by
  subst hq hy
  unfold sqrtRound
  dsimp only
  rw [← Nat.sqrt_eq n, ← hn]
  rfl

theorem binary32Fn_sqrt {x : Nat} {q : Frac} (hx : dec .f32 false x = .real q) (h : ¬ q.num < 0) :
    binary32Fn 2 x = (sqrtRound .f32 f32Fmt .rne false false q).1 := by
  unfold binary32Fn
  rw [hx]
  exact congrArg Prod.fst (if_neg h)

theorem binary32Fn_rsq {x : Nat} {q : Frac} (hx : dec .f32 false x = .real q) (h : ¬ q.num < 0) :
    binary32Fn 3 x = (sqrtRound .f32 f32Fmt .rne false false (fracDiv ⟨1, 1⟩ q)).1 := by
  unfold binary32Fn
  rw [hx]
  exact congrArg Prod.fst (if_neg h)

theorem binary32Fn_sqrt_four : BitVec.ofNat 32 (binary32Fn 2 (0x40800000 : BitVec 32).toNat) = 0x40000000 := by
  rw [binary32Fn_sqrt dec_four (by decide), sqrtRound_exact (y := ⟨2361183241434822606848, 2097152⟩) (qe := -24) (n := 33554432) rfl rfl rfl]
  rfl

theorem binary32Fn_rsq_four : BitVec.ofNat 32 (binary32Fn 3 (0x40800000 : BitVec 32).toNat) = 0x3F000000 := by
  rw [binary32Fn_rsq dec_four (by decide), sqrtRound_exact (y := ⟨9444732965739290427392, 8388608⟩) (qe := -26) (n := 33554432) rfl rfl rfl]
  rfl

/-- The special cases of the functions (R102). -/
theorem vecFunctions_special {w : TWord} {i : Instr} {tab : List (BitVec 32 × BitVec 32)} (h : (i, tab) ∈ vecFunctions w) :
    ∃ fn, (∀ s, exec i s = elementWord w (fun a _ _ => vfunction fn w.modf a) s) ∧
      ∀ x r, (x, r) ∈ tab → BitVec.ofNat 32 (binary32Fn fn x.toNat) = r := by
  refine (List.forall_iff_forall_mem (l := vecFunctions w) (p := fun y => ∃ fn, (∀ s, exec y.1 s = elementWord w (fun a _ _ => vfunction fn w.modf a) s) ∧
    ∀ x r, (x, r) ∈ y.2 → BitVec.ofNat 32 (binary32Fn fn x.toNat) = r)).1 ?_ _ h
  have special : ∀ (fn : Nat) (tab : List (BitVec 32 × BitVec 32)), tab.Forall (fun e => BitVec.ofNat 32 (binary32Fn fn e.1.toNat) = e.2) →
      ∀ x r, (x, r) ∈ tab → BitVec.ofNat 32 (binary32Fn fn x.toNat) = r := fun _ _ h x r he => List.forall_iff_forall_mem.1 h (x, r) he
  exact ⟨⟨1, fun s => (rfl : exec (.vrcp w) s = execVrcp w s), special 1 _ ⟨rfl, rfl, rfl, rfl, rfl⟩⟩,
    ⟨2, fun s => (rfl : exec (.vsqrt w) s = execVsqrt w s), special 2 _ ⟨rfl, rfl, rfl, rfl, binary32Fn_sqrt_four⟩⟩,
    ⟨3, fun s => (rfl : exec (.vrsq w) s = execVrsq w s), special 3 _ ⟨rfl, rfl, rfl, rfl, binary32Fn_rsq_four⟩⟩,
    ⟨4, fun s => (rfl : exec (.vexp2 w) s = execVexp2 w s), special 4 _ ⟨rfl, rfl, rfl, rfl⟩⟩,
    ⟨5, fun s => (rfl : exec (.vlog2 w) s = execVlog2 w s), special 5 _ ⟨rfl, rfl, rfl, rfl, rfl, rfl⟩⟩,
    ⟨6, fun s => (rfl : exec (.vtanh w) s = execVtanh w s), special 6 _ ⟨rfl, rfl, rfl, rfl⟩⟩,
    ⟨7, fun s => (rfl : exec (.vsig w) s = execVsig w s), special 7 _ ⟨rfl, rfl, rfl⟩⟩⟩

/-! ### The obligation -/

/-- Settles O31: a word that works element by element writes what its operation gives, and each operation rounds its exact result once. -/
theorem vectorFloatElementsAndFunctions : Obligations.VectorFloatElementsAndFunctions := by
  refine ⟨fun w s ty rm sat ftz z i f hty hrm hm hg hr h => ?_, fun w s i tab z h hm hg hr => ?_⟩
  · obtain ⟨fmt, hf, h4, hi, h32⟩ := floatFmt_of_vector hty
    obtain ⟨hT, hR, hS, hF⟩ := fields_vfmod ty hty rm hrm sat ftz z
    rw [← hm] at hT hR hS hF
    obtain ⟨g, hexec, hval⟩ := vecReals_elementWord (w := w) (by rw [hT, hf]) (by rwa [hT]) (by rwa [hT]) (by rwa [hR])
    have hw := elementWord_writes (hexec s) hg hr (congrArg Ty.width hT) h32
    have heq : elementOf w s ty.width g = fun j e =>
        let x (o : Opnd) : Machine.Num := dec ty ftz (vsrc ty.width s o j e).toNat
        BitVec.ofNat _ (convert .f32 ty (Rm.ofCode rm) sat ftz (f (x w.a) (x w.b) (x w.c))).1 := by
      funext j e
      simp only [elementOf, hval, vround, vdec, hT, hR, hS, hF]
    rwa [heq] at hw
  · obtain ⟨fn, hexec, hspecial⟩ := vecFunctions_special h
    have hfields := fields_vfmod .f32 (by decide) 0 (by decide) false false z
    rw [show vfmod Ty.f32.code 0 false false z = w.modf from hm.symm] at hfields
    have hval : ∀ j e, elementOf w s 32 (fun a _ _ => vfunction fn w.modf a) j e = BitVec.ofNat 32 (binary32Fn fn (vsrc 32 s w.a j e).toNat) :=
      fun j e => congrArg (BitVec.ofNat 32) (vfunction_binary32 fn hfields _)
    refine ⟨_, elementWord_writes (hexec s) hg hr (congrArg Ty.width hfields.1) (by decide), fun x r j e hx hsrc => ?_, fun j e hn => ?_⟩
    · rw [hval, hsrc, hspecial x r hx]
    · exact (hval j e).trans (congrArg (BitVec.ofNat 32) (binary32Fn_nan fn hn))

end Sys2Proof
end

section

namespace Sys2Proof

open Sys2Proof.Machine Sys2Proof.Claim

/-! ## Entries in channels (R66, R69, R70, R91, R95)

What the collar's operations leave alone, and what the channels hold after them. -/

/-! ### What the collar's operations leave alone -/

/-- Two states with the same memory, graphs, pools and contexts of sets. -/
structure Quiet (s t : State) : Prop where
  mem    : t.mem = s.mem
  graphs : t.graphs = s.graphs
  pool   : ∀ u, (getTile t u).pool = (getTile s u).pool
  ctx    : ∀ u j, (getSet t u j).ctx = (getSet s u j).ctx

theorem Quiet.refl (s : State) : Quiet s s := ⟨rfl, rfl, fun _ => rfl, fun _ _ => rfl⟩

theorem Quiet.trans {s t u : State} (h : Quiet s t) (k : Quiet t u) : Quiet s u :=
  ⟨k.mem.trans h.mem, k.graphs.trans h.graphs, fun n => (k.pool n).trans (h.pool n), fun n j => (k.ctx n j).trans (h.ctx n j)⟩

/-- Two such states with the same elements. -/
structure ChansMoved (s t : State) : Prop extends Quiet s t where
  elems : ∀ u j, (getSet t u j).elems = (getSet s u j).elems

theorem ChansMoved.refl (s : State) : ChansMoved s s := ⟨.refl s, fun _ _ => rfl⟩

theorem ChansMoved.trans {s t u : State} (h : ChansMoved s t) (k : ChansMoved t u) : ChansMoved s u :=
  ⟨h.toQuiet.trans k.toQuiet, fun n j => (k.elems n j).trans (h.elems n j)⟩

theorem ChansMoved.elemOfSet {s t : State} (h : ChansMoved s t) (u j e : Nat) : elemOfSet (getSet t u j) e = elemOfSet (getSet s u j) e := by
  unfold Machine.elemOfSet
  rw [h.elems]

/-- Two such states with the same channels: regions alone have moved. -/
structure RegionsMoved (s t : State) : Prop extends ChansMoved s t where
  chans : ∀ u, (getTile t u).chans = (getTile s u).chans

theorem RegionsMoved.refl (s : State) : RegionsMoved s s := ⟨.refl s, fun _ => rfl⟩

theorem RegionsMoved.trans {s t u : State} (h : RegionsMoved s t) (k : RegionsMoved t u) : RegionsMoved s u :=
  ⟨h.toChansMoved.trans k.toChansMoved, fun n => (k.chans n).trans (h.chans n)⟩

theorem RegionsMoved.chanOf {s t : State} (h : RegionsMoved s t) (u k : Nat) : chanOf (getTile t u) k = chanOf (getTile s u) k := by
  unfold Machine.chanOf
  rw [h.chans]

/-- A field of a set that a change keeps stands in every set. -/
theorem getSet_modSet_field {α : Type} (P : CtxSet → α) {f : CtxSet → CtxSet} (hf : ∀ c, P (f c) = P c) (s : State) (tile set u j : Nat) :
    P (getSet (modSet s tile set f) u j) = P (getSet s u j) := by
  rcases getSet_modSet_cases s tile set u j f with ⟨h1, h2⟩ | h
  · rw [h2, hf, h1]
  · rw [h]

theorem putTileSet_pool (t : Tile) (i : Nat) (c : CtxSet) : (putTileSet t i c).pool = t.pool := by
  unfold putTileSet; split <;> rfl

theorem quiet_modSet (s : State) (tile set : Nat) {f : CtxSet → CtxSet} (hf : ∀ c, (f c).ctx = c.ctx) : Quiet s (modSet s tile set f) :=
  ⟨rfl, rfl, fun u => getTile_modSet_field _ putTileSet_pool s tile set u f, fun u j => getSet_modSet_field CtxSet.ctx hf s tile set u j⟩

theorem regionsMoved_modSet (s : State) (tile set : Nat) {f : CtxSet → CtxSet} (hc : ∀ c, (f c).ctx = c.ctx) (he : ∀ c, (f c).elems = c.elems) :
    RegionsMoved s (modSet s tile set f) :=
  ⟨⟨quiet_modSet s tile set hc, fun u j => getSet_modSet_field CtxSet.elems he s tile set u j⟩, fun u => getTile_modSet_chans s tile set u f⟩

theorem regionsMoved_noteMove (s : State) (tile set elem : Nat) : RegionsMoved s (noteMove s tile set elem) := by
  refine regionsMoved_modSet s tile set (fun c => ?_) fun c => ?_ <;> split <;> rfl

theorem regionsMoved_noteInstant (s : State) (tile set elem key : Nat) : RegionsMoved s (noteInstant s tile set elem key) := by
  refine regionsMoved_modSet s tile set (fun c => ?_) fun c => ?_ <;> split <;> rfl

theorem regionsMoved_noteEmitted (s : State) (tile set elem : Nat) : RegionsMoved s (noteEmitted s tile set elem) := by
  refine regionsMoved_modSet s tile set (fun c => ?_) fun c => ?_ <;> split <;> rfl

theorem chansMoved_modChan (s : State) (tile key : Nat) (f : Chan → Chan) : ChansMoved s (modChan s tile key f) := by
  refine ⟨⟨rfl, rfl, fun u => ?_, fun u j => congrArg _ (getSet_modChan ..)⟩, fun u j => congrArg _ (getSet_modChan ..)⟩
  by_cases h : u = tile
  · subst h
    rw [getTile_modChan_same]
  · rw [getTile_modChan_other s key f h]

theorem quiet_modElem (s : State) (tile set elem : Nat) (f : Elem → Elem) : Quiet s (modElem s tile set elem f) := by
  unfold modElem setElem
  exact quiet_modSet s tile set fun _ => rfl

theorem chanOf_modElem (s : State) (tile set elem : Nat) (f : Elem → Elem) (u k : Nat) :
    chanOf (getTile (modElem s tile set elem f) u) k = chanOf (getTile s u) k := by
  unfold chanOf
  exact congrArg (Tab.get _ · k) (getTile_modSet_chans ..)

theorem chanOf_modChan (s : State) (tile key : Nat) (f : Chan → Chan) (u k : Nat) :
    chanOf (getTile (modChan s tile key f) u) k = if u = tile ∧ k = key then f (chanOf (getTile s u) k) else chanOf (getTile s u) k := by
  by_cases h : u = tile
  · subst h
    rw [getTile_modChan_same, chanOf, Tab.get_set]
    by_cases hk : k = key
    · subst hk; simp
    · simp [hk, chanOf]
  · rw [getTile_modChan_other s key f h, if_neg (by simp [h])]

/-! ### Entries appended (R69, R70) -/

/-- Every channel has gained some entries at its end, and offers slots as it did. -/
structure EntriesAdded (s t : State) (add : Nat → Nat → List (BitVec 3 × BitVec 512)) : Prop extends ChansMoved s t where
  entries : ∀ u k, entries (chanOf (getTile t u) k) = entries (chanOf (getTile s u) k) ++ add u k
  shut    : ∀ u k, (chanOf (getTile t u) k).shut = (chanOf (getTile s u) k).shut

/-- Kind and payload of an entry (R70). -/
def content (e : Entry) : BitVec 3 × BitVec 512 := (e.kind, e.payload)

theorem RegionsMoved.entriesAdded {s t : State} (h : RegionsMoved s t) : EntriesAdded s t fun _ _ => [] :=
  ⟨h.toChansMoved, fun u k => by rw [h.chanOf, List.append_nil], fun u k => by rw [h.chanOf]⟩

theorem EntriesAdded.trans {s t u : State} {a b : Nat → Nat → List (BitVec 3 × BitVec 512)} (h : EntriesAdded s t a) (k : EntriesAdded t u b) :
    EntriesAdded s u fun n key => a n key ++ b n key :=
  ⟨h.toChansMoved.trans k.toChansMoved, fun n key => by rw [k.entries, h.entries, List.append_assoc], fun n key => (k.shut n key).trans (h.shut n key)⟩

theorem EntriesAdded.congr {s t : State} {a b : Nat → Nat → List (BitVec 3 × BitVec 512)} (h : EntriesAdded s t a) (hab : ∀ u k, a u k = b u k) :
    EntriesAdded s t b :=
  (funext fun u => funext (hab u) : a = b) ▸ h

/-- The entries `l` in one channel, none in the others. -/
def addAt (tile key : Nat) (l : List Entry) (u k : Nat) : List (BitVec 3 × BitVec 512) := if u = tile ∧ k = key then l.map content else []

theorem addAt_append (tile key : Nat) (l m : List Entry) (u k : Nat) : addAt tile key l u k ++ addAt tile key m u k = addAt tile key (l ++ m) u k := by
  unfold addAt
  split
  · rw [List.map_append]
  · rfl

theorem entriesAdded_modChan (s : State) (tile key : Nat) (e : Entry) {f : Chan → Chan} (hq : ∀ c, (f c).q = c.q ++ [e]) (hs : ∀ c, (f c).shut = c.shut) :
    EntriesAdded s (modChan s tile key f) (addAt tile key [e]) := by
  refine ⟨chansMoved_modChan s tile key f, fun u k => ?_, fun u k => ?_⟩
  · rw [chanOf_modChan, addAt]
    split
    · rw [Claim.entries, hq, List.map_append]
      rfl
    · rw [List.append_nil]
  · rw [chanOf_modChan]
    split
    · exact hs _
    · rfl

theorem EntriesAdded.then_regions {s t u : State} {a : Nat → Nat → List (BitVec 3 × BitVec 512)} (h : EntriesAdded s t a) (k : RegionsMoved t u) :
    EntriesAdded s u a :=
  (h.trans k.entriesAdded).congr fun _ _ => List.append_nil _

theorem entriesAdded_pushEntry (s : State) (tile key : Nat) (e : Entry) : EntriesAdded s (pushEntry s tile key e) (addAt tile key [e]) := by
  refine (entriesAdded_modChan s tile key e (fun _ => ?_) fun _ => ?_).then_regions (regionsMoved_noteMove ..) <;> rfl

theorem entriesAdded_pushAcross (s : State) (tile key : Nat) (e : Entry) : EntriesAdded s (pushAcross s tile key e) (addAt tile key [e]) := by
  refine (entriesAdded_modChan s tile key e (fun _ => ?_) fun _ => ?_).then_regions (regionsMoved_noteMove ..) <;> rfl

theorem entriesAdded_foldl {push : State → Entry → State} {tile key : Nat} (h : ∀ s e, EntriesAdded s (push s e) (addAt tile key [e]))
    (l : List Entry) (s : State) : EntriesAdded s (l.foldl push s) (addAt tile key l) := by
  induction l generalizing s with
  | nil => exact (RegionsMoved.refl s).entriesAdded.congr fun _ _ => (ite_self _).symm
  | cons e l ih => exact ((h s e).trans (ih _)).congr fun _ _ => addAt_append ..

/-! ### Where an output's entries go (R88, R333) -/

/-- An output's target follows the contexts of the sets alone. -/
theorem Quiet.outTarget {s t : State} (h : Quiet s t) (tile set : Nat) (im : Image) (elem o : Nat) :
    outTarget t tile set im elem o = outTarget s tile set im elem o := by
  have hset : ∀ u x, setOfCtx (getTile t u) x = setOfCtx (getTile s u) x := fun u x => by
    have h0 : (getTile t u).set0.ctx = (getTile s u).set0.ctx := h.ctx u 0
    have h1 : (getTile t u).set1.ctx = (getTile s u).set1.ctx := h.ctx u 1
    unfold setOfCtx
    rw [h0, h1]
  unfold Machine.outTarget
  simp only [h.ctx, hset]

/-- What an output adds to the channels. -/
def addOut (s : State) (tile set : Nat) (im : Image) (elem : Nat) (es : List Entry) (o u k : Nat) : List (BitVec 3 × BitVec 512) :=
  if outTarget s tile set im elem o = some (u, k) then es.map content else []

theorem entriesAdded_writeOut (s : State) (tile set elem : Nat) (im : Image) (o : Nat) (es : List Entry) :
    EntriesAdded s (writeOut s tile set elem im o es) (addOut s tile set im elem es o) := by
  unfold writeOut addOut
  cases ht : outTarget s tile set im elem o with
  | none => exact (RegionsMoved.refl s).entriesAdded.congr fun _ _ => (if_neg (by simp)).symm
  | some p =>
    obtain ⟨u, key⟩ := p
    have hadd : ∀ n k, addAt u key es n k = if some (u, key) = some (n, k) then es.map content else [] := fun n k =>
      if_congr (by simp [eq_comm]) rfl rfl
    have hpush : EntriesAdded s (if u = tile then es.foldl (fun acc x => pushEntry acc u key x) s
        else noteMove (es.foldl (fun acc x => pushAcross acc u key x) s) tile set elem) (addAt u key es) := by
      split
      · exact entriesAdded_foldl (fun t e => entriesAdded_pushEntry t u key e) es s
      · exact (entriesAdded_foldl (fun t e => entriesAdded_pushAcross t u key e) es s).then_regions (regionsMoved_noteMove ..)
    refine EntriesAdded.congr ?_ hadd
    dsimp only
    split
    · exact hpush.then_regions (regionsMoved_noteInstant ..)
    · exact hpush

theorem entriesAdded_outputs (tile set elem : Nat) (im : Image) (es : Nat → List Entry) (l : List Nat) (s : State) :
    EntriesAdded s (l.foldl (fun acc o => writeOut acc tile set elem im o (es o)) s)
      fun u k => l.flatMap fun o => addOut s tile set im elem (es o) o u k := by
  induction l generalizing s with
  | nil => exact (RegionsMoved.refl s).entriesAdded
  | cons o l ih =>
    have ho := entriesAdded_writeOut s tile set elem im o (es o)
    refine (ho.trans (ih _)).congr fun u k => ?_
    rw [List.flatMap_cons]
    refine congrArg _ (List.flatMap_congr fun x _ => ?_)
    unfold addOut
    rw [ho.toQuiet.outTarget]

/-- A channel that one output alone reaches gains its entries. -/
theorem flatMap_addOut {s : State} {tile set elem u k o : Nat} {im : Image} (es : Nat → List Entry) {l : List Nat} (hl : l.Nodup) (ho : o ∈ l)
    (ht : outTarget s tile set im elem o = some (u, k)) (hother : ∀ x ∈ l, x ≠ o → outTarget s tile set im elem x ≠ some (u, k)) :
    (l.flatMap fun x => addOut s tile set im elem (es x) x u k) = (es o).map content := by
  obtain ⟨pre, post, rfl⟩ := List.append_of_mem ho
  have hnone : ∀ m : List Nat, (∀ x ∈ m, x ∈ pre ++ o :: post ∧ x ≠ o) → (m.flatMap fun x => addOut s tile set im elem (es x) x u k) = [] :=
    fun m hm => List.flatMap_eq_nil_iff.2 fun x hx => if_neg (hother x (hm x hx).1 (hm x hx).2)
  have hnd := List.nodup_middle.1 hl
  have hout : o ∉ pre ++ post := (List.nodup_cons.1 hnd).1
  rw [List.flatMap_append, List.flatMap_cons, hnone pre fun x hx => ⟨by simp [hx], fun h => hout (by simp [← h, hx])⟩,
    hnone post fun x hx => ⟨by simp [hx], fun h => hout (by simp [← h, hx])⟩, List.nil_append, List.append_nil, addOut, if_pos ht]

theorem outputs_nodup (im : Image) : (outputs im).Nodup := List.nodup_range.filter _

theorem connected_nodup (im : Image) : (connected im).Nodup := List.nodup_range.filter _

theorem lt_of_connected {im : Image} {i : Nat} (h : i ∈ connected im) : i < 8 := List.mem_range.1 (List.mem_filter.1 h).1

end Sys2Proof
end

section

namespace Sys2Proof

open Sys2Proof.Machine Sys2Proof.Claim

/-! ## What elements write to their outputs (R78, R98, R223, R326, R338) -/

/-! ### A reaction's entries (R78, R98) -/

theorem content_emitted (rx : Reaction) (o : Nat) : (emitted rx o).map content = reactionEntries rx o := by
  unfold emitted reactionEntries
  rw [List.map_append]
  refine congrArg₂ _ ?_ (congrArg (fun p => [p]) ?_)
  · cases Tab.find? rx.scales o <;> rfl
  · cases rx.kind with
    | finishing => rfl
    | _ => cases Tab.find? rx.outs o <;> rfl

theorem emitted_length (rx : Reaction) (o : Nat) : (emitted rx o).length = (reactionEntries rx o).length := by
  rw [← content_emitted, List.length_map]

/-- An element whose oldest reaction has written its entries: the reaction is over and the delay lines are shifted (R78, R83). -/
def afterEmit (im : Image) (rx : Reaction) (younger : List Reaction) (x : Elem) : Elem :=
  { x with rxs := younger, emitted := rx.inst + 1, finished := rx.kind == .finishing
           lines := (List.range 4).map fun d => (d, shiftLine im rx d (lineOf x d)) }

section

variable {s : State} {tile elem : Nat} {rx : Reaction} {younger : List Reaction} (hx : (elemOfSet (actSet s tile) elem).rxs = rx :: younger)

include hx

/-- The oldest reaction writes its entries in the last step of stage 6 (R66, R78, R82). -/
theorem exec_reactionEmit (hd : rx.done = true) (hst : rx.stage = 6) (hexd : 4 ≤ rx.exd)
    (hs : rx.since + (if rx.half then 1 else 0) ≤ tscOf s tile) (hf : reactionFault (elemOfSet (actSet s tile) elem) = false ∨ younger ≠ [])
    (ha : Acts s tile) (hsw : (elemOfSet (actSet s tile) elem).swTag = none)
    (hroom : ∀ o ∈ outputs (imageOf (getTile s tile) elem rx.plane),
      (reactionEntries rx o).length ≤ outFree s tile (getTile s tile).active (imageOf (getTile s tile) elem rx.plane) elem o) :
    exec (.reactionEmit tile elem) s = .next (noteEmitted (modElem ((outputs (imageOf (getTile s tile) elem rx.plane)).foldl
      (fun acc o => writeOut acc tile (getTile s tile).active elem (imageOf (getTile s tile) elem rx.plane) o (emitted rx o)) s)
        tile (getTile s tile).active elem (afterEmit (imageOf (getTile s tile) elem rx.plane) rx younger)) tile (getTile s tile).active elem) := by
  obtain ⟨hedge, hrem⟩ := ha
  unfold actSet at hx hf hsw
  have hdue : emitDue rx (tscOf s tile) = true := by
    unfold emitDue
    simp only [hd, hst, hexd, hs, decide_true, beq_self_eq_true, Bool.and_self]
  have hstop : (reactionFault (elemOfSet (getSet s tile (getTile s tile).active) elem) && younger.isEmpty) = false := by
    rcases hf with h | h
    · rw [h, Bool.false_and]
    · rw [List.isEmpty_eq_false_iff.2 h, Bool.and_false]
  have howe : owesBefore (elemOfSet (getSet s tile (getTile s tile).active) elem) rx.inst = false := by
    unfold owesBefore
    rw [hsw, Bool.and_false]
  have hall : ((outputs (imageOf (getTile s tile) elem rx.plane)).all fun o => decide ((emitted rx o).length ≤
      outFree s tile (getTile s tile).active (imageOf (getTile s tile) elem rx.plane) elem o)) = true :=
    List.all_eq_true.2 fun o ho => decide_eq_true (by rw [emitted_length]; exact hroom o ho)
  change execReactionEmit tile elem s = _
  unfold execReactionEmit
  simp only [hx, hdue, hstop, hedge, howe, hrem, hall, hsw, Bool.not_true, Bool.or_self, Bool.false_eq_true, if_false, List.append_nil]
  rfl

theorem exec_reactionEmit_early (h : rx.done = false ∨ rx.stage < 6) : exec (.reactionEmit tile elem) s = .next s := by
  have hdue : emitDue rx (tscOf s tile) = false := by
    unfold emitDue
    rcases h with h | h
    · simp [h]
    · simp [show rx.stage ≠ 6 by omega]
  unfold actSet at hx
  change execReactionEmit tile elem s = _
  unfold execReactionEmit
  simp only [hx, hdue, Bool.not_false, Bool.true_or, if_true]

end

/-- What stands after an element has written to its outputs and has changed. -/
theorem elemOfSet_modElem_of_chansMoved {s t : State} (h : ChansMoved s t) (tile set elem : Nat) (f : Elem → Elem) :
    elemOfSet (getSet (modElem t tile set elem f) tile set) elem = f (elemOfSet (getSet s tile set) elem) := by
  rw [elemOfSet_modElem_same, h.elemOfSet]

/-- The oldest reaction has written its entries to its outputs (R78). -/
theorem emission_holds {s : State} {tile set elem : Nat} (im : Image) (rx : Reaction) (younger : List Reaction) :
    let t := noteEmitted (modElem ((outputs im).foldl (fun acc o => writeOut acc tile set elem im o (emitted rx o)) s) tile set elem
      (afterEmit im rx younger)) tile set elem
    t.mem = s.mem ∧ elemOfSet (getSet t tile set) elem = afterEmit im rx younger (elemOfSet (getSet s tile set) elem) ∧
      ∀ o ∈ outputs im, ∀ u key, outTarget s tile set im elem o = some (u, key) →
        (∀ x ∈ outputs im, x ≠ o → outTarget s tile set im elem x ≠ some (u, key)) →
        entries (chanOf (getTile t u) key) = entries (chanOf (getTile s u) key) ++ reactionEntries rx o := by
  intro t
  have hout := entriesAdded_outputs tile set elem im (emitted rx) (outputs im) s
  have hnote : RegionsMoved _ t := regionsMoved_noteEmitted ..
  refine ⟨hnote.mem.trans (((quiet_modElem ..).mem).trans hout.mem), ?_, fun o ho u key ht hother => ?_⟩
  · rw [hnote.elemOfSet, elemOfSet_modElem_of_chansMoved hout.toChansMoved]
  · rw [hnote.chanOf, chanOf_modElem, hout.entries, flatMap_addOut _ (outputs_nodup im) ho ht hother, content_emitted]

/-! ### SWITCH entries that are owed (R223) -/

theorem exec_switchEntryWrite {s : State} {tile elem out f pl : Nat} {p : Nat × BitVec 64}
    (hp : ((elemOfSet (actSet s tile) elem).swOwed.find? fun x => x.1 == out) = some p)
    (hsw : (elemOfSet (actSet s tile) elem).swTag = some (f, pl)) (hedge : edgeNow s tile = true) (hf : f ≤ (elemOfSet (actSet s tile) elem).emitted)
    (hroom : 1 ≤ outFree s tile (getTile s tile).active (imageOf (getTile s tile) elem (planeOf (actSet s tile) elem)) elem out) :
    exec (.switchEntryWrite tile elem out) s = .next (modElem (writeOut s tile (getTile s tile).active elem
      (imageOf (getTile s tile) elem (planeOf (actSet s tile) elem)) out [sideEntry 7 p.2]) tile (getTile s tile).active elem
      fun x => { x with swOwed := x.swOwed.erase p }) := by
  unfold actSet at *
  change execSwitchEntryWrite tile elem out s = _
  unfold execSwitchEntryWrite
  simp only [hp, hsw, hedge, hf, hroom, decide_true, Bool.and_self, if_true]

/-! ### Records of a snapshot (R326, R338) -/

theorem chansMoved_popEntry (s : State) (tile key : Nat) : ChansMoved s (popEntry s tile key) :=
  (chansMoved_modChan ..).trans (regionsMoved_noteMove ..).toChansMoved

theorem chanOf_popEntry (s : State) (tile key u k : Nat) :
    chanOf (getTile (popEntry s tile key) u) k =
      if u = tile ∧ k = key then { chanOf (getTile s u) k with q := (chanOf (getTile s u) k).q.tail } else chanOf (getTile s u) k := by
  unfold popEntry
  rw [(regionsMoved_noteMove ..).chanOf, chanOf_modChan]

/-- The CAIRN of an input consumed, and its channel shut (R326, R338). -/
def shutInput (tile set elem : Nat) (cairnIn : List Nat) (acc : State) (i : Nat) : State :=
  modChan (if cairnIn.contains i then popEntry acc tile (chanKey set elem i) else acc) tile (chanKey set elem i) fun c => { c with shut := true }

section

variable (tile set elem : Nat) (cairnIn : List Nat) (s : State)

theorem chansMoved_shutInput (i : Nat) : ChansMoved s (shutInput tile set elem cairnIn s i) := by
  unfold shutInput
  split
  · exact (chansMoved_popEntry ..).trans (chansMoved_modChan ..)
  · exact chansMoved_modChan ..

theorem chanOf_shutInput_other (i : Nat) {u k : Nat} (h : (u, k) ≠ (tile, chanKey set elem i)) :
    chanOf (getTile (shutInput tile set elem cairnIn s i) u) k = chanOf (getTile s u) k := by
  have hne : ¬(u = tile ∧ k = chanKey set elem i) := fun e => h (Prod.ext e.1 e.2)
  unfold shutInput
  rw [chanOf_modChan, if_neg hne]
  split
  · rw [chanOf_popEntry, if_neg hne]
  · rfl

theorem shut_shutInput (i : Nat) : (chanOf (getTile (shutInput tile set elem cairnIn s i) tile) (chanKey set elem i)).shut = true := by
  unfold shutInput
  rw [chanOf_modChan, if_pos ⟨rfl, rfl⟩]

/-- A channel that is shut stays so while others are. -/
theorem shut_shutInput_of_shut (i : Nat) {u k : Nat} (h : (chanOf (getTile s u) k).shut = true) :
    (chanOf (getTile (shutInput tile set elem cairnIn s i) u) k).shut = true := by
  by_cases he : (u, k) = (tile, chanKey set elem i)
  · obtain ⟨rfl, rfl⟩ := Prod.mk.inj he
    exact shut_shutInput ..
  · rwa [chanOf_shutInput_other _ _ _ _ _ _ he]

/-- The inputs of an element shut: its channels offer no slot, and the others stand. -/
theorem shutInputs (l : List Nat) : let t := l.foldl (shutInput tile set elem cairnIn) s
    ChansMoved s t ∧ (∀ u k, (∀ i ∈ l, (u, k) ≠ (tile, chanKey set elem i)) → chanOf (getTile t u) k = chanOf (getTile s u) k) ∧
      ∀ u k, ((chanOf (getTile s u) k).shut = true ∨ ∃ i ∈ l, (u, k) = (tile, chanKey set elem i)) → (chanOf (getTile t u) k).shut = true := by
  induction l generalizing s with
  | nil => exact ⟨.refl s, fun _ _ _ => rfl, fun u k h => h.resolve_right (by simp)⟩
  | cons i l ih =>
    obtain ⟨hmoved, hother, hshut⟩ := ih (shutInput tile set elem cairnIn s i)
    refine ⟨(chansMoved_shutInput ..).trans hmoved, fun u k h => ?_, fun u k h => hshut u k ?_⟩
    · exact (hother u k fun x hx => h x (List.mem_cons_of_mem _ hx)).trans (chanOf_shutInput_other _ _ _ _ _ _ (h i (List.mem_cons_self ..)))
    · rcases h with h | ⟨x, hx, he⟩
      · exact .inl (shut_shutInput_of_shut _ _ _ _ _ _ h)
      · rcases List.mem_cons.1 hx with rfl | hx
        · obtain ⟨rfl, rfl⟩ := Prod.mk.inj he
          exact .inl (shut_shutInput ..)
        · exact .inr ⟨x, hx, he⟩

end

theorem exists_find?_of_mem {α : Type} {t : Tab α} {n : Nat} {x : α} (h : (n, x) ∈ t) : ∃ y, Tab.find? t n = some y := by
  induction t with
  | nil => cases h
  | cons p t ih =>
    obtain ⟨k, y⟩ := p
    unfold Tab.find?
    by_cases hk : n = k
    · exact ⟨y, if_pos hk⟩
    · rw [if_neg hk]
      refine ih ((List.mem_cons.1 h).resolve_left fun e => hk (Prod.mk.inj e).1)

/-- The CAIRN that an element sends behind instant K (R326): K, and the snapshot's number. -/
def cairnPayload (g : Graph) : BitVec 64 := BitVec.ofNat 64 (g.k % 2 ^ 32 * 2 ^ 32 + g.ident % 65536 * 65536)

theorem cairnPayload_fields (g : Graph) :
    (cairnPayload g).extractLsb' 32 32 = BitVec.ofNat 32 g.k ∧ (cairnPayload g).extractLsb' 16 16 = BitVec.ofNat 16 g.ident := by
  unfold cairnPayload
  exact ⟨extract_ofNat _ _ _ (by omega), extract_ofNat _ _ _ (by omega)⟩

theorem exec_cairnRecord {s : State} {tile elem n : Nat} {g : Graph} (hg : graphOf s tile (getTile s tile).active = some (n, g))
    (hr : recordReady s tile (getTile s tile).active elem g = true) :
    exec (.cairnRecord tile elem) s = .next (recordElem s tile (getTile s tile).active elem n g) := by
  change execCairnRecord tile elem s = _
  unfold execCairnRecord
  simp only [hg, hr, if_true]

/-- A graph's list with an element's record added (R327). -/
def recorded (n r m : Nat) (x : Graph) : Graph := if m = n then { x with elems := x.elems ++ [r] } else x

theorem recordElem_eq (s : State) (tile set elem n : Nat) (g : Graph) :
    recordElem s tile set elem n g =
      let im := imageNow s tile set elem
      let t := (cairnOuts s tile set elem im).foldl (fun acc o => writeOut acc tile set elem im o [sideEntry 6 (cairnPayload g)])
        ((connected im).foldl (shutInput tile set elem (elemOfSet (getSet s tile set) elem).cairnIn) s)
      { t with graphs := Tab.mapAll (recorded n (tile * 32 + elem)) t.graphs } := rfl

theorem cairnOuts_nodup (s : State) (tile set elem : Nat) (im : Image) : (cairnOuts s tile set elem im).Nodup := (outputs_nodup im).filter _

/-- An element's record: it stands in the graph's list, the element's channels are shut, and a CAIRN stands behind its outputs' entries. -/
theorem recordElem_holds {s : State} {tile set n : Nat} {g : Graph} (elem : Nat) (hg : graphOf s tile set = some (n, g)) :
    let t := recordElem s tile set elem n g
    let im := imageNow s tile set elem
    (∃ x, Tab.find? t.graphs n = some x ∧ tile * 32 + elem ∈ x.elems) ∧
    (∀ i ∈ connected im, (chanOf (getTile t tile) (chanKey set elem i)).shut = true) ∧
    ∀ o ∈ cairnOuts s tile set elem im, ∀ u key, outTarget s tile set im elem o = some (u, key) →
      (∀ x ∈ cairnOuts s tile set elem im, x ≠ o → outTarget s tile set im elem x ≠ some (u, key)) →
      (∀ i ∈ connected im, (u, key) ≠ (tile, chanKey set elem i)) →
      entries (chanOf (getTile t u) key) = entries (chanOf (getTile s u) key) ++ [(6, (cairnPayload g).setWidth 512)] := by
  intro t im
  have ht : t = _ := recordElem_eq ..
  obtain ⟨hmoved, hstands, hshut⟩ := shutInputs tile set elem (elemOfSet (getSet s tile set) elem).cairnIn s (connected im)
  have hout := entriesAdded_outputs tile set elem im (fun _ => [sideEntry 6 (cairnPayload g)]) (cairnOuts s tile set elem im)
    ((connected im).foldl (shutInput tile set elem (elemOfSet (getSet s tile set) elem).cairnIn) s)
  refine ⟨?_, fun i hi => ?_, fun o ho u key htarget hother hin => ?_⟩
  · obtain ⟨x, hx⟩ := exists_find?_of_mem (List.mem_of_find?_eq_some hg)
    refine ⟨recorded n (tile * 32 + elem) n x, ?_, ?_⟩
    · rw [ht, Tab.find?_mapAll, hout.graphs, hmoved.graphs, hx, Option.map_some]
    · rw [recorded, if_pos rfl]
      exact List.mem_append_right _ (List.mem_singleton_self _)
  · exact (hout.shut tile (chanKey set elem i)).trans (hshut _ _ (.inr ⟨i, hi, rfl⟩))
  · refine (hout.entries u key).trans ?_
    rw [hstands u key hin, flatMap_addOut (fun _ => [sideEntry 6 (cairnPayload g)]) (cairnOuts_nodup s tile set elem im) ho
      ((hmoved.toQuiet.outTarget ..).trans htarget) fun x hx hne => by rw [hmoved.toQuiet.outTarget]; exact hother x hx hne]
    rfl

end Sys2Proof
end

section

namespace Sys2Proof

open Sys2Proof.Machine Sys2Proof.Claim

/-! ## Stage 1 and the statuses of inputs (R56 to R59, R66, R71, R72, R115, R326) -/

theorem inState_putIn_same (e : Elem) (i : Nat) (v : InState) : inState (putIn e i v) i = v := Tab.get_set_same ..

theorem inState_putIn_other (e : Elem) {i j : Nat} (v : InState) (h : j ≠ i) : inState (putIn e i v) j = inState e j := Tab.get_set_other _ _ _ h

/-! ### An entry that leaves its channel (R66, R116) -/

/-- The reactions with an entry kept for the youngest of them (R116). -/
def keepEntry (i : Nat) (x : Entry) (l : List Reaction) : List Reaction :=
  match l.reverse with
  | r :: older => older.reverse ++ [{ r with took := Tab.set r.took i (Tab.get [] r.took i ++ [x]) }]
  | [] => []

section

variable {s : State} {tile set elem i : Nat} {x : Entry} {rest : List Entry}

theorem takeHead_none (im : Image) (hq : (chanOf (getTile s tile) (chanKey set elem i)).q = []) : takeHead s tile set elem im i = s := by
  unfold takeHead
  simp only [hq]

variable (hq : (chanOf (getTile s tile) (chanKey set elem i)).q = x :: rest)

include hq

/-- The head leaves its channel, the youngest reaction keeps it, and regions may note it. -/
theorem regionsMoved_takeHead (im : Image) :
    RegionsMoved (modElem (popEntry s tile (chanKey set elem i)) tile set elem fun e => { e with rxs := keepEntry i x e.rxs })
      (takeHead s tile set elem im i) := by
  unfold takeHead
  simp only [hq]
  split
  · split
    · split
      · exact regionsMoved_noteMove ..
      · exact .refl _
    · exact .refl _
  · exact .refl _

theorem quiet_takeHead (im : Image) : Quiet s (takeHead s tile set elem im i) :=
  (chansMoved_popEntry ..).toQuiet.trans ((quiet_modElem ..).trans (regionsMoved_takeHead hq im).toQuiet)

theorem elemOfSet_takeHead (im : Image) :
    elemOfSet (getSet (takeHead s tile set elem im i) tile set) elem =
      { elemOfSet (getSet s tile set) elem with rxs := keepEntry i x (elemOfSet (getSet s tile set) elem).rxs } := by
  rw [(regionsMoved_takeHead hq im).elemOfSet, elemOfSet_modElem_of_chansMoved (chansMoved_popEntry ..)]

theorem chanOf_takeHead (im : Image) (k : Nat) :
    chanOf (getTile (takeHead s tile set elem im i) tile) k =
      if k = chanKey set elem i then { chanOf (getTile s tile) k with q := (chanOf (getTile s tile) k).q.tail } else chanOf (getTile s tile) k := by
  rw [(regionsMoved_takeHead hq im).chanOf, chanOf_modElem, chanOf_popEntry]
  exact if_congr (and_iff_right rfl) rfl rfl

/-- An entry taken from a channel into its input. -/
theorem intake_holds (im : Image) (v : InState) :
    let t := modElem (takeHead s tile set elem im i) tile set elem fun y => putIn y i v
    t.mem = s.mem ∧ inState (elemOfSet (getSet t tile set) elem) i = v ∧ (chanOf (getTile t tile) (chanKey set elem i)).q = rest := by
  refine ⟨(quiet_modElem ..).mem.trans (quiet_takeHead hq im).mem, ?_, ?_⟩
  · rw [elemOfSet_modElem_same, inState_putIn_same]
  · rw [chanOf_modElem, chanOf_takeHead hq, if_pos rfl, hq]
    rfl

end

/-- A change of an element leaves memory and channels. -/
theorem change_holds (s : State) (tile set elem k : Nat) (f : Elem → Elem) :
    let t := modElem s tile set elem f
    t.mem = s.mem ∧ elemOfSet (getSet t tile set) elem = f (elemOfSet (getSet s tile set) elem) ∧
      chanOf (getTile t tile) k = chanOf (getTile s tile) k :=
  ⟨(quiet_modElem ..).mem, elemOfSet_modElem_same .., chanOf_modElem ..⟩

/-! ### What stage 1 does with the head of a channel (R66, R71, R72) -/

/-- An input whose entry has been consumed knows no status (R57, R72, R76). -/
theorem consumeIn_known (im : Image) (i : Nat) (v : InState) (k : Nat) :
    (consumeIn im i v (some k)).seen = false ∧ (consumeIn im i v (some k)).taken = none := by
  unfold consumeIn afterItem
  dsimp only
  split
  · split <;> exact ⟨rfl, rfl⟩
  · exact ⟨rfl, rfl⟩

/-- An input from which an instant entry has been drained (R57, R72, R76). -/
def drainedIn (im : Image) (i : Nat) (v : InState) (k : Nat) : InState :=
  { consumeIn im i v (some k) with drain := v.drain - 1, cnt := v.cnt + 1 }

theorem drainedIn_holds (im : Image) (i : Nat) (v : InState) (k : Nat) :
    (drainedIn im i v k).drain = v.drain - 1 ∧ (drainedIn im i v k).seen = false ∧ (drainedIn im i v k).taken = none ∧
      (drainedIn im i v k).cnt = v.cnt + 1 := by
  obtain ⟨hseen, htaken⟩ := consumeIn_known im i v k
  exact ⟨rfl, hseen, htaken, rfl⟩

section

variable {s : State} {tile set elem i : Nat} {x : Entry} {later : List Entry} (im : Image)
  (harr : arrivedIn s.dcc (chanOf (getTile s tile) (chanKey set elem i)) = x :: later)

include harr

theorem chanResolve_behind_end {y : Entry} {more : List Entry} (hl : later = y :: more)
    (hend : (inState (elemOfSet (getSet s tile set) elem) i).ended = true) (hbad : entryGood y = false ∨ y.kind.toNat < 4) :
    chanResolve s tile set elem im i = stage1Fault s tile set elem 5 i ((inState (elemOfSet (getSet s tile set) elem) i).cnt + 1) := by
  have hy : (!entryGood y || isInstant y) = true := by
    unfold isInstant
    rcases hbad with h | h <;> simp [h]
  unfold chanResolve
  simp only [harr, hl, hend, hy, if_true]

variable (hend : (inState (elemOfSet (getSet s tile set) elem) i).ended = false)

include hend

theorem chanResolve_bad (hbad : entryGood x = false) :
    chanResolve s tile set elem im i = stage1Fault s tile set elem 5 i (inState (elemOfSet (getSet s tile set) elem) i).cnt := by
  unfold chanResolve
  simp only [harr, hend, hbad, Bool.not_false, Bool.false_eq_true, if_false, if_true]

variable (hgood : entryGood x = true)

include hgood

theorem chanResolve_cairn (hk : x.kind = 6) : chanResolve s tile set elem im i = modElem s tile set elem fun y => cairnAt y i := by
  unfold chanResolve
  simp only [harr, hend, hgood, hk, Bool.not_true, Bool.false_eq_true, if_false, if_true]

theorem chanResolve_instant (hk : x.kind.toNat < 4) :
    chanResolve s tile set elem im i =
      if 0 < (inState (elemOfSet (getSet s tile set) elem) i).drain ∧ x.kind ≠ 2 then
        modElem (takeHead s tile set elem im i) tile set elem fun y =>
          putIn y i (drainedIn im i (inState (elemOfSet (getSet s tile set) elem) i) x.kind.toNat)
      else modElem s tile set elem fun y =>
        putIn y i { inState (elemOfSet (getSet s tile set) elem) i with taken := some (statusStep s tile) } := by
  have h6 : x.kind ≠ 6 := fun h => by simp [h] at hk
  have hi : isInstant x = true := decide_eq_true hk
  unfold chanResolve
  simp only [harr, hend, hgood, h6, hi, Bool.not_true, Bool.false_eq_true, if_false, if_true, Bool.and_eq_true, decide_eq_true_eq, bne_iff_ne]
  rfl

theorem chanResolve_side (hk : 4 ≤ x.kind.toNat) (h6 : x.kind ≠ 6) :
    chanResolve s tile set elem im i =
      ((sideEffect (inState (elemOfSet (getSet s tile set) elem) i) x).map fun v =>
        modElem (takeHead s tile set elem im i) tile set elem fun y => putIn y i v).getD
      (stage1Fault s tile set elem 6 i (inState (elemOfSet (getSet s tile set) elem) i).cnt) := by
  have hi : isInstant x = false := decide_eq_false (by omega)
  unfold chanResolve
  simp only [harr, hend, hgood, h6, hi, Bool.not_true, Bool.false_eq_true, if_false]
  cases sideEffect (inState (elemOfSet (getSet s tile set) elem) i) x <;> rfl

end

/-! ### A fault of stage 1 (R71, R115) -/

/-- The fields of the fault word of a fault without a trigger. -/
theorem faultWord_input (cause elem inp : Nat) (stg1 fin : Bool) :
    let w := faultWord cause elem 0 0 0 inp stg1 fin 0 0 0
    w.extractLsb' 60 4 = BitVec.ofNat 4 cause ∧ w.extractLsb' 55 5 = BitVec.ofNat 5 elem ∧ w.extractLsb' 45 3 = BitVec.ofNat 3 inp ∧
      w.getLsbD 44 = stg1 ∧ w.getLsbD 43 = fin := by
  intro w
  have hbit : ∀ n, w.getLsbD n = (w.extractLsb' n 1).getLsbD 0 := fun n => by simp
  rw [hbit, hbit]
  unfold w faultWord flagAt
  refine ⟨extract_ofNat _ _ _ ?_, extract_ofNat _ _ _ ?_, extract_ofNat _ _ _ ?_, ?_, ?_⟩
  case refine_4 =>
    rw [extract_ofNat _ _ _ (v := if stg1 then 1 else 0)]
    · cases stg1 <;> rfl
    · split <;> split <;> omega
  case refine_5 =>
    rw [extract_ofNat _ _ _ (v := if fin then 1 else 0)]
    · cases fin <;> rfl
    · split <;> split <;> omega
  all_goals split <;> split <;> omega

theorem stage1Faults_of_exec {s : State} {tile elem inp cause inst : Nat} (hnone : (elemOfSet (actSet s tile) elem).fault = none)
    (h : exec (.entryArrival tile elem inp) s = .next (stage1Fault s tile (getTile s tile).active elem cause inp inst)) :
    Stage1Faults s tile elem inp cause inst := by
  obtain ⟨hcause, helem, hinp, hstg, -⟩ := faultWord_input cause elem inp true false
  obtain ⟨f, hf⟩ : ∃ f : ElemFault, f = ⟨faultWord cause elem 0 0 0 inp true false 0 0 0, BitVec.ofNat 64 (inst % 2 ^ 32), 0, true, inp⟩ := ⟨_, rfl⟩
  have hraise : stage1Fault s tile (getTile s tile).active elem cause inp inst = raiseTrap (modElem s tile (getTile s tile).active elem
      fun y => { y with fault := some f }) tile (getTile s tile).active
      (unitRec 0x14 2 0 ((slotOfElem (actSet s tile) elem).getD 0) 0 0 f.w0 f.w1) := by
    unfold actSet at hnone
    unfold stage1Fault
    rw [hnone, Option.isSome_none, if_neg Bool.false_ne_true, ← hf]
    exact faultElem_eq f rfl
  obtain ⟨-, hel, hch⟩ := change_holds s tile (getTile s tile).active elem (chanKey (getTile s tile).active elem inp) fun y => { y with fault := some f }
  refine ⟨_, f, h.trans (congrArg _ hraise), by rw [hel], ?_⟩
  subst hf
  exact ⟨rfl, rfl, hcause, helem, hinp, hstg, rfl, hch⟩

/-! ### ENTRY_ARRIVAL (R66) -/

section

variable {s : State} {tile elem inp : Nat} {x : Entry} {rest : List Entry} (h : AtInput s tile elem inp x rest)

include h

theorem exec_entryArrival :
    exec (.entryArrival tile elem inp) s =
      .next (chanResolve s tile (getTile s tile).active elem (imageNow s tile (getTile s tile).active elem) inp) := by
  obtain ⟨hmay, hdly, hseen, htaken, -, -⟩ := h
  unfold actSet at hseen htaken
  change execEntryArrival tile elem inp s = _
  unfold execEntryArrival
  simp only [hmay, hdly, hseen, htaken, Option.isSome_none, Bool.or_self, Bool.false_eq_true, if_false, if_true]

theorem exists_arrived : (chanOf (getTile s tile) (chanKey (getTile s tile).active elem inp)).q = x :: rest ∧
    ∃ later, arrivedIn s.dcc (chanOf (getTile s tile) (chanKey (getTile s tile).active elem inp)) = x :: later := by
  obtain ⟨-, -, -, -, hq, hhead⟩ := h
  exact ⟨hq, _, (List.cons_head?_tail hhead).symm⟩

/-- Behind an END anything but a side entry is an integrity fault (R71, R72). -/
theorem arrival_behind_end {y : Entry} (hnone : (elemOfSet (actSet s tile) elem).fault = none)
    (hend : (inState (elemOfSet (actSet s tile) elem) inp).ended = true)
    (hy : (arrivedIn s.dcc (chanOf (getTile s tile) (chanKey (getTile s tile).active elem inp)))[1]? = some y)
    (hbad : entryGood y = false ∨ y.kind.toNat < 4) :
    Stage1Faults s tile elem inp 5 ((inState (elemOfSet (actSet s tile) elem) inp).cnt + 1) := by
  obtain ⟨-, later, harr⟩ := exists_arrived h
  rw [harr, List.getElem?_cons_succ, ← List.head?_eq_getElem?] at hy
  exact stage1Faults_of_exec hnone ((exec_entryArrival h).trans
    (congrArg _ (chanResolve_behind_end _ harr (List.cons_head?_tail hy).symm hend hbad)))

variable (hend : (inState (elemOfSet (actSet s tile) elem) inp).ended = false)

include hend

/-- An entry whose check code fails, or of the reserved kind, is an integrity fault (R70, R71). -/
theorem arrival_bad (hnone : (elemOfSet (actSet s tile) elem).fault = none) (hbad : entryGood x = false) :
    Stage1Faults s tile elem inp 5 (inState (elemOfSet (actSet s tile) elem) inp).cnt := by
  obtain ⟨-, later, harr⟩ := exists_arrived h
  exact stage1Faults_of_exec hnone ((exec_entryArrival h).trans (congrArg _ (chanResolve_bad _ harr hend hbad)))

variable (hgood : entryGood x = true)

include hgood

/-- A side entry that may not come so is a header fault (R56, R58, R59). -/
theorem arrival_header_fault (hnone : (elemOfSet (actSet s tile) elem).fault = none)
    (hbad : x.kind = 4 ∧ headerOk (x.payload.toNat % 2 ^ 64) = false ∨ x.kind = 5 ∧ (inState (elemOfSet (actSet s tile) elem) inp).sm = 0) :
    Stage1Faults s tile elem inp 6 (inState (elemOfSet (actSet s tile) elem) inp).cnt := by
  obtain ⟨-, later, harr⟩ := exists_arrived h
  have hside : sideEffect (inState (elemOfSet (actSet s tile) elem) inp) x = none := by
    unfold sideEffect
    rcases hbad with ⟨hk, hp⟩ | ⟨hk, hp⟩
    · simp only [hk, hp, if_true, Bool.false_eq_true, if_false]
    · simp [hk, hp]
  have hk : 4 ≤ x.kind.toNat ∧ x.kind ≠ 6 := by
    rcases hbad with ⟨hk, -⟩ | ⟨hk, -⟩ <;> rw [hk] <;> decide
  unfold actSet at hside
  exact stage1Faults_of_exec hnone ((exec_entryArrival h).trans
    (congrArg _ ((chanResolve_side _ harr hend hgood hk.1 hk.2).trans (by rw [hside]; rfl))))

/-- The status of an instant entry is on its way to stage 2; the entry stands (R72, R82). -/
theorem arrival_taken (hk : x.kind.toNat < 2 ∧ (inState (elemOfSet (actSet s tile) elem) inp).drain = 0 ∨ x.kind = 2) :
    ∃ t, exec (.entryArrival tile elem inp) s = .next t ∧ t.mem = s.mem ∧
      inState (elemOfSet (getSet t tile (getTile s tile).active) elem) inp = { inState (elemOfSet (actSet s tile) elem) inp with
        taken := some (if halfWidth (getTile s tile) (tscOf s tile) then tscOf s tile + 2 else tscOf s tile + 1) } ∧
      (chanOf (getTile t tile) (chanKey (getTile s tile).active elem inp)).q = x :: rest := by
  obtain ⟨hq, later, harr⟩ := exists_arrived h
  have hlt : x.kind.toNat < 4 := by
    rcases hk with hk | hk
    · omega
    · simp [hk]
  have hstay : ¬(0 < (inState (elemOfSet (actSet s tile) elem) inp).drain ∧ x.kind ≠ 2) := by
    rcases hk with hk | hk
    · omega
    · simp [hk]
  obtain ⟨hmem, hel, hch⟩ := change_holds s tile (getTile s tile).active elem (chanKey (getTile s tile).active elem inp) fun y =>
    putIn y inp { inState (elemOfSet (actSet s tile) elem) inp with taken := some (statusStep s tile) }
  have hstep : statusStep s tile = if halfWidth (getTile s tile) (tscOf s tile) then tscOf s tile + 2 else tscOf s tile + 1 := by
    unfold statusStep
    split <;> rfl
  refine ⟨_, (exec_entryArrival h).trans (congrArg _ ((chanResolve_instant _ harr hend hgood hlt).trans (if_neg hstay))), hmem, ?_, ?_⟩
  · refine (congrArg (inState · inp) hel).trans ?_
    rw [inState_putIn_same, hstep]
  · exact (congrArg Chan.q hch).trans hq

/-- An entry that is to be drained leaves (R57, R76). -/
theorem arrival_drains (hk : x.kind.toNat < 2) (hd : 0 < (inState (elemOfSet (actSet s tile) elem) inp).drain) :
    ∃ t, exec (.entryArrival tile elem inp) s = .next t ∧ t.mem = s.mem ∧
      (let v := inState (elemOfSet (actSet s tile) elem) inp
       let w := inState (elemOfSet (getSet t tile (getTile s tile).active) elem) inp
       w.drain = v.drain - 1 ∧ w.seen = false ∧ w.taken = none ∧ w.cnt = v.cnt + 1) ∧
      (chanOf (getTile t tile) (chanKey (getTile s tile).active elem inp)).q = rest := by
  obtain ⟨hq, later, harr⟩ := exists_arrived h
  have hleaves : 0 < (inState (elemOfSet (actSet s tile) elem) inp).drain ∧ x.kind ≠ 2 := ⟨hd, fun e => by simp [e] at hk⟩
  obtain ⟨hmem, hin, hch⟩ := intake_holds hq (imageNow s tile (getTile s tile).active elem)
    (drainedIn (imageNow s tile (getTile s tile).active elem) inp (inState (elemOfSet (actSet s tile) elem) inp) x.kind.toNat)
  refine ⟨_, (exec_entryArrival h).trans (congrArg _ ((chanResolve_instant _ harr hend hgood (by omega)).trans (if_pos hleaves))), hmem, ?_, hch⟩
  have hd := drainedIn_holds (imageNow s tile (getTile s tile).active elem) inp (inState (elemOfSet (actSet s tile) elem) inp) x.kind.toNat
  rw [← hin] at hd
  exact hd

/-- A side entry has its effect and leaves (R56 to R58). -/
theorem arrival_side (hk : 4 ≤ x.kind.toNat) (h6 : x.kind ≠ 6) {w : InState}
    (hw : sideEffect (inState (elemOfSet (actSet s tile) elem) inp) x = some w) :
    ∃ t, exec (.entryArrival tile elem inp) s = .next t ∧ t.mem = s.mem ∧
      inState (elemOfSet (getSet t tile (getTile s tile).active) elem) inp = w ∧
      (chanOf (getTile t tile) (chanKey (getTile s tile).active elem inp)).q = rest := by
  obtain ⟨hq, later, harr⟩ := exists_arrived h
  unfold actSet at hw
  exact ⟨_, (exec_entryArrival h).trans (congrArg _ ((chanResolve_side _ harr hend hgood hk h6).trans (by rw [hw]; rfl))),
    intake_holds hq (imageNow s tile (getTile s tile).active elem) w⟩

/-- A CAIRN stands until the element writes its record (R326). -/
theorem arrival_cairn (hk : x.kind = 6) :
    ∃ t, exec (.entryArrival tile elem inp) s = .next t ∧ t.mem = s.mem ∧
      inState (elemOfSet (getSet t tile (getTile s tile).active) elem) inp = inState (elemOfSet (actSet s tile) elem) inp ∧
      inp ∈ (elemOfSet (getSet t tile (getTile s tile).active) elem).cairnIn ∧
      (chanOf (getTile t tile) (chanKey (getTile s tile).active elem inp)).q = x :: rest := by
  obtain ⟨hq, later, harr⟩ := exists_arrived h
  obtain ⟨hmem, hel, hch⟩ := change_holds s tile (getTile s tile).active elem (chanKey (getTile s tile).active elem inp) fun y => cairnAt y inp
  refine ⟨_, (exec_entryArrival h).trans (congrArg _ (chanResolve_cairn _ harr hend hgood hk)), hmem, ?_, ?_, ?_⟩
  · rw [hel]
    rfl
  · rw [hel, cairnAt]
    dsimp only
    split
    · rename_i hc
      exact List.contains_iff_mem.1 hc
    · exact List.mem_append_right _ (List.mem_singleton_self _)
  · rw [hch, hq]

end

/-! ### Statuses that reach stage 2 (R66, R72) -/

/-- What one step of a fold does to the component that it alone changes, the fold does. -/
theorem foldl_component {α β γ : Type} (comp : β → γ) (step : β → α → β) (F : γ → γ) {i : α} (hi : ∀ b, comp (step b i) = F (comp b))
    (hother : ∀ b j, j ≠ i → comp (step b j) = comp b) {l : List α} (hl : l.Nodup) (h : i ∈ l) (b : β) :
    comp (l.foldl step b) = F (comp b) := by
  obtain ⟨pre, post, rfl⟩ := List.append_of_mem h
  have hout : i ∉ pre ++ post := (List.nodup_cons.1 (List.nodup_middle.1 hl)).1
  have hkeep : ∀ (m : List α), i ∉ m → ∀ c, comp (m.foldl step c) = comp c := fun m hm c =>
    List.foldlRecOn m step (motive := fun d => comp d = comp c) rfl fun d hd x hx => (hother d x fun e => hm (e ▸ hx)).trans hd
  rw [List.foldl_append, List.foldl_cons, hkeep post (fun hp => hout (List.mem_append_right _ hp)), hi,
    hkeep pre fun hp => hout (List.mem_append_left _ hp)]

/-- An input when its status may have come to stage 2 (R72): it stands, or the input has ended. -/
def resolved (tsc : Nat) (v : InState) (head : Option Entry) : InState :=
  match v.taken with
  | some r =>
    if tsc < r then v
    else if head.map Entry.kind = some 2 then { v with taken := none, drain := 0, ended := true }
    else { v with taken := none, seen := true }
  | none => v

theorem resolveIn_eq (t : Tile) (set elem : Nat) (im : Image) (tsc : Nat) (e : Elem) (i : Nat) :
    inState (resolveIn t set elem im tsc e i) i = resolved tsc (inState e i) (headEntry t set elem im e i) := by
  have hhead : ((headEntry t set elem im e i).any fun x => x.kind == 2) = decide ((headEntry t set elem im e i).map Entry.kind = some 2) := by
    rw [Bool.eq_iff_iff]
    cases headEntry t set elem im e i <;> simp
  unfold resolveIn resolved
  dsimp only
  cases (inState e i).taken with
  | none => rfl
  | some r =>
    dsimp only
    rw [hhead]
    split
    · rfl
    · by_cases hk : (headEntry t set elem im e i).map Entry.kind = some 2
      · rw [decide_eq_true hk, if_pos rfl, if_pos hk, inState_putIn_same]
      · rw [decide_eq_false hk, if_neg Bool.false_ne_true, if_neg hk, inState_putIn_same]

theorem resolveIn_other (t : Tile) (set elem : Nat) (im : Image) (tsc : Nat) (e : Elem) {i j : Nat} (h : i ≠ j) :
    inState (resolveIn t set elem im tsc e j) i = inState e i := by
  unfold resolveIn
  dsimp only
  split
  · split
    · rfl
    · split <;> exact inState_putIn_other _ _ h
  · rfl

theorem headEntry_resolveIn (t : Tile) (set elem : Nat) (im : Image) (tsc : Nat) (e : Elem) (i j : Nat) :
    headEntry t set elem im (resolveIn t set elem im tsc e j) i = headEntry t set elem im e i := by
  obtain ⟨ins, h⟩ := resolveIn_inputs t set elem im tsc e j
  rw [h]
  rfl

theorem inState_resolveIns (t : Tile) (set elem : Nat) (im : Image) (tsc : Nat) (e : Elem) {i : Nat} (h : i ∈ connected im) :
    inState ((connected im).foldl (resolveIn t set elem im tsc) e) i = resolved tsc (inState e i) (headEntry t set elem im e i) :=
  congrArg Prod.fst (foldl_component (fun e => (inState e i, headEntry t set elem im e i)) (resolveIn t set elem im tsc)
    (fun p => (resolved tsc p.1 p.2, p.2)) (fun _ => Prod.ext (resolveIn_eq ..) (headEntry_resolveIn ..))
    (fun _ _ hj => Prod.ext (resolveIn_other _ _ _ _ _ _ hj.symm) (headEntry_resolveIn ..)) (connected_nodup im) h e)

/-- An element without reactions at a step: the statuses of its inputs reach stage 2. -/
theorem stageTurn_idle {s : State} {tile elem : Nat} (ha : Acts s tile) (hx : (elemOfSet (actSet s tile) elem).rxs = []) :
    stageTurn s tile elem = modElem s tile (getTile s tile).active elem fun e =>
      (connected (imageNow s tile (getTile s tile).active elem)).foldl
        (resolveIn (getTile s tile) (getTile s tile).active elem (imageNow s tile (getTile s tile).active elem) (tscOf s tile)) e := by
  obtain ⟨hedge, hrem⟩ := ha
  unfold stageTurn
  simp only [hedge, hrem, Bool.not_true, Bool.or_false, Bool.false_eq_true, if_false]
  refine List.foldlRecOn (List.range 5) _ (motive := fun t => t = _) rfl fun t ht n _ => ?_
  rw [ht]
  refine stageRx_absent ?_
  obtain ⟨ins, hins⟩ := foldl_resolveIn_inputs (getTile s tile) (getTile s tile).active elem (imageNow s tile (getTile s tile).active elem)
    (tscOf s tile) (connected (imageNow s tile (getTile s tile).active elem)) (elemOfSet (actSet s tile) elem)
  rw [elemOfSet_modElem_same, show elemOfSet (getSet s tile (getTile s tile).active) elem = elemOfSet (actSet s tile) elem from rfl, hins]
  exact (congrArg List.length hx).trans_le (Nat.zero_le _)

end Sys2Proof
end

section

namespace Sys2Proof

open Sys2Proof.Machine Sys2Proof.Claim

/-! ## Reactions that begin (R74 to R77, R80, R82, R110, R115) -/

/-! ### What the consumption of inputs leaves of an element (R76, R116) -/

/-- An element before and after its inputs are consumed: its instant and ports stand, and its youngest reaction may keep entries. -/
structure Consumes (e d : Elem) : Prop where
  inst  : d.inst = e.inst
  ports : d.ports = e.ports
  rxs   : ∀ pre r, e.rxs = pre ++ [r] → ∃ tk, d.rxs = pre ++ [{ r with took := tk }]

theorem Consumes.refl (e : Elem) : Consumes e e := ⟨rfl, rfl, fun _ r h => ⟨r.took, h⟩⟩

theorem Consumes.trans {e d c : Elem} (h : Consumes e d) (k : Consumes d c) : Consumes e c where
  inst  := k.inst.trans h.inst
  ports := k.ports.trans h.ports
  rxs   := fun pre r hr => by
    obtain ⟨tk, htk⟩ := h.rxs pre r hr
    obtain ⟨tk', htk'⟩ := k.rxs pre _ htk
    exact ⟨tk', htk'⟩

theorem keepEntry_append (i : Nat) (x : Entry) (pre : List Reaction) (r : Reaction) :
    keepEntry i x (pre ++ [r]) = pre ++ [{ r with took := Tab.set r.took i (Tab.get [] r.took i ++ [x]) }] := by
  unfold keepEntry
  rw [List.reverse_append]
  simp

/-- What an input of an element holds, and the entries of its channel. -/
def atInput (tile set elem i : Nat) (s : State) : InState × List Entry :=
  (inState (elemOfSet (getSet s tile set) elem) i, (chanOf (getTile s tile) (chanKey set elem i)).q)

theorem chanKey_ne (set elem : Nat) {i j : Nat} (h : i ≠ j) : chanKey set elem i ≠ chanKey set elem j := by
  unfold chanKey
  omega

/-- What holds when the head of a channel has left it. -/
theorem takeHead_holds (s : State) (tile set elem : Nat) (im : Image) (i : Nat) :
    let t := takeHead s tile set elem im i
    let e := elemOfSet (getSet s tile set) elem
    let d := elemOfSet (getSet t tile set) elem
    Quiet s t ∧ Consumes e d ∧ d.ins = e.ins ∧
      ∀ j, (chanOf (getTile t tile) (chanKey set elem j)).q =
        if j = i then (chanOf (getTile s tile) (chanKey set elem j)).q.tail else (chanOf (getTile s tile) (chanKey set elem j)).q := by
  intro t e d
  cases hq : (chanOf (getTile s tile) (chanKey set elem i)).q with
  | nil =>
    have ht : t = s := takeHead_none im hq
    have hd : d = e := by unfold d; rw [ht]
    rw [ht, hd]
    refine ⟨.refl s, .refl e, rfl, fun j => ?_⟩
    split
    next h => rw [h, hq]; rfl
    next => rfl
  | cons x rest =>
    have hd : d = { e with rxs := keepEntry i x e.rxs } := elemOfSet_takeHead hq im
    rw [hd]
    refine ⟨quiet_takeHead hq im, ⟨rfl, rfl, fun pre r hr => ⟨_, (congrArg (keepEntry i x) hr).trans (keepEntry_append ..)⟩⟩, rfl, fun j => ?_⟩
    rw [chanOf_takeHead hq]
    by_cases h : j = i
    · subst h
      rw [if_pos rfl, if_pos rfl]
    · rw [if_neg (chanKey_ne set elem h), if_neg h]

/-- An input whose entry has been consumed at stage 1 (R57, R76). -/
def takenIn (im : Image) (i : Nat) (v : InState) (k : Nat) : InState := { consumeIn im i v (some k) with cnt := v.cnt + 1 }

theorem takenIn_holds (im : Image) (i : Nat) (v : InState) (k : Nat) :
    (takenIn im i v k).seen = false ∧ (takenIn im i v k).taken = none ∧ (takenIn im i v k).cnt = v.cnt + 1 := by
  obtain ⟨hseen, htaken⟩ := consumeIn_known im i v k
  exact ⟨hseen, htaken, rfl⟩

/-- An input and its channel after the input is consumed for its element's instant (R72, R76): an entry at stage 1 leaves, another is to be
drained, END stays. -/
def consumedAt (im : Image) (i : Nat) (p : InState × List Entry) : InState × List Entry :=
  if p.1.ended = true then p
  else if (p.1.seen = true ∨ p.1.taken.isSome = true) ∧ p.1.drain = 0 then
    if p.2.head?.map Entry.kind = some 2 then p
    else (takenIn im i p.1 ((p.2.head?.map fun x => x.kind.toNat).getD 0), p.2.tail)
  else (consumeIn im i p.1 none, p.2)

theorem kind_is_end (o : Option Entry) : (o.map fun x => x.kind.toNat).getD 0 = 2 ↔ o.map Entry.kind = some 2 := by
  cases o with
  | none => simp
  | some x => exact ⟨fun h => congrArg some (BitVec.eq_of_toNat_eq h), fun h => congrArg BitVec.toNat (Option.some.inj h)⟩

section

variable (tile set elem : Nat) (im : Image) (s : State)

theorem atInput_modElem_other (f : Elem → Elem) {i : Nat} (h : ∀ e, inState (f e) i = inState e i) :
    atInput tile set elem i (modElem s tile set elem f) = atInput tile set elem i s := by
  unfold atInput
  rw [elemOfSet_modElem_same, h, chanOf_modElem]

theorem atInput_takeHead (i j : Nat) :
    atInput tile set elem j (takeHead s tile set elem im i) =
      ((atInput tile set elem j s).1, if j = i then (atInput tile set elem j s).2.tail else (atInput tile set elem j s).2) := by
  obtain ⟨-, -, hins, hq⟩ := takeHead_holds s tile set elem im i
  unfold atInput inState
  rw [hins, hq]

/-- The kind of the entry at the head of an input; 0 where there is none. -/
def headKind (i : Nat) : Nat :=
  ((headEntry (getTile s tile) set elem im (elemOfSet (getSet s tile set) elem) i).map fun x => x.kind.toNat).getD 0

/-- Consuming an input leaves the state, changes the element's input, or lets an entry leave its channel besides (R72, R76, R83). -/
theorem consumeInput_cases (i : Nat) :
    let v := inState (elemOfSet (getSet s tile set) elem) i
    consumeInput tile set elem im s i =
      if v.ended = true then s
      else if (v.seen = true ∨ v.taken.isSome = true) ∧ v.drain = 0 then
        if headKind tile set elem im s i = 2 then s
        else if inDly im i = true then modElem s tile set elem fun x =>
          { putIn x i (consumeIn im i v (some (headKind tile set elem im s i))) with lines := Tab.set x.lines (inDln im i) (lineOf x (inDln im i)).tail }
        else takeHead (modElem s tile set elem fun x => putIn x i (takenIn im i v (headKind tile set elem im s i))) tile set elem im i
      else modElem s tile set elem fun x => putIn x i (consumeIn im i v none) := by
  unfold consumeInput
  simp only [Bool.and_eq_true, Bool.or_eq_true, decide_eq_true_eq]
  rfl

/-- A change of input `j` of an element. -/
theorem inputChanged_keeps {f : Elem → Elem} {j : Nat} (hc : ∀ e, Consumes e (f e)) (hi : ∀ e i, i ≠ j → inState (f e) i = inState e i) :
    let t := modElem s tile set elem f
    Quiet s t ∧ Consumes (elemOfSet (getSet s tile set) elem) (elemOfSet (getSet t tile set) elem) ∧
      ∀ i, i ≠ j → atInput tile set elem i t = atInput tile set elem i s :=
  ⟨quiet_modElem .., (elemOfSet_modElem_same s tile set elem f).symm ▸ hc _, fun i h => atInput_modElem_other _ _ _ _ _ fun e => hi e i h⟩

theorem consumes_putIn (i : Nat) (v : InState) (e : Elem) : Consumes e (putIn e i v) := ⟨rfl, rfl, fun _ r h => ⟨r.took, h⟩⟩

/-- Consuming one input leaves the others and all that lies outside the element and its channel. -/
theorem consumeInput_keeps (j : Nat) :
    let t := consumeInput tile set elem im s j
    Quiet s t ∧ Consumes (elemOfSet (getSet s tile set) elem) (elemOfSet (getSet t tile set) elem) ∧
      ∀ i, i ≠ j → atInput tile set elem i t = atInput tile set elem i s := by
  have hself : Quiet s s ∧ Consumes (elemOfSet (getSet s tile set) elem) (elemOfSet (getSet s tile set) elem) ∧
      ∀ i, i ≠ j → atInput tile set elem i s = atInput tile set elem i s := ⟨.refl s, .refl _, fun _ _ => rfl⟩
  rw [consumeInput_cases]
  dsimp only
  split_ifs
  · exact hself
  · exact hself
  · exact inputChanged_keeps _ _ _ _ (fun _ => ⟨rfl, rfl, fun _ r h => ⟨r.took, h⟩⟩) fun e i h => inState_putIn_other e _ h
  · obtain ⟨hquiet, hcons, hat⟩ := inputChanged_keeps tile set elem s (consumes_putIn j (takenIn im j
      (inState (elemOfSet (getSet s tile set) elem) j) (headKind tile set elem im s j))) fun e i h => inState_putIn_other e _ h
    obtain ⟨hquiet', hcons', -, -⟩ := takeHead_holds (modElem s tile set elem fun x => putIn x j (takenIn im j
      (inState (elemOfSet (getSet s tile set) elem) j) (headKind tile set elem im s j))) tile set elem im j
    refine ⟨hquiet.trans hquiet', hcons.trans hcons', fun i h => ?_⟩
    rw [atInput_takeHead, if_neg h]
    exact hat i h
  · exact inputChanged_keeps _ _ _ _ (consumes_putIn j _) fun e i h => inState_putIn_other e _ h

/-- An input that no delay line stands in front of, consumed (R72, R76). -/
theorem atInput_consumeInput {i : Nat} (hd : inDly im i = false) :
    atInput tile set elem i (consumeInput tile set elem im s i) = consumedAt im i (atInput tile set elem i s) := by
  have hkind : headKind tile set elem im s i = ((atInput tile set elem i s).2.head?.map fun x => x.kind.toNat).getD 0 := by
    unfold headKind headEntry
    rw [hd]
    rfl
  have hput : ∀ v, atInput tile set elem i (modElem s tile set elem fun x => putIn x i v) = (v, (atInput tile set elem i s).2) := fun v => by
    unfold atInput
    rw [elemOfSet_modElem_same, inState_putIn_same, chanOf_modElem]
  rw [consumeInput_cases, hkind]
  unfold consumedAt
  simp only [kind_is_end, hd, Bool.false_eq_true, if_false]
  change atInput tile set elem i (if (atInput tile set elem i s).1.ended = true then s else if ((atInput tile set elem i s).1.seen = true ∨
    (atInput tile set elem i s).1.taken.isSome = true) ∧ (atInput tile set elem i s).1.drain = 0 then _ else _) = _
  split_ifs
  · rfl
  · rfl
  · rw [atInput_takeHead, hput, if_pos rfl]
    rfl
  · rw [hput]
    rfl

/-- The inputs of an element consumed for its instant (R76). -/
theorem consumeInputs_holds :
    let t := consumeInputs s tile set elem im
    Quiet s t ∧ Consumes (elemOfSet (getSet s tile set) elem) (elemOfSet (getSet t tile set) elem) ∧
      ∀ i ∈ connected im, inDly im i = false → atInput tile set elem i t = consumedAt im i (atInput tile set elem i s) := by
  refine ⟨?_, ?_, fun i hi hd => ?_⟩
  · exact List.foldlRecOn (connected im) _ (motive := Quiet s) (.refl s) fun t ht j _ => ht.trans (consumeInput_keeps tile set elem im t j).1
  · exact List.foldlRecOn (connected im) _ (motive := fun t => Consumes _ (elemOfSet (getSet t tile set) elem)) (.refl _)
      fun t ht j _ => ht.trans (consumeInput_keeps tile set elem im t j).2.1
  · exact foldl_component (atInput tile set elem i) (consumeInput tile set elem im) (consumedAt im i)
      (fun t => atInput_consumeInput tile set elem im t hd)
      (fun t j hj => (consumeInput_keeps tile set elem im t j).2.2 i hj.symm) (connected_nodup im) hi s

end

end Sys2Proof
end

section

namespace Sys2Proof

open Sys2Proof.Machine Sys2Proof.Claim

/-! ### A reaction in stage 2 (R75, R76, R82) -/

theorem find?_map_of_mem {α : Type} (f : Nat → α) {l : List Nat} {k : Nat} (h : k ∈ l) :
    Tab.find? (l.map fun i => (i, f i)) k = some (f k) := by
  induction l with
  | nil => cases h
  | cons i l ih =>
    rw [List.map_cons, Tab.find?]
    by_cases hk : k = i
    · rw [if_pos hk, hk]
    · rw [if_neg hk]
      exact ih ((List.mem_cons.1 h).resolve_left hk)

/-- The reaction that begins: it stands in stage 2 with the statuses and items of its inputs, which are then consumed. -/
theorem exists_beginReaction (s : State) (tile set elem : Nat) (im : Image) (kind : RxKind) (start : Nat) (done : Bool) :
    let e := elemOfSet (getSet s tile set) elem
    let st := inStatus (getTile s tile) set elem im e
    ∃ rx paid merge, beginReaction s tile set elem im kind start done =
        keepSlot (consumeInputs (modElem s tile set elem fun x => { x with rxs := x.rxs ++ [rx], inst := e.inst + 1, paid := paid })
          tile set elem im) tile set elem merge ∧
      rx.kind = kind ∧ rx.inst = e.inst ∧ rx.done = done ∧ rx.bundle = 0 ∧ rx.stage = 2 ∧ rx.since = tscOf s tile ∧
      rx.half = halfWidth (getTile s tile) (tscOf s tile) ∧ (∀ i < 8, rx.stat.getD i false = (st i == 1)) ∧
      ∀ i < 8, st i = 1 → Tab.get 0 rx.items i = ((headEntry (getTile s tile) set elem im e i).map Entry.payload).getD 0 := by
  refine ⟨_, _, _, rfl, rfl, rfl, rfl, rfl, rfl, rfl, rfl, fun i hi => ?_, fun i hi hst => ?_⟩
  · dsimp only
    rw [List.getD_eq_getElem?_getD, List.getElem?_map, List.getElem?_range hi]
    rfl
  · have hmem : i ∈ (List.range 8).filter fun i =>
        inStatus (getTile s tile) set elem im (elemOfSet (getSet s tile set) elem) i == 1 :=
      List.mem_filter.2 ⟨List.mem_range.2 hi, beq_iff_eq.2 hst⟩
    exact (congrArg (Option.getD · 0) (find?_map_of_mem (fun i =>
      ((headEntry (getTile s tile) set elem im (elemOfSet (getSet s tile set) elem) i).map Entry.payload).getD 0) hmem) :)

theorem chansMoved_keepSlot (s : State) (tile set elem : Nat) (m : Option Nat) : ChansMoved s (keepSlot s tile set elem m) := by
  unfold keepSlot
  split
  · exact chansMoved_modChan ..
  · exact .refl s

theorem atInput_keepSlot (s : State) (tile set elem : Nat) (m : Option Nat) (i : Nat) :
    atInput tile set elem i (keepSlot s tile set elem m) = atInput tile set elem i s := by
  unfold atInput
  rw [(chansMoved_keepSlot ..).elemOfSet]
  unfold keepSlot
  cases m with
  | none => rfl
  | some j =>
    dsimp only
    rw [chanOf_modChan]
    split <;> rfl

/-- What consumption leaves of an input and its channel, in the words of the statement (R72, R76). -/
theorem consumedAt_holds (im : Image) (i : Nat) (p : InState × List Entry) :
    let v := p.1
    let w := (consumedAt im i p).1
    let q' := (consumedAt im i p).2
    if v.ended then q' = p.2
    else if (v.seen = true ∨ v.taken.isSome = true) ∧ v.drain = 0 then
      (p.2.head?.map Entry.kind = some 2 → q' = p.2) ∧
      (p.2.head?.map Entry.kind ≠ some 2 → q' = p.2.tail ∧ w.seen = false ∧ w.taken = none ∧ w.cnt = v.cnt + 1)
    else q' = p.2 ∧ w.drain = v.drain + 1 := by
  intro v w q'
  unfold w q' consumedAt
  split_ifs with hend hat hkind
  · rfl
  · exact ⟨fun _ => rfl, fun h => absurd hkind h⟩
  · exact ⟨fun h => absurd h hkind, fun _ => ⟨rfl, takenIn_holds ..⟩⟩
  · exact ⟨rfl, congrArg InState.drain (if_neg hend)⟩

section

variable (s : State) (tile elem : Nat) (kind : RxKind) (start : Nat) (done : Bool)

/-- A reaction begins (R75, R76, R82); what lies outside its element and the collar stands. -/
theorem beginReaction_begins :
    let t := beginReaction s tile (getTile s tile).active elem (imageNow s tile (getTile s tile).active elem) kind start done
    ReactionBegins s t tile elem kind done ∧ Quiet s t := by
  obtain ⟨rx, paid, merge, ht, hkind, hinst, hdone, hbundle, hstage, hsince, hhalf, hstat, hitems⟩ :=
    exists_beginReaction s tile (getTile s tile).active elem (imageNow s tile (getTile s tile).active elem) kind start done
  obtain ⟨f, hf⟩ : ∃ f : Elem → Elem, f = fun x =>
    { x with rxs := x.rxs ++ [rx], inst := (elemOfSet (getSet s tile (getTile s tile).active) elem).inst + 1, paid := paid } := ⟨_, rfl⟩
  rw [← hf] at ht
  rw [ht]
  obtain ⟨hquiet, hcons, hat⟩ := consumeInputs_holds tile (getTile s tile).active elem (imageNow s tile (getTile s tile).active elem)
    (modElem s tile (getTile s tile).active elem f)
  have hbefore : ∀ i, atInput tile (getTile s tile).active elem i (modElem s tile (getTile s tile).active elem f) =
      atInput tile (getTile s tile).active elem i s := fun i => atInput_modElem_other _ _ _ _ _ fun e => by rw [hf]; rfl
  rw [elemOfSet_modElem_same] at hcons
  obtain ⟨tk, hrxs⟩ := hcons.rxs (elemOfSet (actSet s tile) elem).rxs rx (by rw [hf]; rfl)
  refine ⟨?_, (quiet_modElem ..).trans (hquiet.trans (chansMoved_keepSlot ..).toQuiet)⟩
  unfold ReactionBegins
  dsimp only
  rw [(chansMoved_keepSlot ..).elemOfSet]
  refine ⟨_, hrxs, hkind, hinst, hdone, hbundle, hstage, hsince, hhalf, hcons.inst.trans (by rw [hf]; rfl), hcons.ports.trans (by rw [hf]; rfl),
    hstat, fun i hi hd => ?_⟩
  have hin := (hat i hi hd).trans (congrArg (consumedAt _ i) (hbefore i))
  have hq := (congrArg Prod.snd (atInput_keepSlot _ tile (getTile s tile).active elem merge i)).trans (congrArg Prod.snd hin)
  have hw := congrArg Prod.fst hin
  have hheld := consumedAt_holds (imageNow s tile (getTile s tile).active elem) i (atInput tile (getTile s tile).active elem i s)
  unfold atInput at hq hw hheld
  dsimp only at hq hw hheld
  rw [hq, hw]
  unfold actSet
  split_ifs at hheld ⊢ with hend hone
  · exact hheld
  · obtain ⟨hstay, hgo⟩ := hheld
    refine ⟨hstay, fun hne => ?_⟩
    obtain ⟨htail, hseen, htaken, hcnt⟩ := hgo hne
    refine ⟨htail, hseen, htaken, hcnt, fun x hx hs => ?_⟩
    have hst := (hstat i (lt_of_connected hi)).symm.trans hs
    have hhead : headEntry (getTile s tile) (getTile s tile).active elem (imageNow s tile (getTile s tile).active elem)
        (elemOfSet (getSet s tile (getTile s tile).active) elem) i = some x := (if_neg (by rw [hd]; exact Bool.false_ne_true)).trans hx
    exact (hitems i (lt_of_connected hi) (beq_iff_eq.1 hst)).trans (by rw [hhead]; rfl)
  · exact hheld

end

/-! ### The quanta of a handler (R75, R395) -/

theorem getTile_meterAdd (s : State) (key q tile : Nat) : getTile (meterAdd s key q) tile = getTile s tile := rfl

theorem charge_tile (s : State) (tile q : Nat) :
    getTile (charge s tile q) tile = putTileSet { getTile s tile with pool := (getTile s tile).pool - q } (getTile s tile).active
      { activeSet (getTile s tile) with charged := (activeSet (getTile s tile)).charged + q, energy := (activeSet (getTile s tile)).energy + q } := by
  unfold charge
  split
  · exact (getTile_meterAdd ..).trans (getTile_modTile_same ..)
  · exact getTile_modTile_same ..

theorem charge_pool (s : State) (tile q : Nat) : (getTile (charge s tile q) tile).pool = (getTile s tile).pool - q := by
  rw [charge_tile, putTileSet_pool]

theorem charge_chans (s : State) (tile q : Nat) : (getTile (charge s tile q) tile).chans = (getTile s tile).chans := by
  rw [charge_tile]
  unfold putTileSet
  split <;> rfl

theorem charge_elems (s : State) (tile q set : Nat) : (getSet (charge s tile q) tile set).elems = (getSet s tile set).elems := by
  unfold getSet
  rw [charge_tile]
  unfold putTileSet activeSet tileSet
  by_cases ha : (getTile s tile).active = 0 <;> by_cases hs : set = 0 <;> simp [ha, hs]

/-- Charging leaves what a reaction's beginning is said of. -/
theorem ReactionBegins.charged {s t : State} {tile elem : Nat} {kind : RxKind} {done : Bool} (h : ReactionBegins s t tile elem kind done) (q : Nat) :
    ReactionBegins s (charge t tile q) tile elem kind done := by
  have hd : elemOfSet (getSet (charge t tile q) tile (getTile s tile).active) elem = elemOfSet (getSet t tile (getTile s tile).active) elem :=
    congrArg (Tab.get Elem.reset · elem) (charge_elems ..)
  have hc (k : Nat) : chanOf (getTile (charge t tile q) tile) k = chanOf (getTile t tile) k :=
    congrArg (Tab.get Chan.empty · k) (charge_chans ..)
  unfold ReactionBegins at *
  dsimp only at *
  rw [hd]
  simp only [hc]
  exact h

/-! ### The events of the selection (R74, R75, R77, R80, R110) -/

section

variable {s : State} {tile elem : Nat}

/-- HANDLER_FIRE by cases on its conditions (R75, R77). -/
theorem exec_handlerFire {h : Nat}
    (htop : topHandler (imageNow s tile (getTile s tile).active elem) (inStatus (getTile s tile) (getTile s tile).active elem
      (imageNow s tile (getTile s tile).active elem) (elemOfSet (actSet s tile) elem)) = some h) :
    let im := imageNow s tile (getTile s tile).active elem
    let e := elemOfSet (actSet s tile) elem
    let cost := if e.paid = some e.inst then 0 else hCost im h (getTile s tile).effL
    exec (.handlerFire tile elem) s =
      if maySelect s tile (getTile s tile).active elem = false ∨ mayDrain im e = false ∨ allEnded im e = true then .next s
      else if satisfied im (inStatus (getTile s tile) (getTile s tile).active elem im e) h = false ∨
          roomFor s tile (getTile s tile).active elem im (some h) = false ∨ canCharge s tile cost = false then .next s
      else if planeBad s tile (getTile s tile).active elem = true then .next (parityStop s tile (getTile s tile).active elem)
      else .next (charge (beginReaction s tile (getTile s tile).active elem im (.handler h) (hStart im h) false) tile cost) := by
  unfold actSet at *
  change execHandlerFire tile elem s = _
  unfold execHandlerFire costNow
  simp only [htop, Bool.or_eq_true, Bool.not_eq_true', or_assoc, beq_iff_eq]

theorem exec_defaultReaction :
    let im := imageNow s tile (getTile s tile).active elem
    let e := elemOfSet (actSet s tile) elem
    let st := inStatus (getTile s tile) (getTile s tile).active elem im e
    maySelect s tile (getTile s tile).active elem = true → planeBad s tile (getTile s tile).active elem = false →
    allEnded im e = false → (∀ i ∈ connected im, st i ≠ 0) → topHandler im st = none → roomFor s tile (getTile s tile).active elem im none = true →
    exec (.defaultReaction tile elem) s = .next (beginReaction s tile (getTile s tile).active elem im .dflt 0 true) := by
  intro im e st hmay hplane hend hall htop hroom
  have hres : allResolved (getTile s tile) (getTile s tile).active elem im e = true :=
    List.all_eq_true.2 fun i hi => bne_iff_ne.2 (hall i hi)
  unfold st e im actSet at *
  change execDefaultReaction tile elem s = _
  unfold execDefaultReaction
  simp only [hmay, hplane, hend, hres, htop, hroom, Option.isNone_none, Bool.not_false, Bool.and_self, if_true, Bool.false_eq_true, if_false]

theorem exec_finishingReaction :
    let im := imageNow s tile (getTile s tile).active elem
    let e := elemOfSet (actSet s tile) elem
    maySelect s tile (getTile s tile).active elem = true → planeBad s tile (getTile s tile).active elem = false →
    allEnded im e = true → roomFor s tile (getTile s tile).active elem im none = true →
    exec (.finishingReaction tile elem) s =
      if holdsItems (getTile s tile) (getTile s tile).active elem = true then
        .next (faultElem (beginReaction s tile (getTile s tile).active elem im .finishing 0 false) tile (getTile s tile).active elem
          ⟨faultWord 8 elem 0 0 0 (heldInput (getTile s tile) (getTile s tile).active elem) false true 0 0 0, BitVec.ofNat 64 (e.inst % 2 ^ 32), 0, false, 0⟩)
      else .next (beginReaction s tile (getTile s tile).active elem im .finishing 0 true) := by
  intro im e hmay hplane hend hroom
  unfold e im actSet at *
  change execFinishingReaction tile elem s = _
  unfold execFinishingReaction
  simp only [hmay, hplane, hend, hroom, Bool.and_self, if_true, Bool.false_eq_true, if_false]

end

theorem holdsItems_iff (t : Tile) (set elem : Nat) : holdsItems t set elem = true ↔ ∃ i < 8, (chanOf t (chanKey set elem i)).held ≠ [] := by
  unfold holdsItems
  simp [List.any_eq_true]

/-- The lowest-numbered input that holds items (R115). -/
theorem heldInput_eq {t : Tile} {set elem i : Nat} (hi : i < 8) (h : (chanOf t (chanKey set elem i)).held ≠ [])
    (hlow : ∀ j < i, (chanOf t (chanKey set elem j)).held = []) : heldInput t set elem = i := by
  have hfind : ((List.range 8).find? fun i => !(chanOf t (chanKey set elem i)).held.isEmpty) = some i :=
    List.find?_range_eq_some.2 ⟨by simpa using h, List.mem_range.2 hi, fun j hj => by simp [hlow j hj]⟩
  rw [heldInput, hfind, Option.getD_some]

end Sys2Proof
end

section

namespace Sys2Proof

open Sys2Proof.Machine Sys2Proof.Claim

/-! ## The element events together (O52) -/

/-! ### Side entries (R56 to R59) -/

/-- Bits of a side entry's word, the low half of whose payload it is. -/
theorem bits_low64 (p : BitVec 512) {hi lo : Nat} (h : hi < 64) : bits (p.toNat % 2 ^ 64) hi lo = (p.extractLsb' lo (hi + 1 - lo)).toNat := by
  have hlow : p.toNat % 2 ^ 64 = (p.setWidth 64).toNat := (BitVec.toNat_setWidth ..).symm
  have hext : (p.setWidth 64).extractLsb' lo (hi + 1 - lo) = p.extractLsb' lo (hi + 1 - lo) := BitVec.eq_of_getLsbD_eq fun i hi' => by
    rw [BitVec.getLsbD_extractLsb', BitVec.getLsbD_extractLsb', BitVec.getLsbD_setWidth, decide_eq_true (by omega : lo + i < 64), Bool.true_and]
  rw [hlow, bits_eq_extractLsb', hext]

theorem sideEffect_header {v : InState} {x : Entry} (hk : x.kind = 4) (hok : headerOk (x.payload.toNat % 2 ^ 64) = true) :
    ∃ w, sideEffect v x = some w ∧ w.ty = (x.payload.extractLsb' 60 4).toNat ∧ w.sm = (x.payload.extractLsb' 58 2).toNat ∧
      w.len = (x.payload.extractLsb' 32 16).toNat ∧ w.seen = v.seen ∧ w.cnt = v.cnt := by
  unfold sideEffect
  rw [if_pos hk, if_pos hok]
  exact ⟨_, rfl, bits_low64 _ (by omega), bits_low64 _ (by omega), bits_low64 _ (by omega), rfl, rfl⟩

theorem sideEffect_scale {v : InState} {x : Entry} (hk : x.kind = 5) (hsm : v.sm ≠ 0) :
    sideEffect v x = some { v with codes := x.payload.setWidth 64, latched := true } := by
  have hcodes : BitVec.ofNat 64 (x.payload.toNat % 2 ^ 64) = x.payload.setWidth 64 :=
    BitVec.eq_of_toNat_eq (by rw [BitVec.toNat_ofNat, Nat.mod_mod, BitVec.toNat_setWidth])
  unfold sideEffect
  simp only [hk, hsm, hcodes, if_false, if_true, BitVec.reduceEq]

theorem sideEffect_switch {v : InState} {x : Entry} (hk : x.kind = 7) : sideEffect v x = some v := by
  unfold sideEffect
  simp [hk]

/-! ### Arrivals (R66) -/

/-- A well-formed entry that arrives, by its kind. -/
theorem arrival_holds {s : State} {tile elem inp : Nat} {x : Entry} {rest : List Entry} (h : AtInput s tile elem inp x rest)
    (hend : (inState (elemOfSet (actSet s tile) elem) inp).ended = false) (hgood : entryGood x = true)
    (hheader : x.kind = 4 → headerOk (x.payload.toNat % 2 ^ 64) = true)
    (hscale : x.kind = 5 → (inState (elemOfSet (actSet s tile) elem) inp).sm ≠ 0) :
    let set := (getTile s tile).active
    let v := inState (elemOfSet (actSet s tile) elem) inp
    ∃ t, exec (.entryArrival tile elem inp) s = .next t ∧ t.mem = s.mem ∧
      (let w := inState (elemOfSet (getSet t tile set) elem) inp
       let q := (chanOf (getTile t tile) (chanKey set elem inp)).q
       (x.kind.toNat < 2 ∧ v.drain = 0 ∨ x.kind = 2 →
         w = { v with taken := some (if halfWidth (getTile s tile) (tscOf s tile) then tscOf s tile + 2 else tscOf s tile + 1) } ∧ q = x :: rest) ∧
       (x.kind.toNat < 2 → 0 < v.drain → w.drain = v.drain - 1 ∧ w.seen = false ∧ w.taken = none ∧ w.cnt = v.cnt + 1 ∧ q = rest) ∧
       (x.kind = 4 → w.ty = (x.payload.extractLsb' 60 4).toNat ∧ w.sm = (x.payload.extractLsb' 58 2).toNat ∧ w.len = (x.payload.extractLsb' 32 16).toNat ∧
         w.seen = false ∧ w.cnt = v.cnt ∧ q = rest) ∧
       (x.kind = 5 → w = { v with codes := x.payload.setWidth 64, latched := true } ∧ q = rest) ∧
       (x.kind = 6 → w = v ∧ q = x :: rest ∧ inp ∈ (elemOfSet (getSet t tile set) elem).cairnIn) ∧
       (x.kind = 7 → w = v ∧ q = rest)) := by
  intro set v
  have hseen : v.seen = false := by
    obtain ⟨-, -, hseen, -⟩ := h
    exact hseen
  have h3 : x.kind ≠ 3 := fun e => by simp [entryGood, e] at hgood
  have hcases : x.kind.toNat < 2 ∨ x.kind = 2 ∨ x.kind = 4 ∨ x.kind = 5 ∨ x.kind = 6 ∨ x.kind = 7 := by
    revert h3
    generalize x.kind = k
    revert k
    decide
  rcases hcases with hk | hk | hk | hk | hk | hk
  · have hno : ∀ m : BitVec 3, 2 ≤ m.toNat → x.kind ≠ m := fun m hm e => by rw [e] at hk; omega
    rcases Nat.eq_zero_or_pos v.drain with hd | hd
    · obtain ⟨t, ht, hmem, hw, hq⟩ := arrival_taken h hend hgood (.inl ⟨hk, hd⟩)
      exact ⟨t, ht, hmem, fun _ => ⟨hw, hq⟩, fun _ h0 => absurd hd (Nat.ne_of_gt h0), fun e => absurd e (hno 4 (by decide)),
        fun e => absurd e (hno 5 (by decide)), fun e => absurd e (hno 6 (by decide)), fun e => absurd e (hno 7 (by decide))⟩
    · obtain ⟨t, ht, hmem, ⟨hdrain, hs, htk, hcnt⟩, hq⟩ := arrival_drains h hend hgood hk hd
      exact ⟨t, ht, hmem, fun e => e.elim (fun e => absurd e.2 (Nat.ne_of_gt hd)) fun e => absurd e (hno 2 (by decide)),
        fun _ _ => ⟨hdrain, hs, htk, hcnt, hq⟩, fun e => absurd e (hno 4 (by decide)), fun e => absurd e (hno 5 (by decide)),
        fun e => absurd e (hno 6 (by decide)), fun e => absurd e (hno 7 (by decide))⟩
  · obtain ⟨t, ht, hmem, hw, hq⟩ := arrival_taken h hend hgood (.inr hk)
    refine ⟨t, ht, hmem, fun _ => ⟨hw, hq⟩, ?_⟩
    simp [hk]
  · obtain ⟨w, hside, hty, hsm, hlen, hs, hcnt⟩ := sideEffect_header (v := v) hk (hheader hk)
    obtain ⟨t, ht, hmem, hw, hq⟩ := arrival_side h hend hgood (by simp [hk]) (by simp [hk]) hside
    refine ⟨t, ht, hmem, ?_⟩
    simp [hk, hw, hq, set, hty, hsm, hlen, hs, hseen, hcnt]
  · obtain ⟨t, ht, hmem, hw, hq⟩ := arrival_side h hend hgood (by simp [hk]) (by simp [hk]) (sideEffect_scale hk (hscale hk))
    refine ⟨t, ht, hmem, ?_⟩
    simp [hk, hw, hq, set, v]
  · obtain ⟨t, ht, hmem, hw, hmem', hq⟩ := arrival_cairn h hend hgood hk
    refine ⟨t, ht, hmem, ?_⟩
    simp [hk, hw, hq, hmem', set, v]
  · obtain ⟨t, ht, hmem, hw, hq⟩ := arrival_side h hend hgood (by simp [hk]) (by simp [hk]) (sideEffect_switch hk)
    refine ⟨t, ht, hmem, ?_⟩
    simp [hk, hw, hq, set, v]

/-! ### Statuses at a step (R66) -/

section

variable {s : State} {tile elem : Nat}

/-- At a step of an element without reactions, each status that is due reaches stage 2. -/
theorem stage_holds {rest : List Turn} (hb : s.boot ≠ .shutdown) (hag : s.agenda = .stage tile elem :: rest) (ha : Acts s tile)
    (hx : (elemOfSet (actSet s tile) elem).rxs = []) :
    ∃ t, step s = .next t ∧ ∀ i ∈ connected (imageNow s tile (getTile s tile).active elem),
      inState (elemOfSet (getSet t tile (getTile s tile).active) elem) i =
        resolved (tscOf s tile) (inState (elemOfSet (actSet s tile) elem) i)
          (headEntry (getTile s tile) (getTile s tile).active elem (imageNow s tile (getTile s tile).active elem) (elemOfSet (actSet s tile) elem) i) := by
  have hturn := stageTurn_idle (s := { s with agenda := rest }) ha hx
  refine ⟨_, step_over hag hb rfl, fun i hi => ?_⟩
  rw [hturn]
  exact (congrArg (inState · i) (elemOfSet_modElem_same ..)).trans (inState_resolveIns _ _ _ _ _ _ hi)

theorem resolved_holds (tsc : Nat) (v : InState) (head : Option Entry) :
    (v.taken = none → resolved tsc v head = v) ∧
    ∀ n, v.taken = some n → resolved tsc v head =
      if tsc < n then v
      else if head.map Entry.kind = some 2 then { v with taken := none, drain := 0, ended := true }
      else { v with taken := none, seen := true } := by
  unfold resolved
  exact ⟨fun h => by rw [h], fun n h => by rw [h]⟩

/-! ### The selection (R74 to R77, R80, R110, R115) -/

theorem handlerFire_holds {h : Nat} (hmay : maySelect s tile (getTile s tile).active elem = true)
    (hplane : planeBad s tile (getTile s tile).active elem = false) :
    let set := (getTile s tile).active
    let im := imageNow s tile set elem
    let e := elemOfSet (actSet s tile) elem
    let st := inStatus (getTile s tile) set elem im e
    let cost := if e.paid = some e.inst then 0 else hCost im h (getTile s tile).effL
    topHandler im st = some h →
    (allEnded im e = false → mayDrain im e = true → satisfied im st h = true → roomFor s tile set elem im (some h) = true → canCharge s tile cost = true →
      ∃ t, exec (.handlerFire tile elem) s = .next t ∧ ReactionBegins s t tile elem (.handler h) false ∧ (getTile t tile).pool = (getTile s tile).pool - cost) ∧
    ((satisfied im st h = false ∨ roomFor s tile set elem im (some h) = false ∨ canCharge s tile cost = false) → exec (.handlerFire tile elem) s = .next s) := by
  intro set im e st cost htop
  have hexec := exec_handlerFire htop
  refine ⟨fun hend hdrain hsat hroom hcharge => ?_, fun hno => ?_⟩
  · obtain ⟨hbegins, hquiet⟩ := beginReaction_begins s tile elem (.handler h) (hStart im h) false
    refine ⟨_, ?_, ReactionBegins.charged hbegins cost, (charge_pool ..).trans (congrArg (· - cost) (hquiet.pool tile))⟩
    have hready : ¬(maySelect s tile (getTile s tile).active elem = false ∨ mayDrain im e = false ∨ allEnded im e = true) := by
      simp [hmay, hdrain, hend]
    have hfires : ¬(satisfied im st h = false ∨ roomFor s tile set elem im (some h) = false ∨ canCharge s tile cost = false) := by
      simp [hsat, hroom, hcharge]
    exact hexec.trans ((if_neg hready).trans ((if_neg hfires).trans (if_neg (by rw [hplane]; exact Bool.false_ne_true))))
  · exact hexec.trans ((congrArg (ite _ _) (if_pos hno)).trans (ite_self _))

theorem finishing_holds (hmay : maySelect s tile (getTile s tile).active elem = true)
    (hplane : planeBad s tile (getTile s tile).active elem = false) :
    let set := (getTile s tile).active
    let im := imageNow s tile set elem
    allEnded im (elemOfSet (actSet s tile) elem) = true → roomFor s tile set elem im none = true →
    ((∀ i < 8, (chanOf (getTile s tile) (chanKey set elem i)).held = []) →
      ∃ t, exec (.finishingReaction tile elem) s = .next t ∧ ReactionBegins s t tile elem .finishing true) ∧
    (∀ i < 8, (chanOf (getTile s tile) (chanKey set elem i)).held ≠ [] → (∀ j < i, (chanOf (getTile s tile) (chanKey set elem j)).held = []) →
      ∃ u f, exec (.finishingReaction tile elem) s = .next (raiseTrap u tile set (unitRec 0x14 2 0 ((slotOfElem (getSet u tile set) elem).getD 0) 0 0 f.w0 f.w1)) ∧
        (elemOfSet (getSet u tile set) elem).fault = some f ∧ f.w0.extractLsb' 60 4 = 8 ∧ f.w0.getLsbD 43 = true ∧ f.w0.extractLsb' 45 3 = BitVec.ofNat 3 i) := by
  intro set im hend hroom
  have hexec := exec_finishingReaction hmay hplane hend hroom
  refine ⟨fun hnone => ?_, fun i hi hheld hlow => ?_⟩
  · have hno : ¬holdsItems (getTile s tile) set elem = true := fun h => by
      obtain ⟨i, hi, hne⟩ := (holdsItems_iff ..).1 h
      exact hne (hnone i hi)
    obtain ⟨hbegins, -⟩ := beginReaction_begins s tile elem .finishing 0 true
    exact ⟨_, hexec.trans (if_neg hno), hbegins⟩
  · have hholds : holdsItems (getTile s tile) set elem = true := (holdsItems_iff ..).2 ⟨i, hi, hheld⟩
    have hword := hexec.trans (if_pos hholds)
    rw [heldInput_eq hi hheld hlow] at hword
    obtain ⟨hcause, -, hinp, -, hfin⟩ := faultWord_input 8 elem i false true
    refine ⟨_, _, hword.trans (congrArg _ (faultElem_eq _ (regions_modElem _).symm)), ?_, hcause, hfin, hinp⟩
    rw [elemOfSet_modElem_same]

/-! ### SWITCH entries (R223) -/

theorem switchEntry_holds {out f pl : Nat} {p : Nat × BitVec 64}
    (hp : ((elemOfSet (actSet s tile) elem).swOwed.find? fun x => x.1 == out) = some p)
    (hsw : (elemOfSet (actSet s tile) elem).swTag = some (f, pl)) (hedge : edgeNow s tile = true) (hf : f ≤ (elemOfSet (actSet s tile) elem).emitted) :
    let set := (getTile s tile).active
    let im := imageOf (getTile s tile) elem (planeOf (actSet s tile) elem)
    1 ≤ outFree s tile set im elem out →
    ∃ t, exec (.switchEntryWrite tile elem out) s = .next t ∧
      (elemOfSet (getSet t tile set) elem).swOwed = (elemOfSet (actSet s tile) elem).swOwed.erase p ∧
      ∀ u key, outTarget s tile set im elem out = some (u, key) →
        entries (chanOf (getTile t u) key) = entries (chanOf (getTile s u) key) ++ [(7, p.2.setWidth 512)] := by
  intro set im hroom
  have hout := entriesAdded_writeOut s tile set elem im out [sideEntry 7 p.2]
  refine ⟨_, exec_switchEntryWrite hp hsw hedge hf hroom, ?_, fun u key ht => ?_⟩
  · rw [elemOfSet_modElem_of_chansMoved hout.toChansMoved]
    rfl
  · rw [chanOf_modElem, hout.entries, addOut, if_pos ht]
    rfl

end

/-- Settles O52: arrivals by the kind of the entry, statuses as they reach stage 2, the selection's three reactions, and what an element
writes to its outputs, each by what the event's parts do to the element and to its channels. The input that the finishing reaction's fault
names and the cost of an instant that was paid before are the model's readings (notes/assumptions/92.md, 93.md). -/
theorem elementEventsFollowTheSelectionRule : Obligations.ElementEventsFollowTheSelectionRule := by
  intro s tile elem
  refine ⟨fun inp x rest hat => ⟨arrival_holds hat, fun hnone hend => arrival_bad hat hend hnone,
      fun hnone hend hgood => arrival_header_fault hat hend hgood hnone, fun y hnone hend hy => arrival_behind_end hat hnone hend hy⟩,
    fun rest hb hag ha hx => ?statuses,
    fun hmay hplane => ⟨fun h => handlerFire_holds hmay hplane, fun hend hall htop hroom => ?default, finishing_holds hmay hplane⟩,
    fun rx younger hx hd hst hexd hs hf ha hsw hroom => ?emits,
    fun rx younger hx => exec_reactionEmit_early hx,
    fun out p f pl hp hsw hedge hf => switchEntry_holds hp hsw hedge hf,
    fun n g hg hr => ?records⟩
  case statuses =>
    obtain ⟨t, ht, hin⟩ := stage_holds hb hag ha hx
    refine ⟨t, ht, fun i hi => ?_⟩
    rw [hin i hi]
    exact resolved_holds ..
  case default =>
    obtain ⟨hbegins, hquiet⟩ := beginReaction_begins s tile elem .dflt 0 true
    exact ⟨_, exec_defaultReaction hmay hplane hend hall htop hroom, hbegins, hquiet.pool tile⟩
  case emits =>
    obtain ⟨hmem, hel, hentries⟩ := emission_holds (s := s) (tile := tile) (set := (getTile s tile).active) (elem := elem)
      (imageOf (getTile s tile) elem rx.plane) rx younger
    refine ⟨_, exec_reactionEmit hx hd hst hexd hs hf ha hsw hroom, hmem, ?_, hentries⟩
    rw [hel]
    exact ⟨rfl, rfl, rfl, rfl⟩
  case records =>
    obtain ⟨hlist, hshut, hout⟩ := recordElem_holds elem hg
    obtain ⟨hk, hident⟩ := cairnPayload_fields g
    exact ⟨_, exec_cairnRecord hg hr, hlist, hshut, fun o ho u key ht hother hin => ⟨_, hout o ho u key ht hother hin, hk, hident⟩⟩

end Sys2Proof
end
